-- ==== Sys2Proof/Word.lean ====
section
/-! DEFINITION. Words, the vehicle's named parts, and one container per kind of part: a record with one field
per part, read with `get`, replaced with `set`, and filled with `tab`. -/

namespace Sys2Proof

/-- One byte of a frame (R148). -/
abbrev Byte := BitVec 8
/-- A 16-bit word: an item value, an event value, a wrapping count. -/
abbrev Half := BitVec 16
/-- A 32-bit word: the travel counter, the push count, the millisecond count. -/
abbrev Word := BitVec 32
/-- A raw result of one conversion, 12 bits (R4). -/
abbrev Raw := BitVec 12
/-- A set of access classes: bit 0 DEMAND, 1 PASSENGER, 2 CALIBRATION, 3 SUPERVISION, 4 STATUS (R156). -/
abbrev ClassSet := BitVec 5
/-- A set of ports: bit 0 Port M, 1 Port B, 2 Port S (R164). -/
abbrev PortSet := BitVec 3
/-- A set of doors: bit 0 D1 to bit 4 D5 (R125, R127). -/
abbrev DoorMask := BitVec 5

/-- Names the eight levelling circuits C1 to C8 (00, vehicle frame of reference). -/
inductive Circuit where
  | c1 | c2 | c3 | c4 | c5 | c6 | c7 | c8
  deriving DecidableEq, Repr

/-- All of the eight levelling circuits C1 to C8 (00, vehicle frame of reference), in order. -/
def Circuit.all : List Circuit := [.c1, .c2, .c3, .c4, .c5, .c6, .c7, .c8]

/-- The number of the part, as its name has it (R150; R161 for event kinds). -/
def Circuit.num : Circuit → Nat
  | .c1 => 1
  | .c2 => 2
  | .c3 => 3
  | .c4 => 4
  | .c5 => 5
  | .c6 => 6
  | .c7 => 7
  | .c8 => 8

/-- The part with a given number, if there is one. -/
def Circuit.ofNum? : Nat → Option Circuit
  | 1 => some .c1
  | 2 => some .c2
  | 3 => some .c3
  | 4 => some .c4
  | 5 => some .c5
  | 6 => some .c6
  | 7 => some .c7
  | 8 => some .c8
  | _ => none

/-- One value for each of the eight levelling circuits C1 to C8 (00, vehicle frame of reference). -/
structure PerCircuit (α : Type) where
  c1 : α
  c2 : α
  c3 : α
  c4 : α
  c5 : α
  c6 : α
  c7 : α
  c8 : α
  deriving DecidableEq, Repr

/-- The value of one part. -/
def PerCircuit.get {α : Type} (v : PerCircuit α) : Circuit → α
  | .c1 => v.c1
  | .c2 => v.c2
  | .c3 => v.c3
  | .c4 => v.c4
  | .c5 => v.c5
  | .c6 => v.c6
  | .c7 => v.c7
  | .c8 => v.c8

/-- The container whose value at each part is the function's. -/
def PerCircuit.tab {α : Type} (f : Circuit → α) : PerCircuit α :=
  ⟨f .c1, f .c2, f .c3, f .c4, f .c5, f .c6, f .c7, f .c8⟩

/-- Replaces the value of one part. -/
def PerCircuit.set {α : Type} (v : PerCircuit α) (i : Circuit) (x : α) : PerCircuit α :=
  match i with
  | .c1 => { v with c1 := x }
  | .c2 => { v with c2 := x }
  | .c3 => { v with c3 := x }
  | .c4 => { v with c4 := x }
  | .c5 => { v with c5 := x }
  | .c6 => { v with c6 := x }
  | .c7 => { v with c7 := x }
  | .c8 => { v with c8 := x }

/-- The same value for every part. -/
def PerCircuit.fill {α : Type} (x : α) : PerCircuit α := .tab fun _ => x

/-- Applies a function to every part's value. -/
def PerCircuit.map {α β : Type} (f : α → β) (v : PerCircuit α) : PerCircuit β := .tab fun i => f (v.get i)

/-- Names the four axles A1 to A4 (00). -/
inductive Axle where
  | a1 | a2 | a3 | a4
  deriving DecidableEq, Repr

/-- All of the four axles A1 to A4 (00), in order. -/
def Axle.all : List Axle := [.a1, .a2, .a3, .a4]

/-- The number of the part, as its name has it (R150; R161 for event kinds). -/
def Axle.num : Axle → Nat
  | .a1 => 1
  | .a2 => 2
  | .a3 => 3
  | .a4 => 4

/-- The part with a given number, if there is one. -/
def Axle.ofNum? : Nat → Option Axle
  | 1 => some .a1
  | 2 => some .a2
  | 3 => some .a3
  | 4 => some .a4
  | _ => none

/-- One value for each of the four axles A1 to A4 (00). -/
structure PerAxle (α : Type) where
  a1 : α
  a2 : α
  a3 : α
  a4 : α
  deriving DecidableEq, Repr

/-- The value of one part. -/
def PerAxle.get {α : Type} (v : PerAxle α) : Axle → α
  | .a1 => v.a1
  | .a2 => v.a2
  | .a3 => v.a3
  | .a4 => v.a4

/-- The container whose value at each part is the function's. -/
def PerAxle.tab {α : Type} (f : Axle → α) : PerAxle α :=
  ⟨f .a1, f .a2, f .a3, f .a4⟩

/-- Replaces the value of one part. -/
def PerAxle.set {α : Type} (v : PerAxle α) (i : Axle) (x : α) : PerAxle α :=
  match i with
  | .a1 => { v with a1 := x }
  | .a2 => { v with a2 := x }
  | .a3 => { v with a3 := x }
  | .a4 => { v with a4 := x }

/-- The same value for every part. -/
def PerAxle.fill {α : Type} (x : α) : PerAxle α := .tab fun _ => x

/-- Applies a function to every part's value. -/
def PerAxle.map {α β : Type} (f : α → β) (v : PerAxle α) : PerAxle β := .tab fun i => f (v.get i)

/-- Names the two trailing axles A3 and A4, steered by the part (00). -/
inductive Trailing where
  | a3 | a4
  deriving DecidableEq, Repr

/-- All of the two trailing axles A3 and A4, steered by the part (00), in order. -/
def Trailing.all : List Trailing := [.a3, .a4]

/-- The number of the part, as its name has it (R150; R161 for event kinds). -/
def Trailing.num : Trailing → Nat
  | .a3 => 3
  | .a4 => 4

/-- The part with a given number, if there is one. -/
def Trailing.ofNum? : Nat → Option Trailing
  | 3 => some .a3
  | 4 => some .a4
  | _ => none

/-- One value for each of the two trailing axles A3 and A4, steered by the part (00). -/
structure PerTrailing (α : Type) where
  a3 : α
  a4 : α
  deriving DecidableEq, Repr

/-- The value of one part. -/
def PerTrailing.get {α : Type} (v : PerTrailing α) : Trailing → α
  | .a3 => v.a3
  | .a4 => v.a4

/-- The container whose value at each part is the function's. -/
def PerTrailing.tab {α : Type} (f : Trailing → α) : PerTrailing α :=
  ⟨f .a3, f .a4⟩

/-- Replaces the value of one part. -/
def PerTrailing.set {α : Type} (v : PerTrailing α) (i : Trailing) (x : α) : PerTrailing α :=
  match i with
  | .a3 => { v with a3 := x }
  | .a4 => { v with a4 := x }

/-- The same value for every part. -/
def PerTrailing.fill {α : Type} (x : α) : PerTrailing α := .tab fun _ => x

/-- Applies a function to every part's value. -/
def PerTrailing.map {α β : Type} (f : α → β) (v : PerTrailing α) : PerTrailing β := .tab fun i => f (v.get i)

/-- Names the joints J1 and J2 (00). -/
inductive Joint where
  | j1 | j2
  deriving DecidableEq, Repr

/-- All of the joints J1 and J2 (00), in order. -/
def Joint.all : List Joint := [.j1, .j2]

/-- The number of the part, as its name has it (R150; R161 for event kinds). -/
def Joint.num : Joint → Nat
  | .j1 => 1
  | .j2 => 2

/-- The part with a given number, if there is one. -/
def Joint.ofNum? : Nat → Option Joint
  | 1 => some .j1
  | 2 => some .j2
  | _ => none

/-- One value for each of the joints J1 and J2 (00). -/
structure PerJoint (α : Type) where
  j1 : α
  j2 : α
  deriving DecidableEq, Repr

/-- The value of one part. -/
def PerJoint.get {α : Type} (v : PerJoint α) : Joint → α
  | .j1 => v.j1
  | .j2 => v.j2

/-- The container whose value at each part is the function's. -/
def PerJoint.tab {α : Type} (f : Joint → α) : PerJoint α :=
  ⟨f .j1, f .j2⟩

/-- Replaces the value of one part. -/
def PerJoint.set {α : Type} (v : PerJoint α) (i : Joint) (x : α) : PerJoint α :=
  match i with
  | .j1 => { v with j1 := x }
  | .j2 => { v with j2 := x }

/-- The same value for every part. -/
def PerJoint.fill {α : Type} (x : α) : PerJoint α := .tab fun _ => x

/-- Applies a function to every part's value. -/
def PerJoint.map {α β : Type} (f : α → β) (v : PerJoint α) : PerJoint β := .tab fun i => f (v.get i)

/-- Names the passenger doors D1 to D5 (00). -/
inductive Door where
  | d1 | d2 | d3 | d4 | d5
  deriving DecidableEq, Repr

/-- All of the passenger doors D1 to D5 (00), in order. -/
def Door.all : List Door := [.d1, .d2, .d3, .d4, .d5]

/-- The number of the part, as its name has it (R150; R161 for event kinds). -/
def Door.num : Door → Nat
  | .d1 => 1
  | .d2 => 2
  | .d3 => 3
  | .d4 => 4
  | .d5 => 5

/-- The part with a given number, if there is one. -/
def Door.ofNum? : Nat → Option Door
  | 1 => some .d1
  | 2 => some .d2
  | 3 => some .d3
  | 4 => some .d4
  | 5 => some .d5
  | _ => none

/-- One value for each of the passenger doors D1 to D5 (00). -/
structure PerDoor (α : Type) where
  d1 : α
  d2 : α
  d3 : α
  d4 : α
  d5 : α
  deriving DecidableEq, Repr

/-- The value of one part. -/
def PerDoor.get {α : Type} (v : PerDoor α) : Door → α
  | .d1 => v.d1
  | .d2 => v.d2
  | .d3 => v.d3
  | .d4 => v.d4
  | .d5 => v.d5

/-- The container whose value at each part is the function's. -/
def PerDoor.tab {α : Type} (f : Door → α) : PerDoor α :=
  ⟨f .d1, f .d2, f .d3, f .d4, f .d5⟩

/-- Replaces the value of one part. -/
def PerDoor.set {α : Type} (v : PerDoor α) (i : Door) (x : α) : PerDoor α :=
  match i with
  | .d1 => { v with d1 := x }
  | .d2 => { v with d2 := x }
  | .d3 => { v with d3 := x }
  | .d4 => { v with d4 := x }
  | .d5 => { v with d5 := x }

/-- The same value for every part. -/
def PerDoor.fill {α : Type} (x : α) : PerDoor α := .tab fun _ => x

/-- Applies a function to every part's value. -/
def PerDoor.map {α β : Type} (f : α → β) (v : PerDoor α) : PerDoor β := .tab fun i => f (v.get i)

/-- Names the ports M, B and S (00, the three masters). -/
inductive Port where
  | m | b | s
  deriving DecidableEq, Repr

/-- All of the ports M, B and S (00, the three masters), in order. -/
def Port.all : List Port := [.m, .b, .s]

/-- The number of the part, as its name has it (R150; R161 for event kinds). -/
def Port.num : Port → Nat
  | .m => 0
  | .b => 1
  | .s => 2

/-- The part with a given number, if there is one. -/
def Port.ofNum? : Nat → Option Port
  | 0 => some .m
  | 1 => some .b
  | 2 => some .s
  | _ => none

/-- One value for each of the ports M, B and S (00, the three masters). -/
structure PerPort (α : Type) where
  m : α
  b : α
  s : α
  deriving DecidableEq, Repr

/-- The value of one part. -/
def PerPort.get {α : Type} (v : PerPort α) : Port → α
  | .m => v.m
  | .b => v.b
  | .s => v.s

/-- The container whose value at each part is the function's. -/
def PerPort.tab {α : Type} (f : Port → α) : PerPort α :=
  ⟨f .m, f .b, f .s⟩

/-- Replaces the value of one part. -/
def PerPort.set {α : Type} (v : PerPort α) (i : Port) (x : α) : PerPort α :=
  match i with
  | .m => { v with m := x }
  | .b => { v with b := x }
  | .s => { v with s := x }

/-- The same value for every part. -/
def PerPort.fill {α : Type} (x : α) : PerPort α := .tab fun _ => x

/-- Applies a function to every part's value. -/
def PerPort.map {α β : Type} (f : α → β) (v : PerPort α) : PerPort β := .tab fun i => f (v.get i)

/-- Names the three fill slots (R90). -/
inductive FillSlot where
  | f1 | f2 | f3
  deriving DecidableEq, Repr

/-- All of the three fill slots (R90), in order. -/
def FillSlot.all : List FillSlot := [.f1, .f2, .f3]

/-- The number of the part, as its name has it (R150; R161 for event kinds). -/
def FillSlot.num : FillSlot → Nat
  | .f1 => 1
  | .f2 => 2
  | .f3 => 3

/-- The part with a given number, if there is one. -/
def FillSlot.ofNum? : Nat → Option FillSlot
  | 1 => some .f1
  | 2 => some .f2
  | 3 => some .f3
  | _ => none

/-- One value for each of the three fill slots (R90). -/
structure PerSlot (α : Type) where
  f1 : α
  f2 : α
  f3 : α
  deriving DecidableEq, Repr

/-- The value of one part. -/
def PerSlot.get {α : Type} (v : PerSlot α) : FillSlot → α
  | .f1 => v.f1
  | .f2 => v.f2
  | .f3 => v.f3

/-- The container whose value at each part is the function's. -/
def PerSlot.tab {α : Type} (f : FillSlot → α) : PerSlot α :=
  ⟨f .f1, f .f2, f .f3⟩

/-- Replaces the value of one part. -/
def PerSlot.set {α : Type} (v : PerSlot α) (i : FillSlot) (x : α) : PerSlot α :=
  match i with
  | .f1 => { v with f1 := x }
  | .f2 => { v with f2 := x }
  | .f3 => { v with f3 := x }

/-- The same value for every part. -/
def PerSlot.fill {α : Type} (x : α) : PerSlot α := .tab fun _ => x

/-- Applies a function to every part's value. -/
def PerSlot.map {α β : Type} (f : α → β) (v : PerSlot α) : PerSlot β := .tab fun i => f (v.get i)

/-- Names the eight sectors of the calibration store (R166). -/
inductive SectorId where
  | s0 | s1 | s2 | s3 | s4 | s5 | s6 | s7
  deriving DecidableEq, Repr

/-- All of the eight sectors of the calibration store (R166), in order. -/
def SectorId.all : List SectorId := [.s0, .s1, .s2, .s3, .s4, .s5, .s6, .s7]

/-- The number of the part, as its name has it (R150; R161 for event kinds). -/
def SectorId.num : SectorId → Nat
  | .s0 => 0
  | .s1 => 1
  | .s2 => 2
  | .s3 => 3
  | .s4 => 4
  | .s5 => 5
  | .s6 => 6
  | .s7 => 7

/-- The part with a given number, if there is one. -/
def SectorId.ofNum? : Nat → Option SectorId
  | 0 => some .s0
  | 1 => some .s1
  | 2 => some .s2
  | 3 => some .s3
  | 4 => some .s4
  | 5 => some .s5
  | 6 => some .s6
  | 7 => some .s7
  | _ => none

/-- One value for each of the eight sectors of the calibration store (R166). -/
structure PerSector (α : Type) where
  s0 : α
  s1 : α
  s2 : α
  s3 : α
  s4 : α
  s5 : α
  s6 : α
  s7 : α
  deriving DecidableEq, Repr

/-- The value of one part. -/
def PerSector.get {α : Type} (v : PerSector α) : SectorId → α
  | .s0 => v.s0
  | .s1 => v.s1
  | .s2 => v.s2
  | .s3 => v.s3
  | .s4 => v.s4
  | .s5 => v.s5
  | .s6 => v.s6
  | .s7 => v.s7

/-- The container whose value at each part is the function's. -/
def PerSector.tab {α : Type} (f : SectorId → α) : PerSector α :=
  ⟨f .s0, f .s1, f .s2, f .s3, f .s4, f .s5, f .s6, f .s7⟩

/-- Replaces the value of one part. -/
def PerSector.set {α : Type} (v : PerSector α) (i : SectorId) (x : α) : PerSector α :=
  match i with
  | .s0 => { v with s0 := x }
  | .s1 => { v with s1 := x }
  | .s2 => { v with s2 := x }
  | .s3 => { v with s3 := x }
  | .s4 => { v with s4 := x }
  | .s5 => { v with s5 := x }
  | .s6 => { v with s6 := x }
  | .s7 => { v with s7 := x }

/-- The same value for every part. -/
def PerSector.fill {α : Type} (x : α) : PerSector α := .tab fun _ => x

/-- Applies a function to every part's value. -/
def PerSector.map {α β : Type} (f : α → β) (v : PerSector α) : PerSector β := .tab fun i => f (v.get i)

/-- Names the fifteen event kinds, in the order of their codes 1 to 15 (R161). -/
inductive EventKind where
  | doorState | doorRelease | doorEmergency | haltState | haltFault | kneelState | airLow | slowFill | jointState | sensorFault | path | demandStale | chainFault | standstill | movePermit
  deriving DecidableEq, Repr

/-- All of the fifteen event kinds, in the order of their codes 1 to 15 (R161), in order. -/
def EventKind.all : List EventKind := [.doorState, .doorRelease, .doorEmergency, .haltState, .haltFault, .kneelState, .airLow, .slowFill, .jointState, .sensorFault, .path, .demandStale, .chainFault, .standstill, .movePermit]

/-- The number of the part, as its name has it (R150; R161 for event kinds). -/
def EventKind.num : EventKind → Nat
  | .doorState => 1
  | .doorRelease => 2
  | .doorEmergency => 3
  | .haltState => 4
  | .haltFault => 5
  | .kneelState => 6
  | .airLow => 7
  | .slowFill => 8
  | .jointState => 9
  | .sensorFault => 10
  | .path => 11
  | .demandStale => 12
  | .chainFault => 13
  | .standstill => 14
  | .movePermit => 15

/-- The part with a given number, if there is one. -/
def EventKind.ofNum? : Nat → Option EventKind
  | 1 => some .doorState
  | 2 => some .doorRelease
  | 3 => some .doorEmergency
  | 4 => some .haltState
  | 5 => some .haltFault
  | 6 => some .kneelState
  | 7 => some .airLow
  | 8 => some .slowFill
  | 9 => some .jointState
  | 10 => some .sensorFault
  | 11 => some .path
  | 12 => some .demandStale
  | 13 => some .chainFault
  | 14 => some .standstill
  | 15 => some .movePermit
  | _ => none

/-- One value for each of the fifteen event kinds, in the order of their codes 1 to 15 (R161). -/
structure PerKind (α : Type) where
  doorState : α
  doorRelease : α
  doorEmergency : α
  haltState : α
  haltFault : α
  kneelState : α
  airLow : α
  slowFill : α
  jointState : α
  sensorFault : α
  path : α
  demandStale : α
  chainFault : α
  standstill : α
  movePermit : α
  deriving DecidableEq, Repr

/-- The value of one part. -/
def PerKind.get {α : Type} (v : PerKind α) : EventKind → α
  | .doorState => v.doorState
  | .doorRelease => v.doorRelease
  | .doorEmergency => v.doorEmergency
  | .haltState => v.haltState
  | .haltFault => v.haltFault
  | .kneelState => v.kneelState
  | .airLow => v.airLow
  | .slowFill => v.slowFill
  | .jointState => v.jointState
  | .sensorFault => v.sensorFault
  | .path => v.path
  | .demandStale => v.demandStale
  | .chainFault => v.chainFault
  | .standstill => v.standstill
  | .movePermit => v.movePermit

/-- The container whose value at each part is the function's. -/
def PerKind.tab {α : Type} (f : EventKind → α) : PerKind α :=
  ⟨f .doorState, f .doorRelease, f .doorEmergency, f .haltState, f .haltFault, f .kneelState, f .airLow, f .slowFill, f .jointState, f .sensorFault, f .path, f .demandStale, f .chainFault, f .standstill, f .movePermit⟩

/-- Replaces the value of one part. -/
def PerKind.set {α : Type} (v : PerKind α) (i : EventKind) (x : α) : PerKind α :=
  match i with
  | .doorState => { v with doorState := x }
  | .doorRelease => { v with doorRelease := x }
  | .doorEmergency => { v with doorEmergency := x }
  | .haltState => { v with haltState := x }
  | .haltFault => { v with haltFault := x }
  | .kneelState => { v with kneelState := x }
  | .airLow => { v with airLow := x }
  | .slowFill => { v with slowFill := x }
  | .jointState => { v with jointState := x }
  | .sensorFault => { v with sensorFault := x }
  | .path => { v with path := x }
  | .demandStale => { v with demandStale := x }
  | .chainFault => { v with chainFault := x }
  | .standstill => { v with standstill := x }
  | .movePermit => { v with movePermit := x }

/-- The same value for every part. -/
def PerKind.fill {α : Type} (x : α) : PerKind α := .tab fun _ => x

/-- Applies a function to every part's value. -/
def PerKind.map {α β : Type} (f : α → β) (v : PerKind α) : PerKind β := .tab fun i => f (v.get i)

/-- The axle of a trailing axle. -/
def Trailing.axle : Trailing → Axle
  | .a3 => .a3
  | .a4 => .a4

/-- The joint whose pair a trailing axle uses: J1 for A3, J2 for A4 (00, R34). -/
def Trailing.joint : Trailing → Joint
  | .a3 => .j1
  | .a4 => .j2

/-- The axle of a circuit (00, the table of circuits). -/
def Circuit.axle : Circuit → Axle
  | .c1 | .c2 => .a1
  | .c3 | .c4 => .a2
  | .c5 | .c6 => .a3
  | .c7 | .c8 => .a4

/-- The left circuit of an axle (00). -/
def Axle.left : Axle → Circuit
  | .a1 => .c1
  | .a2 => .c3
  | .a3 => .c5
  | .a4 => .c7

/-- The right circuit of an axle (00). -/
def Axle.right : Axle → Circuit
  | .a1 => .c2
  | .a2 => .c4
  | .a3 => .c6
  | .a4 => .c8

end Sys2Proof
end

