-- ==== Sys2Proof/Config.lean ====
section
/-! DEFINITION. What the manual leaves open as a value: free values, without a body, so that no proof can see them. -/

namespace Sys2Proof

/-- The bytes of a reply that the manual gives no value: the slot of a running operation that names no slot, and
the sector of a running operation that names no sector (R171). Applied to the state's count of free values used
(log entry 16). -/
opaque Config.unstatedByte : Nat → Byte

/-- A frame whose chip-select is active when a reset occurs: the whole bytes it clocks before the reset and after it
(R160). -/
structure CutFrame where
  before : Nat
  after  : Nat
  deriving DecidableEq, Repr

/-- Which ports have a frame active when a reset occurs, and what it clocks. Applied to the state's count of free
values used (log entry 26). -/
opaque Config.cutFrame : Nat → Port → Option CutFrame

/-- How many of the wheel pulses and FETCHes of the STEER record that wait directly behind an expiry of the steering
timer come between the work of the two axles (R29, R54). Applied to the state's count of free values used (log entry
4). -/
opaque Config.takenBetween : Nat → Nat

end Sys2Proof
end

