-- ==== Sys2Proof/Syntax.lean ====
section
/-! DEFINITION. The commands: one constructor of `Instr` per row of spec/opcode_table.json, with the operands the
rules give the row. A row that reads an input of the part carries the level or the result it reads (log entry 8). -/

namespace Sys2Proof

/-- Level of the DIR line, and the published direction (R11, R13). -/
inductive Direction where
  | forward | reverse
  deriving DecidableEq, Repr

/-- The two wheel pulse inputs on axle A2 (R11). -/
inductive WheelInput where
  | left | right
  deriving DecidableEq, Repr

/-- The three switch inputs of a door (section 8.1). -/
inductive DoorInput where
  | closed | lock | handle
  deriving DecidableEq, Repr

/-- The levels of a door's three switch inputs; `true` reads 1 (section 8.1). -/
structure DoorLevels where
  closed : Bool
  lock   : Bool
  handle : Bool
  deriving DecidableEq, Repr

/-- Commands of a valve driver (R139). -/
inductive ValveCmd where
  | hold | fill | vent
  deriving DecidableEq, Repr

/-- Mode of an axle modulator (R74, R139). -/
inductive AxleMode where
  | electronic | backup
  deriving DecidableEq, Repr

/-- Command of a brake modulator: mode and pressure in kPa (R139). -/
structure ModCmd where
  mode     : AxleMode
  pressure : Nat
  deriving DecidableEq, Repr

/-- Command of a steering actuator: enable and setpoint in cd (R139). -/
structure SteerCmd where
  enable   : Bool
  setpoint : Int
  deriving DecidableEq, Repr

/-- What a device answered in one refresh: its echo and its status word (R140). An echo outside its command's range is
a given echo too (log entry 35). -/
structure DeviceAnswer (γ σ : Type) where
  echo   : γ
  status : σ
  deriving DecidableEq, Repr

/-- The answers of the devices of one chain in one refresh, in chain order; `none` for a device that gave no echo
and no status word (R140). A status word is the ok flag (`true`: ok), or for a steering actuator a signed value in cd
(R142), taken as 16 bits in two's complement (log entry 32). A pressure, setpoint or level echoed may be any number
(log entry 35). -/
inductive ChainAnswers where
  | l (answers : PerCircuit (Option (DeviceAnswer ValveCmd Bool)))
  | b (answers : PerAxle (Option (DeviceAnswer ModCmd Bool)))
  | s (answers : PerTrailing (Option (DeviceAnswer SteerCmd Half)))
  | j (answers : PerJoint (Option (DeviceAnswer Nat Bool)))
  deriving DecidableEq, Repr

/-- The raw results of a redundant pair's sensors a and b (R6). -/
structure RawPair where
  a : Raw
  b : Raw
  deriving DecidableEq, Repr

/-- The raw results of one scan round, entry by entry of the scan list (section 1.1). In a round in which S6 to
S26 are not due their results are not converted (R2). -/
structure ScanResults where
  steer     : RawPair
  joints    : PerJoint RawPair
  heights   : PerCircuit Raw
  bellows   : PerCircuit Raw
  reservoir : Raw
  brakes    : PerAxle Raw
  deriving DecidableEq, Repr

/-- A request frame that passes R149, less its kind and code: the port it was clocked on, its tag, its payload and
the number of padding bytes clocked after its check byte (R148). -/
structure Request where
  port    : Port
  tag     : Byte
  payload : List Byte
  pad     : Nat
  deriving DecidableEq, Repr

/-- The kinds of frame whose byte 1 is judged (R151, step 4). -/
inductive CodedKind where
  | fetch | post | order
  deriving DecidableEq, Repr

/-- A delayed order's request, with the level that the DEPOT line then has: the store reads it where it starts the
operation (R167, R171; log entry 8). -/
structure DelayedOrder extends Request where
  depot : Bool
  deriving DecidableEq, Repr

/-- The inputs that the load reads at its completion: the switches of each door (R138) and the DEPOT line (R171). -/
structure LoadInputs where
  doors : PerDoor DoorLevels
  depot : Bool
  deriving DecidableEq, Repr

/-- The commands of the part: the rows of spec/opcode_table.json. -/
inductive Instr where
  -- resets and the load
  | powerOnReset
  | rstLine
  | activeSetLoad (inputs : LoadInputs)
  -- the vehicle and the units' timers
  | scanRound (raw : ScanResults)
  | wheelPulse (input : WheelInput) (dir : Direction)
  | speedTimerExpiry (dir : Direction)
  | quietTimerExpiry
  | steeringTimerExpiry
  | jointTimerExpiry
  | brakeTimerExpiry
  | levellingTimerExpiry
  | refreshTimerExpiry
  | chainRefreshComplete (answers : ChainAnswers)
  | doorInputChange (door : Door) (input : DoorInput) (level : Bool)
  | debounceTimerExpiry (door : Door) (input : DoorInput)
  -- frames
  | frameError (port : Port) (bytes : List Byte)
  | unknownObject (q : Request) (kind : CodedKind) (code : Byte)
  | nop (q : Request) (code : Byte)
  | fetchMotion (q : Request)
  | fetchPath (q : Request)
  | fetchPathWindow (q : Request)
  | fetchSteer (q : Request)
  | fetchJoints (q : Request)
  | fetchBrake (q : Request)
  | fetchLevel (q : Request)
  | fetchKneel (q : Request)
  | fetchDoors (q : Request)
  | fetchLink (q : Request)
  | fetchStoreStatus (q : Request) (depot : Bool)
  | fetchPort (q : Request)
  | fetchActiveItem (q : Request)
  | fetchAccess (q : Request)
  | postDriveDemand (q : Request)
  | haltOn (q : Request)
  | haltOff (q : Request)
  | clearPathFlag (q : Request)
  | release (q : Request)
  | withdraw (q : Request)
  | kneel (q : Request)
  | raise (q : Request)
  | mapWrite (q : Request)
  | mapLock (q : Request)
  | routeWrite (q : Request)
  | hubReset (q : Request)
  | storeRead (q : DelayedOrder)
  | storeClear (q : Request) (depot : Bool)
  | storeWrite (q : DelayedOrder)
  | storeClose (q : DelayedOrder)
  | storeLock (q : DelayedOrder)
  | blankTest (q : DelayedOrder)
  | apply (q : DelayedOrder)
  | take (q : Request) (code : Byte)
  | abandon (q : Request) (code : Byte)
  -- completions of the store's operations
  | storeReadCompletion (depot : Bool)
  | storeWriteCompletion (depot : Bool)
  | storeCloseCompletion (depot : Bool)
  | storeLockCompletion (depot : Bool)
  | blankTestCompletion (depot : Bool)
  | storeClearCompletion (depot : Bool)
  | applyCompletion (depot : Bool)
  deriving DecidableEq, Repr

end Sys2Proof
end

