-- ==== Sys2Proof/Decode.lean ====
section
/-! DEFINITION. From bytes to commands: the check byte, the frame layout and the judging of a frame's form (R148,
R149), the codes of the requests (section 10.3), the encoder of a request frame, and the host's `decodeTableWord`.
The opcode table gives its rows no bits, so no word spells a command (log entry 20). -/

namespace Sys2Proof

/-- One bit of the CRC-8 with polynomial x⁸+x²+x+1, most significant bit first (R148). -/
def crcBit (c : Byte) : Byte :=
  if c.msb then (c <<< 1) ^^^ 0x07#8 else c <<< 1

/-- The CRC-8 after one more byte, without reflection and without final inversion (R148). -/
def crcByte (c b : Byte) : Byte :=
  crcBit (crcBit (crcBit (crcBit (crcBit (crcBit (crcBit (crcBit (c ^^^ b))))))))

/-- The CRC-8 of a list of bytes, from initial value 0x00 (R148). -/
def crc8 (bytes : List Byte) : Byte := bytes.foldl crcByte 0x00#8

/-- A frame that passes R149, taken apart (R148). -/
structure Frame where
  kind    : Nat
  code    : Byte
  tag     : Byte
  payload : List Byte
  pad     : Nat
  deriving DecidableEq, Repr

/-- The bytes before the check byte (R148). -/
def Frame.head (f : Frame) : List Byte :=
  BitVec.ofNat 8 f.kind :: f.code :: f.tag :: BitVec.ofNat 8 f.payload.length :: f.payload

/-- A request frame's bytes, with padding bytes of 0x00 (R148). -/
def Frame.bytes (f : Frame) : List Byte :=
  f.head ++ crc8 f.head :: List.replicate f.pad 0x00#8

/-- Judges a frame by R149: `none` where it is answered FRAME_ERROR. -/
def readFrame : List Byte → Option Frame
  | kind :: code :: tag :: n :: rest =>
    if 5 < kind.toNat then none
    else if 60 < n.toNat then none
    else
      match rest.drop n.toNat with
      | [] => none
      | check :: padding =>
        if check = crc8 (kind :: code :: tag :: n :: rest.take n.toNat) then
          some ⟨kind.toNat, code, tag, rest.take n.toNat, padding.length⟩
        else none
  | _ => none

/-- The number of a kind of frame (R148). -/
def CodedKind.num : CodedKind → Nat
  | .fetch => 1
  | .post => 2
  | .order => 3

/-- The FETCH rows by object code (section 10.3). -/
def fetchCommand (q : Request) (depot : Bool) : Nat → Option Instr
  | 0x01 => some (.fetchMotion q)
  | 0x02 => some (.fetchPath q)
  | 0x03 => some (.fetchPathWindow q)
  | 0x04 => some (.fetchSteer q)
  | 0x05 => some (.fetchJoints q)
  | 0x06 => some (.fetchBrake q)
  | 0x07 => some (.fetchLevel q)
  | 0x08 => some (.fetchKneel q)
  | 0x09 => some (.fetchDoors q)
  | 0x0A => some (.fetchLink q)
  | 0x0B => some (.fetchStoreStatus q depot)
  | 0x0C => some (.fetchPort q)
  | 0x0D => some (.fetchActiveItem q)
  | 0x0E => some (.fetchAccess q)
  | _ => none

/-- The ORDER rows by order code (section 10.3), with the level of the DEPOT line at that moment. -/
def orderCommand (q : Request) (depot : Bool) : Nat → Option Instr
  | 0x20 => some (.haltOn q)
  | 0x21 => some (.haltOff q)
  | 0x22 => some (.clearPathFlag q)
  | 0x28 => some (.release q)
  | 0x29 => some (.withdraw q)
  | 0x2A => some (.kneel q)
  | 0x2B => some (.raise q)
  | 0x30 => some (.mapWrite q)
  | 0x31 => some (.mapLock q)
  | 0x32 => some (.routeWrite q)
  | 0x33 => some (.hubReset q)
  | 0x38 => some (.storeRead ⟨q, depot⟩)
  | 0x39 => some (.storeClear q depot)
  | 0x3A => some (.storeWrite ⟨q, depot⟩)
  | 0x3B => some (.storeClose ⟨q, depot⟩)
  | 0x3C => some (.storeLock ⟨q, depot⟩)
  | 0x3D => some (.blankTest ⟨q, depot⟩)
  | 0x3E => some (.apply ⟨q, depot⟩)
  | _ => none

/-- The request a code names within its kind, if any (R151, step 4). -/
def codedCommand (q : Request) (depot : Bool) : CodedKind → Nat → Option Instr
  | .fetch, code => fetchCommand q depot code
  | .post, code => if code = 0x10 then some (.postDriveDemand q) else none
  | .order, code => orderCommand q depot code

/-- A coded frame's command: the request its code names, or the UNKNOWN_OBJECT row. -/
def judgeCode (q : Request) (depot : Bool) (kind : CodedKind) (code : Byte) : Instr :=
  (codedCommand q depot kind code.toNat).getD (.unknownObject q kind code)

/-- The command that the bytes clocked in one chip-select period of a port are, with the DEPOT line's level at that
moment; `none` where no whole byte was clocked, which is not a frame (R148). -/
def frameCommand (port : Port) (depot : Bool) (bytes : List Byte) : Option Instr :=
  if bytes.isEmpty then none
  else
    match readFrame bytes with
    | none => some (.frameError port bytes)
    | some f =>
      let q : Request := ⟨port, f.tag, f.payload, f.pad⟩
      match f.kind with
      | 0 => some (.nop q f.code)
      | 1 => some (judgeCode q depot .fetch f.code)
      | 2 => some (judgeCode q depot .post f.code)
      | 3 => some (judgeCode q depot .order f.code)
      | 4 => some (.take q f.code)
      | _ => some (.abandon q f.code)

/-- What a request row's frame holds beside the request itself: its kind and its code (sections 10.1, 10.3). -/
def Instr.frameParts : Instr → Option (Request × Nat × Byte)
  | .unknownObject q kind code => some (q, kind.num, code)
  | .nop q code => some (q, 0, code)
  | .fetchMotion q => some (q, 1, 0x01#8)
  | .fetchPath q => some (q, 1, 0x02#8)
  | .fetchPathWindow q => some (q, 1, 0x03#8)
  | .fetchSteer q => some (q, 1, 0x04#8)
  | .fetchJoints q => some (q, 1, 0x05#8)
  | .fetchBrake q => some (q, 1, 0x06#8)
  | .fetchLevel q => some (q, 1, 0x07#8)
  | .fetchKneel q => some (q, 1, 0x08#8)
  | .fetchDoors q => some (q, 1, 0x09#8)
  | .fetchLink q => some (q, 1, 0x0A#8)
  | .fetchStoreStatus q _ => some (q, 1, 0x0B#8)
  | .fetchPort q => some (q, 1, 0x0C#8)
  | .fetchActiveItem q => some (q, 1, 0x0D#8)
  | .fetchAccess q => some (q, 1, 0x0E#8)
  | .postDriveDemand q => some (q, 2, 0x10#8)
  | .haltOn q => some (q, 3, 0x20#8)
  | .haltOff q => some (q, 3, 0x21#8)
  | .clearPathFlag q => some (q, 3, 0x22#8)
  | .release q => some (q, 3, 0x28#8)
  | .withdraw q => some (q, 3, 0x29#8)
  | .kneel q => some (q, 3, 0x2A#8)
  | .raise q => some (q, 3, 0x2B#8)
  | .mapWrite q => some (q, 3, 0x30#8)
  | .mapLock q => some (q, 3, 0x31#8)
  | .routeWrite q => some (q, 3, 0x32#8)
  | .hubReset q => some (q, 3, 0x33#8)
  | .storeRead q => some (q.toRequest, 3, 0x38#8)
  | .storeClear q _ => some (q, 3, 0x39#8)
  | .storeWrite q => some (q.toRequest, 3, 0x3A#8)
  | .storeClose q => some (q.toRequest, 3, 0x3B#8)
  | .storeLock q => some (q.toRequest, 3, 0x3C#8)
  | .blankTest q => some (q.toRequest, 3, 0x3D#8)
  | .apply q => some (q.toRequest, 3, 0x3E#8)
  | .take q code => some (q, 4, code)
  | .abandon q code => some (q, 5, code)
  | .powerOnReset | .rstLine | .activeSetLoad _ | .scanRound _ | .wheelPulse _ _ | .speedTimerExpiry _
  | .quietTimerExpiry | .steeringTimerExpiry | .jointTimerExpiry | .brakeTimerExpiry | .levellingTimerExpiry
  | .refreshTimerExpiry | .chainRefreshComplete _ | .doorInputChange _ _ _ | .debounceTimerExpiry _ _
  | .frameError _ _ | .storeReadCompletion _ | .storeWriteCompletion _ | .storeCloseCompletion _
  | .storeLockCompletion _ | .blankTestCompletion _ | .storeClearCompletion _ | .applyCompletion _ => none

/-- The frame of a request row: its port and its bytes (R148). A FRAME_ERROR row's bytes are its own operand. -/
def frameOf (i : Instr) : Option (Port × List Byte) :=
  match i with
  | .frameError port bytes => some (port, bytes)
  | i =>
    match i.frameParts with
    | some (q, kind, code) => some (q.port, Frame.bytes ⟨kind, code, q.tag, q.payload, q.pad⟩)
    | none => none

/-- The DEPOT line's level that a request row carries, if it carries one (log entry 8). -/
def Instr.depot? : Instr → Option Bool
  | .storeRead q | .storeWrite q | .storeClose q | .storeLock q | .blankTest q | .apply q => some q.depot
  | .fetchStoreStatus _ depot | .storeClear _ depot => some depot
  | _ => none

/-- The command that a word spells by the opcode table's bits: the table gives no row any bits, so there is none
for any word (log entry 20). -/
def decodeTableWord (_nbits _w : Nat) : Option Instr := none

end Sys2Proof
end

