-- ==== Sys2Proof/WellFormed.lean ====
section
/-! DEFINITION. Which commands can be: what a row's operands must satisfy to be an event of that row. -/

namespace Sys2Proof

/-- The length byte of a frame that passes R149 is at most 60 (R148). -/
def Request.wf (q : Request) : Bool := q.payload.length ≤ 60

/-- Well-formed commands: a request's payload fits its frame (R148), an UNKNOWN_OBJECT frame's code names no
request of its kind (R151), and a FRAME_ERROR frame has at least one whole byte and fails R149. Every other operand
can be any value of its type. -/
def Instr.wf (i : Instr) : Bool :=
  match i with
  | .frameError _ bytes => !bytes.isEmpty && (readFrame bytes).isNone
  | .unknownObject q kind code => q.wf && (codedCommand q false kind code.toNat).isNone
  | i =>
    match i.frameParts with
    | some (q, _, _) => q.wf
    | none => true

end Sys2Proof
end

