-- ==== Sys2Proof/Machine/State.lean ====
section
/-! DEFINITION. The state of the part: every register, count, timer, buffer and mark the rules give it, unit by unit,
with the state after a reset; the queue of waiting commands; faults and refusals. -/

namespace Sys2Proof.Machine

/-! ## Timers -/

/-- A timer, stopped or running with the tenths of a millisecond it has run, at most its period (log entries 1
to 3). -/
inductive Timer where
  | stopped
  | running (elapsed : Nat)
  deriving DecidableEq, Repr

/-- A duration counted at a unit's own expiries, in ms: stopped, or running (R46, R58, R73, R84). -/
inductive Count where
  | stopped
  | running (ms : Nat)
  deriving DecidableEq, Repr

/-! ## Clock, load and input pins -/

/-- The millisecond count (R162) with its tenths, whether the active set has been loaded since the reset (R151), and
the timer of the load (R169). -/
structure Clock where
  ms     : Word
  sub    : Nat
  loaded : Bool
  load   : Timer
  deriving DecidableEq, Repr

/-- After any reset the count starts at 0 and the load begins (R162, R169). -/
def Clock.atReset : Clock := ⟨0, 0, false, .running 0⟩

/-- The DIR and DEPOT lines as last read, and what each port's data out carried in the last frame on it (R11, R167,
R150). No reset touches them (log entries 6, 8). -/
structure Pins where
  dir     : Direction
  depot   : Bool
  dataOut : PerPort (List Byte)
  deriving DecidableEq, Repr

/-! ## Sensing unit -/

/-- State of a redundant pair (section 1.3). -/
inductive PairState where
  | ok | degraded | fault
  deriving DecidableEq, Repr

/-- What a redundant pair publishes and counts (section 1.3, R7). -/
structure Pair where
  value     : Int
  state     : PairState
  unusable  : Nat
  good      : Nat
  published : Bool
  deriving DecidableEq, Repr

/-- R19. -/
def Pair.atReset : Pair := ⟨0, .ok, 0, 0, false⟩

/-- What a single entry publishes and counts; `fault` is its state FAULT (R9). -/
structure Single where
  value   : Int
  fault   : Bool
  invalid : Nat
  good    : Nat
  deriving DecidableEq, Repr

/-- R19. -/
def Single.atReset : Single := ⟨0, false, 0, 0⟩

/-- The judgement whether the bus is at rest (section 1.7). -/
inductive Standstill where
  | unsettled | yes | no
  deriving DecidableEq, Repr

/-- The current speed bucket and the five closed ones, newest first, in tenths (R14). -/
structure Buckets where
  current : Nat
  b1 : Nat
  b2 : Nat
  b3 : Nat
  b4 : Nat
  b5 : Nat
  deriving DecidableEq, Repr

/-- The sensing unit (chapter 1). `rounds` is the number of scan rounds published since the reset. -/
structure Sensing where
  steer      : Pair
  joints     : PerJoint Pair
  heights    : PerCircuit Single
  bellows    : PerCircuit Single
  reservoir  : Single
  brakes     : PerAxle Single
  rounds     : Nat
  travel     : Word
  buckets    : Buckets
  speed      : Nat
  direction  : Direction
  standstill : Standstill
  distance   : Nat
  quiet      : Timer
  scanTimer  : Timer
  speedTimer : Timer
  deriving DecidableEq, Repr

/-- R19. -/
def Sensing.atReset : Sensing where
  steer := .atReset
  joints := .fill .atReset
  heights := .fill .atReset
  bellows := .fill .atReset
  reservoir := .atReset
  brakes := .fill .atReset
  rounds := 0
  travel := 0
  buckets := ⟨0, 0, 0, 0, 0, 0⟩
  speed := 0
  direction := .forward
  standstill := .unsettled
  distance := 0
  quiet := .stopped
  scanTimer := .stopped
  speedTimer := .stopped

/-! ## Path memory -/

/-- A path sample: its index and the front steer angle it carries, if any (R20). -/
structure Sample where
  index : Word
  angle : Option Int
  deriving DecidableEq, Repr

/-- The path memory, head sample first (R20). -/
structure PathMemory where
  samples   : List Sample
  r         : Nat
  pushCount : Word
  absent    : Nat
  underrun  : Bool
  deriving DecidableEq, Repr

/-- R32. -/
def PathMemory.atReset : PathMemory := ⟨[], 0, 0, 0, false⟩

/-! ## Steering unit -/

/-- Steering modes (R34). -/
inductive SteerMode where
  | follow | short | reverse | held | centring | failed
  deriving DecidableEq, Repr

/-- Why an axle failed (R34). -/
inductive FailCause where
  | tracking | device | chain
  deriving DecidableEq, Repr

/-- What the steering unit holds for one trailing axle (R34). -/
structure AxleSteer where
  initialised : Bool
  mode        : Option SteerMode
  cause       : Option FailCause
  setpoint    : Option Int
  enable      : Bool
  measured    : Option Int
  tracking    : Count
  lookup      : Option Int
  law         : Option Int
  fade        : Option Nat
  deriving DecidableEq, Repr

/-- R51. -/
def AxleSteer.atReset : AxleSteer := ⟨false, none, none, none, false, none, .stopped, none, none, none⟩

/-- What the copies of the STEER record taken between the two axles' work of an expiry show in place of the present
values: A4 and the period count as they were before that work (R54, log entry 4). -/
structure Midway where
  copies  : Nat
  a4      : AxleSteer
  periods : Half
  deriving DecidableEq, Repr

/-- The steering unit (chapter 3); `midway` is present while copies between the two axles' work are still to come. -/
structure Steering where
  axles   : PerTrailing AxleSteer
  periods : Half
  timer   : Timer
  midway  : Option Midway
  deriving DecidableEq, Repr

/-- R51. -/
def Steering.atReset : Steering := ⟨.fill .atReset, 0, .stopped, none⟩

/-! ## Joint unit -/

/-- Joint states (section 4.3). -/
inductive JointState where
  | free | watch | stretch | limit | sensorLost
  deriving DecidableEq, Repr

/-- Drive states of a demand (R72). -/
inductive DriveState where
  | neutral | traction | retard
  deriving DecidableEq, Repr

/-- What the joint unit holds for one joint (R55). -/
structure JointHold where
  state     : JointState
  phi       : Int
  phiPrev   : Option Int
  omega     : Int
  growing   : Bool
  hold      : Count
  speedBand : Nat
  angleBand : Nat
  table     : Nat
  damping   : Nat
  stretch   : Nat
  deriving DecidableEq, Repr

/-- R69. -/
def JointHold.atReset : JointHold := ⟨.free, 0, none, 0, false, .stopped, 0, 0, 0, 15, 0⟩

/-- The joint unit (chapter 4). -/
structure JointUnit where
  joints    : PerJoint JointHold
  requests  : PerTrailing Nat
  driveSeen : DriveState
  torqueCut : Bool
  periods   : Half
  timer     : Timer
  deriving DecidableEq, Repr

/-- R69. -/
def JointUnit.atReset : JointUnit := ⟨.fill .atReset, .fill 0, .neutral, false, 0, .stopped⟩

/-! ## Brake unit -/

/-- How the taken demand is used (R73). -/
inductive DemandStatus where
  | none | fresh | holding | stale
  deriving DecidableEq, Repr

/-- A freeze of loads: off, on, or the after-time left in ms (R77, R78). -/
inductive Freeze where
  | off | on
  | after (ms : Nat)
  deriving DecidableEq, Repr

/-- Where a load was computed from (R88). -/
inductive LoadSource where
  | bellows | oneSide | nominal
  deriving DecidableEq, Repr

/-- The halt brake's state (section 5.7). -/
inductive HaltState where
  | released | applying | applied
  deriving DecidableEq, Repr

/-- What the brake unit holds for one axle (R70, R88). -/
structure AxleBrake where
  mode     : AxleMode
  load     : Nat
  source   : LoadSource
  activity : Freeze
  frozen   : Bool
  service  : Nat
  halt     : Nat
  stretch  : Nat
  command  : Nat
  deriving DecidableEq, Repr

/-- R89. -/
def AxleBrake.atReset : AxleBrake := ⟨.backup, 0, .nominal, .off, false, 0, 0, 0, 0⟩

/-- The brake unit (chapter 5). -/
structure Brake where
  decel       : Nat
  drive       : DriveState
  lastSeq     : Option Byte
  lastPort    : Option Port
  superseded  : Nat
  age         : Count
  status      : DemandStatus
  kneelFreeze : Freeze
  axles       : PerAxle AxleBrake
  halt        : HaltState
  applying    : Count
  haltFault   : Bool
  periods     : Half
  timer       : Timer
  deriving DecidableEq, Repr

/-- R89. -/
def Brake.atReset : Brake where
  decel := 0
  drive := .neutral
  lastSeq := Option.none
  lastPort := Option.none
  superseded := 0
  age := .stopped
  status := .none
  kneelFreeze := .off
  axles := .fill .atReset
  halt := .released
  applying := .stopped
  haltFault := false
  periods := 0
  timer := .stopped

/-! ## Levelling unit -/

/-- What a circuit is doing (R90). -/
inductive Action where
  | hold | fillWait | fill | vent | excluded
  deriving DecidableEq, Repr

/-- Who wrote a target, and why (R92). -/
inductive TargetSource where
  | ride | kneel | raise
  deriving DecidableEq, Repr

/-- Direction of a persistence count (R90); of a count of 0 it is the last one's (log entry 36). -/
inductive Deviation where
  | low | high
  deriving DecidableEq, Repr

/-- Why a circuit that wants to act is held (R90). -/
inductive HoldReason where
  | none | mismatchFill | mismatchVent | kneelStopped
  deriving DecidableEq, Repr

/-- What keeps a circuit EXCLUDED (R103). -/
structure Causes where
  height : Bool
  valve  : Bool
  chain  : Bool
  deriving DecidableEq, Repr

/-- No cause. -/
def Causes.clear : Causes := ⟨false, false, false⟩

/-- What the levelling unit holds for one circuit (R90); the ring holds its samples newest first. -/
structure CircuitLevel where
  action    : Action
  ring      : List Int
  height    : Option Int
  target    : Int
  source    : TargetSource
  error     : Option Int
  count     : Nat
  direction : Deviation
  reason    : HoldReason
  causes    : Causes
  deriving DecidableEq, Repr

/-- R108. -/
def CircuitLevel.atReset : CircuitLevel :=
  ⟨.hold, [], Option.none, 0, .ride, Option.none, 0, .low, .none, .clear⟩

/-- A held fill slot: its circuit, hold time in ms, grant number and class (R90). -/
structure HeldSlot where
  circuit : Circuit
  time    : Nat
  grant   : Half
  cls     : Nat
  deriving DecidableEq, Repr

/-- An entry of the fill queue (R96). -/
structure QueueEntry where
  circuit : Circuit
  cls     : Nat
  deriving DecidableEq, Repr

/-- Why the air cut is in force (R90). -/
inductive CutCause where
  | start | lowPressure | sensor
  deriving DecidableEq, Repr

/-- The levelling unit (chapter 6). `cut` is the air cut IN FORCE; `mismatch`, the hold applying, and the section heights
`front`, `middle` and `rear` are those of the last stage 3 (R107; log entry 34). -/
structure Levelling where
  circuits : PerCircuit CircuitLevel
  slots    : PerSlot (Option HeldSlot)
  grants   : Half
  queue    : List QueueEntry
  cut      : Bool
  cutCause : CutCause
  mismatch : Bool
  front    : Option Int
  middle   : Option Int
  rear     : Option Int
  periods  : Half
  timer    : Timer
  deriving DecidableEq, Repr

/-- R108. -/
def Levelling.atReset : Levelling where
  circuits := .fill .atReset
  slots := .fill Option.none
  grants := 0
  queue := []
  cut := true
  cutCause := .start
  mismatch := false
  front := Option.none
  middle := Option.none
  rear := Option.none
  periods := 0
  timer := .stopped

/-! ## Kneel unit -/

/-- Kneel states (section 7.1). -/
inductive KneelState where
  | ride | lowering | knelt | raising | stopped
  deriving DecidableEq, Repr

/-- Why the kneel state entered STOPPED (R109). -/
inductive StopCause where
  | standstill | exclusion
  deriving DecidableEq, Repr

/-- An error and its band as handed over by the levelling unit (R105, R113). -/
structure HandedError where
  error : Option Int
  band  : Int
  deriving DecidableEq, Repr

/-- The kneel unit (R109). -/
structure Kneel where
  state       : KneelState
  cause       : Option StopCause
  circuit     : Option Circuit
  before      : Option KneelState
  completions : Half
  errors      : PerCircuit HandedError
  deriving DecidableEq, Repr

/-- R121. -/
def Kneel.atReset : Kneel := ⟨.ride, none, none, none, 0, .fill ⟨none, 0⟩⟩

/-! ## Door unit -/

/-- Door positions (R124). -/
inductive Position where
  | closedLocked | closed | opened | switchFault
  deriving DecidableEq, Repr

/-- Release states (section 8.2). -/
inductive Release where
  | withdrawn | waiting | granted
  deriving DecidableEq, Repr

/-- The debounce timers of a door's three inputs (R123). -/
structure DoorTimers where
  closed : Timer
  lock   : Timer
  handle : Timer
  deriving DecidableEq, Repr

/-- What the door unit holds for one door (R122). -/
structure DoorHold where
  raw       : DoorLevels
  debounced : DoorLevels
  timers    : DoorTimers
  position  : Position
  enabled   : Bool
  release   : Release
  mark      : Bool
  atSpeed   : Bool
  deriving DecidableEq, Repr

/-- R138; what the load forms stands at a named value until then (log entry 6). -/
def DoorHold.atReset : DoorHold :=
  ⟨⟨false, false, false⟩, ⟨false, false, false⟩, ⟨.stopped, .stopped, .stopped⟩, .opened, false, .withdrawn, false, false⟩

/-- The door unit (R122). -/
structure DoorUnit where
  doors     : PerDoor DoorHold
  condition : Bool
  permit    : Bool
  changes   : Half
  deriving DecidableEq, Repr

/-- R138. -/
def DoorUnit.atReset : DoorUnit := ⟨.fill .atReset, false, false, 0⟩

/-! ## Actuator link -/

/-- One device of a chain: its command in the output image, the command of the refresh in progress, the last sent
command, the last echo, whether it mismatched at the last judged refresh, the last delivered status word and the
fault flag (R140, R142, R146). -/
structure Device (γ σ : Type) where
  image    : γ
  inFlight : Option γ
  lastSent : Option γ
  echo     : Option γ
  mismatch : Bool
  status   : Option σ
  fault    : Bool
  deriving DecidableEq, Repr

/-- R147, with the reset command of the device. -/
def Device.atReset {γ σ : Type} (c : γ) : Device γ σ := ⟨c, none, none, none, false, none, false⟩

/-- The judgement of one chain (section 9.3); `fault` is its state FAULT, `busy` a refresh in progress. -/
structure ChainHold where
  fault      : Bool
  mismatches : Nat
  cleans     : Nat
  entries    : Nat
  busy       : Bool
  deriving DecidableEq, Repr

/-- R147. -/
def ChainHold.atReset : ChainHold := ⟨false, 0, 0, 0, false⟩

/-- The seven direct lines (R145). -/
structure Lines where
  release : PerDoor Bool
  permit  : Bool
  torque  : Bool
  deriving DecidableEq, Repr

/-- The actuator link (chapter 9). -/
structure Link where
  valves     : PerCircuit (Device ValveCmd Bool)
  modulators : PerAxle (Device ModCmd Bool)
  actuators  : PerTrailing (Device SteerCmd Half)
  dampers    : PerJoint (Device Nat Bool)
  chainL     : ChainHold
  chainB     : ChainHold
  chainS     : ChainHold
  chainJ     : ChainHold
  lines      : Lines
  refreshes  : Half
  timer      : Timer
  deriving DecidableEq, Repr

/-- R147: the reset image, and the refresh timer running at once (R140). -/
def Link.atReset : Link where
  valves := .fill (.atReset .hold)
  modulators := .fill (.atReset ⟨.backup, 0⟩)
  actuators := .fill (.atReset ⟨false, 0⟩)
  dampers := .fill (.atReset 15)
  chainL := .atReset
  chainB := .atReset
  chainS := .atReset
  chainJ := .atReset
  lines := ⟨.fill false, false, false⟩
  refreshes := 0
  timer := .running 0

/-! ## Port units -/

/-- Status codes of replies (R150). -/
inductive Status where
  | done | taken | retry | refused | denied | locked | slotBusy | frameError | starting | none
  deriving DecidableEq, Repr

/-- Reason codes of REFUSED (R150). -/
inductive Reason where
  | notStandstill | interlock | haltNotApplied | kneelActive | doorDisabled | sectorLocked | notEmpty | sectorClosed
  | torn | range | unknownObject | tooFast | circuitExcluded
  deriving DecidableEq, Repr

/-- The answer to a request: its status and payload (R150). -/
structure Answer where
  status  : Status
  payload : List Byte
  deriving DecidableEq, Repr

/-- A reply frame: the answer with the echoed code and tag (R150). -/
structure Reply where
  status  : Status
  code    : Byte
  tag     : Byte
  payload : List Byte
  deriving DecidableEq, Repr

/-- A drive demand as posted (R152). -/
structure Demand where
  seq   : Byte
  decel : Half
  drive : Byte
  deriving DecidableEq, Repr

/-- The delayed orders with their arguments (R166, R167, R170). -/
inductive StoreOp where
  | read (sector : SectorId) (slot : Nat)
  | clear (sector : SectorId)
  | write (sector : SectorId) (slot : Nat) (value : Half)
  | close (sector : SectorId)
  | lock (sector : SectorId)
  | blank (sector : SectorId)
  | apply
  deriving DecidableEq, Repr

/-- A request held in a delayed slot (section 10.5). -/
structure HeldRequest where
  op      : StoreOp
  tag     : Byte
  payload : List Byte
  deriving DecidableEq, Repr

/-- A port's delayed slot (section 10.5). -/
inductive DelayedSlot where
  | empty
  | waiting (rq : HeldRequest)
  | running (rq : HeldRequest)
  | done (rq : HeldRequest) (outcome : Answer)
  deriving DecidableEq, Repr

/-- A port unit (chapter 10). -/
structure PortUnit where
  pending : Reply
  posted  : Option Demand
  slot    : DelayedSlot
  frames  : Half
  errors  : Half
  denied  : Half
  deriving DecidableEq, Repr

/-- R160: the pending reply is NONE (R150). -/
def PortUnit.atReset : PortUnit := ⟨⟨.none, 0, 0, []⟩, none, .empty, 0, 0, 0⟩

/-- Where the access map of the last power-on came from (R159). -/
inductive MapSource where
  | sector7 | builtIn
  deriving DecidableEq, Repr

/-- The access map, its lock and its source; `owed` while the map of a power-on reset is still to be formed at a
load (R156, log entry 7). -/
structure Access where
  map    : PerPort ClassSet
  lock   : Bool
  source : MapSource
  owed   : Bool
  deriving DecidableEq, Repr

/-- The built-in access map (R156). -/
def builtInMap : PerPort ClassSet := ⟨0b10001#5, 0b10010#5, 0b11111#5⟩

/-- After a power-on reset, before the load that forms the map (R156, log entry 7). -/
def Access.atPowerOn : Access := ⟨builtInMap, false, .builtIn, true⟩

/-! ## Event unit -/

/-- An entry of an event queue (R162). -/
structure EventEntry where
  kind    : EventKind
  subject : Nat
  count   : Nat
  first   : Word
  last    : Word
  value   : Half
  deriving DecidableEq, Repr

/-- The event unit: each port's queue, oldest entry first, and attention line, and the routing table (chapter 11). -/
structure EventUnit where
  queues    : PerPort (List EventEntry)
  attention : PerPort Bool
  routing   : PerKind PortSet
  deriving DecidableEq, Repr

/-- The built-in routing table (R164). -/
def builtInRouting : PerKind PortSet where
  doorState := 0b110#3
  doorRelease := 0b110#3
  doorEmergency := 0b110#3
  haltState := 0b111#3
  haltFault := 0b101#3
  kneelState := 0b110#3
  airLow := 0b110#3
  slowFill := 0b110#3
  jointState := 0b101#3
  sensorFault := 0b101#3
  path := 0b101#3
  demandStale := 0b101#3
  chainFault := 0b101#3
  standstill := 0b101#3
  movePermit := 0b111#3

/-- Every reset empties the queues and sets the attention lines inactive (R165); the routing table is as R164
gives for the kind of reset. -/
def EventUnit.atReset (routing : PerKind PortSet) : EventUnit := ⟨.fill [], .fill false, routing⟩

/-! ## Calibration store and active set -/

/-- Content of a slot 0 to 30 that is not EMPTY (R166). -/
inductive SlotContent where
  | written (value : Half)
  | torn
  deriving DecidableEq, Repr

/-- The closing mark, slot 31 (R166). -/
inductive Mark where
  | empty
  | written (check : Half) (count : Nat)
  | torn
  deriving DecidableEq, Repr

/-- A sector of the store: the slots 0 to 30 that are not EMPTY, by rising slot number; its closing mark, lock flag
and clear-in-progress flag (R166). -/
structure Sector where
  slots    : List (Nat × SlotContent)
  mark     : Mark
  lock     : Bool
  clearing : Bool
  deriving DecidableEq, Repr

/-- An erased sector: what the model takes the store to hold as delivered (log entry 5). -/
def Sector.erased : Sector := ⟨[], .empty, false, false⟩

/-- Status of a sector at a load (R169). -/
inductive SectorStatus where
  | valid | defaulted | clamped | torn
  deriving DecidableEq, Repr

/-- Where an item's value in force came from (R171). -/
inductive ItemSource where
  | stored | default | corrected
  deriving DecidableEq, Repr

/-- An item of the active set (R169, R171). -/
structure Item where
  value  : Int
  source : ItemSource
  deriving DecidableEq, Repr

/-- The operation running in the store: the order, the port whose delayed slot held it, the tenths of a millisecond it
has worked, and for a clear whether it clears the lock too (R166, R167). -/
structure RunningOp where
  op        : StoreOp
  port      : Port
  elapsed   : Nat
  clearLock : Bool
  deriving DecidableEq, Repr

/-- What the STORE STATUS record shows of the DEPOT line, and of a running clear the accumulated ms, as of the record's
last update (R171). -/
structure StoreShown where
  depot    : Bool
  progress : Nat
  deriving DecidableEq, Repr

/-- The calibration store (chapter 12): `read` is a read served while the running clear is suspended (R155). The
active set holds each sector's items by home slot; those of sector 7 outlive the RST line and HUB RESET (R169). -/
structure Store where
  sectors  : PerSector Sector
  running  : Option RunningOp
  read     : Option RunningOp
  loads    : Half
  statuses : PerSector SectorStatus
  active   : PerSector (List Item)
  shown    : StoreShown
  deriving DecidableEq, Repr

/-- An erased store before its first load (log entries 5, 6). -/
def Store.asDelivered : Store := ⟨.fill .erased, none, none, 0, .fill .defaulted, .fill [], ⟨false, 0⟩⟩

/-! ## The whole -/

/-- Everything the rules give the part. -/
structure Hub where
  clock     : Clock
  pins      : Pins
  sensing   : Sensing
  path      : PathMemory
  steering  : Steering
  joints    : JointUnit
  brake     : Brake
  level     : Levelling
  kneel     : Kneel
  doors     : DoorUnit
  link      : Link
  ports     : PerPort PortUnit
  access    : Access
  events    : EventUnit
  store     : Store
  freeCount : Nat
  deriving DecidableEq, Repr

/-- The part right after a power-on reset, with an erased store (R156 and each chapter's state after reset; log
entries 5 to 8). -/
def Hub.atPowerOn : Hub where
  clock := .atReset
  pins := ⟨.forward, false, .fill []⟩
  sensing := .atReset
  path := .atReset
  steering := .atReset
  joints := .atReset
  brake := .atReset
  level := .atReset
  kneel := .atReset
  doors := .atReset
  link := .atReset
  ports := .fill .atReset
  access := .atPowerOn
  events := .atReset builtInRouting
  store := .asDelivered
  freeCount := 0

/-- The state of the model: the part, and the commands that wait for it, first in first out. -/
structure State where
  hub     : Hub
  pending : List Instr
  deriving DecidableEq, Repr

/-- Right after the power-on reset, with no command waiting. -/
def State.reset : State := ⟨.atPowerOn, []⟩

/-- Faults: the rules name no condition that stops the part, so there is none (INVENTORY.md, Faults). -/
inductive Fault where
  deriving DecidableEq, Repr

/-- Refusals of the model. -/
inductive Refusal where
  /-- Raised by `exec` for a command without a meaning, by its mnemonic; no command is left without one. Safe: the model
  stops where the part goes on. -/
  | notModelled (mnemonic : String)
  deriving DecidableEq, Repr

end Sys2Proof.Machine
end

