-- ==== Sys2Proof/Machine/Ops.lean ====
section
/-! DEFINITION. Named operations shared by every unit: exact arithmetic (R1), timers, the update of one unit's part of
the state, and the bytes of a field of a reply (R150). -/

namespace Sys2Proof.Machine

/-! ## Arithmetic -/

/-- Division, truncating toward zero (R1). -/
def quot (a b : Int) : Int := a.tdiv b

/-- A value clamped to a range: the nearer end of the range when outside it (R1). -/
def clampTo (lo hi x : Int) : Int := if x < lo then lo else if hi < x then hi else x

/-- A count that stops at a limit. -/
def bump (limit n : Nat) : Nat := min limit (n + 1)

/-! ## Timers -/

/-- A timer just started. -/
def Timer.started : Timer := .running 0

/-- A timer one tenth of a millisecond later; it stands at its period once it is there (log entry 3). -/
def Timer.advance (period : Nat) : Timer → Timer
  | .stopped => .stopped
  | .running e => .running (min period (e + 1))

/-- Whether a timer has reached its period, so that its expiry can be taken (log entry 2). -/
def Timer.due (period : Nat) : Timer → Bool
  | .stopped => false
  | .running e => period ≤ e

/-- Period of the scan timer, 2 ms (R2). -/
def scanPeriod : Nat := 20
/-- Period of the speed timer, 20 ms (R14). -/
def speedPeriod : Nat := 200
/-- Time of the quiet timer, 1,000 ms (R15). -/
def quietTime : Nat := 10000
/-- Period of the steering timer, 10 ms (R34). -/
def steeringPeriod : Nat := 100
/-- Period of the joint timer, 10 ms (R55). -/
def jointPeriod : Nat := 100
/-- Period of the brake timer, 5 ms (R70). -/
def brakePeriod : Nat := 50
/-- Period of the levelling timer, 50 ms (R90). -/
def levellingPeriod : Nat := 500
/-- Period of the refresh timer, 2 ms (R140). -/
def refreshPeriod : Nat := 20
/-- Time of a debounce timer, 20 ms (R123). -/
def debounceTime : Nat := 200
/-- Time of a load of the active set, 2 ms (R169, R170). -/
def loadTime : Nat := 20

/-! ## Updating one unit -/

/-- Updates the part of the state that `clock` holds. -/
def Hub.onClock (g : Clock → Clock) (h : Hub) : Hub := { h with clock := g h.clock }
/-- Updates the part of the state that `pins` holds. -/
def Hub.onPins (g : Pins → Pins) (h : Hub) : Hub := { h with pins := g h.pins }
/-- Updates the part of the state that `sensing` holds. -/
def Hub.onSensing (g : Sensing → Sensing) (h : Hub) : Hub := { h with sensing := g h.sensing }
/-- Updates the part of the state that `path` holds. -/
def Hub.onPath (g : PathMemory → PathMemory) (h : Hub) : Hub := { h with path := g h.path }
/-- Updates the part of the state that `steering` holds. -/
def Hub.onSteering (g : Steering → Steering) (h : Hub) : Hub := { h with steering := g h.steering }
/-- Updates the part of the state that `joints` holds. -/
def Hub.onJoints (g : JointUnit → JointUnit) (h : Hub) : Hub := { h with joints := g h.joints }
/-- Updates the part of the state that `brake` holds. -/
def Hub.onBrake (g : Brake → Brake) (h : Hub) : Hub := { h with brake := g h.brake }
/-- Updates the part of the state that `level` holds. -/
def Hub.onLevel (g : Levelling → Levelling) (h : Hub) : Hub := { h with level := g h.level }
/-- Updates the part of the state that `kneel` holds. -/
def Hub.onKneel (g : Kneel → Kneel) (h : Hub) : Hub := { h with kneel := g h.kneel }
/-- Updates the part of the state that `doors` holds. -/
def Hub.onDoors (g : DoorUnit → DoorUnit) (h : Hub) : Hub := { h with doors := g h.doors }
/-- Updates the part of the state that `link` holds. -/
def Hub.onLink (g : Link → Link) (h : Hub) : Hub := { h with link := g h.link }
/-- Updates the part of the state that `ports` holds. -/
def Hub.onPorts (g : PerPort PortUnit → PerPort PortUnit) (h : Hub) : Hub := { h with ports := g h.ports }
/-- Updates the part of the state that `access` holds. -/
def Hub.onAccess (g : Access → Access) (h : Hub) : Hub := { h with access := g h.access }
/-- Updates the part of the state that `events` holds. -/
def Hub.onEvents (g : EventUnit → EventUnit) (h : Hub) : Hub := { h with events := g h.events }
/-- Updates the part of the state that `store` holds. -/
def Hub.onStore (g : Store → Store) (h : Hub) : Hub := { h with store := g h.store }

/-- Updates one port unit. -/
def Hub.onPort (p : Port) (g : PortUnit → PortUnit) (h : Hub) : Hub :=
  h.onPorts fun v => v.set p (g (v.get p))

/-- Updates one trailing axle of the steering unit. -/
def Hub.onAxleSteer (t : Trailing) (g : AxleSteer → AxleSteer) (h : Hub) : Hub :=
  h.onSteering fun u => { u with axles := u.axles.set t (g (u.axles.get t)) }

/-- Updates one axle of the brake unit. -/
def Hub.onAxleBrake (k : Axle) (g : AxleBrake → AxleBrake) (h : Hub) : Hub :=
  h.onBrake fun u => { u with axles := u.axles.set k (g (u.axles.get k)) }

/-- Updates one circuit of the levelling unit. -/
def Hub.onCircuit (c : Circuit) (g : CircuitLevel → CircuitLevel) (h : Hub) : Hub :=
  h.onLevel fun u => { u with circuits := u.circuits.set c (g (u.circuits.get c)) }

/-- Updates one door of the door unit. -/
def Hub.onDoor (d : Door) (g : DoorHold → DoorHold) (h : Hub) : Hub :=
  h.onDoors fun u => { u with doors := u.doors.set d (g (u.doors.get d)) }

/-- Updates one sector of the store. -/
def Hub.onSector (k : SectorId) (g : Sector → Sector) (h : Hub) : Hub :=
  h.onStore fun u => { u with sectors := u.sectors.set k (g (u.sectors.get k)) }

/-- Reading one part of a unit. -/
def Hub.axleSteer (h : Hub) (t : Trailing) : AxleSteer := h.steering.axles.get t
/-- Reading one axle of the brake unit. -/
def Hub.axleBrake (h : Hub) (k : Axle) : AxleBrake := h.brake.axles.get k
/-- Reading one circuit of the levelling unit. -/
def Hub.circuit (h : Hub) (c : Circuit) : CircuitLevel := h.level.circuits.get c
/-- Reading one door of the door unit. -/
def Hub.door (h : Hub) (d : Door) : DoorHold := h.doors.doors.get d
/-- Reading one port unit. -/
def Hub.port (h : Hub) (p : Port) : PortUnit := h.ports.get p
/-- Reading one sector of the store. -/
def Hub.sector (h : Hub) (k : SectorId) : Sector := h.store.sectors.get k

/-! ## Bytes of a reply (R150) -/

/-- One byte, in two's complement when negative. -/
def be1 (x : Int) : List Byte := [BitVec.ofInt 8 x]

/-- Two bytes of a 16-bit word, most significant first. -/
def halfBytes (w : Half) : List Byte := [w.extractLsb' 8 8, w.extractLsb' 0 8]

/-- Two bytes, most significant first, in two's complement when negative. -/
def be2 (x : Int) : List Byte := halfBytes (BitVec.ofInt 16 x)

/-- Four bytes of a 32-bit word, most significant first. -/
def wordBytes (w : Word) : List Byte :=
  [w.extractLsb' 24 8, w.extractLsb' 16 8, w.extractLsb' 8 8, w.extractLsb' 0 8]

/-- Four bytes, most significant first, in two's complement when negative. -/
def be4 (x : Int) : List Byte := wordBytes (BitVec.ofInt 32 x)

/-- A pair written "no or yes", "off or on" or "clear or set": position 0 or 1. -/
def noYes (b : Bool) : List Byte := be1 (if b then 1 else 0)

/-- A pair written "active or inactive", "true or false" or "applying or not": position 0 or 1. -/
def yesNo (b : Bool) : List Byte := be1 (if b then 0 else 1)

/-- A field that may be absent: 0 and zeros, or 1 and the value; `zero` is a value of the field's width. -/
def optBytes {α : Type} (zero : α) (enc : α → List Byte) : Option α → List Byte
  | none => 0#8 :: (enc zero).map fun _ => 0#8
  | some x => 1#8 :: enc x

/-- A duration, two bytes wide: its state (0 stopped, 1 running) and its value, zeros when stopped (R150; log
entry 15). -/
def Count.bytes : Count → List Byte
  | .stopped => 0#8 :: be2 0
  | .running t => 1#8 :: be2 t

end Sys2Proof.Machine
end

