-- ==== Sys2Proof/Machine/Operands.lean ====
section
/-! DEFINITION. The operand forms of the requests: what each payload must be, and what it says (R127, R128, R152,
R156, R163, R164, R166, R171). `none` is a payload the rule refuses RANGE. -/

namespace Sys2Proof.Machine

/-- A 16-bit value, most significant byte first (R148). -/
def halfOf (hi lo : Byte) : Half := hi ++ lo

/-- The one byte of a one-byte payload. -/
def oneByte : List Byte → Option Byte
  | [b] => some b
  | _ => none

/-- A door mask of one byte, at most 31 (R127, R128). -/
def doorMask : List Byte → Option DoorMask
  | [b] => if b.toNat ≤ 31 then some (b.setWidth 5) else none
  | _ => none

/-- Whether a mask names a door (R125). -/
def inMask (mask : DoorMask) : Door → Bool
  | .d1 => mask.getLsbD 0
  | .d2 => mask.getLsbD 1
  | .d3 => mask.getLsbD 2
  | .d4 => mask.getLsbD 3
  | .d5 => mask.getLsbD 4

/-- The byte of the mask of the doors that satisfy a condition (R127, R128). -/
def maskByte (f : Door → Bool) : Byte :=
  BitVec.ofNat 8 ((if f .d1 then 1 else 0) + (if f .d2 then 2 else 0) + (if f .d3 then 4 else 0)
    + (if f .d4 then 8 else 0) + (if f .d5 then 16 else 0))

/-- A drive demand of four bytes: seq, decel, drive-state code (R152). -/
def demandOf : List Byte → Option Demand
  | [seq, hi, lo, drive] => some ⟨seq, halfOf hi lo, drive⟩
  | _ => none

/-- MAP WRITE's port and class set (R156). -/
def mapOperand : List Byte → Option (Port × ClassSet)
  | [port, set] =>
    match Port.ofNum? port.toNat with
    | some p => if set.toNat ≤ 31 then some (p, set.setWidth 5) else none
    | none => none
  | _ => none

/-- ROUTE WRITE's event kind and port set (R164). -/
def routeOperand : List Byte → Option (EventKind × PortSet)
  | [kind, set] =>
    match EventKind.ofNum? kind.toNat with
    | some k => if set.toNat ≤ 7 then some (k, set.setWidth 3) else none
    | none => none
  | _ => none

/-- TAKE's number of entries, 1 to 8 (R163). -/
def takeOperand : List Byte → Option Nat
  | [n] => if 1 ≤ n.toNat ∧ n.toNat ≤ 8 then some n.toNat else none
  | _ => none

/-- A sector, of one byte (R166; the width: log entry 33). -/
def sectorOperand : List Byte → Option SectorId
  | [k] => SectorId.ofNum? k.toNat
  | _ => none

/-- STORE READ's sector and slot, 0 to 31, a byte each (R166; the widths: log entry 33). -/
def readOperand : List Byte → Option StoreOp
  | [k, slot] => (SectorId.ofNum? k.toNat).bind fun sector =>
      if slot.toNat ≤ 31 then some (.read sector slot.toNat) else none
  | _ => none

/-- STORE WRITE's sector and slot, 0 to 30, a byte each, and 16-bit value (R166; the widths: log entry 33). -/
def writeOperand : List Byte → Option StoreOp
  | [k, slot, hi, lo] => (SectorId.ofNum? k.toNat).bind fun sector =>
      if slot.toNat ≤ 30 then some (.write sector slot.toNat (halfOf hi lo)) else none
  | _ => none

end Sys2Proof.Machine
end

