-- ==== Sys2Proof/Machine/Frames.lean ====
section
/-! DEFINITION. One frame on a port: what its data out carries, how the frame is counted and judged, and the answer
that becomes the pending reply (R148 to R152). -/

namespace Sys2Proof.Machine

/-- Status codes (R150). -/
def Status.num : Status → Nat
  | .done => 0
  | .taken => 1
  | .retry => 2
  | .refused => 3
  | .denied => 4
  | .locked => 5
  | .slotBusy => 6
  | .frameError => 7
  | .starting => 8
  | .none => 9

/-- Reason codes (R150). -/
def Reason.num : Reason → Nat
  | .notStandstill => 1
  | .interlock => 2
  | .haltNotApplied => 3
  | .kneelActive => 4
  | .doorDisabled => 5
  | .sectorLocked => 6
  | .notEmpty => 7
  | .sectorClosed => 8
  | .torn => 9
  | .range => 10
  | .unknownObject => 11
  | .tooFast => 12
  | .circuitExcluded => 13

/-- DONE with a payload. -/
def Answer.done (payload : List Byte) : Answer := ⟨.done, payload⟩
/-- REFUSED: the reason byte, then the data its rule states (R150). -/
def Answer.refused (r : Reason) (data : List Byte) : Answer := ⟨.refused, be1 r.num ++ data⟩
/-- An answer that carries no payload (R150). -/
def Answer.plain (s : Status) : Answer := ⟨s, []⟩

/-- A reply's bytes before its check byte (R150). -/
def Reply.head (r : Reply) : List Byte := be1 r.status.num ++ r.code :: r.tag :: be1 r.payload.length ++ r.payload

/-- A reply's bytes (R150). -/
def Reply.bytes (r : Reply) : List Byte := r.head ++ [crc8 r.head]

/-- What data out carries during a frame of `n` bytes: the pending reply, cut short or followed by 0x00 (R150). -/
def Reply.shiftOut (r : Reply) (n : Nat) : List Byte := (r.bytes ++ List.replicate n 0x00#8).take n

/-- The number of bytes clocked in a request's frame (R148). -/
def clockedBytes (q : Request) : Nat := q.payload.length + 5 + q.pad

/-- A frame of `n` bytes consumes the port's pending reply (R150) and is counted (R149, R151). -/
def Hub.clockFrame (p : Port) (n : Nat) (h : Hub) : Hub :=
  (h.onPins fun u => { u with dataOut := u.dataOut.set p ((h.port p).pending.shiftOut n) }).onPort p fun u =>
    { u with frames := u.frames + 1 }

/-- The answer becomes the port's pending reply (R150). -/
def Hub.reply (p : Port) (code tag : Byte) (a : Answer) (h : Hub) : Hub :=
  h.onPort p fun u => { u with pending := ⟨a.status, code, tag, a.payload⟩ }

/-- How a request is served: the part afterwards, and the answer. -/
abbrev Service := Hub → Hub × Answer

/-- One frame that passes R149: its bytes are clocked, it is counted, judged and answered (R151). -/
def Hub.exchange (q : Request) (code : Byte) (judge : Service) (h : Hub) : Hub :=
  let judged := judge (h.clockFrame q.port (clockedBytes q))
  judged.1.reply q.port code q.tag judged.2

/-- An answer that changes nothing else. -/
def answering (a : Answer) : Service := fun h => (h, a)

/-- Step 3 of R151: STARTING until the active set has been loaded. -/
def whenLoaded (next : Service) : Service := fun h =>
  if h.clock.loaded then next h else (h, .plain .starting)

/-- The five access classes (section 10.3). -/
inductive AccessClass where
  | demand | passenger | calibration | supervision | status
  deriving DecidableEq, Repr

/-- The bit of a class in a class set (R156). -/
def AccessClass.bit : AccessClass → Nat
  | .demand => 0
  | .passenger => 1
  | .calibration => 2
  | .supervision => 3
  | .status => 4

/-- Whether a port holds a class (R156). -/
def Hub.holds (h : Hub) (p : Port) (c : AccessClass) : Bool := (h.access.map.get p).getLsbD c.bit

/-- Step 6 of R151: DENIED where the port does not hold the class. -/
def whenAllowed (p : Port) (c : AccessClass) (next : Service) : Service := fun h =>
  if h.holds p c then next h
  else (h.onPort p fun u => { u with denied := u.denied + 1 }, .plain .denied)

/-- Step 7 of R151: RETRY while the port's posted buffer is OCCUPIED. -/
def whenUnposted (p : Port) (next : Service) : Service := fun h =>
  if (h.port p).posted.isSome then (h, .plain .retry) else next h

/-- A FETCH of a record (R151, R165): the copy is made of the state at the moment the FETCH is taken. -/
def Hub.fetch (q : Request) (object : Byte) (record : Service) (h : Hub) : Hub :=
  h.exchange q object (whenLoaded (whenAllowed q.port .status (whenUnposted q.port record)))

/-- Whether a FETCH on a port would be answered with its record: no step before that turns it away (R151). -/
def Hub.fetchServed (h : Hub) (p : Port) : Bool :=
  h.clock.loaded && h.holds p .status && (h.port p).posted.isNone

/-- An order answered at once (R151). -/
def Hub.order (q : Request) (code : Byte) (c : AccessClass) (serve : Service) (h : Hub) : Hub :=
  h.exchange q code (whenLoaded (whenAllowed q.port c serve))

end Sys2Proof.Machine
end

