-- ==== Sys2Proof/Machine/Calibration.lean ====
section
/-! DEFINITION. The calibration items: their home slots, ranges and built-in defaults (R5, R11, R53, R67, R87, R106,
R119, R125, R156, R164, R166), reading an item of the active set, and the load (R169). -/

namespace Sys2Proof.Machine

/-- Built-in default and range of an item. -/
structure ItemSpec where
  default : Int
  lo      : Int
  hi      : Int
  deriving DecidableEq, Repr

/-- Zero of a scan entry: 0 to 4,095 (R4). -/
def zeroSpec (default : Int) : ItemSpec := ⟨default, 0, 4095⟩

/-- Span of a scan entry: -8,192 to 8,191 (R4). -/
def spanSpec (default : Int) : ItemSpec := ⟨default, -8192, 8191⟩

/-- Zero and span of one entry with its group's defaults (R5). -/
def entrySpecs (zero span : Int) : List ItemSpec := [zeroSpec zero, spanSpec span]

/-- Sector 0: odometry and steering (R11, R53). -/
def steeringSpecs : List ItemSpec :=
  [⟨52, 20, 2000⟩, ⟨9800, 1000, 25000⟩, ⟨17900, 1000, 25000⟩, ⟨512, 0, 2048⟩, ⟨870, 0, 2048⟩, ⟨600, 0, 2048⟩,
   ⟨760, 0, 2048⟩, ⟨400, 0, 2048⟩, ⟨400, 0, 2048⟩, ⟨1500, 0, 2000⟩, ⟨1500, 0, 2000⟩, ⟨50, 1, 200⟩, ⟨50, 1, 200⟩,
   ⟨11111, 0, 25000⟩, ⟨13889, 0, 25000⟩]

/-- Sector 1: zero and span of S0 to S14 (R5, R166). -/
def conversionSpecs1 : List ItemSpec :=
  (List.replicate 2 (entrySpecs 2048 5120)).flatten ++ (List.replicate 4 (entrySpecs 2048 6144)).flatten
    ++ (List.replicate 8 (entrySpecs 2048 160)).flatten ++ entrySpecs 205 555

/-- Sector 2: zero and span of S15 to S26 (R5, R166). -/
def conversionSpecs2 : List ItemSpec :=
  (List.replicate 7 (entrySpecs 205 555)).flatten ++ entrySpecs 205 722
    ++ (List.replicate 4 (entrySpecs 205 555)).flatten

/-- The six items of one axle: A_k, U_k, B_k, Pmax_k, Lmax_k, Lnom_k (R87, R166). -/
def axleSpecs (u b : Int) : List ItemSpec :=
  [⟨640, 0, 2048⟩, ⟨u, 0, 5000⟩, ⟨b, 20, 200⟩, ⟨900, 100, 1000⟩, ⟨13000, 1000, 20000⟩, ⟨7000, 1000, 20000⟩]

/-- Sector 3: brakes (R87). -/
def brakeSpecs : List ItemSpec :=
  axleSpecs 1100 60 ++ axleSpecs 1600 75 ++ axleSpecs 1300 60 ++ axleSpecs 1300 60
    ++ [⟨300, 50, 600⟩, ⟨250, 50, 600⟩, ⟨14, 1, 15⟩, ⟨833, 500, 2000⟩]

/-- An entry of the built-in damping table: 2 plus the row plus the column, up to 15 (R67). -/
def builtInDamping (row col : Nat) : Nat := min 15 (2 + row + col)

/-- Item n of the built-in damping table: four levels, the lowest column in the most significant bits (R67, R166). -/
def dampingSpec (n : Nat) : ItemSpec :=
  let level (i : Nat) : Int := builtInDamping (n / 2) (4 * (n % 2) + i)
  ⟨level 0 * 4096 + level 1 * 256 + level 2 * 16 + level 3, 0, 65535⟩

/-- Sector 4: joints (R67). -/
def jointSpecs : List ItemSpec :=
  [⟨2500, 1000, 4500⟩, ⟨4800, 1500, 5400⟩, ⟨2000, 100, 20000⟩, ⟨1500, 0, 25000⟩, ⟨120, 0, 300⟩, ⟨120, 0, 300⟩]
    ++ [0, 1, 2, 3, 4, 5, 6, 7, 8, 9, 10, 11, 12, 13, 14, 15].map dampingSpec

/-- Sector 5: levelling (R106). -/
def levellingSpecs : List ItemSpec :=
  List.replicate 8 ⟨0, -20, 20⟩
    ++ [⟨12, 4, 30⟩, ⟨8, 2, 20⟩, ⟨600, 400, 620⟩, ⟨650, 630, 900⟩, ⟨40, 10, 100⟩, ⟨70, 40, 100⟩]

/-- Sector 6: doors and kneel (R119, R125). -/
def doorSpecs : List ItemSpec := [⟨31, 0, 31⟩, ⟨0, 0, 1⟩, ⟨1, 0, 1⟩, ⟨1, 0, 1⟩]

/-- Sector 7: access and routing, with the built-in map, the lock clear and the built-in routing table (R169). -/
def accessSpecs : List ItemSpec :=
  Port.all.map (fun p => ⟨(builtInMap.get p).toNat, 0, 31⟩) ++ [⟨0, 0, 1⟩]
    ++ EventKind.all.map fun k => ⟨(builtInRouting.get k).toNat, 0, 7⟩

/-- The items of a sector in the order of their home slots, from slot 0 (R166). -/
def itemSpecs : SectorId → List ItemSpec
  | .s0 => steeringSpecs
  | .s1 => conversionSpecs1
  | .s2 => conversionSpecs2
  | .s3 => brakeSpecs
  | .s4 => jointSpecs
  | .s5 => levellingSpecs
  | .s6 => doorSpecs
  | .s7 => accessSpecs

/-! ## Reading the active set -/

/-- The value in force of the item at a home slot. -/
def Hub.item (h : Hub) (k : SectorId) (slot : Nat) : Int :=
  (((h.store.active.get k)[slot]?).map Item.value).getD 0

/-- Wp, tenths of travel per wheel pulse (R11). -/
def Hub.wp (h : Hub) : Nat := (h.item .s0 0).toNat
/-- The lag of a trailing axle, mm (R53). -/
def Hub.lag (h : Hub) : Trailing → Int
  | .a3 => h.item .s0 1
  | .a4 => h.item .s0 2
/-- The joint gain K of a trailing axle (R53). -/
def Hub.gainK (h : Hub) : Trailing → Int
  | .a3 => h.item .s0 3
  | .a4 => h.item .s0 5
/-- The path gain G of a trailing axle (R53). -/
def Hub.gainG (h : Hub) : Trailing → Int
  | .a3 => h.item .s0 4
  | .a4 => h.item .s0 6
/-- The reverse gain Krev of a trailing axle (R53). -/
def Hub.gainRev (h : Hub) : Trailing → Int
  | .a3 => h.item .s0 7
  | .a4 => h.item .s0 8
/-- The angle limit of a trailing axle, cd (R53). -/
def Hub.angleMax (h : Hub) : Trailing → Int
  | .a3 => h.item .s0 9
  | .a4 => h.item .s0 10
/-- The rate limit of a trailing axle, cd per period (R53). -/
def Hub.rateMax (h : Hub) : Trailing → Int
  | .a3 => h.item .s0 11
  | .a4 => h.item .s0 12
/-- Speed at which the fade begins, mm/s (R53). -/
def Hub.vlo (h : Hub) : Int := h.item .s0 13
/-- Speed at which the fade ends, mm/s (R53). -/
def Hub.vhi (h : Hub) : Int := h.item .s0 14

/-- Zero and span of scan entry n (R166). -/
def Hub.zeroSpan (h : Hub) (n : Nat) : Int × Int :=
  if n ≤ 14 then (h.item .s1 (2 * n), h.item .s1 (2 * n + 1))
  else (h.item .s2 (2 * (n - 15)), h.item .s2 (2 * (n - 15) + 1))

/-- Item i of an axle: 0 A_k, 1 U_k, 2 B_k, 3 Pmax_k, 4 Lmax_k, 5 Lnom_k (R166). -/
def Hub.axleItem (h : Hub) (k : Axle) (i : Nat) : Int := h.item .s3 (6 * (k.num - 1) + i)
/-- Bellows factor A_k (R87). -/
def Hub.bellowsFactor (h : Hub) (k : Axle) : Int := h.axleItem k 0
/-- Unsprung mass U_k, kg (R87). -/
def Hub.unsprung (h : Hub) (k : Axle) : Int := h.axleItem k 1
/-- Brake factor B_k, N per kPa (R87). -/
def Hub.brakeFactor (h : Hub) (k : Axle) : Int := h.axleItem k 2
/-- Pressure limit Pmax_k, kPa (R87). -/
def Hub.pmax (h : Hub) (k : Axle) : Nat := (h.axleItem k 3).toNat
/-- Load limit Lmax_k, kg (R87). -/
def Hub.loadMax (h : Hub) (k : Axle) : Int := h.axleItem k 4
/-- Nominal load Lnom_k, kg (R87). -/
def Hub.loadNom (h : Hub) (k : Axle) : Int := h.axleItem k 5
/-- Halt pressure, kPa (R87). -/
def Hub.phalt (h : Hub) : Nat := (h.item .s3 24).toNat
/-- Halt confirmation pressure, kPa (R87). -/
def Hub.phaltMin (h : Hub) : Int := h.item .s3 25
/-- Whether an axle is in the halt axle set: 1 for A1, 2 for A2, 4 for A3, 8 for A4 (R87). -/
def Hub.haltAxle (h : Hub) (k : Axle) : Bool := (h.item .s3 26).toNat.testBit (k.num - 1)
/-- Speed limit of halt apply, mm/s (R87). -/
def Hub.vEmerg (h : Hub) : Nat := (h.item .s3 27).toNat

/-- Warning angle, cd (R67). -/
def Hub.phiWarn (h : Hub) : Int := h.item .s4 0
/-- Limit angle, cd (R67). -/
def Hub.phiLimit (h : Hub) : Int := h.item .s4 1
/-- Rate at which a fold counts as growing, cd/s (R67). -/
def Hub.omegaWarn (h : Hub) : Int := h.item .s4 2
/-- Speed from which stretch is asked for, mm/s (R67). -/
def Hub.vStretch (h : Hub) : Int := h.item .s4 3
/-- Stretch pressure of a joint, kPa (R67). -/
def Hub.pst (h : Hub) : Joint → Nat
  | .j1 => (h.item .s4 4).toNat
  | .j2 => (h.item .s4 5).toNat
/-- Entry of the damping table at a speed band and an angle band: table item 2·row + col/4, the lowest column in the
most significant four bits (R67, R166). -/
def Hub.dampingEntry (h : Hub) (row col : Nat) : Nat :=
  (h.item .s4 (6 + 2 * row + col / 4)).toNat / 16 ^ (3 - col % 4) % 16

/-- Trim of a circuit, mm (R106). -/
def Hub.trim (h : Hub) (c : Circuit) : Int := h.item .s5 (c.num - 1)
/-- Band of RIDE and RAISE targets, mm (R106). -/
def Hub.dbRide (h : Hub) : Int := h.item .s5 8
/-- Band of KNEEL targets, mm (R106). -/
def Hub.dbKneel (h : Hub) : Int := h.item .s5 9
/-- Reservoir pressure that begins the cut, kPa (R106). -/
def Hub.presCut (h : Hub) : Int := h.item .s5 10
/-- Reservoir pressure that lifts the cut, kPa (R106). -/
def Hub.presMin (h : Hub) : Int := h.item .s5 11
/-- Section mismatch that pauses a kneel, mm (R106). -/
def Hub.hmis (h : Hub) : Int := h.item .s5 12
/-- Kneel depth, mm (R106). -/
def Hub.kneelDepth (h : Hub) : Int := h.item .s5 13

/-- The door enable mask (R125). -/
def Hub.enableMask (h : Hub) : Nat := (h.item .s6 0).toNat
/-- Whether the door side is left: the kneel side item (R119). -/
def Hub.sideLeft (h : Hub) : Bool := h.item .s6 1 = 1
/-- Whether the kneel scope is SIDE (R119). -/
def Hub.scopeSide (h : Hub) : Bool := h.item .s6 2 = 1
/-- Whether auto-raise is ON (R119). -/
def Hub.autoRaiseOn (h : Hub) : Bool := h.item .s6 3 = 1

/-! ## The load (R169) -/

/-- The content of a slot 0 to 30; `none` reads EMPTY (R166). -/
def slotContent : List (Nat × SlotContent) → Nat → Option SlotContent
  | [], _ => none
  | (n, c) :: rest, slot => if n = slot then some c else slotContent rest slot

/-- The values of the WRITTEN slots 0 to 30. -/
def writtenValues (sec : Sector) : List Half :=
  sec.slots.filterMap fun x =>
    match x.2 with
    | .written v => some v
    | .torn => none

/-- The check value of a close: the sum of the WRITTEN values, modulo 65,536 (R166). -/
def checkSum (sec : Sector) : Half := (writtenValues sec).foldl (· + ·) 0

/-- A sector is torn while its clear-in-progress flag is set or any of its slots, the mark included, is TORN (R166). -/
def Sector.isTorn (sec : Sector) : Bool :=
  sec.clearing || sec.mark == .torn || sec.slots.any fun x => x.2 == .torn

/-- A sector is closed while slot 31 is WRITTEN (R166). -/
def Sector.isClosed (sec : Sector) : Bool :=
  match sec.mark with
  | .written _ _ => true
  | _ => false

/-- Whether a sector is closed with a check value and a count that match its WRITTEN slots (R169). -/
def Sector.matches (sec : Sector) : Bool :=
  match sec.mark with
  | .written check count => check == checkSum sec && count == (writtenValues sec).length
  | _ => false

/-- The number a stored 16-bit value is read as: signed where the item's range includes negative values (R166). -/
def ItemSpec.read (spec : ItemSpec) (v : Half) : Int := if spec.lo < 0 then v.toInt else v.toNat

/-- The built-in default of an item. -/
def ItemSpec.builtIn (spec : ItemSpec) : Item := ⟨spec.default, .default⟩

/-- An item of a sector that is used: its default where the home slot is EMPTY, else the stored value clamped to the
range (R169). -/
def loadItem (spec : ItemSpec) : Option SlotContent → Item
  | some (.written v) =>
    let x := spec.read v
    if spec.lo ≤ x ∧ x ≤ spec.hi then ⟨x, .stored⟩ else ⟨clampTo spec.lo spec.hi x, .corrected⟩
  | _ => spec.builtIn

/-- The items of a used sector from a slot on. -/
def loadItems (sec : Sector) : Nat → List ItemSpec → List Item
  | _, [] => []
  | slot, spec :: rest => loadItem spec (slotContent sec.slots slot) :: loadItems sec (slot + 1) rest

/-- The value of an item in a list of items. -/
def itemValue (items : List Item) (slot : Nat) : Int := ((items[slot]?).map Item.value).getD 0

/-- A pair of items that fails its cross-item check takes both built-in defaults (R169). -/
def restorePair (items : List Item) (i : Nat) (a b : Int) : List Item :=
  (items.set i ⟨a, .corrected⟩).set (i + 1) ⟨b, .corrected⟩

/-- The cross-item checks: Vlo below Vhi (R53), the limit angle above the warning angle plus 300 (R67). -/
def crossCheck (k : SectorId) (items : List Item) : List Item :=
  match k with
  | .s0 => if itemValue items 13 < itemValue items 14 then items else restorePair items 13 11111 13889
  | .s4 => if itemValue items 0 + 300 < itemValue items 1 then items else restorePair items 0 2500 4800
  | _ => items

/-- The load of one sector: its items and its status (R169). -/
def loadSector (k : SectorId) (sec : Sector) : List Item × SectorStatus :=
  let defaults := (itemSpecs k).map ItemSpec.builtIn
  if sec.isTorn then (defaults, .torn)
  else if sec.matches then
    let items := crossCheck k (loadItems sec 0 (itemSpecs k))
    (items, if items.any fun x => x.source == .corrected then .clamped else .valid)
  else (defaults, .defaulted)

/-- Installs the result of a load: the active set, the sector statuses, and one more load counted (R169 to R171). -/
def Hub.installLoad (h : Hub) : Hub :=
  h.onStore fun u =>
    { u with
      active := .tab fun k => (loadSector k (u.sectors.get k)).1
      statuses := .tab fun k => (loadSector k (u.sectors.get k)).2
      loads := u.loads + 1 }

end Sys2Proof.Machine
end

