-- ==== Sys2Proof/Machine/Flags.lean ====
section
/-! DEFINITION. Event flags: raising an event into the port queues, the attention lines (R161 to R163), and the
direct lines of the link (R145). -/

namespace Sys2Proof.Machine

/-- Whether a port set names a port (R164). -/
def inPortSet (set : PortSet) : Port → Bool
  | .m => set.getLsbD 0
  | .b => set.getLsbD 1
  | .s => set.getLsbD 2

/-- A raise into one queue: it coalesces into the entry of its kind and subject, or is placed at the tail (R162). -/
def placeEvent (now : Word) (kind : EventKind) (subject : Nat) (value : Half) : List EventEntry → List EventEntry
  | [] => [⟨kind, subject, 1, now, now, value⟩]
  | e :: es =>
    if e.kind = kind ∧ e.subject = subject then
      { e with count := min 255 (e.count + 1), last := now, value := value } :: es
    else e :: placeEvent now kind subject value es

/-- A raise at the event unit: it reaches the queue of each port in the kind's port set, whose attention line is
then active (R162, R163). -/
def EventUnit.raise (now : Word) (kind : EventKind) (subject : Nat) (value : Half) (u : EventUnit) : EventUnit :=
  let set := u.routing.get kind
  { u with
    queues := .tab fun p =>
      if inPortSet set p then placeEvent now kind subject value (u.queues.get p) else u.queues.get p
    attention := .tab fun p => inPortSet set p || u.attention.get p }

/-- A unit raises an event, at the part's millisecond count (R162); a signed value is carried in two's
complement (R161). -/
def Hub.raise (kind : EventKind) (subject : Nat) (value : Int) (h : Hub) : Hub :=
  h.onEvents (EventUnit.raise h.clock.ms kind subject (BitVec.ofInt 16 value))

/-- Drives a door's release line (R126, R145). -/
def Hub.driveRelease (d : Door) (level : Bool) (h : Hub) : Hub :=
  h.onLink fun u => { u with lines := { u.lines with release := u.lines.release.set d level } }

/-- Drives the move-permit line (R136, R145). -/
def Hub.drivePermit (level : Bool) (h : Hub) : Hub :=
  h.onLink fun u => { u with lines := { u.lines with permit := level } }

/-- Drives the torque-cut line (R64, R145). -/
def Hub.driveTorque (level : Bool) (h : Hub) : Hub :=
  h.onLink fun u => { u with lines := { u.lines with torque := level } }

/-- Writes a valve's command into the output image (R105, R139). -/
def Hub.writeValve (c : Circuit) (cmd : ValveCmd) (h : Hub) : Hub :=
  h.onLink fun u => { u with valves := u.valves.set c { u.valves.get c with image := cmd } }

/-- Writes a modulator's command into the output image (R80, R139). -/
def Hub.writeModulator (k : Axle) (cmd : ModCmd) (h : Hub) : Hub :=
  h.onLink fun u => { u with modulators := u.modulators.set k { u.modulators.get k with image := cmd } }

/-- Writes a steering actuator's command into the output image (R48, R139). -/
def Hub.writeActuator (t : Trailing) (cmd : SteerCmd) (h : Hub) : Hub :=
  h.onLink fun u => { u with actuators := u.actuators.set t { u.actuators.get t with image := cmd } }

/-- Writes a damper's level into the output image (R62, R139). -/
def Hub.writeDamper (j : Joint) (level : Nat) (h : Hub) : Hub :=
  h.onLink fun u => { u with dampers := u.dampers.set j { u.dampers.get j with image := level } }

end Sys2Proof.Machine
end

