-- ==== Sys2Proof/Machine/Interlocks.lean ====
section
/-! DEFINITION. The shared operations through which one unit's change reaches the others: the move permit and the door
condition, the circuits' action states, the fill-slot arbiter, the kneel state, the releases, the halt brake and
standstill. Each change is handed on in the step that makes it. -/

namespace Sys2Proof.Machine

/-! ## Move permit (R136) -/

/-- Standstill is TRUE; UNSETTLED counts as not at rest (R17). -/
def Hub.standing (h : Hub) : Bool := h.sensing.standstill == .yes

/-- Every enabled door is CLOSED_LOCKED; a disabled door counts as such (R125). -/
def Hub.doorsLocked (h : Hub) : Bool :=
  Door.all.all fun d => !(h.door d).enabled || (h.door d).position == .closedLocked

/-- Every door's release is WITHDRAWN. -/
def Hub.releasesWithdrawn (h : Hub) : Bool := Door.all.all fun d => (h.door d).release == .withdrawn

/-- No enabled door's handle is active (R125). -/
def Hub.handlesAtRest (h : Hub) : Bool :=
  Door.all.all fun d => !((h.door d).enabled && (h.door d).debounced.handle)

/-- The conditions of the move-permit line (R136). -/
def Hub.permitHolds (h : Hub) : Bool :=
  h.doorsLocked && h.releasesWithdrawn && h.handlesAtRest && h.kneel.state == .ride && h.brake.halt == .released

/-- Recomputes the move-permit line; a change drives the line and raises MOVE_PERMIT (R136). -/
def Hub.judgePermit (h : Hub) : Hub :=
  if h.doors.permit = h.permitHolds then h
  else
    ((h.onDoors fun u => { u with permit := h.permitHolds }).drivePermit h.permitHolds).raise .movePermit 0
      (if h.permitHolds then 1 else 0)

/-! ## Action states, slots and queue (chapter 6) -/

/-- An axle is active while standstill is TRUE and one of its circuits fills or vents (R78). -/
def Hub.axleActive (h : Hub) (k : Axle) : Bool :=
  h.standing &&
    [k.left, k.right].any fun c => (h.circuit c).action == .fill || (h.circuit c).action == .vent

/-- The brake unit judges an axle's activity anew (R78). -/
def Hub.judgeActivity (k : Axle) (h : Hub) : Hub :=
  h.onAxleBrake k fun a =>
    { a with
      activity :=
        if h.axleActive k then .on
        else
          match a.activity with
          | .on => .after 500
          | x => x }

/-- Judges every axle's activity, at a change of standstill (R78). -/
def Hub.judgeActivities (h : Hub) : Hub := Axle.all.foldl (fun h k => h.judgeActivity k) h

/-- Changes a circuit's action state and hands the change to the brake unit (R105, R78). -/
def Hub.setAction (c : Circuit) (a : Action) (h : Hub) : Hub :=
  (h.onCircuit c fun x => { x with action := a }).judgeActivity c.axle

/-- Releases the slot a circuit holds. -/
def Hub.releaseSlot (c : Circuit) (h : Hub) : Hub :=
  h.onLevel fun u =>
    { u with slots := u.slots.map fun x => x.filter fun s => !(s.circuit == c) }

/-- Takes a circuit's entry out of the fill queue. -/
def Hub.leaveQueue (c : Circuit) (h : Hub) : Hub :=
  h.onLevel fun u => { u with queue := u.queue.filter fun e => !(e.circuit == c) }

/-- Places an entry at the tail of its class (R96). -/
def tailOfClass (x : QueueEntry) (q : List QueueEntry) : List QueueEntry :=
  (q.filter fun e => e.cls ≤ x.cls) ++ x :: q.filter fun e => x.cls < e.cls

/-- Places an entry at the head of its class (R96, R99). -/
def headOfClass (x : QueueEntry) (q : List QueueEntry) : List QueueEntry :=
  (q.filter fun e => e.cls < x.cls) ++ x :: q.filter fun e => x.cls ≤ e.cls

/-- A circuit in FILL, FILL_WAIT or VENT returns to HOLD, releasing its slot or leaving the queue. -/
def Hub.toHold (c : Circuit) (h : Hub) : Hub := ((h.releaseSlot c).leaveQueue c).setAction c .hold

/-- The lowest-numbered free slot (R97). -/
def freeSlot (slots : PerSlot (Option HeldSlot)) : Option FillSlot :=
  FillSlot.all.find? fun i => (slots.get i).isNone

/-- One grant of the arbiter, if the cut is LIFTED, a slot is free and the queue is not empty (R97). -/
def Hub.grantHead (h : Hub) : Hub :=
  match h.level.cut, freeSlot h.level.slots, h.level.queue with
  | false, some i, e :: rest =>
    (h.onLevel fun u =>
      { u with
        queue := rest
        slots := u.slots.set i (some ⟨e.circuit, 0, u.grants, e.cls⟩)
        grants := u.grants + 1 }).setAction e.circuit .fill
  | _, _, _ => h

/-- The arbiter's grants, until the three slots are full or the queue is empty (R97). -/
def Hub.grant (h : Hub) : Hub := h.grantHead.grantHead.grantHead

/-- Grants made at a release of a slot outside a period (R97). -/
def Hub.grantIfFreed (before after : PerSlot (Option HeldSlot)) (h : Hub) : Hub :=
  if before = after then h else h.grant

/-- The valve command of an action state (R105). -/
def valveOf : Action → ValveCmd
  | .fill => .fill
  | .vent => .vent
  | .hold | .fillWait | .excluded => .hold

/-- Writes every circuit's valve command into the output image in one step (R105, R139). -/
def Hub.writeValves (h : Hub) : Hub :=
  h.onLink fun u =>
    { u with valves := .tab fun c => { u.valves.get c with image := valveOf (h.circuit c).action } }

/-! ## Kneel state (chapter 7) -/

/-- Whether a circuit is on the left side (00). -/
def Circuit.isLeft : Circuit → Bool
  | .c1 | .c3 | .c5 | .c7 => true
  | .c2 | .c4 | .c6 | .c8 => false

/-- Whether a circuit is on the door side: the kneel side of the active set (R119). -/
def Hub.onDoorSide (h : Hub) (c : Circuit) : Bool := Circuit.isLeft c == h.sideLeft

/-- Whether a circuit is in the kneel's scope (R110). -/
def Hub.inScope (h : Hub) (c : Circuit) : Bool :=
  h.onDoorSide c && (h.scopeSide || c == .c1 || c == .c2)

/-- The circuits in scope, in circuit order (R110). -/
def Hub.scope (h : Hub) : List Circuit := Circuit.all.filter h.inScope

/-- A circuit in scope at the entry into STOPPED: it returns to HOLD from an action, and unless EXCLUDED it is held
with reason KNEEL_STOPPED (R102). -/
def Hub.stopCircuit (h : Hub) (c : Circuit) : Hub :=
  match (h.circuit c).action with
  | .excluded => h
  | .hold => h.onCircuit c fun x => { x with reason := .kneelStopped }
  | .fill | .fillWait | .vent => (h.toHold c).onCircuit c fun x => { x with reason := .kneelStopped }

/-- The levelling unit takes a change of the kneel state (R102, R92). -/
def Hub.levellingTakesKneel (old new : KneelState) (h : Hub) : Hub :=
  match new with
  | .stopped =>
    let stopped := h.scope.foldl Hub.stopCircuit h
    (stopped.grantIfFreed h.level.slots stopped.level.slots).writeValves
  | .ride =>
    h.onLevel fun u =>
      { u with
        circuits := u.circuits.map fun x =>
          { x with
            source := if x.source = .raise then .ride else x.source
            reason := if old = .stopped ∧ x.reason = .kneelStopped then .none else x.reason } }
  | .lowering | .knelt | .raising =>
    h.onLevel fun u =>
      { u with
        circuits := u.circuits.map fun x =>
          { x with reason := if old = .stopped ∧ x.reason = .kneelStopped then .none else x.reason } }

/-- The brake unit takes a change of the kneel state (R77). -/
def Hub.brakeTakesKneel (old new : KneelState) (h : Hub) : Hub :=
  if new = .ride then
    if old = .ride then h else h.onBrake fun u => { u with kneelFreeze := .after 2000 }
  else
    if old = .ride then h.onBrake fun u => { u with kneelFreeze := .on } else h

/-- The value of a KNEEL_STATE event (R118). -/
def KneelState.num : KneelState → Nat
  | .ride => 0
  | .lowering => 1
  | .knelt => 2
  | .raising => 3
  | .stopped => 4

/-- Changes the kneel state: the event, and the hand-over to the levelling, brake and door units (R117, R118). On
leaving STOPPED its cause, circuit and state before become absent (R116). -/
def Hub.setKneel (new : KneelState) (h : Hub) : Hub :=
  let old := h.kneel.state
  let changed := (h.onKneel fun u =>
    if new = .stopped then { u with state := new }
    else { u with state := new, cause := none, circuit := none, before := none }).raise .kneelState 0 new.num
  ((changed.levellingTakesKneel old new).brakeTakesKneel old new).judgePermit

/-- A kneel in progress is stopped (R116). -/
def Hub.stopKneel (cause : StopCause) (circuit : Option Circuit) (h : Hub) : Hub :=
  match h.kneel.state with
  | .lowering | .knelt | .raising =>
    (h.onKneel fun u => { u with cause := some cause, circuit := circuit, before := some u.state }).setKneel .stopped
  | .ride | .stopped => h

/-- Writes the kneel targets or the raise targets of every circuit in scope at one moment (R110). -/
def Hub.writeTargets (source : TargetSource) (h : Hub) : Hub :=
  h.onLevel fun u =>
    { u with
      circuits := .tab fun c =>
        if h.inScope c then
          { u.circuits.get c with
            target := if source = .kneel then h.trim c - h.kneelDepth else h.trim c
            source := source }
        else u.circuits.get c }

/-- The kneel unit takes an auto-raise trigger (R115). -/
def Hub.autoRaise (h : Hub) : Hub :=
  if h.autoRaiseOn = true ∧ (h.kneel.state = .lowering ∨ h.kneel.state = .knelt) then
    (h.writeTargets .raise).setKneel .raising
  else h

/-! ## Exclusion (R103) -/

/-- Whether a circuit has any exclusion cause. -/
def Causes.any (x : Causes) : Bool := x.height || x.valve || x.chain

/-- A circuit becomes EXCLUDED inside the levelling unit: it leaves the queue, releases its slot, and its persistence
count and hold reason are cleared (R103); the count's direction stays (log entry 36). -/
def Hub.takeOut (h : Hub) (c : Circuit) : Hub :=
  (((h.releaseSlot c).leaveQueue c).onCircuit c fun x => { x with count := 0, reason := .none }).setAction c .excluded

/-- A cause reaches circuits: those not yet EXCLUDED become so; each is handed to the kneel unit, and a freed slot is
then granted (R103, R116, R97; log entry 11). -/
def Hub.exclude (cs : List Circuit) (add : Causes → Causes) (h : Hub) : Hub :=
  let newly := cs.filter fun c => !((h.circuit c).action == .excluded)
  let marked := cs.foldl (fun h c => h.onCircuit c fun x => { x with causes := add x.causes }) h
  let out := newly.foldl Hub.takeOut marked
  let handed := newly.foldl (fun h c => if h.inScope c then h.stopKneel .exclusion (some c) else h) out
  (handed.grantIfFreed h.level.slots out.level.slots).writeValves

/-- A cause clears on circuits; they return to HOLD at a later stage 2 (R103, R104). -/
def Hub.clearCause (cs : List Circuit) (drop : Causes → Causes) (h : Hub) : Hub :=
  cs.foldl (fun h c => h.onCircuit c fun x => { x with causes := drop x.causes }) h

/-! ## Door condition and releases (chapter 8) -/

/-- Recomputes the door condition; a change to true hands an auto-raise trigger (R135). -/
def Hub.judgeCondition (h : Hub) : Hub :=
  let now := h.doorsLocked && h.releasesWithdrawn
  if h.doors.condition = now then h
  else
    let changed := h.onDoors fun u => { u with condition := now }
    if now then changed.autoRaise else changed

/-- The value of a DOOR_RELEASE event, less the mark (R126). -/
def Release.num : Release → Nat
  | .withdrawn => 0
  | .waiting => 1
  | .granted => 2

/-- Raises DOOR_RELEASE for a door: its release, with 4 added when the emergency mark is set (R126). -/
def Hub.raiseRelease (d : Door) (h : Hub) : Hub :=
  h.raise .doorRelease d.num ((h.door d).release.num + if (h.door d).mark then 4 else 0)

/-- Changes a door's release: the line, the event, the door condition and the move permit in the same step (R126),
the event before the KNEEL_STATE of an auto-raise (R118, R162; log entry 27). -/
def Hub.setRelease (d : Door) (new : Release) (h : Hub) : Hub :=
  if (h.door d).release = new then h
  else
    let changed := (h.onDoor d fun x => { x with release := new }).onDoors fun u => { u with changes := u.changes + 1 }
    (((changed.driveRelease d (new == .granted)).raiseRelease d).judgeCondition).judgePermit

/-- Every WAITING release becomes GRANTED, in door order (R129). -/
def Hub.grantWaiting (h : Hub) : Hub :=
  Door.all.foldl (fun h d => if (h.door d).release = .waiting then h.setRelease d .granted else h) h

/-- A release at a loss of standstill (R130). -/
def Hub.withdrawByMotion (h : Hub) (d : Door) : Hub :=
  if (h.door d).enabled then
    match (h.door d).release, (h.door d).mark with
    | .withdrawn, _ => h
    | .waiting, true => h
    | .granted, true => h.setRelease d .waiting
    | _, false => h.setRelease d .withdrawn
  else h

/-! ## Halt brake (section 5.7) -/

/-- The value of a HALT_STATE event (R86). -/
def HaltState.num : HaltState → Nat
  | .released => 0
  | .applying => 1
  | .applied => 2

/-- Changes the halt state: the applying time, the event, and the hand-over to the door unit, which grants waiting
releases at APPLIED with standstill TRUE and recomputes the move permit (R81, R86, R129, R136). -/
def Hub.setHalt (new : HaltState) (h : Hub) : Hub :=
  let changed := (h.onBrake fun u =>
    { u with
      halt := new
      applying := if new = .applying then .running 0 else .stopped
      haltFault := if new = .applying then false else u.haltFault }).raise .haltState 0 new.num
  (if new = .applied ∧ changed.standing = true then changed.grantWaiting else changed).judgePermit

/-- The brake unit takes an apply request of the door unit (R83). -/
def Hub.requestApply (h : Hub) : Hub := if h.brake.halt = .released then h.setHalt .applying else h

/-- The automatic halt apply (R134). -/
def Hub.judgeAutoHalt (h : Hub) : Hub :=
  if h.standing = true ∧ h.doorsLocked = false then h.requestApply else h

/-! ## Standstill (section 1.7) -/

/-- Standstill becomes TRUE: the event, waiting releases under an APPLIED halt brake, the automatic halt apply, and
the axles' activity (R17, R129, R134, R78). -/
def Hub.enterStandstill (h : Hub) : Hub :=
  let changed := (h.onSensing fun u => { u with standstill := .yes }).raise .standstill 0 1
  let granted := if changed.brake.halt = .applied then changed.grantWaiting else changed
  granted.judgeAutoHalt.judgeActivities

/-- Standstill becomes FALSE: the event; where it leaves TRUE, the kneel unit stops a kneel and the door unit handles
every release; and the axles' activity (R17, R116, R130, R78; log entry 9). -/
def Hub.leaveStandstill (h : Hub) : Hub :=
  let changed := (h.onSensing fun u => { u with standstill := .no }).raise .standstill 0 2
  (if h.standing then Door.all.foldl Hub.withdrawByMotion (changed.stopKneel .standstill none)
   else changed).judgeActivities

end Sys2Proof.Machine
end

