-- ==== Sys2Proof/Machine/PathMemory.lean ====
section
/-! DEFINITION. The path memory: pushes, pops, the underrun, and the lag lookup (chapter 2). -/

namespace Sys2Proof.Machine

/-- The number of samples the memory can hold (R20). -/
def pathCapacity : Nat := 256

/-- 1 for a sample without an angle, 0 otherwise (R20). -/
def Sample.absence (x : Sample) : Nat := if x.angle.isNone then 1 else 0

/-- The discard of the tail sample made by a push at depth 256 (R22). -/
def PathMemory.discard (p : PathMemory) : PathMemory :=
  match p.samples.getLast? with
  | some x => { p with samples := p.samples.dropLast, absent := p.absent - x.absence }
  | none => p

/-- A push of one sample carrying an angle or none (R20, R22). After an underrun its index is that of the last sample
popped, as R20, R24 and section 2.7 give it (R25 words it otherwise: log entry 37). -/
def PathMemory.push (angle : Option Int) (p : PathMemory) : PathMemory :=
  let room := if pathCapacity ≤ p.samples.length then p.discard else p
  let x : Sample := ⟨p.pushCount + 1, angle⟩
  { room with samples := x :: room.samples, pushCount := p.pushCount + 1, absent := room.absent + x.absence }

/-- Several pushes in one step, all carrying the same angle (R21). -/
def PathMemory.pushes (angle : Option Int) : Nat → PathMemory → PathMemory
  | 0, p => p
  | n + 1, p => PathMemory.pushes angle n (p.push angle)

/-- A positive increment in tenths: r grows, and each full 1,000 pushes a sample (R21). -/
def PathMemory.forward (angle : Option Int) (w : Nat) (p : PathMemory) : PathMemory :=
  { p.pushes angle ((p.r + w) / 1000) with r := (p.r + w) % 1000 }

/-- The pops of a reverse increment: while r is below 0 and a sample is held, the head goes and r grows by 1,000
(R24). Answers the memory's new samples, r, push count and absent count. -/
def popWhileNegative : List Sample → Int → Word → Nat → List Sample × Int × Word × Nat
  | [], r, count, absent => ([], r, count, absent)
  | x :: xs, r, count, absent =>
    if r < 0 then popWhileNegative xs (r + 1000) (count - 1) (absent - x.absence) else (x :: xs, r, count, absent)

/-- A negative increment, given as its magnitude in tenths (R24, R25). Answers the memory and the tenths an underrun
discarded, 0 where there was none. -/
def PathMemory.backward (w : Nat) (p : PathMemory) : PathMemory × Nat :=
  match popWhileNegative p.samples ((p.r : Int) - w) p.pushCount p.absent with
  | (samples, r, count, absent) =>
    if r < 0 then ({ p with samples := samples, r := 0, pushCount := count, absent := absent, underrun := true }, (-r).toNat)
    else ({ p with samples := samples, r := r.toNat, pushCount := count, absent := absent }, 0)

/-- The angle a pushed sample carries: the steer pair's published value, absent while the pair is in FAULT (R23). -/
def Sensing.pathAngle (u : Sensing) : Option Int := if u.steer.state = .fault then none else some u.steer.value

/-- The path memory takes an odometry increment whole (R21, R24); an underrun raises PATH with the tenths
discarded (R25). -/
def Hub.pathIncrement (dir : Direction) (w : Nat) (h : Hub) : Hub :=
  match dir with
  | .forward => h.onPath fun p => p.forward h.sensing.pathAngle w
  | .reverse =>
    match h.path.backward w with
    | (p, discarded) =>
      let moved := h.onPath fun _ => p
      if discarded = 0 then moved else moved.raise .path 0 discarded

/-- The distance back of a lookup, in tenths (R27). -/
def PathMemory.back (lag : Int) (p : PathMemory) : Nat := (10 * lag - p.r).toNat

/-- The lag lookup: the interpolated angle, or `none` where it is unavailable (R27, R28). -/
def PathMemory.lookup (lag : Int) (p : PathMemory) : Option Int :=
  let i := p.back lag / 1000
  let f : Int := (p.back lag % 1000 : Nat)
  match p.samples[i]?, p.samples[i + 1]? with
  | some x, some y =>
    match x.angle, y.angle with
    | some a, some b => some (a + quot ((b - a) * f) 1000)
    | _, _ => none
  | _, _ => none

end Sys2Proof.Machine
end

