-- ==== Sys2Proof/Machine/Sensing.lean ====
section
/-! DEFINITION. The sensing unit: conversion and plausibility (R2 to R10), the judgement of the reservoir at its
publication (R99, R100), wheel pulses, speed and standstill (R11 to R17). -/

namespace Sys2Proof.Machine

/-! ## Conversion and plausibility -/

/-- A raw result from 205 to 3,890 gives the engineering value, clamped to the group's range; any other is invalid
(R4, R5). -/
def convert (zs : Int × Int) (lo hi : Int) (raw : Raw) : Option Int :=
  if 205 ≤ raw.toNat ∧ raw.toNat ≤ 3890 then
    some (clampTo lo hi (quot (((raw.toNat : Int) - zs.1) * zs.2) 2048))
  else none

/-- The class of a pair's conversion with the value it offers; a SINGLE one says whether a was the invalid
sensor (R6). -/
inductive Conversion where
  | agree (value : Int)
  | single (value : Int) (aInvalid : Bool)
  | unusable
  deriving DecidableEq, Repr

/-- Classes the two results of a pair (R6). -/
def classify (tolerance : Int) : Option Int → Option Int → Conversion
  | some a, some b =>
    if (a - b).natAbs ≤ tolerance.toNat then .agree (quot (a + b) 2) else .unusable
  | some a, none => .single a false
  | none, some b => .single b true
  | none, none => .unusable

/-- A pair takes a conversion (R7, R8). -/
def Pair.take (c : Conversion) (p : Pair) : Pair :=
  match p.state, c with
  | .fault, .agree v =>
    if 50 ≤ p.good + 1 then { p with value := v, state := .ok, good := 0, published := true }
    else { p with good := p.good + 1 }
  | .fault, _ => { p with good := 0 }
  | _, .agree v => { p with value := v, state := .ok, unusable := 0, published := true }
  | _, .single v _ => { p with value := v, state := .degraded, unusable := 0, published := true }
  | _, .unusable =>
    if 3 ≤ p.unusable + 1 then { p with state := .fault, good := 0, unusable := 0 }
    else { p with unusable := p.unusable + 1 }

/-- A single entry takes a conversion (R9). -/
def Single.take (v : Option Int) (x : Single) : Single :=
  match x.fault, v with
  | false, some v => { x with value := v, invalid := 0 }
  | false, none =>
    if 3 ≤ x.invalid + 1 then { x with fault := true, invalid := 0, good := 0 } else { x with invalid := x.invalid + 1 }
  | true, some v =>
    if 50 ≤ x.good + 1 then { x with value := v, fault := false, good := 0 } else { x with good := x.good + 1 }
  | true, none => { x with good := 0 }

/-- The first entry of a joint pair (section 1.1). -/
def jointEntry : Joint → Nat
  | .j1 => 2
  | .j2 => 4
/-- The entry of a circuit's height, S6 to S13 (section 1.1). -/
def heightEntry (c : Circuit) : Nat := 5 + c.num
/-- The entry of a circuit's bellows pressure, S14 to S21 (section 1.1). -/
def bellowsEntry (c : Circuit) : Nat := 13 + c.num
/-- The entry of the suspension reservoir pressure (section 1.1). -/
def reservoirEntry : Nat := 22
/-- The entry of an axle's brake pressure, S23 to S26 (section 1.1). -/
def brakeEntry (k : Axle) : Nat := 22 + k.num

/-- The conversion of a pair whose first entry is given (R2, R4, R6). -/
def Hub.pairConversion (h : Hub) (entry : Nat) (limit tolerance : Int) (raw : RawPair) : Conversion :=
  classify tolerance (convert (h.zeroSpan entry) (-limit) limit raw.a) (convert (h.zeroSpan (entry + 1)) (-limit) limit raw.b)

/-- S6 to S26 are converted in the rounds whose number is a multiple of five (R2). -/
def Sensing.singlesDue (u : Sensing) : Bool := u.rounds % 5 == 0

/-- A single entry after a round: it takes its conversion where the round converts it (R2, R9). -/
def Hub.singleAfter (h : Hub) (entry : Nat) (lo hi : Int) (raw : Raw) (x : Single) : Single :=
  if h.sensing.singlesDue then x.take (convert (h.zeroSpan entry) lo hi raw) else x

/-- The steer pair's conversion of a round (R6). -/
def Hub.steerConversion (h : Hub) (raw : ScanResults) : Conversion := h.pairConversion 0 4500 150 raw.steer

/-- A joint pair's conversion of a round (R6). -/
def Hub.jointConversion (h : Hub) (raw : ScanResults) (j : Joint) : Conversion :=
  h.pairConversion (jointEntry j) 5500 200 (raw.joints.get j)

/-- The sensing unit after the publication of a round, whole (R2, R3). -/
def Hub.published (h : Hub) (raw : ScanResults) : Sensing :=
  let u := h.sensing
  { u with
    steer := u.steer.take (h.steerConversion raw)
    joints := .tab fun j => (u.joints.get j).take (h.jointConversion raw j)
    heights := .tab fun c => h.singleAfter (heightEntry c) (-150) 150 (raw.heights.get c) (u.heights.get c)
    bellows := .tab fun c => h.singleAfter (bellowsEntry c) 0 1000 (raw.bellows.get c) (u.bellows.get c)
    reservoir := h.singleAfter reservoirEntry 0 1300 raw.reservoir u.reservoir
    brakes := .tab fun k => h.singleAfter (brakeEntry k) 0 1000 (raw.brakes.get k) (u.brakes.get k)
    rounds := u.rounds + 1
    scanTimer := .started }

/-- SENSOR_FAULT of a pair: entering DEGRADED from OK with the invalid entry, entering FAULT with the first (R10). -/
def Hub.raisePairFault (subject entry : Nat) (c : Conversion) (old new : Pair) (h : Hub) : Hub :=
  if old.state = .ok ∧ new.state = .degraded then
    h.raise .sensorFault subject
      (match c with
        | .single _ false => entry + 1
        | _ => entry)
  else if old.state ≠ .fault ∧ new.state = .fault then h.raise .sensorFault subject entry
  else h

/-- SENSOR_FAULT of a single entry entering FAULT (R10). -/
def Hub.raiseSingleFault (subject entry : Nat) (old new : Single) (h : Hub) : Hub :=
  if old.fault = false ∧ new.fault = true then h.raise .sensorFault subject entry else h

/-- The SENSOR_FAULT events of a round, pairs first and single entries in ascending entry order (R10). -/
def Hub.raiseRoundFaults (before : Hub) (raw : ScanResults) (h : Hub) : Hub :=
  let old := before.sensing
  let new := h.sensing
  let steer := h.raisePairFault 1 0 (before.steerConversion raw) old.steer new.steer
  let pairs := Joint.all.foldl (fun h j =>
    h.raisePairFault (1 + j.num) (jointEntry j) (before.jointConversion raw j) (old.joints.get j) (new.joints.get j)) steer
  let heights := Circuit.all.foldl (fun h c =>
    h.raiseSingleFault 4 (heightEntry c) (old.heights.get c) (new.heights.get c)) pairs
  let bellows := Circuit.all.foldl (fun h c =>
    h.raiseSingleFault 5 (bellowsEntry c) (old.bellows.get c) (new.bellows.get c)) heights
  let reservoir := bellows.raiseSingleFault 7 reservoirEntry old.reservoir new.reservoir
  Axle.all.foldl (fun h k => h.raiseSingleFault 6 (brakeEntry k) (old.brakes.get k) (new.brakes.get k)) reservoir

/-- The levelling unit takes the height entries that left FAULT: the ring is emptied and cause HEIGHT clears (R91,
R103). -/
def Hub.heightsRecovered (cs : List Circuit) (h : Hub) : Hub :=
  (cs.foldl (fun h c => h.onCircuit c fun x => { x with ring := [], height := none, error := none }) h).clearCause cs
    fun x => { x with height := false }

/-! ## The air cut at a publication of S22 -/

/-- Inserts a held slot into a list, the latest granted first; the age of a grant is counted modulo 65,536 (R99, log
entry 14). -/
def insertByAge (next : Half) (x : HeldSlot) : List HeldSlot → List HeldSlot
  | [] => [x]
  | y :: ys => if next - x.grant ≤ next - y.grant then x :: y :: ys else y :: insertByAge next x ys

/-- The held slots, the latest granted first. -/
def Levelling.latestFirst (u : Levelling) : List HeldSlot :=
  FillSlot.all.foldl (fun acc i => match u.slots.get i with
    | some x => insertByAge u.grants x acc
    | none => acc) []

/-- A filling circuit returns to FILL_WAIT at the head of its class, its slot freed (R99). -/
def Hub.backToQueue (h : Hub) (x : HeldSlot) : Hub :=
  ((h.releaseSlot x.circuit).onLevel fun u => { u with queue := headOfClass ⟨x.circuit, x.cls⟩ u.queue }).setAction
    x.circuit .fillWait

/-- The value of an AIR_LOW event at the beginning of a cut (R99). -/
def CutCause.eventValue : CutCause → Nat
  | .start => 3
  | .lowPressure => 1
  | .sensor => 2

/-- The air cut begins (R99). -/
def Hub.beginCut (cause : CutCause) (h : Hub) : Hub :=
  let cut := h.onLevel fun u => { u with cut := true, cutCause := cause }
  ((h.level.latestFirst.foldl Hub.backToQueue cut).writeValves).raise .airLow 0 cause.eventValue

/-- The levelling unit judges the reservoir at a publication of S22 (R99, R100). -/
def Hub.judgeReservoir (old : Single) (h : Hub) : Hub :=
  let new := h.sensing.reservoir
  if h.level.cut then
    if new.fault then
      if old.fault = false ∧ h.level.cutCause ≠ .sensor then
        (h.onLevel fun u => { u with cutCause := .sensor }).raise .airLow 0 2
      else h
    else if h.presMin ≤ new.value then
      (h.onLevel fun u => { u with cut := false }).grant.writeValves
    else if h.level.cutCause = .start then
      (h.onLevel fun u => { u with cutCause := .lowPressure }).raise .airLow 0 3
    else if old.fault then h.onLevel fun u => { u with cutCause := .lowPressure }
    else h
  else if new.fault then
    if old.fault then h else h.beginCut .sensor
  else if new.value < h.presCut then h.beginCut .lowPressure
  else h

/-- A scan round (R2, R3): publication, events, the levelling unit's circuits, then the reservoir (log entry 13). -/
def Hub.scanRound (raw : ScanResults) (h : Hub) : Hub :=
  let old := h.sensing
  let published := h.onSensing fun _ => h.published raw
  let new := published.sensing
  let raised := Hub.raiseRoundFaults h raw published
  let lost := Circuit.all.filter fun c => !(old.heights.get c).fault && (new.heights.get c).fault
  let found := Circuit.all.filter fun c => (old.heights.get c).fault && !(new.heights.get c).fault
  let levelled := (raised.exclude lost fun x => { x with height := true }).heightsRecovered found
  if old.singlesDue then levelled.judgeReservoir old.reservoir else levelled

/-- SCAN_ROUND (R2): at an expiry of the scan timer. -/
def execScanRound (raw : ScanResults) (s : State) : Host.Outcome State Fault Refusal :=
  .next (if s.hub.sensing.scanTimer.due scanPeriod then { s with hub := s.hub.scanRound raw } else s)

/-! ## Wheel pulses, speed, standstill -/

/-- The signed increment of a pulse, as a 32-bit word (R11, R12). -/
def signedIncrement (dir : Direction) (w : Nat) : Word :=
  match dir with
  | .forward => BitVec.ofNat 32 w
  | .reverse => -BitVec.ofNat 32 w

/-- The sensing unit's own part of a counted pulse (R11, R12, R14, R15, R16). -/
def Sensing.countPulse (dir : Direction) (w : Nat) (u : Sensing) : Sensing :=
  { u with
    travel := u.travel + signedIncrement dir w
    buckets := { u.buckets with current := u.buckets.current + w }
    quiet := .started
    distance := min 500 (u.distance + w)
    direction := dir }

/-- A counted pulse (R11): odometry, path memory, and standstill FALSE at 500 tenths (R16). The PATH event of an underrun
is raised before the STANDSTILL event of the same pulse (R25, R162; log entry 27). -/
def Hub.wheelPulse (dir : Direction) (h : Hub) : Hub :=
  let counted := ((h.onPins fun u => { u with dir := dir }).onSensing (·.countPulse dir h.wp)).pathIncrement dir h.wp
  if counted.sensing.distance = 500 ∧ counted.sensing.standstill ≠ .no then counted.leaveStandstill else counted

/-- WHEEL_PULSE (R11): a pulse before the active set has been loaded is not counted. -/
def execWheelPulse (_input : WheelInput) (dir : Direction) (s : State) : Host.Outcome State Fault Refusal :=
  .next (if s.hub.clock.loaded then { s with hub := s.hub.wheelPulse dir } else s)

/-- Closes the current bucket: it becomes the newest of the five and the oldest is discarded (R14). -/
def Buckets.close (b : Buckets) : Buckets := ⟨0, b.current, b.b1, b.b2, b.b3, b.b4⟩

/-- The speed of the five closed buckets, mm/s (R14). -/
def Buckets.speed (b : Buckets) : Nat := min 25000 (b.b1 + b.b2 + b.b3 + b.b4 + b.b5)

/-- The sensing unit's part of a speed expiry (R13, R14). -/
def Sensing.closeBucket (dir : Direction) (u : Sensing) : Sensing :=
  { u with buckets := u.buckets.close, speed := u.buckets.close.speed, direction := dir, speedTimer := .started }

/-- The quiet timer's expiry: it stops, the distance is 0 and standstill becomes TRUE (R15). -/
def Hub.quietExpiry (h : Hub) : Hub :=
  let quiet := h.onSensing fun u => { u with quiet := .stopped, distance := 0 }
  if h.standing then quiet else quiet.enterStandstill

/-- QUIET_TIMER_EXPIRY (R15). -/
def execQuietTimerExpiry (s : State) : Host.Outcome State Fault Refusal :=
  .next (if s.hub.sensing.quiet.due quietTime then { s with hub := s.hub.quietExpiry } else s)

end Sys2Proof.Machine
end

