-- ==== Sys2Proof/Machine/Steering.lean ====
section
/-! DEFINITION. Trailing-axle steering: modes, laws, fade, clamp, rate limit, tracking, failure and output
(chapter 3). -/

namespace Sys2Proof.Machine

/-- Writes an axle's command: off and 0 before initialisation, off and the frozen setpoint in FAILED (R48). -/
def Hub.writeSteer (t : Trailing) (h : Hub) : Hub :=
  let x := h.axleSteer t
  h.writeActuator t ⟨x.initialised && x.mode != some .failed, x.setpoint.getD 0⟩

/-- An axle enters FAILED with a cause, its enable off and its setpoint frozen; one already FAILED keeps its first
cause (R37, R46, R47). -/
def Hub.failAxle (cause : FailCause) (t : Trailing) (h : Hub) : Hub :=
  if (h.axleSteer t).mode = some .failed then h
  else (h.onAxleSteer t fun x => { x with mode := some .failed, cause := some cause, enable := false }).writeSteer t

/-- The lookup of R36's row 4 with the axle's lag (R27, R28). -/
def Hub.lagLookup (h : Hub) (t : Trailing) : Option Int := h.path.lookup (h.lag t)

/-- The mode of rows 1 to 5, with the lookup made where rows 1 to 3 do not hold (R36). -/
def Hub.chooseMode (h : Hub) (t : Trailing) : SteerMode × Option Int :=
  if h.brake.halt ≠ .released then (.held, none)
  else if (h.sensing.joints.get t.joint).state = .fault then (.centring, none)
  else if h.sensing.direction = .reverse ∧ h.standing = false then (.reverse, none)
  else
    match h.lagLookup t with
    | some angle => (.follow, some angle)
    | none => (.short, none)

/-- The law of FOLLOW, SHORT or REVERSE at an axle's joint angle (R40 to R42). -/
def Hub.steerLaw (h : Hub) (t : Trailing) (mode : SteerMode) (lookup : Option Int) : Int :=
  let phi := (h.sensing.joints.get t.joint).value
  match mode with
  | .follow => quot (phi * h.gainK t - lookup.getD 0 * h.gainG t) 1024
  | .reverse => quot (phi * h.gainRev t) 1024
  | _ => quot (phi * h.gainK t) 1024

/-- The fade factor at the published speed (R43). -/
def Hub.fadeFactor (h : Hub) : Nat :=
  let v : Int := h.sensing.speed
  if v ≤ h.vlo then 1024
  else if h.vhi ≤ v then 0
  else (quot ((h.vhi - v) * 1024) (h.vhi - h.vlo)).toNat

/-- Clamp and rate limit from the setpoint in force (R44, R45). -/
def Hub.nextSetpoint (h : Hub) (t : Trailing) (setpoint w : Int) : Int :=
  let c := clampTo (-h.angleMax t) (h.angleMax t) w
  setpoint + clampTo (-h.rateMax t) (h.rateMax t) (c - setpoint)

/-- The tracking timer after the check of a period, 500 ms being the limit (R46). -/
def trackingAfter (setpoint measured : Int) : Count → Count
  | .stopped => if 300 < (setpoint - measured).natAbs then .running 0 else .stopped
  | .running t => if 300 < (setpoint - measured).natAbs then .running (min 500 (t + 10)) else .stopped

/-- Stages 3 to 5 on an axle that has passed its tracking check (R35, R38, R39, R43 to R45). -/
def Hub.steerStages (h : Hub) (t : Trailing) (x : AxleSteer) : AxleSteer :=
  match h.chooseMode t with
  | (.held, _) => { x with mode := some .held, lookup := none, law := none, fade := none }
  | (.centring, _) =>
    { x with
      mode := some .centring, lookup := none, law := none, fade := none
      setpoint := some (h.nextSetpoint t (x.setpoint.getD 0) 0) }
  | (mode, lookup) =>
    let u := h.steerLaw t mode lookup
    { x with
      mode := some mode, lookup := lookup, law := some u, fade := some h.fadeFactor
      setpoint := some (h.nextSetpoint t (x.setpoint.getD 0) (quot (u * h.fadeFactor) 1024)) }

/-- Initialisation of an axle that has a measured angle: the first setpoint, the enable, and the mode by R36, with no
law, fade or rate limit (R50). -/
def Hub.initialiseAxle (h : Hub) (t : Trailing) (measured : Int) (x : AxleSteer) : AxleSteer :=
  let chosen := h.chooseMode t
  { x with
    initialised := true
    setpoint := some (clampTo (-h.angleMax t) (h.angleMax t) measured)
    enable := true
    tracking := .stopped
    mode := some chosen.1
    lookup := chosen.2 }

/-- One axle's work at an expiry of the steering timer (R35). -/
def Hub.steerAxle (t : Trailing) (h : Hub) : Hub :=
  let x := h.axleSteer t
  if x.mode = some .failed then h
  else if x.initialised then
    let tracking := trackingAfter (x.setpoint.getD 0) (x.measured.getD 0) x.tracking
    let checked := h.onAxleSteer t fun x => { x with tracking := tracking }
    if tracking = .running 500 then checked.failAxle .tracking t
    else (checked.onAxleSteer t (h.steerStages t)).writeSteer t
  else
    match x.measured with
    | some angle => (h.onAxleSteer t (h.initialiseAxle t angle)).writeSteer t
    | none => h

/-- The path memory after increments of the given directions, each taken whole (R11, R29). -/
def Hub.pathAfter (dirs : List Direction) (h : Hub) : PathMemory :=
  (dirs.foldl (fun x dir => x.pathIncrement dir x.wp) h).path

/-- What comes between the two axles' work of one expiry: increments of the path, by direction, and copies of the STEER
record (R29, R54). -/
structure Between where
  pulses : List Direction
  copies : Nat
  deriving DecidableEq, Repr

/-- What those copies are to show in place of the present values; nothing when none comes (R54). -/
def Hub.midwayFor (copies : Nat) (h : Hub) : Option Midway :=
  if copies = 0 then none else some ⟨copies, h.axleSteer .a4, h.steering.periods⟩

/-- The work of a steering period: A3, then A4, then the period count (R34, R54). A4's lookup sees the increments that
come between the two and A3's does not (R29); their pulses still wait, and the rest of their work is their own. The
copies that come between the two still wait too, and `midway` holds what they show. -/
def Hub.steeringPeriod (between : Between) (h : Hub) : Hub :=
  let first := h.steerAxle .a3
  let second := { first with path := first.pathAfter between.pulses }.steerAxle .a4
  { second with
    path := h.path
    steering := { second.steering with
      periods := second.steering.periods + 1, timer := .started, midway := h.midwayFor between.copies }
    freeCount := h.freeCount + 1 }

/-- The wheel pulses and the FETCHes of the STEER record at the front of a queue, up to a number of commands. -/
def nextBetween : List Instr → Nat → List Instr
  | .wheelPulse input dir :: rest, n + 1 => .wheelPulse input dir :: nextBetween rest n
  | .fetchSteer q :: rest, n + 1 => .fetchSteer q :: nextBetween rest n
  | _, _ => []

/-- The direction of a wheel pulse. -/
def pulseDirection : Instr → Option Direction
  | .wheelPulse _ dir => some dir
  | _ => none

/-- Whether a command is a FETCH of the STEER record that is answered with a copy (R54, R151). -/
def Hub.copiesSteer (h : Hub) : Instr → Bool
  | .fetchSteer q => h.fetchServed q.port
  | _ => false

/-- What comes between the two axles' work of an expiry: the wheel pulses and FETCHes of the STEER record that wait
directly behind it, as many of these commands as the free value says (R29, R54, log entry 4). -/
def State.between (s : State) : Between :=
  let taken := nextBetween s.pending (Config.takenBetween s.hub.freeCount)
  ⟨taken.filterMap pulseDirection, taken.countP s.hub.copiesSteer⟩

/-- STEERING_TIMER_EXPIRY (R35). -/
def execSteeringTimerExpiry (s : State) : Host.Outcome State Fault Refusal :=
  .next (if s.hub.steering.timer.due Machine.steeringPeriod then { s with hub := s.hub.steeringPeriod s.between }
    else s)

/-- The clamp of an initialised axle's setpoint at the installation of a new active set (R52). -/
def Hub.clampSteer (t : Trailing) (h : Hub) : Hub :=
  let x := h.axleSteer t
  if x.initialised then
    (h.onAxleSteer t fun x =>
      { x with setpoint := x.setpoint.map (clampTo (-h.angleMax t) (h.angleMax t)) }).writeSteer t
  else h

end Sys2Proof.Machine
end

