-- ==== Sys2Proof/Machine/Joints.lean ====
section
/-! DEFINITION. Joint stabilization: rate, states, damping, stretch requests and the torque cut (chapter 4). -/

namespace Sys2Proof.Machine

/-- The band of a value: the number of the highest edge that does not exceed it, the first edge being 0 (R61). -/
def bandOf (edges : List Nat) (x : Nat) : Nat := (edges.filter fun e => e ≤ x).length

/-- Speed edges above 0, mm/s (R61). -/
def speedEdges : List Nat := [1000, 2500, 4000, 6000, 8000, 11000, 14000]
/-- Angle edges above 0, cd (R61). -/
def angleEdges : List Nat := [500, 1000, 1500, 2000, 3000, 4000, 5000]

/-- Growing: the angle and the rate have the same sign and the rate is at least the warning rate (R56). -/
def growing (omegaWarn phi omega : Int) : Bool :=
  (decide (0 < phi ∧ 0 < omega) || decide (phi < 0 ∧ omega < 0)) && decide (omegaWarn ≤ omega.natAbs)

/-- Rate and growth of a joint whose pair is not in FAULT and which is not coming back from SENSOR_LOST (R56). -/
def Hub.jointRate (h : Hub) (pair : Pair) (x : JointHold) : JointHold :=
  match x.phiPrev with
  | some before =>
    let omega := (pair.value - before) * 100
    { x with
      phi := pair.value, phiPrev := some pair.value, omega := omega, growing := growing h.omegaWarn pair.value omega }
  | none =>
    { x with
      phi := pair.value, phiPrev := if pair.published then some pair.value else none, omega := 0, growing := false }

/-- The speed is at least v_stretch (R57). -/
def Hub.stretchSpeed (h : Hub) : Bool := decide (h.vStretch ≤ (h.sensing.speed : Int))

/-- State and stretch hold of a joint after its rate, where the pair is not in FAULT and the joint was not in
SENSOR_LOST (R57 to R59). -/
def Hub.jointStep (h : Hub) (x : JointHold) : JointHold :=
  let a : Int := x.phi.natAbs
  let fast := x.growing && h.stretchSpeed
  if h.phiLimit ≤ a then { x with state := .limit, hold := .stopped }
  else
    match x.state with
    | .free => if h.phiWarn ≤ a then { x with state := .watch } else x
    | .watch =>
      if a < h.phiWarn - 200 then { x with state := .free }
      else if fast then { x with state := .stretch, hold := .running 0 }
      else x
    | .stretch =>
      let hold : Nat := match x.hold with
        | .running t => min 300 (t + 10)
        | .stopped => 10
      if hold = 300 ∧ fast = false then
        { x with state := if h.phiWarn - 200 ≤ a then .watch else .free, hold := .stopped }
      else { x with hold := .running hold }
    | .limit =>
      if h.phiLimit - 300 ≤ a then x
      else if fast then { x with state := .stretch, hold := .running 0 }
      else { x with state := .watch }
    | .sensorLost => x

/-- Rate and state of a joint at a period (R56 to R60). -/
def Hub.jointJudge (h : Hub) (pair : Pair) (x : JointHold) : JointHold :=
  if pair.state = .fault then { x with state := .sensorLost, omega := 0, growing := false, hold := .stopped }
  else if x.state = .sensorLost then
    { x with state := .free, phi := pair.value, phiPrev := some pair.value, omega := 0, growing := false }
  else h.jointStep (h.jointRate pair x)

/-- The damping level of a joint in its new state (R61). -/
def Hub.jointDamp (h : Hub) (x : JointHold) : JointHold :=
  if x.state = .sensorLost then { x with damping := 15 }
  else
    let row := bandOf speedEdges h.sensing.speed
    let col := bandOf angleEdges x.phi.natAbs
    let table := h.dampingEntry row col
    let boosted := if x.growing then min 15 (table + 4) else table
    { x with
      speedBand := row, angleBand := col, table := table
      damping := match x.state with
        | .free | .watch => boosted
        | .stretch => max 12 boosted
        | .limit | .sensorLost => 15 }

/-- The stretch pressure a joint asks for in its new state (R63). -/
def Hub.jointStretch (h : Hub) (j : Joint) (x : JointHold) : Nat :=
  match x.state with
  | .stretch => h.pst j
  | .limit => if h.stretchSpeed then 2 * h.pst j else 0
  | .free | .watch | .sensorLost => 0

/-- A joint's values after a period (R55 to R63). -/
def Hub.jointAfter (h : Hub) (j : Joint) : JointHold :=
  let x := h.jointDamp (h.jointJudge (h.sensing.joints.get j) (h.joints.joints.get j))
  { x with stretch := h.jointStretch j x }

/-- The value of a JOINT_STATE event (R65). -/
def JointState.num : JointState → Nat
  | .free => 0
  | .watch => 1
  | .stretch => 2
  | .limit => 3
  | .sensorLost => 4

/-- One joint's work at an expiry; a change of state raises JOINT_STATE (R65), and the level is written (R62). -/
def Hub.jointWork (h : Hub) (j : Joint) : Hub :=
  let old := h.joints.joints.get j
  let new := h.jointAfter j
  let written := (h.onJoints fun u => { u with joints := u.joints.set j new }).writeDamper j new.damping
  if old.state = new.state then written else written.raise .jointState j.num new.state.num

/-- Whether a joint's state takes part in the torque cut (R64). -/
def JointState.cuts : JointState → Bool
  | .stretch | .limit => true
  | .free | .watch | .sensorLost => false

/-- Recomputes the torque-cut flag from the joints' states and the taken drive state, and drives the line at a change
(R64, R145). -/
def Hub.judgeTorque (h : Hub) : Hub :=
  let cut := (h.joints.joints.j1.state.cuts || h.joints.joints.j2.state.cuts) && h.brake.drive == .traction
  let judged := h.onJoints fun u => { u with driveSeen := h.brake.drive, torqueCut := cut }
  if h.joints.torqueCut = cut then judged else judged.driveTorque cut

/-- The stretch requests of A3 and A4, replaced together (R63). -/
def JointUnit.axleRequests (u : JointUnit) : PerTrailing Nat :=
  ⟨u.joints.j1.stretch, u.joints.j1.stretch + u.joints.j2.stretch⟩

/-- The work of a joint period (R55). -/
def Hub.jointPeriod (h : Hub) : Hub :=
  let judged := (h.jointWork .j1).jointWork .j2
  (judged.onJoints fun u =>
    { u with requests := u.axleRequests, periods := u.periods + 1, timer := .started }).judgeTorque

/-- JOINT_TIMER_EXPIRY (R55). -/
def execJointTimerExpiry (s : State) : Host.Outcome State Fault Refusal :=
  .next (if s.hub.joints.timer.due Machine.jointPeriod then { s with hub := s.hub.jointPeriod } else s)

end Sys2Proof.Machine
end

