-- ==== Sys2Proof/Machine/Brakes.lean ====
section
/-! DEFINITION. Service braking and the halt brake: the brake period, HALT ON and HALT OFF (chapter 5). -/

namespace Sys2Proof.Machine

/-! ## Stage 1: the demand -/

/-- The ports in the order of the demand take and of the store arbiter (R71, R155). -/
def portOrder : List Port := [.s, .b, .m]

/-- The occupied posted buffers, in the order S, B, M (R71). -/
def Hub.postedDemands (h : Hub) : List (Port × Demand) :=
  portOrder.filterMap fun p => (h.port p).posted.map fun d => (p, d)

/-- The drive state of a posted code (R72). -/
def driveOf (code : Byte) : DriveState :=
  if code = 1 then .traction else if code = 2 then .retard else .neutral

/-- A demand is taken into use (R72). -/
def Brake.takeDemand (p : Port) (d : Demand) (u : Brake) : Brake :=
  { u with
    decel := min 7000 d.decel.toNat, drive := driveOf d.drive, lastSeq := some d.seq, lastPort := some p
    age := .running 0, status := .fresh }

/-- The demand status of an age (R73). -/
def statusOf : Count → DemandStatus
  | .stopped => .none
  | .running t => if t ≤ 100 then .fresh else if t < 300 then .holding else .stale

/-- The age after a period without a take (R73). -/
def ageAfter : Count → Count
  | .stopped => .stopped
  | .running t => if t < 300 then .running (t + 5) else .running t

/-- A period without a take: the age and the status; at the period at which the age reaches 300 ms, DEMAND_STALE
with the last taken sequence (R73). -/
def Hub.ageDemand (h : Hub) : Hub :=
  let age := ageAfter h.brake.age
  let aged := h.onBrake fun u => { u with age := age, status := statusOf age }
  if statusOf age = .stale ∧ h.brake.age ≠ age then
    aged.raise .demandStale 0 ((h.brake.lastSeq.map BitVec.toNat).getD 0)
  else aged

/-- Stage 1: the posted buffers are emptied, one demand is taken, the others are superseded (R71 to R73); a take that
changes the drive state is handed to the joint unit (R72, R64). -/
def Hub.takeDemands (h : Hub) : Hub :=
  match h.postedDemands with
  | [] => h.ageDemand
  | (p, d) :: others =>
    let emptied := h.onPorts fun v => v.map fun u => { u with posted := none }
    let taken := emptied.onBrake fun u =>
      { Brake.takeDemand p d u with superseded := min 255 (u.superseded + others.length) }
    if taken.brake.drive = h.brake.drive then taken else taken.judgeTorque

/-! ## Stages 2 and 3: modes, freezes and loads -/

/-- An axle's mode (R74). -/
def Hub.axleModeNow (h : Hub) (k : Axle) : AxleMode :=
  if (h.brake.status = .fresh ∨ h.brake.status = .holding) ∧ (h.link.modulators.get k).fault = false
      ∧ h.link.chainB.fault = false then .electronic
  else .backup

/-- Stage 2 (R74). -/
def Hub.setModes (h : Hub) : Hub :=
  h.onBrake fun u => { u with axles := .tab fun k => { u.axles.get k with mode := h.axleModeNow k } }

/-- A freeze after the after-time of one period (R77, R78). -/
def Freeze.run : Freeze → Freeze
  | .after ms => if ms ≤ 5 then .off else .after (ms - 5)
  | x => x

/-- Whether an axle is frozen: the kneel freeze or its own activity freeze is on or in after-time (R78). -/
def isFrozen (kneel activity : Freeze) : Bool := kneel != .off || activity != .off

/-- The load an axle's bellows pressures give, and where it comes from (R75, R76, R88). -/
def Hub.loadNow (h : Hub) (k : Axle) : Nat × LoadSource :=
  let l := h.sensing.bellows.get k.left
  let r := h.sensing.bellows.get k.right
  let load (sum : Int) : Nat :=
    (clampTo 0 (h.loadMax k) (quot (sum * h.bellowsFactor k) 64 + h.unsprung k)).toNat
  match l.fault, r.fault with
  | false, false => (load (l.value + r.value), .bellows)
  | true, false => (load (2 * r.value), .oneSide)
  | false, true => (load (2 * l.value), .oneSide)
  | true, true => ((min (h.loadNom k) (h.loadMax k)).toNat, .nominal)

/-- Stage 3 on one axle, after the kneel freeze has run (R75 to R78, R88). -/
def Hub.loadStage (h : Hub) (kneel : Freeze) (k : Axle) (a : AxleBrake) : AxleBrake :=
  let activity := a.activity.run
  let frozen := isFrozen kneel activity
  if frozen then { a with activity := activity, frozen := true }
  else { a with activity := activity, frozen := false, load := (h.loadNow k).1, source := (h.loadNow k).2 }

/-- Stage 3 (R75 to R78). -/
def Hub.runLoads (h : Hub) : Hub :=
  h.onBrake fun u =>
    { u with
      kneelFreeze := u.kneelFreeze.run
      axles := .tab fun k => h.loadStage u.kneelFreeze.run k (u.axles.get k) }

/-! ## Stages 4 to 6: pressures and the halt confirmation -/

/-- The service pressure of an axle (R79). -/
def Hub.serviceNow (h : Hub) (k : Axle) : Nat :=
  let a := h.axleBrake k
  match a.mode, h.brake.status with
  | .backup, _ => 0
  | .electronic, .fresh => (quot (quot (a.load * h.brake.decel) 1000) (h.brakeFactor k)).toNat
  | .electronic, .holding => a.service
  | .electronic, .none => 0
  | .electronic, .stale => 0

/-- Stage 4 (R79). -/
def Hub.formService (h : Hub) : Hub :=
  h.onBrake fun u => { u with axles := .tab fun k => { u.axles.get k with service := h.serviceNow k } }

/-- A halt axle is confirmed: its brake pressure entry is OK and publishes at least Phalt_min (R84). -/
def Hub.confirmed (h : Hub) (k : Axle) : Bool :=
  let x := h.sensing.brakes.get k
  !x.fault && decide (h.phaltMin ≤ x.value)

/-- The first axle of the halt axle set that is not confirmed (R84). -/
def Hub.firstUnconfirmed (h : Hub) : Option Axle := Axle.all.find? fun k => h.haltAxle k && !h.confirmed k

/-- The applying time after a period without confirmation (R84). -/
def applyingAfter : Count → Nat
  | .stopped => 5
  | .running t => min 1500 (t + 5)

/-- Stage 5 (R84). -/
def Hub.confirmHalt (h : Hub) : Hub :=
  if h.brake.halt = .applying then
    match h.firstUnconfirmed with
    | none => h.setHalt .applied
    | some k =>
      let time := applyingAfter h.brake.applying
      let timed := h.onBrake fun u => { u with applying := .running time }
      if time = 1500 ∧ h.brake.haltFault = false then
        (timed.onBrake fun u => { u with haltFault := true }).raise .haltFault 0 k.num
      else timed
  else h

/-- The halt contribution of an axle (R80). -/
def Hub.haltNow (h : Hub) (k : Axle) : Nat :=
  if h.haltAxle k = true ∧ h.brake.halt ≠ .released then h.phalt else 0

/-- The stretch of an axle: the joint unit's request for A3 and A4 (R80, R63). -/
def Hub.stretchNow (h : Hub) : Axle → Nat
  | .a1 => 0
  | .a2 => 0
  | .a3 => h.joints.requests.a3
  | .a4 => h.joints.requests.a4

/-- Stage 6 on one axle (R80). -/
def Hub.commandStage (h : Hub) (k : Axle) (a : AxleBrake) : AxleBrake :=
  { a with
    halt := h.haltNow k
    stretch := h.stretchNow k
    command := min (h.pmax k) (max a.service (h.haltNow k) + h.stretchNow k) }

/-- Stage 6: the commands, and chain B's part of the output image (R80, R139). -/
def Hub.command (h : Hub) : Hub :=
  let formed := h.onBrake fun u => { u with axles := .tab fun k => h.commandStage k (u.axles.get k) }
  Axle.all.foldl
    (fun g k => g.writeModulator k ⟨(formed.axleBrake k).mode, (formed.axleBrake k).command⟩) formed

/-- The work of a brake period (R70). -/
def Hub.brakePeriod (h : Hub) : Hub :=
  (h.takeDemands.setModes.runLoads.formService.confirmHalt.command).onBrake fun u =>
    { u with periods := u.periods + 1, timer := .started }

/-- BRAKE_TIMER_EXPIRY (R70). -/
def execBrakeTimerExpiry (s : State) : Host.Outcome State Fault Refusal :=
  .next (if s.hub.brake.timer.due Machine.brakePeriod then { s with hub := s.hub.brakePeriod } else s)

/-! ## Orders -/

/-- HALT ON, taken (R82). -/
def serveHaltOn : Service := fun h =>
  if h.brake.halt = .released then
    if h.sensing.speed ≤ h.vEmerg then (h.setHalt .applying, .done []) else (h, .refused .tooFast [])
  else (h, .done [])

/-- HALT_ON (R82). -/
def execHaltOn (q : Request) (s : State) : Host.Outcome State Fault Refusal :=
  .next { s with hub := s.hub.order q 0x20#8 .demand serveHaltOn }

/-- The four interlocks of HALT OFF (R85). -/
def Hub.haltOffInterlocks (h : Hub) : Bool :=
  h.doorsLocked && h.releasesWithdrawn && h.handlesAtRest && h.kneel.state == .ride

/-- HALT OFF, taken (R85). -/
def serveHaltOff : Service := fun h =>
  if h.brake.halt = .released then (h, .done [])
  else if h.haltOffInterlocks then (h.setHalt .released, .done [])
  else (h, .refused .interlock [])

/-- HALT_OFF (R85). -/
def execHaltOff (q : Request) (s : State) : Host.Outcome State Fault Refusal :=
  .next { s with hub := s.hub.order q 0x21#8 .demand serveHaltOff }

end Sys2Proof.Machine
end

