-- ==== Sys2Proof/Machine/Levelling.lean ====
section
/-! DEFINITION. The levelling period: sampling, exclusion exits, the mismatch hold, stops, starts, grants and output
(chapter 6), with the completions of a kneel that its hand-over brings (R113, R114). -/

namespace Sys2Proof.Machine

/-! ## Stages 1 and 2 -/

/-- The sample a ring takes: none before the entry's first publication and while it is in FAULT (R91). -/
def Hub.heightSample (h : Hub) (c : Circuit) : Option Int :=
  let x := h.sensing.heights.get c
  if h.sensing.rounds = 0 ∨ x.fault = true then none else some x.value

/-- The filtered height: the mean of the ring, truncated toward zero (R91). -/
def ringMean : List Int → Option Int
  | [] => none
  | x :: xs => some (quot ((x :: xs).foldl (· + ·) 0) (x :: xs).length)

/-- A circuit's ring takes its sample; height and error are formed (R91, R92). -/
def CircuitLevel.sample (v : Option Int) (x : CircuitLevel) : CircuitLevel :=
  let ring := match v with
    | some v => (v :: x.ring).take 8
    | none => x.ring
  { x with ring := ring, height := ringMean ring, error := (ringMean ring).map fun m => m - x.target }

/-- Stage 1 (R91). -/
def Hub.sampleHeights (h : Hub) : Hub :=
  h.onLevel fun u => { u with circuits := .tab fun c => (u.circuits.get c).sample (h.heightSample c) }

/-- The hold reason with which a circuit leaves EXCLUDED (R104). -/
def Hub.exitReason (h : Hub) (c : Circuit) : HoldReason :=
  if h.kneel.state = .stopped ∧ h.inScope c = true then .kneelStopped else .none

/-- Stage 2 on one circuit (R104); the count of 0 keeps its direction (log entry 36). -/
def Hub.exitExcluded (h : Hub) (c : Circuit) : Hub :=
  let x := h.circuit c
  if x.action = .excluded ∧ x.causes.any = false then
    (h.onCircuit c fun x => { x with reason := h.exitReason c, count := 0 }).setAction c .hold
  else h

/-! ## Stage 3: the mismatch hold (R101) -/

/-- Whether the mismatch hold applies, as judged at stage 3 (R101, R102). -/
def Hub.mismatchApplies (h : Hub) : Bool :=
  h.scopeSide && (h.kneel.state == .lowering || h.kneel.state == .raising)

/-- The height of the front section from its two circuits (R101). -/
def meanOf : Option Int → Option Int → Option Int
  | some a, some b => some (quot (a + b) 2)
  | _, _ => none

/-- The section heights of the door side, and whether the hold applies (R101). Its field of the LEVEL record is written
here alone, so it falls at the next stage 3 also after an entry into STOPPED (R107; log entry 34). -/
def Hub.formSections (h : Hub) : Hub :=
  let height (c : Circuit) := (h.circuit c).height
  h.onLevel fun u =>
    { u with
      mismatch := h.mismatchApplies
      front := if h.sideLeft then meanOf (height .c1) (height .c3) else meanOf (height .c2) (height .c4)
      middle := if h.sideLeft then height .c5 else height .c6
      rear := if h.sideLeft then height .c7 else height .c8 }

/-- The height of a circuit's section (R101). -/
def Levelling.section (u : Levelling) : Circuit → Option Int
  | .c1 | .c2 | .c3 | .c4 => u.front
  | .c5 | .c6 => u.middle
  | .c7 | .c8 => u.rear

/-- The heights of the sections adjacent to a circuit's section (R101). -/
def Levelling.neighbours (u : Levelling) : Circuit → List (Option Int)
  | .c1 | .c2 | .c3 | .c4 => [u.middle]
  | .c5 | .c6 => [u.front, u.rear]
  | .c7 | .c8 => [u.middle]

/-- One height lies below another by more than a mismatch; absent heights find none (R101). -/
def belowBy (hmis : Int) : Option Int → Option Int → Bool
  | some a, some b => decide (hmis < b - a)
  | _, _ => false

/-- A circuit's section stands lower than an adjacent section by more than Hmis (R101). -/
def Hub.standsLower (h : Hub) (c : Circuit) : Bool :=
  (h.level.neighbours c).any fun y => belowBy h.hmis (h.level.section c) y

/-- A circuit's section stands higher than an adjacent section by more than Hmis (R101). -/
def Hub.standsHigher (h : Hub) (c : Circuit) : Bool :=
  (h.level.neighbours c).any fun y => belowBy h.hmis y (h.level.section c)

/-- The end of a mismatch pause (R101). -/
def Hub.endPause (h : Hub) (c : Circuit) : Hub :=
  let ends := match (h.circuit c).reason with
    | .mismatchVent => !(h.level.mismatch && h.standsLower c)
    | .mismatchFill => !(h.level.mismatch && h.standsHigher c)
    | .none | .kneelStopped => false
  if ends then h.onCircuit c fun x => { x with reason := .none } else h

/-- The band of a circuit's target source (R92). -/
def Hub.band (h : Hub) (x : CircuitLevel) : Int := if x.source = .kneel then h.dbKneel else h.dbRide

/-- The deviation of an error against a band (R94). -/
def deviationOf (band : Int) (e : Int) : Option Deviation :=
  if e < -band then some .low else if band < e then some .high else none

/-- A circuit's deviation, where it is in HOLD with hold reason NONE and its error is present (R94). -/
def Hub.holdDeviation (h : Hub) (c : Circuit) : Option Deviation :=
  let x := h.circuit c
  if x.action = .hold ∧ x.reason = .none then x.error.bind (deviationOf (h.band x)) else none

/-- A door-side circuit is paused where the mismatch hold says so (R101). -/
def Hub.judgePause (h : Hub) (c : Circuit) : Hub :=
  let wantsVent := (h.circuit c).action == .vent || h.holdDeviation c == some .high
  let wantsFill :=
    (h.circuit c).action == .fill || (h.circuit c).action == .fillWait || h.holdDeviation c == some .low
  let pause (r : HoldReason) : Hub :=
    (if (h.circuit c).action = .hold then h else h.toHold c).onCircuit c fun x => { x with reason := r }
  if h.level.mismatch && h.onDoorSide c then
    if wantsVent && h.standsLower c then pause .mismatchVent
    else if wantsFill && h.standsHigher c then pause .mismatchFill
    else h
  else h

/-! ## Stage 4: stops and hold limits (R95, R98) -/

/-- Half of a circuit's band, truncated (R95). -/
def Hub.halfBand (h : Hub) (x : CircuitLevel) : Int := quot (h.band x) 2

/-- The error is at least minus half the band (R95). -/
def Hub.fillDone (h : Hub) (x : CircuitLevel) : Bool :=
  match x.error with
  | some e => decide (-h.halfBand x ≤ e)
  | none => false

/-- The error is at most half the band (R95). -/
def Hub.ventDone (h : Hub) (x : CircuitLevel) : Bool :=
  match x.error with
  | some e => decide (e ≤ h.halfBand x)
  | none => false

/-- The first step of the stops: a waiting circuit that no longer wants air (R95). -/
def Hub.stopWaiting (h : Hub) (c : Circuit) : Hub :=
  if (h.circuit c).action = .fillWait ∧ h.fillDone (h.circuit c) = true then h.toHold c else h

/-- The second step of the stops: the running actions (R95). -/
def Hub.stopRunning (h : Hub) (c : Circuit) : Hub :=
  match (h.circuit c).action with
  | .fill => if h.fillDone (h.circuit c) then h.toHold c else h
  | .vent => if h.ventDone (h.circuit c) then h.toHold c else h
  | .hold | .fillWait | .excluded => h

/-- A slot held through 20,000 ms is freed and its circuit queued at the tail of its class, with SLOW_FILL (R98). -/
def Hub.slowFill (h : Hub) (i : FillSlot) (x : HeldSlot) : Hub :=
  ((h.onLevel fun u =>
    { u with slots := u.slots.set i none, queue := tailOfClass ⟨x.circuit, x.cls⟩ u.queue }).setAction
      x.circuit .fillWait).raise .slowFill x.circuit.num (((h.circuit x.circuit).error).getD 0)

/-- A held slot's hold time and its limit (R95, R98). -/
def Hub.advanceSlot (h : Hub) (i : FillSlot) : Hub :=
  match h.level.slots.get i with
  | none => h
  | some x =>
    if 20000 ≤ x.time + 50 then h.slowFill i x
    else h.onLevel fun u => { u with slots := u.slots.set i (some { x with time := x.time + 50 }) }

/-! ## Stage 5: starts (R94) -/

/-- No action starts while the bus is not at standstill and brakes above 1,000 mm/s² (R94). -/
def Hub.startsInhibited (h : Hub) : Bool := !h.standing && decide (1000 < h.brake.decel)

/-- The class of a circuit's fill (R94, R96). -/
def Hub.fillClass (h : Hub) (c : Circuit) : Nat :=
  if (h.circuit c).source = .raise then 0 else if h.standing then 1 else 2

/-- A start: VENT, or FILL_WAIT at the tail of the class (R94, R96); the count of 0 keeps its direction (log entry 36). -/
def Hub.beginAction (h : Hub) (c : Circuit) (d : Deviation) : Hub :=
  let cleared := h.onCircuit c fun x => { x with count := 0 }
  match d with
  | .high => cleared.setAction c .vent
  | .low =>
    (cleared.onLevel fun u => { u with queue := tailOfClass ⟨c, h.fillClass c⟩ u.queue }).setAction c .fillWait

/-- A deviation starts an action at once at standstill and on a kneel circuit (R94). -/
def Hub.startsAtOnce (h : Hub) (c : Circuit) : Bool := h.standing || (h.circuit c).source != .ride

/-- The persistence count after a deviation (R94). -/
def CircuitLevel.persist (d : Deviation) (x : CircuitLevel) : CircuitLevel :=
  { x with count := if x.direction = d then min 100 (x.count + 1) else 1, direction := d }

/-- Stage 5 on one circuit; `left` says that it left an action at stage 3 or 4 (R93, R94), so that
a circuit taken out of FILL or FILL_WAIT at stage 4 of a reversed kneel vents a period later (R111; log entry 12). A count
set to 0 keeps its direction, and a deviation that starts an action at once leaves it alone (log entry 36). -/
def Hub.startCircuit (left : Circuit → Bool) (h : Hub) (c : Circuit) : Hub :=
  let x := h.circuit c
  if x.action = .hold ∧ x.reason = .none ∧ x.error.isSome = true then
    match h.holdDeviation c with
    | none => h.onCircuit c fun x => { x with count := 0 }
    | some d =>
      let counted := if h.startsAtOnce c then h else h.onCircuit c (·.persist d)
      if (h.startsAtOnce c || (counted.circuit c).count == 100) && !h.startsInhibited && !left c then
        counted.beginAction c d
      else counted
  else h

/-- Whether an action state is an action a circuit can leave for HOLD: FILL_WAIT, FILL or VENT. -/
def Action.runs : Action → Bool
  | .fillWait | .fill | .vent => true
  | .hold | .excluded => false

/-! ## Stage 7: output and completion -/

/-- The levelling unit hands errors and bands to the kneel unit, which keeps those of the circuits in scope (R105,
R109); until the next hand-over a circuit that an APPLY brings into scope has none (R120; log entry 29). -/
def Hub.handErrors (h : Hub) : Hub :=
  h.onKneel fun u =>
    { u with
      errors := .tab fun c =>
        if h.inScope c then ⟨(h.circuit c).error, h.band (h.circuit c)⟩ else ⟨none, 0⟩ }

/-- Every circuit in scope is not EXCLUDED and has an error within a band (R113, R114). -/
def Hub.scopeWithin (h : Hub) (band : Int) : Bool :=
  h.scope.all fun c =>
    (h.circuit c).action != .excluded &&
      match (h.circuit c).error with
      | some e => decide (-band ≤ e ∧ e ≤ band)
      | none => false

/-- The completion judged at the hand-over (R113, R114). -/
def Hub.judgeCompletion (h : Hub) : Hub :=
  match h.kneel.state with
  | .lowering =>
    if h.scopeWithin h.dbKneel then
      (h.onKneel fun u => { u with completions := u.completions + 1 }).setKneel .knelt
    else h
  | .raising =>
    if h.scopeWithin h.dbRide then
      (h.onKneel fun u => { u with completions := u.completions + 1 }).setKneel .ride
    else h
  | .ride | .knelt | .stopped => h

/-! ## The period (R93) -/

/-- Stages 1 to 4. The slots that reach 20,000 ms in one period are requeued and raise SLOW_FILL in slot order (R98, R162;
log entry 28). -/
def Hub.levellingStops (h : Hub) : Hub :=
  let exited := Circuit.all.foldl Hub.exitExcluded h.sampleHeights
  let paused := Circuit.all.foldl Hub.judgePause (Circuit.all.foldl Hub.endPause exited.formSections)
  let stopped := Circuit.all.foldl Hub.stopRunning (Circuit.all.foldl Hub.stopWaiting paused)
  FillSlot.all.foldl Hub.advanceSlot stopped

/-- A circuit that left an action for HOLD at stage 3 or 4 (R93); stages 1 and 2 leave no action. -/
def Hub.leftAction (before after : Hub) (c : Circuit) : Bool :=
  (before.circuit c).action.runs && (after.circuit c).action == .hold

/-- The work of a levelling period (R90, R93). -/
def Hub.levellingPeriod (h : Hub) : Hub :=
  let stopped := h.levellingStops
  let granted := (Circuit.all.foldl (Hub.startCircuit (h.leftAction stopped)) stopped).grant
  granted.writeValves.handErrors.judgeCompletion.onLevel fun u =>
    { u with periods := u.periods + 1, timer := .started }

/-- LEVELLING_TIMER_EXPIRY (R93). -/
def execLevellingTimerExpiry (s : State) : Host.Outcome State Fault Refusal :=
  .next (if s.hub.level.timer.due Machine.levellingPeriod then { s with hub := s.hub.levellingPeriod } else s)

end Sys2Proof.Machine
end

