-- ==== Sys2Proof/Machine/Kneeling.lean ====
section
/-! DEFINITION. The orders KNEEL and RAISE (R111, R112). -/

namespace Sys2Proof.Machine

/-- The lowest-numbered EXCLUDED circuit in scope (R111). -/
def Hub.excludedInScope (h : Hub) : Option Circuit := h.scope.find? fun c => (h.circuit c).action == .excluded

/-- KNEEL, taken (R111). -/
def serveKneel : Service := fun h =>
  match h.kneel.state with
  | .lowering | .knelt => (h, .done [])
  | .ride | .raising | .stopped =>
    if h.standing = false then (h, .refused .notStandstill [])
    else if h.brake.halt ≠ .applied then (h, .refused .haltNotApplied [])
    else
      match h.excludedInScope with
      | some c => (h, .refused .circuitExcluded (be1 c.num))
      | none => ((h.writeTargets .kneel).setKneel .lowering, .done [])

/-- KNEEL (R111). -/
def execKneel (q : Request) (s : State) : Host.Outcome State Fault Refusal :=
  .next { s with hub := s.hub.order q 0x2A#8 .passenger serveKneel }

/-- RAISE, taken (R112). -/
def serveRaise : Service := fun h =>
  match h.kneel.state with
  | .ride | .raising => (h, .done [])
  | .lowering | .knelt | .stopped => ((h.writeTargets .raise).setKneel .raising, .done [])

/-- RAISE (R112). -/
def execRaise (q : Request) (s : State) : Host.Outcome State Fault Refusal :=
  .next { s with hub := s.hub.order q 0x2B#8 .passenger serveRaise }

end Sys2Proof.Machine
end

