-- ==== Sys2Proof/Machine/Doors.lean ====
section
/-! DEFINITION. The passenger doors: debouncing, positions, handles, RELEASE and WITHDRAW, the door enable, and the
speed expiry that judges the handles waiting at speed (chapter 8, R14). -/

namespace Sys2Proof.Machine

/-! ## Inputs -/

/-- The level of one of a door's inputs. -/
def levelOf (x : DoorLevels) : DoorInput → Bool
  | .closed => x.closed
  | .lock => x.lock
  | .handle => x.handle

/-- Replaces the level of one of a door's inputs. -/
def withLevel (x : DoorLevels) (i : DoorInput) (level : Bool) : DoorLevels :=
  match i with
  | .closed => { x with closed := level }
  | .lock => { x with lock := level }
  | .handle => { x with handle := level }

/-- The debounce timer of one of a door's inputs. -/
def DoorTimers.get (x : DoorTimers) : DoorInput → Timer
  | .closed => x.closed
  | .lock => x.lock
  | .handle => x.handle

/-- Replaces the debounce timer of one of a door's inputs. -/
def DoorTimers.set (x : DoorTimers) (i : DoorInput) (t : Timer) : DoorTimers :=
  match i with
  | .closed => { x with closed := t }
  | .lock => { x with lock := t }
  | .handle => { x with handle := t }

/-- The position of a closed level and a lock level (R124). -/
def positionOf (x : DoorLevels) : Position :=
  match x.closed, x.lock with
  | true, true => .closedLocked
  | true, false => .closed
  | false, false => .opened
  | false, true => .switchFault

/-- The value of a DOOR_STATE event (R124). -/
def Position.num : Position → Nat
  | .closedLocked => 0
  | .closed => 1
  | .opened => 2
  | .switchFault => 3

/-- A raw level changes: the input's debounce timer starts or restarts (R123). -/
def Hub.rawChange (d : Door) (i : DoorInput) (level : Bool) (h : Hub) : Hub :=
  h.onDoor d fun x => { x with raw := withLevel x.raw i level, timers := x.timers.set i .started }

/-- DOOR_INPUT_CHANGE (R122, R123): before the load the inputs have no effect, and a level that does not change is no
change. -/
def execDoorInputChange (door : Door) (input : DoorInput) (level : Bool) (s : State) : Host.Outcome State Fault Refusal :=
  .next (if s.hub.clock.loaded = true ∧ levelOf (s.hub.door door).raw input ≠ level then
    { s with hub := s.hub.rawChange door input level } else s)

/-! ## Positions and handles -/

/-- A debounced change of the closed or lock switch: the position and what follows its change (R124),
DOOR_STATE before the KNEEL_STATE of an auto-raise (R118, R162; log entry 27). -/
def Hub.positionChange (d : Door) (h : Hub) : Hub :=
  let now := positionOf (h.door d).debounced
  if (h.door d).position = now then h
  else
    let changed := ((h.onDoor d fun x => { x with position := now }).onDoors fun u =>
      { u with changes := u.changes + 1 }).raise .doorState d.num now.num
    if (h.door d).enabled then changed.judgeAutoHalt.judgeCondition.judgePermit else changed

/-- The release a handle's action leads to (R131). -/
def Hub.handleRelease (h : Hub) : Release → Release
  | .withdrawn => if h.standing = true ∧ h.brake.halt = .applied then .granted else .waiting
  | x => x

/-- A handle acts at or below v_emerg: the mark, the apply request, the release, and the events (R131; log
entry 10). -/
def Hub.handleActs (d : Door) (h : Hub) : Hub :=
  let fresh := !(h.door d).mark
  let asked := (h.onDoor d fun x => { x with mark := true }).requestApply
  let moved :=
    if (asked.door d).release = .withdrawn then asked.setRelease d (asked.handleRelease .withdrawn)
    else if fresh then asked.raiseRelease d
    else asked
  moved.raise .doorEmergency d.num 1

/-- An enabled door's handle becomes active (R131, R132). -/
def Hub.handleActive (d : Door) (h : Hub) : Hub :=
  if h.sensing.speed ≤ h.vEmerg then h.handleActs d
  else (h.onDoor d fun x => { x with atSpeed := true }).raise .doorEmergency d.num 2

/-- An enabled door's handle becomes inactive (R133). -/
def Hub.handleInactive (d : Door) (h : Hub) : Hub :=
  (h.onDoor d fun x => { x with atSpeed := false }).raise .doorEmergency d.num 0

/-- A debounced change of a handle (R131 to R133, R125), its DOOR_EMERGENCY before the MOVE_PERMIT of the same step
(R136, R162; log entry 10). -/
def Hub.handleChange (d : Door) (h : Hub) : Hub :=
  if (h.door d).enabled then
    (if (h.door d).debounced.handle then h.handleActive d else h.handleInactive d).judgePermit
  else h

/-- An expiry of a debounce timer (R123). -/
def Hub.debounceExpiry (d : Door) (i : DoorInput) (h : Hub) : Hub :=
  let stopped := h.onDoor d fun x => { x with timers := x.timers.set i .stopped }
  let raw := levelOf (h.door d).raw i
  if levelOf (h.door d).debounced i = raw then stopped
  else
    let taken := stopped.onDoor d fun x => { x with debounced := withLevel x.debounced i raw }
    match i with
    | .closed | .lock => taken.positionChange d
    | .handle => taken.handleChange d

/-- DEBOUNCE_TIMER_EXPIRY (R123). -/
def execDebounceTimerExpiry (door : Door) (input : DoorInput) (s : State) : Host.Outcome State Fault Refusal :=
  .next (if ((s.hub.door door).timers.get input).due debounceTime then
    { s with hub := s.hub.debounceExpiry door input } else s)

/-! ## The speed expiry -/

/-- A handle waiting at speed is judged again (R132). -/
def Hub.judgeAtSpeed (h : Hub) (d : Door) : Hub :=
  if (h.door d).atSpeed = true ∧ h.sensing.speed ≤ h.vEmerg then
    (h.onDoor d fun x => { x with atSpeed := false }).handleActs d
  else h

/-- An expiry of the speed timer: the bucket, the speed and the direction (R13, R14), then the handles (R132). -/
def Hub.speedExpiry (dir : Direction) (h : Hub) : Hub :=
  Door.all.foldl Hub.judgeAtSpeed
    ((h.onPins fun u => { u with dir := dir }).onSensing (·.closeBucket dir))

/-- SPEED_TIMER_EXPIRY (R14). -/
def execSpeedTimerExpiry (dir : Direction) (s : State) : Host.Outcome State Fault Refusal :=
  .next (if s.hub.sensing.speedTimer.due speedPeriod then { s with hub := s.hub.speedExpiry dir } else s)

/-! ## Orders -/

/-- One enabled door of a RELEASE's mask (R127). -/
def Hub.releaseDoor (mask : DoorMask) (h : Hub) (d : Door) : Hub :=
  if inMask mask d = true ∧ (h.door d).enabled = true ∧ (h.door d).release = .withdrawn then
    h.setRelease d (if h.brake.halt = .applied then .granted else .waiting)
  else h

/-- The mask of the disabled doors a mask names (R127). -/
def Hub.disabledNamed (h : Hub) (mask : DoorMask) : Byte := maskByte fun d => inMask mask d && !(h.door d).enabled

/-- RELEASE, taken (R127). -/
def serveRelease (payload : List Byte) : Service := fun h =>
  match doorMask payload with
  | none => (h, .refused .range [])
  | some mask =>
    if mask = 0 then (h, .refused .range [])
    else if h.standing = false then (h, .refused .notStandstill [])
    else if (Door.all.all fun d => !(inMask mask d && (h.door d).enabled)) = true then
      (h, .refused .doorDisabled [h.disabledNamed mask])
    else
      ((Door.all.foldl (Hub.releaseDoor mask) h).requestApply, .done [h.disabledNamed mask])

/-- RELEASE (R127). -/
def execRelease (q : Request) (s : State) : Host.Outcome State Fault Refusal :=
  .next { s with hub := s.hub.order q 0x28#8 .passenger (serveRelease q.payload) }

/-- One door of a WITHDRAW's mask (R128). -/
def Hub.withdrawDoor (mask : DoorMask) (h : Hub) (d : Door) : Hub :=
  if inMask mask d = true ∧ (h.door d).enabled = true ∧ (h.door d).debounced.handle = false then
    (h.onDoor d fun x => { x with mark := false }).setRelease d .withdrawn
  else h

/-- The mask of the enabled doors a WITHDRAW keeps because their handles are active (R128). -/
def Hub.keptByHandle (h : Hub) (mask : DoorMask) : Byte :=
  maskByte fun d => inMask mask d && (h.door d).enabled && (h.door d).debounced.handle

/-- WITHDRAW, taken (R128). -/
def serveWithdraw (payload : List Byte) : Service := fun h =>
  match doorMask payload with
  | none => (h, .refused .range [])
  | some mask => (Door.all.foldl (Hub.withdrawDoor mask) h, .done [h.keptByHandle mask])

/-- WITHDRAW (R128). -/
def execWithdraw (q : Request) (s : State) : Host.Outcome State Fault Refusal :=
  .next { s with hub := s.hub.order q 0x29#8 .passenger (serveWithdraw q.payload) }

/-! ## The door enable and the load -/

/-- Whether a door is in the door enable mask of the active set (R125). -/
def Hub.maskEnables (h : Hub) (d : Door) : Bool := h.enableMask.testBit (d.num - 1)

/-- A door that the new mask disables: mark and at-speed flag cleared, release WITHDRAWN (R125). -/
def Hub.disableDoor (h : Hub) (d : Door) : Hub :=
  (h.onDoor d fun x => { x with mark := false, atSpeed := false }).setRelease d .withdrawn

/-- The door unit takes the installation of a new active set by an APPLY (R125). -/
def Hub.installEnables (h : Hub) : Hub :=
  let disabled := Door.all.filter fun d => (h.door d).enabled && !h.maskEnables d
  let masked := h.onDoors fun u => { u with doors := .tab fun d => { u.doors.get d with enabled := h.maskEnables d } }
  (disabled.foldl Hub.disableDoor masked).judgeCondition.judgePermit

/-- The first sample of the door inputs at the load, the enable, the door condition computed without a trigger, and
the move permit (R138, R135). -/
def Hub.sampleDoors (levels : PerDoor DoorLevels) (h : Hub) : Hub :=
  let sampled := h.onDoors fun u =>
    { u with
      doors := .tab fun d =>
        { u.doors.get d with
          raw := levels.get d, debounced := levels.get d, position := positionOf (levels.get d)
          enabled := h.maskEnables d } }
  (sampled.onDoors fun u => { u with condition := sampled.doorsLocked && sampled.releasesWithdrawn }).judgePermit

end Sys2Proof.Machine
end

