-- ==== Sys2Proof/Machine/Link.lean ====
section
/-! DEFINITION. The actuator link: the refresh, echoes and chain states, status words, device faults and their
hand-over to the owning units (chapter 9). -/

namespace Sys2Proof.Machine

/-! ## The refresh (R140) -/

/-- A device at the beginning of a refresh: the command as it stands in the image is sent (R140). -/
def Device.send {γ σ : Type} (d : Device γ σ) : Device γ σ := { d with inFlight := some d.image }

/-- An expiry of the refresh timer: a refresh of each of the four chains begins (R140). -/
def Link.refresh (u : Link) : Link :=
  { u with
    valves := u.valves.map Device.send
    modulators := u.modulators.map Device.send
    actuators := u.actuators.map Device.send
    dampers := u.dampers.map Device.send
    chainL := { u.chainL with busy := true }
    chainB := { u.chainB with busy := true }
    chainS := { u.chainS with busy := true }
    chainJ := { u.chainJ with busy := true }
    refreshes := u.refreshes + 1
    timer := .started }

/-- REFRESH_TIMER_EXPIRY (R140). -/
def execRefreshTimerExpiry (s : State) : Host.Outcome State Fault Refusal :=
  .next (if s.hub.link.timer.due refreshPeriod then { s with hub := s.hub.onLink Link.refresh } else s)

/-! ## Judging one chain -/

/-- The echo of an answer, if one was given. -/
def echoOf {γ σ : Type} (answer : Option (DeviceAnswer γ σ)) : Option γ := answer.map DeviceAnswer.echo

/-- The device gave an echo equal to its last sent command (R141, R142). -/
def Device.echoed {γ σ : Type} [DecidableEq γ] (d : Device γ σ) (answer : Option (DeviceAnswer γ σ)) : Bool :=
  d.lastSent.isSome && decide (echoOf answer = d.lastSent)

/-- The status word a refresh delivers: where the echo equals the last sent command, or at a refresh that is not
judged (R142). -/
def Device.delivered {γ σ : Type} [DecidableEq γ] (judged : Bool) (d : Device γ σ)
    (answer : Option (DeviceAnswer γ σ)) : Option σ :=
  if d.echoed answer = true ∨ judged = false then answer.map DeviceAnswer.status else none

/-- A device at the completion of its chain's refresh; `ok` reads its status word (R140 to R142). -/
def Device.complete {γ σ : Type} [DecidableEq γ] (judged : Bool) (ok : σ → Bool) (answer : Option (DeviceAnswer γ σ))
    (d : Device γ σ) : Device γ σ :=
  { image := d.image
    inFlight := none
    lastSent := d.inFlight
    echo := echoOf answer
    mismatch := if judged then !d.echoed answer else d.mismatch
    status := (d.delivered judged answer).or d.status
    fault := if judged then ((d.delivered judged answer).map fun w => !ok w).getD d.fault else d.fault }

/-- The chain state after a judged refresh (R141). -/
def ChainHold.judge (clean : Bool) (x : ChainHold) : ChainHold :=
  match x.fault, clean with
  | false, true => { x with mismatches := 0 }
  | false, false =>
    if 3 ≤ x.mismatches + 1 then
      { x with fault := true, mismatches := 0, cleans := 0, entries := bump 255 x.entries }
    else { x with mismatches := x.mismatches + 1 }
  | true, true => if 50 ≤ x.cleans + 1 then { x with fault := false, cleans := 0 } else { x with cleans := x.cleans + 1 }
  | true, false => { x with cleans := 0 }

/-- A chain at the completion of its refresh (R140, R141). -/
def ChainHold.complete (judged clean : Bool) (x : ChainHold) : ChainHold :=
  { (if judged then x.judge clean else x) with busy := false }

/-- The CHAIN_FAULT event of a setting of a device's fault flag or of a chain's entry into FAULT, and the owner's
action at the setting or entry and at the clearing or return (R143, R144): each event before its owner acts, and that
before the next device's (R162; log entry 27). -/
def Hub.handFault (chain value : Nat) (set clear : Hub → Hub) (old new : Bool) (h : Hub) : Hub :=
  match old, new with
  | false, true => set (h.raise .chainFault chain value)
  | true, false => clear h
  | _, _ => h

/-! ## The four chains -/

/-- A completion on chain L (R140 to R144). -/
def Hub.completeL (answers : PerCircuit (Option (DeviceAnswer ValveCmd Bool))) (h : Hub) : Hub :=
  let old := h.link.valves
  let judged := Circuit.all.all fun c => (old.get c).lastSent.isSome
  let new := PerCircuit.tab fun c => (old.get c).complete judged id (answers.get c)
  let clean := Circuit.all.all fun c => !(new.get c).mismatch
  let chain := h.link.chainL.complete judged clean
  let updated := h.onLink fun u => { u with valves := new, chainL := chain }
  let flags := Circuit.all.foldl (fun g c =>
    g.handFault 1 c.num (Hub.exclude [c] fun x => { x with valve := true })
      (Hub.clearCause [c] fun x => { x with valve := false }) (old.get c).fault (new.get c).fault) updated
  flags.handFault 1 0 (Hub.exclude Circuit.all fun x => { x with chain := true })
    (Hub.clearCause Circuit.all fun x => { x with chain := false }) h.link.chainL.fault chain.fault

/-- A completion on chain B; the brake unit reads flags and state at its periods (R143). -/
def Hub.completeB (answers : PerAxle (Option (DeviceAnswer ModCmd Bool))) (h : Hub) : Hub :=
  let old := h.link.modulators
  let judged := Axle.all.all fun k => (old.get k).lastSent.isSome
  let new := PerAxle.tab fun k => (old.get k).complete judged id (answers.get k)
  let clean := Axle.all.all fun k => !(new.get k).mismatch
  let chain := h.link.chainB.complete judged clean
  let updated := h.onLink fun u => { u with modulators := new, chainB := chain }
  let flags := Axle.all.foldl (fun g k =>
    g.handFault 2 k.num id id (old.get k).fault (new.get k).fault) updated
  flags.handFault 2 0 id id h.link.chainB.fault chain.fault

/-- The measured angle of a steering actuator's status word, if it is one (R142). -/
def angleOf (w : Half) : Option Int := if -2500 ≤ w.toInt ∧ w.toInt ≤ 2500 then some w.toInt else none

/-- The steering unit takes the measured angle of a delivered status word (R142). -/
def Hub.takeAngle (t : Trailing) (word : Option Half) (h : Hub) : Hub :=
  match word.bind angleOf with
  | some angle => h.onAxleSteer t fun x => { x with measured := some angle }
  | none => h

/-- The number of a steering actuator on chain S: 1 for A3, 2 for A4 (section 9.1). -/
def deviceOf : Trailing → Nat
  | .a3 => 1
  | .a4 => 2

/-- Both trailing axles enter FAILED (R37). -/
def Hub.failBoth (cause : FailCause) (h : Hub) : Hub := (h.failAxle cause .a3).failAxle cause .a4

/-- A completion on chain S: measured angles to the steering unit, faults to both axles (R142, R143, R37). -/
def Hub.completeS (answers : PerTrailing (Option (DeviceAnswer SteerCmd Half))) (h : Hub) : Hub :=
  let old := h.link.actuators
  let judged := Trailing.all.all fun t => (old.get t).lastSent.isSome
  let new := PerTrailing.tab fun t => (old.get t).complete judged (fun w => (angleOf w).isSome) (answers.get t)
  let clean := Trailing.all.all fun t => !(new.get t).mismatch
  let chain := h.link.chainS.complete judged clean
  let updated := h.onLink fun u => { u with actuators := new, chainS := chain }
  let measured := Trailing.all.foldl (fun g t => g.takeAngle t ((old.get t).delivered judged (answers.get t))) updated
  let flags := Trailing.all.foldl (fun g t =>
    g.handFault 3 (deviceOf t) (Hub.failBoth .device) id (old.get t).fault (new.get t).fault) measured
  flags.handFault 3 0 (Hub.failBoth .chain) id h.link.chainS.fault chain.fault

/-- A completion on chain J; the joint unit does not act on it (R143). -/
def Hub.completeJ (answers : PerJoint (Option (DeviceAnswer Nat Bool))) (h : Hub) : Hub :=
  let old := h.link.dampers
  let judged := Joint.all.all fun j => (old.get j).lastSent.isSome
  let new := PerJoint.tab fun j => (old.get j).complete judged id (answers.get j)
  let clean := Joint.all.all fun j => !(new.get j).mismatch
  let chain := h.link.chainJ.complete judged clean
  let updated := h.onLink fun u => { u with dampers := new, chainJ := chain }
  let flags := Joint.all.foldl (fun g j =>
    g.handFault 4 j.num id id (old.get j).fault (new.get j).fault) updated
  flags.handFault 4 0 id id h.link.chainJ.fault chain.fault

/-- Whether a refresh of the chain that answers is in progress (R140). -/
def Hub.chainBusy (h : Hub) : ChainAnswers → Bool
  | .l _ => h.link.chainL.busy
  | .b _ => h.link.chainB.busy
  | .s _ => h.link.chainS.busy
  | .j _ => h.link.chainJ.busy

/-- A completion of one chain's refresh (R140). -/
def Hub.chainComplete (answers : ChainAnswers) (h : Hub) : Hub :=
  match answers with
  | .l a => h.completeL a
  | .b a => h.completeB a
  | .s a => h.completeS a
  | .j a => h.completeJ a

/-- CHAIN_REFRESH_COMPLETE (R140, R141). -/
def execChainRefreshComplete (answers : ChainAnswers) (s : State) : Host.Outcome State Fault Refusal :=
  .next (if s.hub.chainBusy answers then { s with hub := s.hub.chainComplete answers } else s)

end Sys2Proof.Machine
end

