-- ==== Sys2Proof/Machine/Store.lean ====
section
/-! DEFINITION. The calibration store: the delayed orders, the store arbiter, the operations and their completions,
and the installation of an APPLY (chapter 12, R153 to R155). -/

namespace Sys2Proof.Machine

/-! ## Operations -/

/-- The order code of an operation (section 10.3). -/
def StoreOp.code : StoreOp → Byte
  | .read _ _ => 0x38
  | .clear _ => 0x39
  | .write _ _ _ => 0x3A
  | .close _ => 0x3B
  | .lock _ => 0x3C
  | .blank _ => 0x3D
  | .apply => 0x3E

/-- The time an operation works, in tenths of a millisecond (R166, R167, R170). -/
def StoreOp.duration : StoreOp → Nat
  | .read _ _ => 1
  | .clear _ => 800
  | .write _ _ _ => 10
  | .close _ => 20
  | .lock _ => 10
  | .blank _ => 30
  | .apply => 20

/-- Replaces or adds the content of a slot 0 to 30, keeping the slots in rising order (R166). -/
def putSlot (slot : Nat) (c : SlotContent) : List (Nat × SlotContent) → List (Nat × SlotContent)
  | [] => [(slot, c)]
  | (n, d) :: rest =>
    if slot < n then (slot, c) :: (n, d) :: rest
    else if slot = n then (slot, c) :: rest
    else (n, d) :: putSlot slot c rest

/-- The refusal judged when the store starts an operation (R166, R167). -/
def Hub.startRefusal (h : Hub) : StoreOp → Option Reason
  | .write k slot _ =>
    let x := h.sector k
    if x.lock then some .sectorLocked
    else if x.isTorn then some .torn
    else if x.isClosed then some .sectorClosed
    else if (slotContent x.slots slot).isSome then some .notEmpty
    else none
  | .close k =>
    let x := h.sector k
    if x.lock then some .sectorLocked
    else if x.isTorn then some .torn
    else if x.isClosed then some .sectorClosed
    else none
  | .clear k => if (h.sector k).lock = true ∧ h.pins.depot = false then some .sectorLocked else none
  | .read _ _ | .lock _ | .blank _ | .apply => none

/-- What an operation does to the store at its start (R166, R167). -/
def Hub.beginWork (op : StoreOp) (h : Hub) : Hub :=
  match op with
  | .write k slot _ => h.onSector k fun x => { x with slots := putSlot slot .torn x.slots }
  | .close k => h.onSector k fun x => { x with mark := .torn }
  | .clear k => h.onSector k fun x => { x with clearing := true }
  | .read _ _ | .lock _ | .blank _ | .apply => h

/-- Whether a clear started now clears its sector's lock too (R167). -/
def Hub.clearsLock (h : Hub) : StoreOp → Bool
  | .clear k => (h.sector k).lock && h.pins.depot
  | _ => false

/-- The DEPOT line as a command reads it (R167, R171). -/
def Hub.readDepot (depot : Bool) (h : Hub) : Hub := h.onPins fun u => { u with depot := depot }

/-- The whole milliseconds that a running clear has accumulated (R171). -/
def Store.progress (u : Store) : Nat :=
  match u.running with
  | some ⟨.clear _, _, elapsed, _⟩ => elapsed / 10
  | _ => 0

/-- The store updates its STORE STATUS record: at each start, suspension and completion of an operation, and at each
installation (R171, R165). -/
def Hub.updateRecord (h : Hub) : Hub := h.onStore fun u => { u with shown := ⟨h.pins.depot, u.progress⟩ }

/-- Sets a port's delayed slot. -/
def Hub.setSlot (p : Port) (x : DelayedSlot) (h : Hub) : Hub := h.onPort p fun u => { u with slot := x }

/-- The store starts an operation; a refused one completes at its start and does no work (R166, log entry 23). -/
def Hub.startOp (p : Port) (rq : HeldRequest) (h : Hub) : Hub :=
  match h.startRefusal rq.op with
  | some r => (h.setSlot p (.done rq (.refused r []))).updateRecord
  | none =>
    (((h.beginWork rq.op).onStore fun u => { u with running := some ⟨rq.op, p, 0, h.clearsLock rq.op⟩ }).setSlot p
      (.running rq)).updateRecord

/-! ## The arbiter (R155) -/

/-- One port's turn: while the store is free its WAITING request starts. -/
def Hub.takeWaiting (h : Hub) (p : Port) : Hub :=
  match h.store.running, (h.port p).slot with
  | none, .waiting rq => h.startOp p rq
  | _, _ => h

/-- The store, free again, takes the WAITING slots in the order S, B, M until one runs (R155). A read that already waits
when a waiting STORE CLEAR starts goes on waiting (log entry 30). -/
def Hub.takeNext (h : Hub) : Hub := portOrder.foldl Hub.takeWaiting h

/-- Whether an operation is a read that can run while a clear is suspended: a read of another sector (R155, R167). -/
def suspends (clear op : StoreOp) : Bool :=
  match clear, op with
  | .clear k, .read k' _ => k != k'
  | _, _ => false

/-- A read starts in a suspension of the running clear (R155). -/
def Hub.startSuspended (p : Port) (rq : HeldRequest) (h : Hub) : Hub :=
  ((h.onStore fun u => { u with read := some ⟨rq.op, p, 0, false⟩ }).setSlot p (.running rq)).updateRecord

/-- A delayed request taken at an EMPTY slot: it starts, suspends a clear, or waits (R153, R155). -/
def Hub.placeDelayed (p : Port) (rq : HeldRequest) (h : Hub) : Hub :=
  match h.store.running with
  | none => h.startOp p rq
  | some r =>
    if suspends r.op rq.op = true ∧ h.store.read = none then h.startSuspended p rq
    else h.setSlot p (.waiting rq)

/-! ## Completions -/

/-- The state code of a slot in the outcome of a STORE READ (R166). -/
def slotStateNum : Option SlotContent → Nat
  | none => 0
  | some (.written _) => 1
  | some .torn => 2

/-- The outcome data of a STORE READ: slot state and count take a byte each (R166; the widths: log entry 33). -/
def readOutcome (x : Sector) (slot : Nat) : List Byte :=
  if slot = 31 then
    match x.mark with
    | .empty => be1 0 ++ be2 0 ++ be1 0
    | .written check count => be1 1 ++ halfBytes check ++ be1 count
    | .torn => be1 2 ++ be2 0 ++ be1 0
  else
    be1 (slotStateNum (slotContent x.slots slot)) ++
      match slotContent x.slots slot with
      | some (.written v) => halfBytes v
      | some .torn | none => be2 0

/-- Every slot of a sector is EMPTY and its clear-in-progress flag is clear (R166). -/
def Sector.isBlank (x : Sector) : Bool := x.slots.isEmpty && x.mark == .empty && !x.clearing

/-- Status codes of sectors in the outcome of an APPLY (R170). -/
def SectorStatus.num : SectorStatus → Nat
  | .valid => 0
  | .defaulted => 1
  | .clamped => 2
  | .torn => 3

/-- The conditions of an APPLY, judged at its take: the first that fails (R170). -/
def Hub.applyRefusal (h : Hub) : Option Reason :=
  if h.standing = false then some .notStandstill
  else if h.brake.halt ≠ .applied then some .haltNotApplied
  else if h.kneel.state ≠ .ride then some .kneelActive
  else none

/-- The RIDE targets are formed from the trims (R92). -/
def Hub.formRideTargets (h : Hub) : Hub :=
  h.onLevel fun u =>
    { u with
      circuits := .tab fun c =>
        if (u.circuits.get c).source = .ride then { u.circuits.get c with target := h.trim c } else u.circuits.get c }

/-- The installation of a new active set by an APPLY: the set whole (R170), the setpoint clamp (R52), the targets (R92),
and the door enable (R125). -/
def Hub.installApply (h : Hub) : Hub :=
  ((h.installLoad.clampSteer .a3).clampSteer .a4).formRideTargets.installEnables

/-- An operation's work at its end, and its outcome (R166, R167, R170; the width of a CLOSE's count: log entry 33). -/
def Hub.finishWork (r : RunningOp) (h : Hub) : Hub × Answer :=
  match r.op with
  | .read k slot => (h, .done (readOutcome (h.sector k) slot))
  | .write k slot v => (h.onSector k fun x => { x with slots := putSlot slot (.written v) x.slots }, .done [])
  | .close k =>
    let check := checkSum (h.sector k)
    let count := (writtenValues (h.sector k)).length
    (h.onSector k fun x => { x with mark := .written check count }, .done (halfBytes check ++ be1 count))
  | .lock k => (h.onSector k fun x => { x with lock := true }, .done [])
  | .blank k => (h, .done (be1 (if (h.sector k).isBlank then 1 else 0)))
  | .clear k =>
    (h.onSector k fun x => { slots := [], mark := .empty, lock := x.lock && !r.clearLock, clearing := false },
      .done [])
  | .apply =>
    if h.applyRefusal.isNone then
      (h.installApply, .done (SectorId.all.map fun k => BitVec.ofNat 8 (h.installLoad.store.statuses.get k).num))
    else (h, .refused .interlock [])

/-- The outcome goes to the slot that is RUNNING the operation; otherwise, after an ABANDON, it is discarded (R153,
R154). -/
def Hub.deliver (r : RunningOp) (outcome : Answer) (h : Hub) : Hub :=
  match (h.port r.port).slot with
  | .running rq => if rq.op = r.op then h.setSlot r.port (.done rq outcome) else h
  | .empty | .waiting _ | .done _ _ => h

/-- The completion of the operation running in the store: its work, its outcome, and the next operation (R153,
R155). -/
def Hub.completeOp (r : RunningOp) (h : Hub) : Hub :=
  let finished := h.finishWork r
  ((finished.1.onStore fun u => { u with running := none }).deliver r finished.2).updateRecord.takeNext

/-- The first WAITING read of another sector than the one being cleared, in the order S, B, M (R155). -/
def Hub.waitingRead (h : Hub) (clear : StoreOp) : Option (Port × HeldRequest) :=
  portOrder.findSome? fun p =>
    match (h.port p).slot with
    | .waiting rq => if suspends clear rq.op then some (p, rq) else none
    | .empty | .running _ | .done _ _ => none

/-- The completion of a read that runs in a suspension: the next such read starts, or the clear resumes (R155). -/
def Hub.completeSuspended (r : RunningOp) (h : Hub) : Hub :=
  let delivered := ((h.onStore fun u => { u with read := none }).deliver r (h.finishWork r).2).updateRecord
  match h.store.running with
  | none => delivered.takeNext
  | some clear =>
    match delivered.waitingRead clear.op with
    | some (p, rq) => delivered.startSuspended p rq
    | none => delivered

/-- The operation whose completion can be taken: the read of a suspension, or else the running operation, once it has
worked its time (R166, R167; log entry 2). -/
def Store.due (u : Store) : Option RunningOp :=
  match u.read with
  | some r => if r.op.duration ≤ r.elapsed then some r else none
  | none =>
    match u.running with
    | some r => if r.op.duration ≤ r.elapsed then some r else none
    | none => none

/-- A completion, if the operation that is due is one of the given order (R166); the DEPOT line is read, since the
record is updated (R171) and a waiting clear may start (R167). -/
def Hub.storeCompletion (code : Byte) (depot : Bool) (h : Hub) : Hub :=
  match h.store.due with
  | some r =>
    if r.op.code = code then
      let pins := h.readDepot depot
      if h.store.read.isSome then pins.completeSuspended r else pins.completeOp r
    else h
  | none => h

/-- STORE_READ_COMPLETION (R166, R155). -/
def execStoreReadCompletion (depot : Bool) (s : State) : Host.Outcome State Fault Refusal :=
  .next { s with hub := s.hub.storeCompletion 0x38 depot }

/-- STORE_CLEAR_COMPLETION (R167). -/
def execStoreClearCompletion (depot : Bool) (s : State) : Host.Outcome State Fault Refusal :=
  .next { s with hub := s.hub.storeCompletion 0x39 depot }

/-- STORE_WRITE_COMPLETION (R166). -/
def execStoreWriteCompletion (depot : Bool) (s : State) : Host.Outcome State Fault Refusal :=
  .next { s with hub := s.hub.storeCompletion 0x3A depot }

/-- STORE_CLOSE_COMPLETION (R166). -/
def execStoreCloseCompletion (depot : Bool) (s : State) : Host.Outcome State Fault Refusal :=
  .next { s with hub := s.hub.storeCompletion 0x3B depot }

/-- STORE_LOCK_COMPLETION (R166). -/
def execStoreLockCompletion (depot : Bool) (s : State) : Host.Outcome State Fault Refusal :=
  .next { s with hub := s.hub.storeCompletion 0x3C depot }

/-- BLANK_TEST_COMPLETION (R166). -/
def execBlankTestCompletion (depot : Bool) (s : State) : Host.Outcome State Fault Refusal :=
  .next { s with hub := s.hub.storeCompletion 0x3D depot }

/-- APPLY_COMPLETION (R170). -/
def execApplyCompletion (depot : Bool) (s : State) : Host.Outcome State Fault Refusal :=
  .next { s with hub := s.hub.storeCompletion 0x3E depot }

/-! ## The delayed orders (R151, R153)

Each carries the level the DEPOT line has where the store starts it (R167, R171; log entry 8). -/

/-- The request held in a delayed slot. -/
def DelayedSlot.held? : DelayedSlot → Option HeldRequest
  | .empty => none
  | .waiting rq => some rq
  | .running rq => some rq
  | .done rq _ => some rq

/-- Whether an order repeats the held request: its code and tag are equal, and the payload is not compared (R153). -/
def DelayedSlot.repeats (code tag : Byte) (x : DelayedSlot) : Bool :=
  match x.held? with
  | some rq => rq.op.code == code && rq.tag == tag
  | none => false

/-- The answer to a repetition: RETRY, or the outcome, which empties the slot (R153). -/
def serveRepetition (p : Port) : Service := fun h =>
  match (h.port p).slot with
  | .done _ outcome => (h.setSlot p .empty, outcome)
  | .empty | .waiting _ | .running _ => (h, .plain .retry)

/-- A delayed request that passed the checks of its take (R153). -/
def serveDelayed (q : Request) (op : StoreOp) : Service := fun h =>
  match (h.port q.port).slot with
  | .empty => (h.placeDelayed q.port ⟨op, q.tag, q.payload⟩, .plain .retry)
  | .waiting _ | .running _ | .done _ _ => (h, .plain .slotBusy)

/-- A delayed order: repetitions before the class check, then the checks of the take, then the slot (R151, R153). -/
def Hub.delayedOrder (q : Request) (code : Byte) (judge : Hub → Except Reason StoreOp) (h : Hub) : Hub :=
  h.exchange q code (whenLoaded fun h =>
    if (h.port q.port).slot.repeats code q.tag then serveRepetition q.port h
    else
      whenAllowed q.port .calibration (fun h =>
        match judge h with
        | .ok op => serveDelayed q op h
        | .error r => (h, .refused r [])) h)

/-- An operand that is RANGE where it is absent (R166). -/
def orRange (op : Option StoreOp) : Hub → Except Reason StoreOp := fun _ =>
  match op with
  | some op => .ok op
  | none => .error .range

/-- STORE_READ (R166, R153). -/
def execStoreRead (q : DelayedOrder) (s : State) : Host.Outcome State Fault Refusal :=
  .next { s with hub := (s.hub.readDepot q.depot).delayedOrder q.toRequest 0x38#8 (orRange (readOperand q.payload)) }

/-- STORE_CLEAR (R167, R153). -/
def execStoreClear (q : Request) (depot : Bool) (s : State) : Host.Outcome State Fault Refusal :=
  .next { s with hub := (s.hub.readDepot depot).delayedOrder q 0x39#8 (orRange ((sectorOperand q.payload).map .clear)) }

/-- STORE_WRITE (R166, R153). -/
def execStoreWrite (q : DelayedOrder) (s : State) : Host.Outcome State Fault Refusal :=
  .next { s with hub := (s.hub.readDepot q.depot).delayedOrder q.toRequest 0x3A#8 (orRange (writeOperand q.payload)) }

/-- STORE_CLOSE (R166, R153). -/
def execStoreClose (q : DelayedOrder) (s : State) : Host.Outcome State Fault Refusal :=
  .next { s with hub := (s.hub.readDepot q.depot).delayedOrder q.toRequest 0x3B#8 (orRange ((sectorOperand q.payload).map .close)) }

/-- STORE_LOCK (R166, R153). -/
def execStoreLock (q : DelayedOrder) (s : State) : Host.Outcome State Fault Refusal :=
  .next { s with hub := (s.hub.readDepot q.depot).delayedOrder q.toRequest 0x3C#8 (orRange ((sectorOperand q.payload).map .lock)) }

/-- BLANK_TEST (R166, R153). -/
def execBlankTest (q : DelayedOrder) (s : State) : Host.Outcome State Fault Refusal :=
  .next { s with hub := (s.hub.readDepot q.depot).delayedOrder q.toRequest 0x3D#8 (orRange ((sectorOperand q.payload).map .blank)) }

/-- The conditions of an APPLY at its take (R170); a payload is ignored (R151). -/
def applyOperand (h : Hub) : Except Reason StoreOp :=
  match h.applyRefusal with
  | some r => .error r
  | none => .ok .apply

/-- APPLY (R170, R153). -/
def execApply (q : DelayedOrder) (s : State) : Host.Outcome State Fault Refusal :=
  .next { s with hub := (s.hub.readDepot q.depot).delayedOrder q.toRequest 0x3E#8 applyOperand }

end Sys2Proof.Machine
end

