-- ==== Sys2Proof/Machine/Reset.lean ====
section
/-! DEFINITION. The resets, and the load of the active set that ends each of them (R160, R156, R164, R168, R169). -/

namespace Sys2Proof.Machine

/-- A reset cuts off the operation running in the store: what it left in the sector stands (R168). -/
def Store.cutOff (u : Store) : Store := { u with running := none, read := none }

/-- What data out carries in a frame that a reset cuts: the pending reply until the reset, then 0x00 (R160). -/
def CutFrame.shiftOut (r : Reply) (f : CutFrame) : List Byte :=
  r.shiftOut f.before ++ List.replicate f.after 0x00#8

/-- The pins at a reset: each frame it cuts clocks out its bytes, and no other pin changes (R160; log entry 6). -/
def Hub.cutPins (cut : Port → Option CutFrame) (h : Hub) : Pins :=
  { h.pins with
    dataOut := .tab fun p => ((cut p).map (CutFrame.shiftOut (h.port p).pending)).getD (h.pins.dataOut.get p) }

/-- The frames that a HUB RESET cuts: on the port of the order itself no frame is active, since its own has ended (R158,
R160). -/
def Hub.cutBut (own : Port) (h : Hub) : Port → Option CutFrame := fun p =>
  if p = own then none else Config.cutFrame h.freeCount p

/-- The RST line and HUB RESET: every unit takes its state after reset; the access map, its lock, the routing table
and the store's content are kept (R158, R160, R164, R168). -/
def Hub.warmReset (cut : Port → Option CutFrame) (h : Hub) : Hub :=
  { Hub.atPowerOn with
    pins := h.cutPins cut
    access := h.access
    events := .atReset h.events.routing
    store := h.store.cutOff
    freeCount := h.freeCount + 1 }

/-- The power-on reset: the store's content survives; the routing table is the built-in one, and the access map is
still to be formed (R156, R164, R166). -/
def Hub.powerOn (h : Hub) : Hub :=
  { Hub.atPowerOn with
    pins := h.cutPins (Config.cutFrame h.freeCount)
    store := { Store.asDelivered with sectors := h.store.sectors }
    freeCount := h.freeCount + 1 }

/-- POWER_ON_RESET (R160). -/
def execPowerOnReset (s : State) : Host.Outcome State Fault Refusal :=
  .next { s with hub := s.hub.powerOn }

/-- RST_LINE (R160). -/
def execRstLine (s : State) : Host.Outcome State Fault Refusal :=
  .next { s with hub := s.hub.warmReset (Config.cutFrame s.hub.freeCount) }

/-! ## The load -/

/-- Whether sector 7 was loaded with status VALID or CLAMPED (R156, R164). -/
def Hub.sector7Used (h : Hub) : Bool :=
  h.store.statuses.s7 == .valid || h.store.statuses.s7 == .clamped

/-- The home slot of a port's class set in sector 7 (R166). -/
def classSlot : Port → Nat
  | .m => 0
  | .b => 1
  | .s => 2

/-- The map and lock of sector 7, or the built-in map with the lock clear (R156). -/
def Hub.formedAccess (h : Hub) : Access :=
  if h.sector7Used then
    { map := .tab fun p => BitVec.ofInt 5 (h.item .s7 (classSlot p))
      lock := h.item .s7 3 == 1
      source := .sector7
      owed := false }
  else { map := builtInMap, lock := false, source := .builtIn, owed := false }

/-- The routing items of sector 7, or the built-in table (R164). -/
def Hub.formedRouting (h : Hub) : PerKind PortSet :=
  if h.sector7Used then .tab fun k => BitVec.ofInt 3 (h.item .s7 (3 + k.num)) else builtInRouting

/-- Access map, lock and routing table are formed at the first load after a power-on reset; after the RST line or
HUB RESET they are kept (R156, R164, R169). -/
def Hub.formAccess (h : Hub) : Hub :=
  if h.access.owed then
    (h.onAccess fun _ => h.formedAccess).onEvents fun u => { u with routing := h.formedRouting }
  else h

/-- The units start their timers when the active set has been loaded (R2, R14, R15, R34, R55, R70, R90). -/
def Hub.startTimers (h : Hub) : Hub :=
  ((((h.onSensing fun u => { u with scanTimer := .started, speedTimer := .started, quiet := .started }).onSteering
    fun u => { u with timer := .started }).onJoints fun u => { u with timer := .started }).onBrake
    fun u => { u with timer := .started }).onLevel fun u => { u with timer := .started }

/-- The loads start at the nominal load, clamped to the load limit (R89). -/
def Hub.startLoads (h : Hub) : Hub :=
  h.onBrake fun u =>
    { u with axles := .tab fun k => { u.axles.get k with load := (min (h.loadNom k) (h.loadMax k)).toNat } }

/-- The load at a reset becomes the active set, at the first one after a power-on reset whole; after the RST line or HUB
RESET sector 7 is loaded for its status alone, and its items stay as they stood (R169). -/
def Hub.installReset (h : Hub) : Hub :=
  if h.access.owed then h.installLoad
  else h.installLoad.onStore fun u => { u with active := u.active.set .s7 h.store.active.s7 }

/-- The completion of the load after a reset (R169): the set and the store's record (R171), the access map and the
routing table, the units' starts, then the doors and the move permit (log entry 25). -/
def Hub.completeLoad (levels : PerDoor DoorLevels) (h : Hub) : Hub :=
  let loaded := (h.onClock fun u => { u with loaded := true, load := .stopped }).installReset.updateRecord
  (loaded.formAccess.startTimers.startLoads.formRideTargets).sampleDoors levels

/-- ACTIVE_SET_LOAD, with the first levels of the door inputs (R138) and the level of the DEPOT line (R169, R171). -/
def execActiveSetLoad (inputs : LoadInputs) (s : State) : Host.Outcome State Fault Refusal :=
  .next (if s.hub.clock.load.due loadTime then { s with hub := (s.hub.readDepot inputs.depot).completeLoad inputs.doors } else s)

end Sys2Proof.Machine
end

