-- ==== Sys2Proof/Machine/Ports.lean ====
section
/-! DEFINITION. The requests of the port units and the event unit themselves: NOP, frame errors, unknown objects, the
drive demand's POST, the path flag, the access map, the routing table, HUB RESET, TAKE and ABANDON (chapters 10, 11,
R26). -/

namespace Sys2Proof.Machine

/-- A frame that fails R149: counted, counted as an error, and answered with bytes 1 and 2 echoed where they were
clocked (R149). -/
def Hub.frameError (p : Port) (bytes : List Byte) (h : Hub) : Hub :=
  ((h.clockFrame p bytes.length).onPort p fun u => { u with errors := u.errors + 1 }).reply p
    (bytes[1]?.getD 0#8) (bytes[2]?.getD 0#8) (.plain .frameError)

/-- FRAME_ERROR (R149). -/
def execFrameError (port : Port) (bytes : List Byte) (s : State) : Host.Outcome State Fault Refusal :=
  .next (if bytes.isEmpty = false ∧ (readFrame bytes).isNone = true then
    { s with hub := s.hub.frameError port bytes } else s)

/-- UNKNOWN_OBJECT (R151, step 4). -/
def execUnknownObject (q : Request) (kind : CodedKind) (code : Byte) (s : State) : Host.Outcome State Fault Refusal :=
  .next (if (codedCommand q false kind code.toNat).isNone then
    { s with hub := s.hub.exchange q code (whenLoaded (answering (.refused .unknownObject []))) } else s)

/-- NOP (R151, step 2). -/
def execNop (q : Request) (code : Byte) (s : State) : Host.Outcome State Fault Refusal :=
  .next { s with hub := s.hub.exchange q code (answering (.done [])) }

/-- POST DRIVE DEMAND, taken (R152). -/
def servePost (p : Port) (payload : List Byte) : Service := fun h =>
  match demandOf payload with
  | none => (h, .refused .range [])
  | some d => (h.onPort p fun u => { u with posted := some d }, .plain .taken)

/-- A POST (R151, R152). -/
def Hub.post (q : Request) (h : Hub) : Hub :=
  h.exchange q 0x10#8
    (whenLoaded (whenAllowed q.port .demand (whenUnposted q.port (servePost q.port q.payload))))

/-- POST_DRIVE_DEMAND (R152). -/
def execPostDriveDemand (q : Request) (s : State) : Host.Outcome State Fault Refusal :=
  .next { s with hub := s.hub.post q }

/-- CLEAR PATH FLAG, taken (R26). -/
def serveClearPathFlag : Service := fun h => (h.onPath fun p => { p with underrun := false }, .done [])

/-- CLEAR_PATH_FLAG (R26). -/
def execClearPathFlag (q : Request) (s : State) : Host.Outcome State Fault Refusal :=
  .next { s with hub := s.hub.order q 0x22#8 .demand serveClearPathFlag }

/-- MAP WRITE, taken (R156, R157). -/
def serveMapWrite (payload : List Byte) : Service := fun h =>
  if h.access.lock then (h, .plain .locked)
  else
    match mapOperand payload with
    | none => (h, .refused .range [])
    | some (p, set) => (h.onAccess fun u => { u with map := u.map.set p set }, .done [])

/-- MAP_WRITE (R156). -/
def execMapWrite (q : Request) (s : State) : Host.Outcome State Fault Refusal :=
  .next { s with hub := s.hub.order q 0x30#8 .supervision (serveMapWrite q.payload) }

/-- MAP LOCK, taken (R157). -/
def serveMapLock : Service := fun h => (h.onAccess fun u => { u with lock := true }, .done [])

/-- MAP_LOCK (R157). -/
def execMapLock (q : Request) (s : State) : Host.Outcome State Fault Refusal :=
  .next { s with hub := s.hub.order q 0x31#8 .supervision serveMapLock }

/-- ROUTE WRITE, taken (R164). -/
def serveRouteWrite (payload : List Byte) : Service := fun h =>
  if h.access.lock then (h, .plain .locked)
  else
    match routeOperand payload with
    | none => (h, .refused .range [])
    | some (kind, set) => (h.onEvents fun u => { u with routing := u.routing.set kind set }, .done [])

/-- ROUTE_WRITE (R164). -/
def execRouteWrite (q : Request) (s : State) : Host.Outcome State Fault Refusal :=
  .next { s with hub := s.hub.order q 0x32#8 .supervision (serveRouteWrite q.payload) }

/-- HUB RESET, judged (R158). -/
def serveHubReset : Service := fun h =>
  if h.standing then (h, .done []) else (h, .refused .notStandstill [])

/-- HUB RESET: where it is taken, the reset follows at the end of its frame, replaces every pending reply with NONE and
cuts the frames active on the other ports (R158, R160). -/
def Hub.hubReset (q : Request) (h : Hub) : Hub :=
  let judged := h.order q 0x33#8 .supervision serveHubReset
  if (judged.port q.port).pending.status = .done then judged.warmReset (h.cutBut q.port) else judged

/-- HUB_RESET (R158). -/
def execHubReset (q : Request) (s : State) : Host.Outcome State Fault Refusal :=
  .next { s with hub := s.hub.hubReset q }

/-- The bytes of an entry in a TAKE reply (R162). -/
def EventEntry.bytes (e : EventEntry) : List Byte :=
  be1 e.kind.num ++ be1 e.subject ++ be1 e.count ++ wordBytes e.first ++ wordBytes e.last ++ halfBytes e.value

/-- TAKE removes a port's oldest entries; the attention line follows (R163). -/
def EventUnit.removeOldest (p : Port) (n : Nat) (u : EventUnit) : EventUnit :=
  { u with
    queues := u.queues.set p ((u.queues.get p).drop n)
    attention := u.attention.set p (!((u.queues.get p).drop n).isEmpty) }

/-- TAKE, taken (R163). -/
def serveTake (p : Port) (payload : List Byte) : Service := fun h =>
  match takeOperand payload with
  | none => (h, .refused .range [])
  | some n =>
    let taken := (h.events.queues.get p).take n
    (h.onEvents (EventUnit.removeOldest p n), .done (be1 taken.length ++ taken.flatMap EventEntry.bytes))

/-- TAKE (R163). -/
def execTake (q : Request) (code : Byte) (s : State) : Host.Outcome State Fault Refusal :=
  .next { s with hub := s.hub.exchange q code (whenLoaded (serveTake q.port q.payload)) }

/-- ABANDON, taken (R154). -/
def serveAbandon (p : Port) : Service := fun h => (h.setSlot p .empty, .done [])

/-- ABANDON (R154). -/
def execAbandon (q : Request) (code : Byte) (s : State) : Host.Outcome State Fault Refusal :=
  .next { s with hub := s.hub.exchange q code (whenLoaded (serveAbandon q.port)) }

end Sys2Proof.Machine
end

