-- ==== Sys2Proof/Machine/Clock.lean ====
section
/-! DEFINITION. The tick: what a tenth of a millisecond without a command does (log entries 1 to 3). No row of the
opcode table is a tick; it is what the step does on an empty queue. -/

namespace Sys2Proof.Machine

/-- The part's time (R162) and the load (R169). -/
def Clock.tick (u : Clock) : Clock :=
  { u with
    ms := if 9 ≤ u.sub then u.ms + 1 else u.ms
    sub := if 9 ≤ u.sub then 0 else u.sub + 1
    load := u.load.advance loadTime }

/-- The sensing unit's timers (R2, R14, R15). -/
def Sensing.tick (u : Sensing) : Sensing :=
  { u with
    scanTimer := u.scanTimer.advance scanPeriod
    speedTimer := u.speedTimer.advance speedPeriod
    quiet := u.quiet.advance quietTime }

/-- The debounce timers of a door (R123). -/
def DoorTimers.tick (x : DoorTimers) : DoorTimers :=
  ⟨x.closed.advance debounceTime, x.lock.advance debounceTime, x.handle.advance debounceTime⟩

/-- The debounce timers of every door (R123). -/
def DoorUnit.tick (u : DoorUnit) : DoorUnit :=
  { u with doors := u.doors.map fun x => { x with timers := x.timers.tick } }

/-- An operation works on (R166, R167). -/
def RunningOp.tick (r : RunningOp) : RunningOp := { r with elapsed := min r.op.duration (r.elapsed + 1) }

/-- The store works: a read served in a suspension, or else the running operation (R167). -/
def Store.tick (u : Store) : Store :=
  match u.read with
  | some r => { u with read := some r.tick }
  | none => { u with running := u.running.map RunningOp.tick }

/-- A tenth of a millisecond passes. -/
def Hub.tick (h : Hub) : Hub :=
  { h with
    clock := h.clock.tick
    sensing := h.sensing.tick
    steering := { h.steering with timer := h.steering.timer.advance Machine.steeringPeriod }
    joints := { h.joints with timer := h.joints.timer.advance Machine.jointPeriod }
    brake := { h.brake with timer := h.brake.timer.advance Machine.brakePeriod }
    level := { h.level with timer := h.level.timer.advance Machine.levellingPeriod }
    doors := h.doors.tick
    link := { h.link with timer := h.link.timer.advance refreshPeriod }
    store := h.store.tick }

end Sys2Proof.Machine
end

