-- ==== Sys2Proof/Machine/Records.lean ====
section
/-! DEFINITION. The records that the FETCH requests copy: each record's fields in the order its rule lists them,
encoded as R150 says (log entries 15, 17). -/

namespace Sys2Proof.Machine

/-! ## Positions of named values in their lists (R150) -/

/-- FORWARD, REVERSE (R18). -/
def directionNum : Direction → Nat
  | .forward => 0
  | .reverse => 1

/-- UNSETTLED, TRUE, FALSE (R18). -/
def Standstill.num : Standstill → Nat
  | .unsettled => 0
  | .yes => 1
  | .no => 2

/-- OK, DEGRADED, FAULT (R18). -/
def PairState.num : PairState → Nat
  | .ok => 0
  | .degraded => 1
  | .fault => 2

/-- FOLLOW, SHORT, REVERSE, HELD, CENTRING, FAILED (R54). -/
def SteerMode.num : SteerMode → Nat
  | .follow => 0
  | .short => 1
  | .reverse => 2
  | .held => 3
  | .centring => 4
  | .failed => 5

/-- TRACKING, DEVICE, CHAIN (R54). -/
def FailCause.num : FailCause → Nat
  | .tracking => 0
  | .device => 1
  | .chain => 2

/-- NEUTRAL, TRACTION, RETARD (R68, R88). -/
def DriveState.num : DriveState → Nat
  | .neutral => 0
  | .traction => 1
  | .retard => 2

/-- NONE, FRESH, HOLDING, STALE (R88). -/
def DemandStatus.num : DemandStatus → Nat
  | .none => 0
  | .fresh => 1
  | .holding => 2
  | .stale => 3

/-- ELECTRONIC, BACKUP (R88, R139). -/
def axleModeNum : AxleMode → Nat
  | .electronic => 0
  | .backup => 1

/-- BELLOWS, ONE SIDE, NOMINAL (R88). -/
def LoadSource.num : LoadSource → Nat
  | .bellows => 0
  | .oneSide => 1
  | .nominal => 2

/-- HOLD, FILL_WAIT, FILL, VENT, EXCLUDED (R107). -/
def Action.num : Action → Nat
  | .hold => 0
  | .fillWait => 1
  | .fill => 2
  | .vent => 3
  | .excluded => 4

/-- RIDE, KNEEL, RAISE (R107, R120). -/
def TargetSource.num : TargetSource → Nat
  | .ride => 0
  | .kneel => 1
  | .raise => 2

/-- LOW, HIGH (R90). -/
def Deviation.num : Deviation → Nat
  | .low => 0
  | .high => 1

/-- NONE, MISMATCH_FILL, MISMATCH_VENT, KNEEL_STOPPED (R107). -/
def HoldReason.num : HoldReason → Nat
  | .none => 0
  | .mismatchFill => 1
  | .mismatchVent => 2
  | .kneelStopped => 3

/-- START, LOW_PRESSURE, SENSOR (R107). -/
def CutCause.num : CutCause → Nat
  | .start => 0
  | .lowPressure => 1
  | .sensor => 2

/-- STANDSTILL, EXCLUSION (R120). -/
def StopCause.num : StopCause → Nat
  | .standstill => 0
  | .exclusion => 1

/-- LOWERING, KNELT, RAISING: the states before a stop (R120). -/
def beforeStopNum : KneelState → Nat
  | .lowering => 0
  | .knelt => 1
  | .raising => 2
  | .ride | .stopped => 0

/-- HOLD, FILL, VENT (R139). -/
def valveNum : ValveCmd → Nat
  | .hold => 0
  | .fill => 1
  | .vent => 2

/-- M, B, S (R150). -/
def portNum : Port → Nat
  | .m => 0
  | .b => 1
  | .s => 2

/-- SECTOR 7, BUILT-IN (R159). -/
def MapSource.num : MapSource → Nat
  | .sector7 => 0
  | .builtIn => 1

/-- STORED, DEFAULT, CORRECTED (R171). -/
def ItemSource.num : ItemSource → Nat
  | .stored => 0
  | .default => 1
  | .corrected => 2

/-- A freeze: off, on, or after-time with the ms left (R88, R150). -/
def Freeze.bytes : Freeze → List Byte
  | .off => be1 0 ++ be2 0
  | .on => be1 1 ++ be2 0
  | .after ms => be1 2 ++ be2 ms

/-- One byte per field that names a value. -/
def optName {α : Type} (num : α → Nat) (x : Option α) : List Byte := optBytes 0 (fun n : Nat => be1 n) (x.map num)

/-- A signed two-byte field that may be absent. -/
def optInt (x : Option Int) : List Byte := optBytes 0 be2 x

/-! ## Sensing, path, steering and joints -/

/-- A pair's fields (R18). -/
def Pair.bytes (p : Pair) : List Byte := be2 p.value ++ be1 p.state.num

/-- A single entry's fields (R18). -/
def Single.bytes (x : Single) : List Byte := be2 x.value ++ noYes x.fault

/-- The MOTION record (R18). -/
def Hub.motionRecord (h : Hub) : List Byte :=
  let u := h.sensing
  wordBytes u.travel ++ be2 u.speed ++ be1 (directionNum u.direction) ++ be1 u.standstill.num ++ be2 u.rounds
    ++ u.steer.bytes ++ Joint.all.flatMap (fun j => (u.joints.get j).bytes)
    ++ Circuit.all.flatMap (fun c => (u.heights.get c).bytes) ++ Circuit.all.flatMap (fun c => (u.bellows.get c).bytes)
    ++ u.reservoir.bytes ++ Axle.all.flatMap fun k => (u.brakes.get k).bytes

/-- The tail sample's index; the push count when there is none (R30). -/
def PathMemory.tailIndex (p : PathMemory) : Word :=
  match p.samples.getLast? with
  | some x => x.index
  | none => p.pushCount

/-- The PATH record (R30). -/
def Hub.pathRecord (h : Hub) : List Byte :=
  let p := h.path
  be2 p.samples.length ++ be2 p.r ++ wordBytes p.pushCount ++ wordBytes p.tailIndex ++ be2 p.absent ++ noYes p.underrun
    ++ optInt (p.samples.head?.bind Sample.angle)

/-- The PATH WINDOW record at an offset (R31). -/
def Hub.pathWindowRecord (o : Nat) (h : Hub) : List Byte :=
  let p := h.path
  let window := (p.samples.drop o).take 16
  let first := match window with
    | x :: _ => x.index
    | [] => p.pushCount
  be1 o ++ be2 p.samples.length ++ be2 p.r ++ wordBytes first ++ be1 window.length
    ++ window.flatMap fun x => optInt x.angle

/-- A trailing axle's fields (R54). -/
def AxleSteer.bytes (x : AxleSteer) : List Byte :=
  noYes x.initialised ++ optName SteerMode.num x.mode ++ optName FailCause.num x.cause ++ optInt x.setpoint
    ++ noYes x.enable ++ optInt x.measured ++ x.tracking.bytes ++ optInt x.lookup ++ optInt x.law
    ++ optInt (x.fade.map fun n => (n : Int))

/-- The STEER record (R54). -/
def Hub.steerRecord (h : Hub) : List Byte :=
  halfBytes h.steering.periods ++ Trailing.all.flatMap fun t => (h.axleSteer t).bytes

/-- One copy fewer still to come between the two axles' work. -/
def Midway.spend (m : Midway) : Option Midway :=
  if m.copies ≤ 1 then none else some { m with copies := m.copies - 1 }

/-- The part as a copy between the two axles' work sees it: A3 after the period, A4 and the period count before
(R54). -/
def Midway.shown (m : Midway) (h : Hub) : Hub :=
  (h.onAxleSteer .a4 fun _ => m.a4).onSteering fun u => { u with periods := m.periods }

/-- A joint's fields (R68). -/
def JointHold.bytes (x : JointHold) : List Byte :=
  be1 x.state.num ++ be2 x.phi ++ optInt x.phiPrev ++ be4 x.omega ++ noYes x.growing ++ x.hold.bytes ++ be1 x.speedBand
    ++ be1 x.angleBand ++ be1 x.table ++ be1 x.damping ++ be2 x.stretch

/-- The JOINTS record (R68). -/
def Hub.jointsRecord (h : Hub) : List Byte :=
  let u := h.joints
  halfBytes u.periods ++ Joint.all.flatMap (fun j => (u.joints.get j).bytes) ++ be2 u.requests.a3 ++ be2 u.requests.a4
    ++ be1 u.driveSeen.num ++ yesNo u.torqueCut

/-! ## Brakes, levelling, kneel and doors -/

/-- An axle's fields (R88). -/
def AxleBrake.bytes (a : AxleBrake) : List Byte :=
  be1 (axleModeNum a.mode) ++ be2 a.load ++ be1 a.source.num ++ a.activity.bytes ++ noYes a.frozen ++ be2 a.service
    ++ be2 a.halt ++ be2 a.stretch ++ be2 a.command

/-- The BRAKE record (R88). -/
def Hub.brakeRecord (h : Hub) : List Byte :=
  let u := h.brake
  halfBytes u.periods ++ be1 u.status.num ++ u.age.bytes ++ be2 u.decel ++ be1 u.drive.num
    ++ optBytes 0#8 (fun b => [b]) u.lastSeq ++ optName portNum u.lastPort ++ be1 u.superseded ++ u.kneelFreeze.bytes
    ++ be1 u.halt.num ++ u.applying.bytes ++ noYes u.haltFault
    ++ Axle.all.flatMap fun k => (u.axles.get k).bytes

/-- A fill slot: free, or its circuit, hold time, grant number and class (R107). -/
def slotBytes : Option HeldSlot → List Byte
  | none => be1 0 ++ be1 0 ++ be2 0 ++ be2 0 ++ be1 0
  | some x => be1 1 ++ be1 x.circuit.num ++ be2 x.time ++ halfBytes x.grant ++ be1 x.cls

/-- HEIGHT, VALVE and CHAIN in one byte (R107, R150). -/
def Causes.num (x : Causes) : Nat :=
  (if x.height then 1 else 0) + (if x.valve then 2 else 0) + (if x.chain then 4 else 0)

/-- A circuit's fields (R107). -/
def Hub.circuitBytes (h : Hub) (c : Circuit) : List Byte :=
  let x := h.circuit c
  be1 x.action.num ++ be1 x.ring.length ++ optInt x.height ++ be1 x.target ++ be1 x.source.num ++ be1 (h.band x)
    ++ optInt x.error ++ be1 x.count ++ be1 x.direction.num ++ be1 x.reason.num ++ be1 x.causes.num

/-- The LEVEL record (R107). -/
def Hub.levelRecord (h : Hub) : List Byte :=
  let u := h.level
  halfBytes u.periods ++ yesNo u.cut ++ be1 u.cutCause.num ++ FillSlot.all.flatMap (fun i => slotBytes (u.slots.get i))
    ++ be1 u.queue.length ++ u.queue.flatMap (fun e => be1 e.circuit.num ++ be1 e.cls) ++ yesNo u.mismatch
    ++ optInt u.front ++ optInt u.middle ++ optInt u.rear ++ Circuit.all.flatMap h.circuitBytes

/-- An entry of the KNEEL record's circuits in scope (R120). -/
def Hub.scopeBytes (h : Hub) (c : Circuit) : List Byte :=
  be1 c.num ++ be1 (h.circuit c).target ++ be1 (h.circuit c).source.num ++ optInt (h.kneel.errors.get c).error
    ++ be1 (h.kneel.errors.get c).band

/-- The KNEEL record (R120). -/
def Hub.kneelRecord (h : Hub) : List Byte :=
  let u := h.kneel
  be1 u.state.num ++ optName StopCause.num u.cause ++ optName Circuit.num u.circuit ++ optName beforeStopNum u.before
    ++ noYes h.sideLeft ++ noYes h.scopeSide ++ noYes h.autoRaiseOn ++ be1 h.kneelDepth ++ halfBytes u.completions
    ++ be1 h.scope.length ++ h.scope.flatMap h.scopeBytes

/-- The three levels of a door (R137). -/
def levelBytes (x : DoorLevels) : List Byte := noYes x.closed ++ noYes x.lock ++ noYes x.handle

/-- A door's fields (R137). -/
def Hub.doorBytes (h : Hub) (d : Door) : List Byte :=
  let x := h.door d
  noYes x.enabled ++ levelBytes x.raw ++ levelBytes x.debounced ++ be1 x.position.num ++ be1 x.release.num ++ noYes x.mark
    ++ noYes x.atSpeed ++ yesNo (h.link.lines.release.get d)

/-- The DOORS record (R137). -/
def Hub.doorsRecord (h : Hub) : List Byte :=
  let u := h.doors
  halfBytes u.changes ++ be1 h.enableMask ++ yesNo u.condition ++ yesNo u.permit ++ be1 h.sensing.standstill.num
    ++ be1 h.brake.halt.num ++ be1 h.kneel.state.num ++ Door.all.flatMap h.doorBytes

/-! ## Link -/

/-- A modulator's command: mode and pressure (R139). -/
def modBytes (c : ModCmd) : List Byte := be1 (axleModeNum c.mode) ++ be2 c.pressure

/-- A steering actuator's command: enable and setpoint (R139). -/
def steerBytes (c : SteerCmd) : List Byte := noYes c.enable ++ be2 c.setpoint

/-- An ok flag: ok, not ok (R142; log entry 15). -/
def okBytes (ok : Bool) : List Byte := yesNo ok

/-- A device's fields; `c` and `w` are any command and status word (R146). An echo outside its command's range is shown
in the command's bytes, modulo their width (log entry 35). -/
def Device.bytes {γ σ : Type} (c : γ) (w : σ) (cmd : γ → List Byte) (word : σ → List Byte) (d : Device γ σ) : List Byte :=
  cmd d.image ++ optBytes c cmd d.lastSent ++ optBytes c cmd d.echo ++ noYes d.mismatch ++ optBytes w word d.status
    ++ noYes d.fault

/-- A chain's fields before its devices (R146). -/
def ChainHold.bytes (x : ChainHold) : List Byte :=
  noYes x.fault ++ be1 x.mismatches ++ be1 x.cleans ++ be1 x.entries

/-- The LINK record (R146). -/
def Hub.linkRecord (h : Hub) : List Byte :=
  let u := h.link
  halfBytes u.refreshes ++ Door.all.flatMap (fun d => yesNo (u.lines.release.get d)) ++ yesNo u.lines.permit
    ++ yesNo u.lines.torque
    ++ u.chainL.bytes ++ Circuit.all.flatMap (fun c =>
      (u.valves.get c).bytes .hold true (fun v => be1 (valveNum v)) okBytes)
    ++ u.chainB.bytes ++ Axle.all.flatMap (fun k => (u.modulators.get k).bytes ⟨.backup, 0⟩ true modBytes okBytes)
    ++ u.chainS.bytes ++ Trailing.all.flatMap (fun t => (u.actuators.get t).bytes ⟨false, 0⟩ 0#16 steerBytes halfBytes)
    ++ u.chainJ.bytes ++ Joint.all.flatMap fun j => (u.dampers.get j).bytes 0 true (fun n : Nat => be1 n) okBytes

/-! ## Store, ports and access -/

/-- The sector of an operation, where its order has one. -/
def StoreOp.sector? : StoreOp → Option SectorId
  | .read k _ => some k
  | .clear k => some k
  | .write k _ _ => some k
  | .close k => some k
  | .lock k => some k
  | .blank k => some k
  | .apply => none

/-- The slot of an operation, where its order has one. -/
def StoreOp.slot? : StoreOp → Option Nat
  | .read _ slot => some slot
  | .write _ slot _ => some slot
  | .clear _ | .close _ | .lock _ | .blank _ | .apply => none

/-- The operation STORE STATUS names: a read served in a suspension, or else the running one (R171, log entry 17). -/
def Store.named (u : Store) : Option RunningOp := u.read.or u.running

/-- The running operation's fields: order, sector, slot and port; a sector or slot the order does not have is a free
value (R171, log entry 16). -/
def runningBytes (free : Nat) (r : RunningOp) : List Byte :=
  r.op.code :: ((r.op.sector?.map fun k => be1 k.num).getD [Config.unstatedByte free])
    ++ ((r.op.slot?.map fun n => be1 n).getD [Config.unstatedByte (free + 1)]) ++ be1 (portNum r.port)

/-- The clear progress: the accumulated ms as of the record's last update, and whether suspended; absent when no clear
runs (R171, log entry 17). -/
def Store.clearBytes (u : Store) : List Byte :=
  match u.running with
  | some ⟨.clear _, _, _, _⟩ => be1 1 ++ be1 u.shown.progress ++ noYes u.read.isSome
  | _ => be1 0 ++ be1 0 ++ be1 0

/-- The number of slots 0 to 31 in each state: EMPTY, WRITTEN, TORN (R171). -/
def Sector.countBytes (x : Sector) : List Byte :=
  let torn := (x.slots.filter fun s => s.2 == .torn).length + if x.mark = .torn then 1 else 0
  let written := (writtenValues x).length + if x.isClosed then 1 else 0
  be1 (32 - written - torn : Nat) ++ be1 written ++ be1 torn

/-- A sector's fields (R171). -/
def Store.sectorBytes (u : Store) (k : SectorId) : List Byte :=
  let x := u.sectors.get k
  x.countBytes ++ noYes x.isClosed ++ noYes x.lock ++ noYes x.clearing ++ be1 (u.statuses.get k).num

/-- The STORE STATUS record; `free` is the index of the free values (R171). -/
def Hub.storeRecord (free : Nat) (h : Hub) : List Byte :=
  let u := h.store
  noYes u.running.isSome ++ (match u.named with
      | some r => be1 1 ++ runningBytes free r
      | none => be1 0 ++ be1 0 ++ be1 0 ++ be1 0 ++ be1 0)
    ++ u.clearBytes ++ yesNo u.shown.depot ++ halfBytes u.loads ++ SectorId.all.flatMap u.sectorBytes

/-- The delayed slot: its state, and outside EMPTY the held code and tag, and in DONE the outcome status (R159). -/
def DelayedSlot.bytes : DelayedSlot → List Byte
  | .empty => be1 0 ++ [0#8, 0#8] ++ be1 0
  | .waiting rq => be1 1 ++ [rq.op.code, rq.tag] ++ be1 0
  | .running rq => be1 2 ++ [rq.op.code, rq.tag] ++ be1 0
  | .done rq outcome => be1 3 ++ [rq.op.code, rq.tag] ++ be1 outcome.status.num

/-- The PORT record of the asking port (R159). -/
def Hub.portRecord (p : Port) (h : Hub) : List Byte :=
  let u := h.port p
  be1 (portNum p) ++ be1 (h.access.map.get p).toNat ++ optBytes 0#8 (fun b => [b]) (u.posted.map Demand.seq)
    ++ u.slot.bytes ++ halfBytes u.frames ++ halfBytes u.errors ++ halfBytes u.denied

/-- The ACCESS record (R159). -/
def Hub.accessRecord (h : Hub) : List Byte :=
  Port.all.flatMap (fun p => be1 (h.access.map.get p).toNat) ++ noYes h.access.lock ++ be1 h.access.source.num
    ++ EventKind.all.flatMap fun k => be1 (h.events.routing.get k).toNat

/-- The item a number names: sector × 32 + slot (R166, R171). -/
def Hub.itemAt (h : Hub) (n : Nat) : Option Item :=
  (SectorId.ofNum? (n / 32)).bind fun k => (h.store.active.get k)[n % 32]?

/-- The ACTIVE ITEM record (R171). -/
def itemRecord (n : Byte) (x : Item) : List Byte := [n] ++ be2 x.value ++ be1 x.source.num

/-! ## The FETCH requests -/

/-- A FETCH whose record is a copy of the state (R165). -/
def copying (record : Hub → List Byte) : Service := fun h => (h, .done (record h))

/-- FETCH_MOTION (R18). -/
def execFetchMotion (q : Request) (s : State) : Host.Outcome State Fault Refusal :=
  .next { s with hub := s.hub.fetch q 0x01#8 (copying Hub.motionRecord) }

/-- FETCH_PATH (R30). -/
def execFetchPath (q : Request) (s : State) : Host.Outcome State Fault Refusal :=
  .next { s with hub := s.hub.fetch q 0x02#8 (copying Hub.pathRecord) }

/-- PATH WINDOW, taken: an offset of exactly one byte (R31). -/
def servePathWindow (payload : List Byte) : Service := fun h =>
  match oneByte payload with
  | some o => (h, .done (h.pathWindowRecord o.toNat))
  | none => (h, .refused .range [])

/-- FETCH_PATH_WINDOW (R31). -/
def execFetchPathWindow (q : Request) (s : State) : Host.Outcome State Fault Refusal :=
  .next { s with hub := s.hub.fetch q 0x03#8 (servePathWindow q.payload) }

/-- STEER, taken: a copy of the state, or one taken between the two axles' work of the last expiry (R54, R165). -/
def serveSteer : Service := fun h =>
  match h.steering.midway with
  | none => (h, .done h.steerRecord)
  | some m => (h.onSteering fun u => { u with midway := m.spend }, .done (m.shown h).steerRecord)

/-- FETCH_STEER (R54). -/
def execFetchSteer (q : Request) (s : State) : Host.Outcome State Fault Refusal :=
  .next { s with hub := s.hub.fetch q 0x04#8 serveSteer }

/-- FETCH_JOINTS (R68). -/
def execFetchJoints (q : Request) (s : State) : Host.Outcome State Fault Refusal :=
  .next { s with hub := s.hub.fetch q 0x05#8 (copying Hub.jointsRecord) }

/-- FETCH_BRAKE (R88). -/
def execFetchBrake (q : Request) (s : State) : Host.Outcome State Fault Refusal :=
  .next { s with hub := s.hub.fetch q 0x06#8 (copying Hub.brakeRecord) }

/-- FETCH_LEVEL (R107). -/
def execFetchLevel (q : Request) (s : State) : Host.Outcome State Fault Refusal :=
  .next { s with hub := s.hub.fetch q 0x07#8 (copying Hub.levelRecord) }

/-- FETCH_KNEEL (R120). -/
def execFetchKneel (q : Request) (s : State) : Host.Outcome State Fault Refusal :=
  .next { s with hub := s.hub.fetch q 0x08#8 (copying Hub.kneelRecord) }

/-- FETCH_DOORS (R137). -/
def execFetchDoors (q : Request) (s : State) : Host.Outcome State Fault Refusal :=
  .next { s with hub := s.hub.fetch q 0x09#8 (copying Hub.doorsRecord) }

/-- FETCH_LINK (R146). -/
def execFetchLink (q : Request) (s : State) : Host.Outcome State Fault Refusal :=
  .next { s with hub := s.hub.fetch q 0x0A#8 (copying Hub.linkRecord) }

/-- STORE STATUS, taken: the copy uses the next two free values (R171, log entry 16). -/
def serveStoreStatus : Service := fun h =>
  ({ h with freeCount := h.freeCount + 2 }, .done (h.storeRecord h.freeCount))

/-- FETCH_STORE_STATUS (R171): the record shows the DEPOT line as of its last update, and the part reads the line (log
entry 8). -/
def execFetchStoreStatus (q : Request) (depot : Bool) (s : State) : Host.Outcome State Fault Refusal :=
  .next { s with hub := (s.hub.readDepot depot).fetch q 0x0B#8 serveStoreStatus }

/-- FETCH_PORT (R159). -/
def execFetchPort (q : Request) (s : State) : Host.Outcome State Fault Refusal :=
  .next { s with hub := s.hub.fetch q 0x0C#8 (copying (Hub.portRecord q.port)) }

/-- ACTIVE ITEM, taken: an item number of one byte that names an item (R171). -/
def serveActiveItem (payload : List Byte) : Service := fun h =>
  match oneByte payload with
  | some n =>
    match h.itemAt n.toNat with
    | some x => (h, .done (itemRecord n x))
    | none => (h, .refused .range [])
  | none => (h, .refused .range [])

/-- FETCH_ACTIVE_ITEM (R171). -/
def execFetchActiveItem (q : Request) (s : State) : Host.Outcome State Fault Refusal :=
  .next { s with hub := s.hub.fetch q 0x0D#8 (serveActiveItem q.payload) }

/-- FETCH_ACCESS (R159). -/
def execFetchAccess (q : Request) (s : State) : Host.Outcome State Fault Refusal :=
  .next { s with hub := s.hub.fetch q 0x0E#8 (copying Hub.accessRecord) }

end Sys2Proof.Machine
end

