-- ==== Sys2Proof/Machine/Dispatch.lean ====
section
/-! DEFINITION. The dispatch: one arm per command, each a direct call of its meaning. -/

namespace Sys2Proof.Machine

def exec (i : Instr) (s : State) : Host.Outcome State Fault Refusal :=
  match i with
  | .powerOnReset => Sys2Proof.Machine.execPowerOnReset s
  | .rstLine => Sys2Proof.Machine.execRstLine s
  | .activeSetLoad inputs => Sys2Proof.Machine.execActiveSetLoad inputs s
  | .scanRound raw => Sys2Proof.Machine.execScanRound raw s
  | .wheelPulse input dir => Sys2Proof.Machine.execWheelPulse input dir s
  | .speedTimerExpiry dir => Sys2Proof.Machine.execSpeedTimerExpiry dir s
  | .quietTimerExpiry => Sys2Proof.Machine.execQuietTimerExpiry s
  | .steeringTimerExpiry => Sys2Proof.Machine.execSteeringTimerExpiry s
  | .jointTimerExpiry => Sys2Proof.Machine.execJointTimerExpiry s
  | .brakeTimerExpiry => Sys2Proof.Machine.execBrakeTimerExpiry s
  | .levellingTimerExpiry => Sys2Proof.Machine.execLevellingTimerExpiry s
  | .refreshTimerExpiry => Sys2Proof.Machine.execRefreshTimerExpiry s
  | .chainRefreshComplete answers => Sys2Proof.Machine.execChainRefreshComplete answers s
  | .doorInputChange door input level => Sys2Proof.Machine.execDoorInputChange door input level s
  | .debounceTimerExpiry door input => Sys2Proof.Machine.execDebounceTimerExpiry door input s
  | .frameError port bytes => Sys2Proof.Machine.execFrameError port bytes s
  | .unknownObject q kind code => Sys2Proof.Machine.execUnknownObject q kind code s
  | .nop q code => Sys2Proof.Machine.execNop q code s
  | .fetchMotion q => Sys2Proof.Machine.execFetchMotion q s
  | .fetchPath q => Sys2Proof.Machine.execFetchPath q s
  | .fetchPathWindow q => Sys2Proof.Machine.execFetchPathWindow q s
  | .fetchSteer q => Sys2Proof.Machine.execFetchSteer q s
  | .fetchJoints q => Sys2Proof.Machine.execFetchJoints q s
  | .fetchBrake q => Sys2Proof.Machine.execFetchBrake q s
  | .fetchLevel q => Sys2Proof.Machine.execFetchLevel q s
  | .fetchKneel q => Sys2Proof.Machine.execFetchKneel q s
  | .fetchDoors q => Sys2Proof.Machine.execFetchDoors q s
  | .fetchLink q => Sys2Proof.Machine.execFetchLink q s
  | .fetchStoreStatus q depot => Sys2Proof.Machine.execFetchStoreStatus q depot s
  | .fetchPort q => Sys2Proof.Machine.execFetchPort q s
  | .fetchActiveItem q => Sys2Proof.Machine.execFetchActiveItem q s
  | .fetchAccess q => Sys2Proof.Machine.execFetchAccess q s
  | .postDriveDemand q => Sys2Proof.Machine.execPostDriveDemand q s
  | .haltOn q => Sys2Proof.Machine.execHaltOn q s
  | .haltOff q => Sys2Proof.Machine.execHaltOff q s
  | .clearPathFlag q => Sys2Proof.Machine.execClearPathFlag q s
  | .release q => Sys2Proof.Machine.execRelease q s
  | .withdraw q => Sys2Proof.Machine.execWithdraw q s
  | .kneel q => Sys2Proof.Machine.execKneel q s
  | .raise q => Sys2Proof.Machine.execRaise q s
  | .mapWrite q => Sys2Proof.Machine.execMapWrite q s
  | .mapLock q => Sys2Proof.Machine.execMapLock q s
  | .routeWrite q => Sys2Proof.Machine.execRouteWrite q s
  | .hubReset q => Sys2Proof.Machine.execHubReset q s
  | .storeRead q => Sys2Proof.Machine.execStoreRead q s
  | .storeClear q depot => Sys2Proof.Machine.execStoreClear q depot s
  | .storeWrite q => Sys2Proof.Machine.execStoreWrite q s
  | .storeClose q => Sys2Proof.Machine.execStoreClose q s
  | .storeLock q => Sys2Proof.Machine.execStoreLock q s
  | .blankTest q => Sys2Proof.Machine.execBlankTest q s
  | .apply q => Sys2Proof.Machine.execApply q s
  | .take q code => Sys2Proof.Machine.execTake q code s
  | .abandon q code => Sys2Proof.Machine.execAbandon q code s
  | .storeReadCompletion depot => Sys2Proof.Machine.execStoreReadCompletion depot s
  | .storeWriteCompletion depot => Sys2Proof.Machine.execStoreWriteCompletion depot s
  | .storeCloseCompletion depot => Sys2Proof.Machine.execStoreCloseCompletion depot s
  | .storeLockCompletion depot => Sys2Proof.Machine.execStoreLockCompletion depot s
  | .blankTestCompletion depot => Sys2Proof.Machine.execBlankTestCompletion depot s
  | .storeClearCompletion depot => Sys2Proof.Machine.execStoreClearCompletion depot s
  | .applyCompletion depot => Sys2Proof.Machine.execApplyCompletion depot s

end Sys2Proof.Machine
end

