-- ==== Sys2Proof/Machine/Step.lean ====
section
/-! DEFINITION. The step: the command at the front of the queue, or a tick of the part's clocks; and the host's
`withFetchWord`. -/

namespace Sys2Proof.Machine

/-- One step: the command that has waited longest is taken; with none waiting, a tenth of a millisecond passes (log
entry 1). -/
def step (s : State) : Host.Outcome State Fault Refusal :=
  match s.pending with
  | c :: rest => exec c { s with pending := rest }
  | [] => .next { s with hub := s.hub.tick }

/-- The state with the command that a table word spells at the front of its queue; unchanged where the word spells
none (log entry 20). -/
def State.withFetchWord (s : State) (nbits w : Nat) : State :=
  match decodeTableWord nbits w with
  | some c => { s with pending := c :: s.pending }
  | none => s

end Sys2Proof.Machine
end

