-- ==== Sys2Proof/Safety.lean ====
section
/-! DEFINITION. What a safe state is: the relations between values that the rules say always hold, one structure per
group, in the terms the claims use. -/

namespace Sys2Proof.Machine

/-! ## Path memory -/

/-- At most 256 samples, `r` at most 999, indices falling by one from the push count, and a true absent count (R20). -/
structure PathMemory.Inv (p : PathMemory) : Prop where
  depth  : p.samples.length ≤ 256
  r      : p.r ≤ 999
  index  : ∀ i x, p.samples[i]? = some x → x.index = p.pushCount - BitVec.ofNat 32 i
  absent : p.absent = (p.samples.filter fun x => x.angle.isNone).length

/-! ## Event queues -/

/-- The subjects of an event kind (R161). -/
def subjectsOf : EventKind → List Nat
  | .doorState | .doorRelease | .doorEmergency => [1, 2, 3, 4, 5]
  | .slowFill => [1, 2, 3, 4, 5, 6, 7, 8]
  | .jointState => [1, 2]
  | .sensorFault => [1, 2, 3, 4, 5, 6, 7]
  | .chainFault => [1, 2, 3, 4]
  | .haltState | .haltFault | .kneelState | .airLow | .path | .demandStale | .standstill | .movePermit => [0]

/-- The attention lines follow the queues (R163); a queue holds one entry per kind and subject, with a count of 1 to
255 and a subject of its kind (R161, R162). -/
structure EventUnit.Inv (u : EventUnit) : Prop where
  attention : ∀ p, u.attention.get p = !(u.queues.get p).isEmpty
  distinct  : ∀ p, (u.queues.get p).Pairwise fun a b => ¬(a.kind = b.kind ∧ a.subject = b.subject)
  entries   : ∀ p, ∀ e ∈ u.queues.get p, 1 ≤ e.count ∧ e.count ≤ 255 ∧ e.subject ∈ subjectsOf e.kind

/-! ## Slots, queue and exclusion -/

/-- A circuit in FILL holds exactly one slot, one in FILL_WAIT exactly one queue entry, any other neither (R90); the
queue stands in class order (R96); no slot is held while the cut is in force, and while it is lifted no slot is free
beside a queue (R97); a circuit with a cause is EXCLUDED (R103). -/
structure Levelling.Inv (u : Levelling) : Prop where
  held     : ∀ i x, u.slots.get i = some x → (u.circuits.get x.circuit).action = .fill
  filling  : ∀ c, (u.circuits.get c).action = .fill → ∃ i x, u.slots.get i = some x ∧ x.circuit = c
  oneSlot  : ∀ i j x y, u.slots.get i = some x → u.slots.get j = some y → x.circuit = y.circuit → i = j
  queued   : ∀ e ∈ u.queue, (u.circuits.get e.circuit).action = .fillWait
  waiting  : ∀ c, (u.circuits.get c).action = .fillWait → ∃ e ∈ u.queue, e.circuit = c
  oneEntry : u.queue.Pairwise fun a b => a.circuit ≠ b.circuit
  ordered  : u.queue.Pairwise fun a b => a.cls ≤ b.cls
  cutFree  : u.cut = true → ∀ i, u.slots.get i = none
  served   : u.cut = false → u.queue = [] ∨ ∀ i, u.slots.get i ≠ none
  excluded : ∀ c, (u.circuits.get c).causes.any = true → (u.circuits.get c).action = .excluded

/-- The valve commands of the output image are those of the circuits' action states (R105). -/
def Hub.ValvesShown (h : Hub) : Prop := ∀ c, (h.link.valves.get c).image = valveOf (h.circuit c).action

/-! ## Doors, halt brake, kneel state and move permit -/

/-- The lines and interlocks of the passenger doors (R83, R117, R124 to R126, R135, R136, R138). -/
structure Hub.DoorInv (h : Hub) : Prop where
  lines     : ∀ d, h.link.lines.release.get d = ((h.door d).release == .granted)
  permitLine : h.link.lines.permit = h.doors.permit
  granted   : ∀ d, (h.door d).release = .granted → h.standing = true ∧ h.brake.halt = .applied
  disabled  : ∀ d, (h.door d).enabled = false →
    (h.door d).release = .withdrawn ∧ (h.door d).mark = false ∧ (h.door d).atSpeed = false
  permit    : h.clock.loaded = true → h.doors.permit = h.permitHolds
  condition : h.clock.loaded = true → h.doors.condition = (h.doorsLocked && h.releasesWithdrawn)
  position  : h.clock.loaded = true → ∀ d, (h.door d).position = positionOf (h.door d).debounced
  open_halt : h.standing = true → h.doorsLocked = false → h.brake.halt ≠ .released
  kneeling  : h.kneel.state ≠ .ride → h.brake.halt = .applied
  load      : h.clock.loaded = true → h.clock.load = .stopped
  before    : h.clock.loaded = false →
    h.doors.permit = false ∧ h.standing = false ∧ h.sensing.quiet = .stopped ∧ h.kneel.state = .ride ∧
      h.brake.halt = .released ∧ ∀ d, (h.door d).release = .withdrawn ∧ (h.door d).mark = false ∧
        (h.door d).atSpeed = false ∧ (h.door d).timers = ⟨.stopped, .stopped, .stopped⟩

/-! ## Steering -/

/-- The setpoints stay within the angle limits (R44, R45, R52), an axle acts only when initialised and not FAILED, and
chain S carries its enable and setpoint (R47, R48, R50). -/
structure Hub.SteerInv (h : Hub) : Prop where
  limits   : ∀ t, 0 ≤ h.angleMax t ∧ h.angleMax t ≤ 2000 ∧ 0 ≤ h.rateMax t
  bounded  : ∀ t x, (h.axleSteer t).setpoint = some x → -h.angleMax t ≤ x ∧ x ≤ h.angleMax t
  held     : ∀ t, (h.axleSteer t).initialised = (h.axleSteer t).setpoint.isSome
  enabled  : ∀ t, (h.axleSteer t).enable = ((h.axleSteer t).initialised && (h.axleSteer t).mode != some .failed)
  failed   : ∀ t, (h.axleSteer t).mode = some .failed ↔ (h.axleSteer t).cause.isSome
  shown    : ∀ t, (h.link.actuators.get t).image = ⟨(h.axleSteer t).enable, (h.axleSteer t).setpoint.getD 0⟩
  before   : h.clock.loaded = false → h.steering.timer = .stopped ∧ ∀ t, (h.axleSteer t).initialised = false
  load     : h.clock.loaded = true → h.clock.load = .stopped

/-! ## Calibration store -/

/-- The slots of a sector stand in one canonical form: slot numbers rise, from 0 to 30, and no EMPTY slot is listed
(R166). -/
def Sector.wf (x : Sector) : Bool :=
  decide (x.slots.Pairwise fun a b => a.1 < b.1) && x.slots.all fun s => decide (s.1 ≤ 30)

/-- What a running operation has done to its sector at its start (R166, R167). -/
def Store.started (u : Store) : StoreOp → Prop
  | .write k slot _ => slot ≤ 30 ∧ slotContent (u.sectors.get k).slots slot = some .torn
  | .close k => (u.sectors.get k).mark = .torn
  | .clear k => (u.sectors.get k).clearing = true
  | .read _ _ | .lock _ | .blank _ | .apply => True

/-- The store's sectors are canonical; a request waits only while an operation runs; a read runs beside a running
operation only where that is a clear of another sector (R155, R166, R167). -/
structure Hub.StoreInv (h : Hub) : Prop where
  wf        : ∀ k, (h.sector k).wf = true
  writable  : ∀ p k slot v, (h.port p).slot.held?.map HeldRequest.op = some (.write k slot v) → slot ≤ 30
  waits     : ∀ p rq, (h.port p).slot = .waiting rq → h.store.running.isSome = true
  suspended : ∀ r, h.store.read = some r → ∃ c, h.store.running = some c ∧ suspends c.op r.op = true
  started   : ∀ r, h.store.running = some r → h.store.started r.op

/-! ## The terms of the claims -/

/-- What a request's frame does at its port, given its answer: the pending reply is clocked out, the frame is counted,
and the answer becomes the pending reply (R148 to R151). Nothing else. -/
def Hub.answered (q : Request) (code : Byte) (a : Answer) (h : Hub) : Hub :=
  { h with
    pins := { h.pins with
      dataOut := h.pins.dataOut.set q.port ((h.port q.port).pending.shiftOut (q.payload.length + 5 + q.pad)) }
    ports := h.ports.set q.port { h.port q.port with
      pending := ⟨a.status, code, q.tag, a.payload⟩, frames := (h.port q.port).frames + 1 } }

/-- The active set is loaded and the port holds the class: steps 3 and 6 of R151 let a request through. -/
def Hub.admits (h : Hub) (p : Port) (c : AccessClass) : Bool := h.clock.loaded && h.holds p c

/-- A HUB RESET is taken (R158). -/
def Hub.takesReset (h : Hub) (q : Request) : Bool := h.admits q.port .supervision && h.standing

/-- Whether a command resets the part: the power-on reset, the RST line, a HUB RESET that is taken (R158, R160). -/
def resetsPart (h : Hub) : Instr → Bool
  | .powerOnReset | .rstLine => true
  | .hubReset q => h.takesReset q
  | _ => false

/-- The class a request needs (section 10.3); NOP, TAKE and ABANDON need none. -/
def classOf : Instr → Option AccessClass
  | .fetchMotion _ | .fetchPath _ | .fetchPathWindow _ | .fetchSteer _ | .fetchJoints _ | .fetchBrake _
  | .fetchLevel _ | .fetchKneel _ | .fetchDoors _ | .fetchLink _ | .fetchStoreStatus _ _ | .fetchPort _
  | .fetchActiveItem _ | .fetchAccess _ => some .status
  | .postDriveDemand _ | .haltOn _ | .haltOff _ | .clearPathFlag _ => some .demand
  | .release _ | .withdraw _ | .kneel _ | .raise _ => some .passenger
  | .mapWrite _ | .mapLock _ | .routeWrite _ | .hubReset _ => some .supervision
  | .storeRead _ | .storeClear _ _ | .storeWrite _ | .storeClose _ | .storeLock _ | .blankTest _ | .apply _ =>
    some .calibration
  | _ => none

/-- Whether a request is a FETCH or a POST: the kinds that wait for the posted buffer (R151, step 7). -/
def waitsForPost : Instr → Bool
  | .fetchMotion _ | .fetchPath _ | .fetchPathWindow _ | .fetchSteer _ | .fetchJoints _ | .fetchBrake _
  | .fetchLevel _ | .fetchKneel _ | .fetchDoors _ | .fetchLink _ | .fetchStoreStatus _ _ | .fetchPort _
  | .fetchActiveItem _ | .fetchAccess _ | .postDriveDemand _ => true
  | _ => false

/-- Whether a command is the completion of a store operation (section 12.1). -/
def completesStore : Instr → Bool
  | .storeReadCompletion _ | .storeWriteCompletion _ | .storeCloseCompletion _ | .storeLockCompletion _
  | .blankTestCompletion _ | .storeClearCompletion _ | .applyCompletion _ => true
  | _ => false

/-- The operation a delayed order asks for, where its payload is in range; the DEPOT line's level, where the order reads
it (R153, R166, R167, R170). -/
def storeOrder : Instr → Option (Request × StoreOp)
  | .storeRead q => (readOperand q.payload).map (q.toRequest, ·)
  | .storeClear q _ => (sectorOperand q.payload).map fun k => (q, .clear k)
  | .storeWrite q => (writeOperand q.payload).map (q.toRequest, ·)
  | .storeClose q => (sectorOperand q.payload).map fun k => (q.toRequest, .close k)
  | .storeLock q => (sectorOperand q.payload).map fun k => (q.toRequest, .lock k)
  | .blankTest q => (sectorOperand q.payload).map fun k => (q.toRequest, .blank k)
  | .apply q => some (q.toRequest, .apply)
  | _ => none

/-- The part with the DEPOT line read, where the command carries its level (log entry 8). -/
def readPins (c : Instr) (h : Hub) : Hub :=
  match c.depot? with
  | some depot => { h with pins := { h.pins with depot := depot } }
  | none => h

/-- A port's place in the order S, B, M in which the store takes waiting requests (R155). -/
def storePriority : Port → Nat
  | .s => 0
  | .b => 1
  | .m => 2

/-- A unit's event at the part's present millisecond (R162). -/
def Hub.eventsAfter (h : Hub) (kind : EventKind) (subject : Nat) (value : Half) : EventUnit :=
  h.events.raise h.clock.ms kind subject value

/-- What a port's queue holds of one kind of event (R162). -/
def EventUnit.ofKind (u : EventUnit) (p : Port) (kind : EventKind) : List EventEntry :=
  (u.queues.get p).filter fun e => e.kind == kind

/-- A step raises the given events of a kind, each a subject and a value, in this order at the present millisecond, and no
other of the kind: whatever other events it raises, each port's queue holds of the kind what they leave (R162). -/
def Hub.Raises (h after : Hub) (kind : EventKind) (raised : List (Nat × Int)) : Prop :=
  ∀ p, after.events.ofKind p kind =
    (raised.foldl (fun u x => u.raise h.clock.ms kind x.1 (BitVec.ofInt 16 x.2)) h.events).ofKind p kind

/-- What the completion of a refresh leaves of a device, but for its command in the image: the command sent becomes the
last sent one; at a judged refresh it mismatches unless its echo is its last sent command; its status word is delivered
where the echo matches, or where the refresh is not judged, and judges the fault flag where both hold (R140 to R142). -/
structure Device.Completes {γ σ : Type} (judged : Prop) (ok : σ → Bool) (answer : Option (DeviceAnswer γ σ))
    (old new : Device γ σ) : Prop where
  sent      : new.inFlight = none ∧ new.lastSent = old.inFlight ∧ new.echo = answer.map DeviceAnswer.echo
  matched   : ∀ a, answer = some a → judged → old.lastSent = some a.echo →
    new.mismatch = false ∧ new.status = some a.status ∧ new.fault = !ok a.status
  missed    : judged → (∀ a, answer = some a → old.lastSent ≠ some a.echo) →
    new.mismatch = true ∧ new.status = old.status ∧ new.fault = old.fault
  unjudged  : ¬judged → new.mismatch = old.mismatch ∧ new.fault = old.fault ∧
    new.status = (answer.map DeviceAnswer.status).or old.status

/-- What the completion of a refresh leaves of a chain: three mismatching refreshes in a row bring FAULT, fifty clean ones
bring OK back, and each of these sets the counts of R141's table. -/
structure ChainHold.Completes (judged clean : Prop) (old new : ChainHold) : Prop where
  unjudged : ¬judged → new = { old with busy := false }
  ok_clean : judged → clean → old.fault = false → new = { old with busy := false, mismatches := 0 }
  ok_miss  : judged → ¬clean → old.fault = false → old.mismatches + 1 < 3 →
    new = { old with busy := false, mismatches := old.mismatches + 1 }
  enters   : judged → ¬clean → old.fault = false → 3 ≤ old.mismatches + 1 →
    new = { fault := true, mismatches := 0, cleans := 0, entries := min 255 (old.entries + 1), busy := false }
  fault_clean : judged → clean → old.fault = true → old.cleans + 1 < 50 →
    new = { old with busy := false, cleans := old.cleans + 1 }
  returns  : judged → clean → old.fault = true → 50 ≤ old.cleans + 1 →
    new = { old with busy := false, fault := false, cleans := 0 }
  fault_miss : judged → ¬clean → old.fault = true → new = { old with busy := false, cleans := 0 }

end Sys2Proof.Machine
end

