-- ==== Sys2Proof/Certificates/Slice0/Obligations.lean ====
section
/-! DEFINITION. The statements for the provers: what the rules say the commands do, the machine's invariants, and what
no command may do. -/

section

open Sys2Proof Sys2Proof.Machine

/-! ## The machine -/

/-- The command that has waited longest is the one a step takes, on the rest of the queue (log entry 4). -/
def Obligations.StepTakesFrontCommand : Prop :=
  ∀ (s : State) (c : Instr) (rest : List Instr),
    s.pending = c :: rest → step s = exec c { s with pending := rest }

/-- Model's choice (log entries 1, 3): on an empty queue a step is a tenth of a millisecond, in which the millisecond
count, the units' timers, the doors' debounce timers and the working time of the store's operation go on and nothing else
changes; ten make a millisecond, and a timer just started is due after its period and not before, as an operation is
after its working time; a suspended clear stands still while a read runs in it (R155, R167). Model's choice (log entries
2, 19): an expiry or a completion that cannot be, since its timer has not reached its period or
nothing that completes is there, changes nothing; nor do a pulse or a door input before the load (R11, R122), nor a
frame that is none of its row. -/
def Obligations.IdleStepsKeepTime : Prop :=
  ((∀ s : State, s.pending = [] → step s = .next { s with hub := s.hub.tick }) ∧
  (∀ (h : Hub) (n : Nat), h.clock.sub = 0 →
    (Hub.tick^[10 * n] h).clock.ms = h.clock.ms + BitVec.ofNat 32 n) ∧
  (∀ (h : Hub) (n : Nat),
    (h.clock.load = .running 0 → (Hub.tick^[n] h).clock.load.due loadTime = decide (20 ≤ n)) ∧
    (h.sensing.scanTimer = .running 0 → (Hub.tick^[n] h).sensing.scanTimer.due scanPeriod = decide (20 ≤ n)) ∧
    (h.sensing.speedTimer = .running 0 → (Hub.tick^[n] h).sensing.speedTimer.due speedPeriod = decide (200 ≤ n)) ∧
    (h.sensing.quiet = .running 0 → (Hub.tick^[n] h).sensing.quiet.due quietTime = decide (10000 ≤ n)) ∧
    (h.steering.timer = .running 0 → (Hub.tick^[n] h).steering.timer.due steeringPeriod = decide (100 ≤ n)) ∧
    (h.joints.timer = .running 0 → (Hub.tick^[n] h).joints.timer.due jointPeriod = decide (100 ≤ n)) ∧
    (h.brake.timer = .running 0 → (Hub.tick^[n] h).brake.timer.due brakePeriod = decide (50 ≤ n)) ∧
    (h.level.timer = .running 0 → (Hub.tick^[n] h).level.timer.due levellingPeriod = decide (500 ≤ n)) ∧
    (h.link.timer = .running 0 → (Hub.tick^[n] h).link.timer.due refreshPeriod = decide (20 ≤ n)) ∧
    (∀ d i, (h.door d).timers.get i = .running 0 →
      (((Hub.tick^[n] h).door d).timers.get i).due debounceTime = decide (200 ≤ n)) ∧
    (∀ r, h.store.read = none → h.store.running = some r → r.elapsed = 0 →
      (Hub.tick^[n] h).store.due.isSome = decide ((match r.op with
        | .read _ _ => 1
        | .clear _ => 800
        | .write _ _ _ => 10
        | .close _ => 20
        | .lock _ => 10
        | .blank _ => 30
        | .apply => 20) ≤ n)) ∧
    (∀ r, h.store.read = some r → (Hub.tick^[n] h).store.running = h.store.running)) ∧
  ∀ h : Hub,
    let next (period : Nat) (x : Timer) : Timer :=
      match x with
      | .stopped => .stopped
      | .running e => .running (min period (e + 1))
    h.tick = { h with
      clock := { h.clock with ms := h.tick.clock.ms, sub := h.tick.clock.sub, load := next loadTime h.clock.load }
      sensing := { h.sensing with
        scanTimer := next scanPeriod h.sensing.scanTimer, speedTimer := next speedPeriod h.sensing.speedTimer
        quiet := next quietTime h.sensing.quiet }
      steering := { h.steering with timer := next steeringPeriod h.steering.timer }
      joints := { h.joints with timer := next jointPeriod h.joints.timer }
      brake := { h.brake with timer := next brakePeriod h.brake.timer }
      level := { h.level with timer := next levellingPeriod h.level.timer }
      doors := { h.doors with doors := .tab fun d =>
        { h.door d with timers :=
          ⟨next debounceTime (h.door d).timers.closed, next debounceTime (h.door d).timers.lock,
            next debounceTime (h.door d).timers.handle⟩ } }
      link := { h.link with timer := next refreshPeriod h.link.timer }
      store := { h.store with running := h.tick.store.running, read := h.tick.store.read } }) ∧
  (∀ s : State,
    (∀ inputs, s.hub.clock.load.due loadTime = false → exec (.activeSetLoad inputs) s = .next s) ∧
    (∀ raw, s.hub.sensing.scanTimer.due scanPeriod = false → exec (.scanRound raw) s = .next s) ∧
    (∀ input dir, s.hub.clock.loaded = false → exec (.wheelPulse input dir) s = .next s) ∧
    (∀ dir, s.hub.sensing.speedTimer.due speedPeriod = false → exec (.speedTimerExpiry dir) s = .next s) ∧
    (s.hub.sensing.quiet.due quietTime = false → exec .quietTimerExpiry s = .next s) ∧
    (s.hub.steering.timer.due steeringPeriod = false → exec .steeringTimerExpiry s = .next s) ∧
    (s.hub.joints.timer.due jointPeriod = false → exec .jointTimerExpiry s = .next s) ∧
    (s.hub.brake.timer.due brakePeriod = false → exec .brakeTimerExpiry s = .next s) ∧
    (s.hub.level.timer.due levellingPeriod = false → exec .levellingTimerExpiry s = .next s) ∧
    (s.hub.link.timer.due refreshPeriod = false → exec .refreshTimerExpiry s = .next s) ∧
    (∀ a, s.hub.chainBusy a = false → exec (.chainRefreshComplete a) s = .next s) ∧
    (∀ d i level, s.hub.clock.loaded = false ∨ levelOf (s.hub.door d).raw i = level →
      exec (.doorInputChange d i level) s = .next s) ∧
    (∀ d i, ((s.hub.door d).timers.get i).due debounceTime = false → exec (.debounceTimerExpiry d i) s = .next s) ∧
    (∀ depot,
      ((∀ r, s.hub.store.due = some r → r.op.code ≠ 0x38#8) → exec (.storeReadCompletion depot) s = .next s) ∧
      ((∀ r, s.hub.store.due = some r → r.op.code ≠ 0x39#8) → exec (.storeClearCompletion depot) s = .next s) ∧
      ((∀ r, s.hub.store.due = some r → r.op.code ≠ 0x3A#8) → exec (.storeWriteCompletion depot) s = .next s) ∧
      ((∀ r, s.hub.store.due = some r → r.op.code ≠ 0x3B#8) → exec (.storeCloseCompletion depot) s = .next s) ∧
      ((∀ r, s.hub.store.due = some r → r.op.code ≠ 0x3C#8) → exec (.storeLockCompletion depot) s = .next s) ∧
      ((∀ r, s.hub.store.due = some r → r.op.code ≠ 0x3D#8) → exec (.blankTestCompletion depot) s = .next s) ∧
      ((∀ r, s.hub.store.due = some r → r.op.code ≠ 0x3E#8) → exec (.applyCompletion depot) s = .next s)) ∧
    (∀ p bytes, (Instr.frameError p bytes).wf = false → exec (.frameError p bytes) s = .next s) ∧
    ∀ q kind code, codedCommand q false kind code.toNat ≠ none → exec (.unknownObject q kind code) s = .next s)

/-! ## Resets and the load -/

/-- Every kind of reset - POWER ON RESET, the RST LINE, a HUB RESET that is taken - sets the sensing unit, the path
memory and the port units to the values of R19, R32 and R160, empties the event queues (R165), starts the millisecond
count at 0 (R162) and begins the load (R169). -/
def Obligations.ResetState : Prop :=
  ∀ (s : State) (c : Instr), resetsPart s.hub c = true →
    ∃ t, exec c s = .next t ∧ t.pending = s.pending ∧
      t.hub.clock = { ms := 0, sub := 0, loaded := false, load := .running 0 } ∧
      t.hub.sensing =
        { steer := ⟨0, .ok, 0, 0, false⟩, joints := .fill ⟨0, .ok, 0, 0, false⟩, heights := .fill ⟨0, false, 0, 0⟩
          bellows := .fill ⟨0, false, 0, 0⟩, reservoir := ⟨0, false, 0, 0⟩, brakes := .fill ⟨0, false, 0, 0⟩
          rounds := 0, travel := 0, buckets := ⟨0, 0, 0, 0, 0, 0⟩, speed := 0, direction := .forward
          standstill := .unsettled, distance := 0, quiet := .stopped, scanTimer := .stopped, speedTimer := .stopped } ∧
      t.hub.path = { samples := [], r := 0, pushCount := 0, absent := 0, underrun := false } ∧
      (∀ p, t.hub.port p =
        { pending := ⟨.none, 0, 0, []⟩, posted := none, slot := .empty, frames := 0, errors := 0, denied := 0 }) ∧
      (∀ p, t.hub.events.queues.get p = [] ∧ t.hub.events.attention.get p = false)

/-- Every kind of reset sets the steering, joint, brake, levelling, kneel and door units and the link to the values of
R51, R69, R89, R108, R121, R138 and R147, each unit's period count to 0 with its timer stopped (an axle's load, a
circuit's target and a door's levels, position and enable are formed at the load). Model's choice (log entry 6): no
command in flight, no device mismatched, no refresh in progress, and the handed bands 0. -/
def Obligations.ResetUnits : Prop :=
  ∀ (s : State) (c : Instr), resetsPart s.hub c = true →
    ∃ t, exec c s = .next t ∧ t.pending = s.pending ∧
      t.hub.steering.periods = 0 ∧ t.hub.steering.timer = .stopped ∧ t.hub.steering.midway = none ∧
      (∀ x, t.hub.axleSteer x =
        { initialised := false, mode := none, cause := none, setpoint := none, enable := false, measured := none
          tracking := .stopped, lookup := none, law := none, fade := none }) ∧
      (∀ j, t.hub.joints.joints.get j =
        { state := .free, phi := 0, phiPrev := none, omega := 0, growing := false, hold := .stopped, speedBand := 0
          angleBand := 0, table := 0, damping := 15, stretch := 0 }) ∧
      t.hub.joints.periods = 0 ∧ t.hub.joints.timer = .stopped ∧ t.hub.brake.periods = 0 ∧
      t.hub.brake.timer = .stopped ∧ t.hub.level.periods = 0 ∧ t.hub.level.timer = .stopped ∧
      t.hub.joints.requests = ⟨0, 0⟩ ∧ t.hub.joints.driveSeen = .neutral ∧ t.hub.joints.torqueCut = false ∧
      t.hub.brake.decel = 0 ∧ t.hub.brake.drive = .neutral ∧ t.hub.brake.lastSeq = none ∧ t.hub.brake.lastPort = none ∧
      t.hub.brake.superseded = 0 ∧ t.hub.brake.age = .stopped ∧ t.hub.brake.status = .none ∧
      t.hub.brake.kneelFreeze = .off ∧ t.hub.brake.halt = .released ∧ t.hub.brake.applying = .stopped ∧
      t.hub.brake.haltFault = false ∧
      (∀ k, let a := t.hub.axleBrake k
        a.mode = .backup ∧ a.source = .nominal ∧ a.activity = .off ∧ a.service = 0 ∧ a.halt = 0 ∧ a.stretch = 0 ∧
          a.command = 0) ∧
      (∀ c, let x := t.hub.circuit c
        x.action = .hold ∧ x.ring = [] ∧ x.height = none ∧ x.error = none ∧ x.source = .ride ∧ x.count = 0 ∧
          x.reason = .none ∧ x.causes = ⟨false, false, false⟩) ∧
      (∀ i, t.hub.level.slots.get i = none) ∧ t.hub.level.grants = 0 ∧ t.hub.level.queue = [] ∧
      t.hub.level.cut = true ∧ t.hub.level.cutCause = .start ∧ t.hub.level.mismatch = false ∧
      t.hub.level.front = none ∧ t.hub.level.middle = none ∧ t.hub.level.rear = none ∧
      t.hub.kneel = { state := .ride, cause := none, circuit := none, before := none, completions := 0,
                      errors := .fill ⟨none, 0⟩ } ∧
      (∀ d, let x := t.hub.door d
        x.release = .withdrawn ∧ x.mark = false ∧ x.atSpeed = false ∧ x.timers = ⟨.stopped, .stopped, .stopped⟩) ∧
      t.hub.doors.permit = false ∧ t.hub.doors.changes = 0 ∧
      t.hub.link.lines = ⟨.fill false, false, false⟩ ∧ t.hub.link.refreshes = 0 ∧ t.hub.link.timer = .running 0 ∧
      (∀ c, t.hub.link.valves.get c = ⟨.hold, none, none, none, false, none, false⟩) ∧
      (∀ k, t.hub.link.modulators.get k = ⟨⟨.backup, 0⟩, none, none, none, false, none, false⟩) ∧
      (∀ x, t.hub.link.actuators.get x = ⟨⟨false, 0⟩, none, none, none, false, none, false⟩) ∧
      (∀ j, t.hub.link.dampers.get j = ⟨15, none, none, none, false, none, false⟩) ∧
      t.hub.link.chainL = ⟨false, 0, 0, 0, false⟩ ∧ t.hub.link.chainB = ⟨false, 0, 0, 0, false⟩ ∧
      t.hub.link.chainS = ⟨false, 0, 0, 0, false⟩ ∧ t.hub.link.chainJ = ⟨false, 0, 0, 0, false⟩

/-- What a reset leaves: the store's sectors as they are, its operation cut off (R168); after the RST line and HUB
RESET the access map, its lock and the routing table as they are (R156, R158, R164), after a power-on reset the
built-in routing table, with the map still to be formed at the load. A frame active at a reset reads the pending reply
until it and 0x00 after it (R160). A HUB RESET is refused NOT_STANDSTILL otherwise. Model's choice: the map counts as
owed from a power-on reset to its first load, and any reset before that load keeps it owed (log entry 7); which frames
are active, and what they clock, is a free value, and the HUB RESET's own frame has ended (log entry 26). -/
def Obligations.ResetKeepsStoreAndAccess : Prop :=
  (∀ (s : State) (c : Instr), resetsPart s.hub c = true →
    ∃ t, exec c s = .next t ∧ t.hub.store.sectors = s.hub.store.sectors ∧ t.hub.store.running = none ∧
      t.hub.store.read = none ∧
      (c = .powerOnReset → t.hub.access.owed = true ∧ ∀ k, t.hub.events.routing.get k =
        match k with
        | .haltState | .movePermit => 7#3
        | .haltFault | .jointState | .demandStale | .path | .standstill | .sensorFault | .chainFault => 5#3
        | .doorState | .doorRelease | .doorEmergency | .kneelState | .airLow | .slowFill => 6#3) ∧
      (c ≠ .powerOnReset → t.hub.access = s.hub.access ∧ t.hub.events.routing = s.hub.events.routing) ∧
      t.hub.pins.dir = s.hub.pins.dir ∧ t.hub.pins.depot = s.hub.pins.depot ∧
      (∀ p, (∀ q, c = .hubReset q → q.port ≠ p) →
        t.hub.pins.dataOut.get p = match Config.cutFrame s.hub.freeCount p with
          | none => s.hub.pins.dataOut.get p
          | some f => (s.hub.port p).pending.shiftOut f.before ++ List.replicate f.after 0x00#8) ∧
      ∀ q, c = .hubReset q →
        t.hub.pins.dataOut.get q.port = (s.hub.port q.port).pending.shiftOut (q.payload.length + 5 + q.pad)) ∧
  ∀ (s : State) (q : Request), s.hub.admits q.port .supervision = true → s.hub.sensing.standstill ≠ .yes →
    exec (.hubReset q) s = .next { s with hub := s.hub.answered q 0x33#8 (.refused .notStandstill []) }

/-- The completion of the load after a reset, ACTIVE SET LOAD (R169): the active set and the sector statuses are those
the sectors give, but after the RST line or HUB RESET sector 7 gives its status alone and its items in the set stay, one
more load is counted, the store's record is brought up to date (R171), the units start their timers, the loads and RIDE
targets are formed (R89, R92), the doors are sampled (R138), each position by R124's table, and at the first load after
a power-on reset the access map and routing table are formed (R156, R164). Model's choice (log entry 7): the map counts
as owed from the power-on reset to that load. -/
def Obligations.LoadInstallsActiveSet : Prop :=
  ∀ (s : State) (inputs : LoadInputs), s.hub.clock.load.due loadTime = true →
    ∃ t, exec (.activeSetLoad inputs) s = .next t ∧ t.pending = s.pending ∧
      t.hub.clock = { s.hub.clock with loaded := true, load := .stopped } ∧
      (∀ k, t.hub.store.active.get k =
          (if k = .s7 ∧ s.hub.access.owed = false then s.hub.store.active.get k
           else (loadSector k (s.hub.sector k)).1) ∧
        t.hub.store.statuses.get k = (loadSector k (s.hub.sector k)).2) ∧
      t.hub.store.loads = s.hub.store.loads + 1 ∧ t.hub.store.sectors = s.hub.store.sectors ∧
      t.hub.store.running = s.hub.store.running ∧ t.hub.store.read = s.hub.store.read ∧
      t.hub.store.shown = ⟨inputs.depot, s.hub.store.progress⟩ ∧
      t.hub.sensing =
        { s.hub.sensing with scanTimer := .running 0, speedTimer := .running 0, quiet := .running 0 } ∧
      t.hub.steering = { s.hub.steering with timer := .running 0 } ∧
      t.hub.joints = { s.hub.joints with timer := .running 0 } ∧
      t.hub.brake = { s.hub.brake with
        timer := .running 0
        axles := .tab fun k => { s.hub.axleBrake k with load := (min (t.hub.loadNom k) (t.hub.loadMax k)).toNat } } ∧
      t.hub.level = { s.hub.level with
        timer := .running 0
        circuits := .tab fun c =>
          if (s.hub.circuit c).source = .ride then { s.hub.circuit c with target := t.hub.trim c } else s.hub.circuit c } ∧
      (∀ d, t.hub.door d = { s.hub.door d with
        raw := inputs.doors.get d, debounced := inputs.doors.get d
        position := match (inputs.doors.get d).closed, (inputs.doors.get d).lock with
          | true, true => .closedLocked
          | true, false => .closed
          | false, false => .opened
          | false, true => .switchFault
        enabled := t.hub.enableMask.testBit (d.num - 1) }) ∧
      t.hub.doors.changes = s.hub.doors.changes ∧
      t.hub.doors.condition = (t.hub.doorsLocked && t.hub.releasesWithdrawn) ∧
      t.hub.doors.permit = t.hub.permitHolds ∧
      t.hub.access =
        (if s.hub.access.owed = false then s.hub.access
         else if t.hub.store.statuses.s7 = .valid ∨ t.hub.store.statuses.s7 = .clamped then
          { map := ⟨.ofInt 5 (t.hub.item .s7 0), .ofInt 5 (t.hub.item .s7 1), .ofInt 5 (t.hub.item .s7 2)⟩
            lock := t.hub.item .s7 3 = 1, source := .sector7, owed := false }
         else { map := ⟨0b10001#5, 0b10010#5, 0b11111#5⟩, lock := false, source := .builtIn, owed := false }) ∧
      (∀ k, t.hub.events.routing.get k =
        (if s.hub.access.owed = false then s.hub.events.routing.get k
         else if t.hub.store.statuses.s7 = .valid ∨ t.hub.store.statuses.s7 = .clamped then
          .ofInt 3 (t.hub.item .s7 (3 + k.num))
         else builtInRouting.get k)) ∧
      t.hub.path = s.hub.path ∧ t.hub.kneel = s.hub.kneel ∧ t.hub.ports = s.hub.ports ∧
      t.hub.pins = { s.hub.pins with depot := inputs.depot } ∧ t.hub.freeCount = s.hub.freeCount ∧
      t.hub.link.valves = s.hub.link.valves ∧
      t.hub.link.modulators = s.hub.link.modulators ∧ t.hub.link.actuators = s.hub.link.actuators ∧
      t.hub.link.dampers = s.hub.link.dampers ∧ t.hub.link.timer = s.hub.link.timer

/-- The load of a sector, by its condition (R169): torn, or not closed, or not matching, gives the built-in defaults;
otherwise an EMPTY home slot gives the default; a WRITTEN one gives its value, with source STORED, where that lies in
the item's range, and the nearer end of the range, with source CORRECTED, where it does not; the two items of a
cross-item check that fails take their defaults, with source CORRECTED; and the status is CLAMPED exactly where an item
was corrected. The cross-item checks: in every active set Vlo lies below Vhi (R53) and the limit angle above the warning
angle plus 300 (R67). In a sector of the store's form, whose list holds each slot 0 to 30 that is not EMPTY once: it is
torn where its clear-in-progress flag is set or a slot or the mark is TORN, its check value is the sum of the WRITTEN
slots 0 to 30 modulo 65,536 and its count their number, and it matches where the mark is WRITTEN with both (R166, R169).
-/
def Obligations.SectorsJudgedAtLoad : Prop :=
  (∀ (k : SectorId) (x : Sector),
    (x.isTorn = true → loadSector k x = ((itemSpecs k).map ItemSpec.builtIn, .torn)) ∧
    (x.isTorn = false → x.matches = false → loadSector k x = ((itemSpecs k).map ItemSpec.builtIn, .defaulted)) ∧
    (x.isTorn = false → x.matches = true →
      ((loadSector k x).2 = .clamped ↔ ∃ y ∈ (loadSector k x).1, y.source = .corrected) ∧
      ((loadSector k x).2 = .valid ↔ ∀ y ∈ (loadSector k x).1, y.source ≠ .corrected) ∧
      ∀ i spec, (itemSpecs k)[i]? = some spec → ∃ y, (loadSector k x).1[i]? = some y ∧
        spec.lo ≤ y.value ∧ y.value ≤ spec.hi ∧
        (slotContent x.slots i = none → y.value = spec.default) ∧
        (∀ v, slotContent x.slots i = some (.written v) → y.source = .stored → y.value = spec.read v))) ∧
  (∀ (k : SectorId) (x : Sector), x.isTorn = false → x.matches = true →
    let item (i : Nat) (spec : ItemSpec) : Item :=
      match slotContent x.slots i with
      | some (.written v) =>
        if spec.read v < spec.lo then ⟨spec.lo, .corrected⟩
        else if spec.hi < spec.read v then ⟨spec.hi, .corrected⟩
        else ⟨spec.read v, .stored⟩
      | _ => ⟨spec.default, .default⟩
    let given (i : Nat) : Int := (((itemSpecs k)[i]?).map fun spec => (item i spec).value).getD 0
    let restored (i : Nat) : Prop :=
      (k = .s0 ∧ given 14 ≤ given 13 ∧ (i = 13 ∨ i = 14)) ∨ (k = .s4 ∧ given 1 ≤ given 0 + 300 ∧ (i = 0 ∨ i = 1))
    ∀ i spec, (itemSpecs k)[i]? = some spec →
      (restored i → (loadSector k x).1[i]? = some ⟨spec.default, .corrected⟩) ∧
      (¬restored i → (loadSector k x).1[i]? = some (item i spec))) ∧
  (∀ x : Sector, x.wf = true →
    let values := (List.range 31).filterMap fun i =>
      match slotContent x.slots i with
      | some (.written v) => some v.toNat
      | _ => none
    (∀ i c, slotContent x.slots i = some c ↔ (i, c) ∈ x.slots) ∧
    (x.isTorn = true ↔
      x.clearing = true ∨ x.mark = .torn ∨ ∃ i, i ≤ 30 ∧ slotContent x.slots i = some .torn) ∧
    checkSum x = BitVec.ofNat 16 values.sum ∧ (writtenValues x).length = values.length ∧
    (x.matches = true ↔ x.mark = .written (BitVec.ofNat 16 values.sum) values.length)) ∧
  (∀ x : Sector,
    itemValue (loadSector .s0 x).1 13 < itemValue (loadSector .s0 x).1 14 ∧
    itemValue (loadSector .s4 x).1 0 + 300 < itemValue (loadSector .s4 x).1 1)

/-! ## Frames -/

/-- A request's frame, its layout and check byte written from the request, is read back as that request, whatever its
operands and whatever padding follows (R148). -/
def Obligations.FrameOfRequestReadsBack : Prop :=
  ∀ (i : Instr) (port : Port) (bytes : List Byte) (depot : Bool),
    i.wf = true → frameOf i = some (port, bytes) → (∀ d, i.depot? = some d → d = depot) →
      frameCommand port depot bytes = some i

/-- A frame is answered FRAME_ERROR exactly where it has not the layout of R148 with a kind of at most 5, a length of
at most 60 and a matching check byte, followed by any padding; the answer echoes bytes 1 and 2 where they were
clocked, and both counts rise (R149). -/
def Obligations.FrameErrors : Prop :=
  (∀ bytes : List Byte, readFrame bytes = none ↔
    ¬∃ (kind code tag : Byte) (payload padding : List Byte), kind.toNat ≤ 5 ∧ payload.length ≤ 60 ∧
      bytes = kind :: code :: tag :: BitVec.ofNat 8 payload.length :: payload
        ++ crc8 (kind :: code :: tag :: BitVec.ofNat 8 payload.length :: payload) :: padding) ∧
  ∀ (s : State) (p : Port) (bytes : List Byte), bytes ≠ [] → readFrame bytes = none →
    exec (.frameError p bytes) s = .next { s with
      hub := { s.hub with
        pins := { s.hub.pins with dataOut := s.hub.pins.dataOut.set p ((s.hub.port p).pending.shiftOut bytes.length) }
        ports := s.hub.ports.set p { s.hub.port p with
          pending := ⟨.frameError, bytes[1]?.getD 0, bytes[2]?.getD 0, []⟩
          frames := (s.hub.port p).frames + 1
          errors := (s.hub.port p).errors + 1 } } }

/-- NOP is answered DONE in every state, and a code that names no request of its kind is refused UNKNOWN_OBJECT once
the active set is loaded (R151, steps 2 and 4). The bytes on data out: a reply's status, code, tag, length, payload
and check byte, cut short by a shorter frame and followed by 0x00 in a longer one (R150). -/
def Obligations.NopUnknownAndDataOut : Prop :=
  ((∀ (s : State) (q : Request) (code : Byte),
    exec (.nop q code) s = .next { s with hub := s.hub.answered q code (.done []) }) ∧
  ∀ (s : State) (q : Request) (kind : CodedKind) (code : Byte),
    (Instr.unknownObject q kind code).wf = true → s.hub.clock.loaded = true →
      exec (.unknownObject q kind code) s =
        .next { s with hub := s.hub.answered q code (.refused .unknownObject []) }) ∧
  (∀ (r : Reply) (n : Nat), (r.shiftOut n).length = n ∧
    (∀ i, i < n → (r.shiftOut n)[i]? = some (if i < r.payload.length + 5 then r.bytes[i]?.getD 0 else 0x00#8)) ∧
    r.bytes.length = r.payload.length + 5 ∧
    r.bytes = BitVec.ofNat 8 r.status.num :: r.code :: r.tag :: BitVec.ofNat 8 r.payload.length :: r.payload
      ++ [crc8 (BitVec.ofNat 8 r.status.num :: r.code :: r.tag :: BitVec.ofNat 8 r.payload.length :: r.payload)])

/-- A request turned away: before the load every request except NOP is answered STARTING and is not taken (R151, step
3). A request whose class the port does not hold is DENIED and counted, and does nothing else; a repetition of a
delayed request is answered before its class is judged (R151, steps 5 and 6). While a port's posted buffer is
OCCUPIED, its POSTs and its FETCHes of any record are answered RETRY and are not taken (R151, step 7; R152). -/
def Obligations.RequestsTurnedAway : Prop :=
  (∀ (s : State) (i : Instr) (q : Request) (kind : Nat) (code : Byte),
    i.wf = true → i.frameParts = some (q, kind, code) → kind ≠ 0 → s.hub.clock.loaded = false →
      exec i s = .next { s with hub := (readPins i s.hub).answered q code (.plain .starting) }) ∧
  (∀ (s : State) (i : Instr) (q : Request) (kind : Nat) (code : Byte) (c : AccessClass),
    i.frameParts = some (q, kind, code) → classOf i = some c → s.hub.clock.loaded = true →
      s.hub.holds q.port c = false → (c = .calibration → (s.hub.port q.port).slot.repeats code q.tag = false) →
        exec i s = .next { s with
          hub := ((readPins i s.hub).answered q code (.plain .denied)).onPort q.port fun u =>
            { u with denied := u.denied + 1 } }) ∧
  (∀ (s : State) (i : Instr) (q : Request) (kind : Nat) (code : Byte) (c : AccessClass),
    i.frameParts = some (q, kind, code) → waitsForPost i = true → classOf i = some c →
      s.hub.admits q.port c = true → (s.hub.port q.port).posted ≠ none →
        exec i s = .next { s with hub := (readPins i s.hub).answered q code (.plain .retry) })

/-! ## Record copies -/

/-- FETCH MOTION, PATH, STEER, JOINTS, BRAKE, LEVEL, KNEEL, DOORS, LINK and ACCESS, when taken, copy the named record as
it stands (R165) and change nothing but the port's own reply (R151, step 8). Field by field: MOTION (R18), STEER (R54),
JOINTS (R68), BRAKE (R88), LEVEL (R107), KNEEL (R120), DOORS (R137), LINK (R146), ACCESS (R159), in R150's forms: a
number with its most significant byte first, a named value by its position, an absent value as zeros behind a 0. A STEER
copy taken between the two axles' work of an expiry shows A3 after the period, A4 and the count before (R54); model's
choice (log entry 4): those are the FETCHes that `midway` counts, one fewer after each. FETCH PORT copies the asking
port's own unit: its class set, posted buffer, delayed slot and counts (R159). Model's choice: the bytes of a timer, an
ok flag, the fixed groups and the delayed slot (log entry 15), a steering actuator's status word of 16 bits (log entry
32), the byte of the mismatch hold after a stop (log entry 34), an echo beyond its command's range modulo its bytes (log
entry 35), and that this frame is counted in the copy of PORT (log entry 24). -/
def Obligations.FetchCopiesItsRecord : Prop :=
  (∀ (s : State) (q : Request), s.hub.admits q.port .status = true → (s.hub.port q.port).posted = none →
    let h := s.hub
    let copy (code : Byte) (record : List Byte) : State := { s with hub := h.answered q code (.done record) }
    let one (x : Int) : List Byte := [BitVec.ofInt 8 x]
    let two (x : Int) : List Byte := one (x / 256) ++ one x
    let four (x : Int) : List Byte := two (x / 65536) ++ two x
    let second (b : Bool) : List Byte := if b then one 1 else one 0
    let first (b : Bool) : List Byte := if b then one 0 else one 1
    let maybe (width : Nat) (x : Option (List Byte)) : List Byte :=
      match x with
      | some bytes => one 1 ++ bytes
      | none => List.replicate (width + 1) 0x00#8
    let timer (x : Count) : List Byte :=
      match x with
      | .stopped => one 0 ++ two 0
      | .running ms => one 1 ++ two ms
    let freeze (x : Freeze) : List Byte :=
      match x with
      | .off => one 0 ++ two 0
      | .on => one 1 ++ two 0
      | .after ms => one 2 ++ two ms
    let standstill (x : Standstill) : List Byte :=
      match x with
      | .unsettled => one 0
      | .yes => one 1
      | .no => one 2
    let drive (x : DriveState) : List Byte :=
      match x with
      | .neutral => one 0
      | .traction => one 1
      | .retard => one 2
    let halt (x : HaltState) : List Byte :=
      match x with
      | .released => one 0
      | .applying => one 1
      | .applied => one 2
    let kneel (x : KneelState) : List Byte :=
      match x with
      | .ride => one 0
      | .lowering => one 1
      | .knelt => one 2
      | .raising => one 3
      | .stopped => one 4
    let mode (x : AxleMode) : List Byte :=
      match x with
      | .electronic => one 0
      | .backup => one 1
    let target (x : TargetSource) : List Byte :=
      match x with
      | .ride => one 0
      | .kneel => one 1
      | .raise => one 2
    let pair (x : Pair) : List Byte :=
      two x.value ++ match x.state with
        | .ok => one 0
        | .degraded => one 1
        | .fault => one 2
    let single (x : Single) : List Byte := two x.value ++ second x.fault
    let steered (x : AxleSteer) : List Byte :=
      second x.initialised
        ++ maybe 1 (x.mode.map fun y =>
            match y with
            | .follow => one 0
            | .short => one 1
            | .reverse => one 2
            | .held => one 3
            | .centring => one 4
            | .failed => one 5)
        ++ maybe 1 (x.cause.map fun y =>
            match y with
            | .tracking => one 0
            | .device => one 1
            | .chain => one 2)
        ++ maybe 2 (x.setpoint.map two) ++ second x.enable ++ maybe 2 (x.measured.map two) ++ timer x.tracking
        ++ maybe 2 (x.lookup.map two) ++ maybe 2 (x.law.map two) ++ maybe 2 (x.fade.map fun n => two n)
    let shown : Half × AxleSteer :=
      match h.steering.midway with
      | some m => (m.periods, m.a4)
      | none => (h.steering.periods, h.axleSteer .a4)
    let joint (x : JointHold) : List Byte :=
      (match x.state with
        | .free => one 0
        | .watch => one 1
        | .stretch => one 2
        | .limit => one 3
        | .sensorLost => one 4)
        ++ two x.phi ++ maybe 2 (x.phiPrev.map two) ++ four x.omega ++ second x.growing ++ timer x.hold
        ++ one x.speedBand ++ one x.angleBand ++ one x.table ++ one x.damping ++ two x.stretch
    let braked (x : AxleBrake) : List Byte :=
      mode x.mode ++ two x.load
        ++ (match x.source with
          | .bellows => one 0
          | .oneSide => one 1
          | .nominal => one 2)
        ++ freeze x.activity ++ second x.frozen ++ two x.service ++ two x.halt ++ two x.stretch ++ two x.command
    let slot (x : Option HeldSlot) : List Byte :=
      match x with
      | none => List.replicate 7 0x00#8
      | some y => one 1 ++ one y.circuit.num ++ two y.time ++ two y.grant.toNat ++ one y.cls
    let levelled (x : CircuitLevel) : List Byte :=
      (match x.action with
        | .hold => one 0
        | .fillWait => one 1
        | .fill => one 2
        | .vent => one 3
        | .excluded => one 4)
        ++ one x.ring.length ++ maybe 2 (x.height.map two) ++ one x.target ++ target x.source
        ++ one (if x.source = .kneel then h.dbKneel else h.dbRide) ++ maybe 2 (x.error.map two) ++ one x.count
        ++ (match x.direction with
          | .low => one 0
          | .high => one 1)
        ++ (match x.reason with
          | .none => one 0
          | .mismatchFill => one 1
          | .mismatchVent => one 2
          | .kneelStopped => one 3)
        ++ one ((if x.causes.height then 1 else 0) + (if x.causes.valve then 2 else 0)
          + if x.causes.chain then 4 else 0)
    let inScope (c : Circuit) : List Byte :=
      one c.num ++ one (h.circuit c).target ++ target (h.circuit c).source
        ++ maybe 2 ((h.kneel.errors.get c).error.map two) ++ one (h.kneel.errors.get c).band
    let levels (x : DoorLevels) : List Byte := second x.closed ++ second x.lock ++ second x.handle
    let door (d : Door) : List Byte :=
      let x := h.door d
      second x.enabled ++ levels x.raw ++ levels x.debounced
        ++ (match x.position with
          | .closedLocked => one 0
          | .closed => one 1
          | .opened => one 2
          | .switchFault => one 3)
        ++ (match x.release with
          | .withdrawn => one 0
          | .waiting => one 1
          | .granted => one 2)
        ++ second x.mark ++ second x.atSpeed ++ first (h.link.lines.release.get d)
    let chain (x : ChainHold) : List Byte := second x.fault ++ one x.mismatches ++ one x.cleans ++ one x.entries
    let valve (x : ValveCmd) : List Byte :=
      match x with
      | .hold => one 0
      | .fill => one 1
      | .vent => one 2
    let modulated (x : ModCmd) : List Byte := mode x.mode ++ two x.pressure
    let actuated (x : SteerCmd) : List Byte := second x.enable ++ two x.setpoint
    exec (.fetchMotion q) s = .next (copy 0x01#8 (
      four h.sensing.travel.toNat ++ two h.sensing.speed
        ++ (match h.sensing.direction with
          | .forward => one 0
          | .reverse => one 1)
        ++ standstill h.sensing.standstill ++ two h.sensing.rounds
        ++ [h.sensing.steer, h.sensing.joints.j1, h.sensing.joints.j2].flatMap pair
        ++ (Circuit.all.map h.sensing.heights.get ++ Circuit.all.map h.sensing.bellows.get ++ [h.sensing.reservoir]
          ++ Axle.all.map h.sensing.brakes.get).flatMap single)) ∧
    exec (.fetchPath q) s = .next (copy 0x02#8 h.pathRecord) ∧
    exec (.fetchSteer q) s = .next
      (let t := copy 0x04#8 (two shown.1.toNat ++ steered (h.axleSteer .a3) ++ steered shown.2)
      { t with
        hub := { t.hub with
          steering := { h.steering with
            midway := match h.steering.midway with
              | some ⟨n + 2, a4, periods⟩ => some ⟨n + 1, a4, periods⟩
              | _ => none } } }) ∧
    exec (.fetchJoints q) s = .next (copy 0x05#8 (
      two h.joints.periods.toNat ++ joint h.joints.joints.j1 ++ joint h.joints.joints.j2 ++ two h.joints.requests.a3
        ++ two h.joints.requests.a4 ++ drive h.joints.driveSeen ++ first h.joints.torqueCut)) ∧
    exec (.fetchBrake q) s = .next (copy 0x06#8 (
      two h.brake.periods.toNat
        ++ (match h.brake.status with
          | .none => one 0
          | .fresh => one 1
          | .holding => one 2
          | .stale => one 3)
        ++ timer h.brake.age ++ two h.brake.decel ++ drive h.brake.drive ++ maybe 1 (h.brake.lastSeq.map fun b => [b])
        ++ maybe 1 (h.brake.lastPort.map fun p =>
            match p with
            | .m => one 0
            | .b => one 1
            | .s => one 2)
        ++ one h.brake.superseded ++ freeze h.brake.kneelFreeze ++ halt h.brake.halt ++ timer h.brake.applying
        ++ second h.brake.haltFault ++ Axle.all.flatMap fun k => braked (h.axleBrake k))) ∧
    exec (.fetchLevel q) s = .next (copy 0x07#8 (
      two h.level.periods.toNat ++ first h.level.cut
        ++ (match h.level.cutCause with
          | .start => one 0
          | .lowPressure => one 1
          | .sensor => one 2)
        ++ slot h.level.slots.f1 ++ slot h.level.slots.f2 ++ slot h.level.slots.f3 ++ one h.level.queue.length
        ++ h.level.queue.flatMap (fun e => one e.circuit.num ++ one e.cls) ++ first h.level.mismatch
        ++ maybe 2 (h.level.front.map two) ++ maybe 2 (h.level.middle.map two) ++ maybe 2 (h.level.rear.map two)
        ++ Circuit.all.flatMap fun c => levelled (h.circuit c))) ∧
    exec (.fetchKneel q) s = .next (copy 0x08#8 (
      kneel h.kneel.state
        ++ maybe 1 (h.kneel.cause.map fun x =>
            match x with
            | .standstill => one 0
            | .exclusion => one 1)
        ++ maybe 1 (h.kneel.circuit.map fun c => one c.num)
        ++ maybe 1 (h.kneel.before.map fun x =>
            match x with
            | .knelt => one 1
            | .raising => one 2
            | _ => one 0)
        ++ second h.sideLeft ++ second h.scopeSide ++ second h.autoRaiseOn ++ one h.kneelDepth
        ++ two h.kneel.completions.toNat ++ one h.scope.length ++ h.scope.flatMap inScope)) ∧
    exec (.fetchDoors q) s = .next (copy 0x09#8 (
      two h.doors.changes.toNat ++ one h.enableMask ++ first h.doors.condition ++ first h.doors.permit
        ++ standstill h.sensing.standstill ++ halt h.brake.halt ++ kneel h.kneel.state ++ Door.all.flatMap door)) ∧
    exec (.fetchLink q) s = .next (copy 0x0A#8 (
      two h.link.refreshes.toNat ++ Door.all.flatMap (fun d => first (h.link.lines.release.get d))
        ++ first h.link.lines.permit ++ first h.link.lines.torque
        ++ chain h.link.chainL ++ Circuit.all.flatMap (fun c =>
          let x := h.link.valves.get c
          valve x.image ++ maybe 1 (x.lastSent.map valve) ++ maybe 1 (x.echo.map valve) ++ second x.mismatch
            ++ maybe 1 (x.status.map first) ++ second x.fault)
        ++ chain h.link.chainB ++ Axle.all.flatMap (fun k =>
          let x := h.link.modulators.get k
          modulated x.image ++ maybe 3 (x.lastSent.map modulated) ++ maybe 3 (x.echo.map modulated)
            ++ second x.mismatch ++ maybe 1 (x.status.map first) ++ second x.fault)
        ++ chain h.link.chainS ++ Trailing.all.flatMap (fun t =>
          let x := h.link.actuators.get t
          actuated x.image ++ maybe 3 (x.lastSent.map actuated) ++ maybe 3 (x.echo.map actuated) ++ second x.mismatch
            ++ maybe 2 (x.status.map fun w => two w.toNat) ++ second x.fault)
        ++ chain h.link.chainJ ++ Joint.all.flatMap (fun j =>
          let x := h.link.dampers.get j
          one x.image ++ maybe 1 (x.lastSent.map fun n => one n) ++ maybe 1 (x.echo.map fun n => one n)
            ++ second x.mismatch ++ maybe 1 (x.status.map first) ++ second x.fault))) ∧
    exec (.fetchAccess q) s = .next (copy 0x0E#8 (
      one h.access.map.m.toNat ++ one h.access.map.b.toNat ++ one h.access.map.s.toNat ++ second h.access.lock
        ++ (match h.access.source with
          | .sector7 => one 0
          | .builtIn => one 1)
        ++ EventKind.all.flatMap fun k => one (h.events.routing.get k).toNat))) ∧
  (∀ (s : State) (q : Request), s.hub.admits q.port .status = true → (s.hub.port q.port).posted = none →
    let u := s.hub.port q.port
    exec (.fetchPort q) s = .next { s with
      hub := s.hub.answered q 0x0C#8 (.done
        ([match q.port with
          | .m => 0#8
          | .b => 1#8
          | .s => 2#8]
          ++ [(s.hub.access.map.get q.port).setWidth 8] ++ [0#8, 0#8]
          ++ (match u.slot with
            | .empty => [0#8, 0#8, 0#8, 0#8]
            | .waiting rq => [1#8, rq.op.code, rq.tag, 0#8]
            | .running rq => [2#8, rq.op.code, rq.tag, 0#8]
            | .done rq outcome => [3#8, rq.op.code, rq.tag, BitVec.ofNat 8 outcome.status.num])
          ++ halfBytes (u.frames + 1) ++ halfBytes u.errors ++ halfBytes u.denied)) })

/-- The PATH record's 18 bytes, with the tail's index the push count less (depth - 1) (R30). PATH WINDOW: up to 16
samples from the asked offset toward the tail, each with its angle or an absent mark, the first one's index, and count
0 at or beyond the depth; any payload but one byte is refused RANGE (R31). -/
def Obligations.PathRecordsCopied : Prop :=
  (∀ h : Hub, h.path.Inv →
    h.pathRecord =
      be2 h.path.samples.length ++ be2 h.path.r ++ wordBytes h.path.pushCount
        ++ wordBytes (if h.path.samples = [] then h.path.pushCount
            else h.path.pushCount - BitVec.ofNat 32 (h.path.samples.length - 1))
        ++ be2 (h.path.samples.filter fun x => x.angle.isNone).length
        ++ [if h.path.underrun then 1#8 else 0#8]
        ++ match h.path.samples with
          | ⟨_, some angle⟩ :: _ => 1#8 :: be2 angle
          | _ => [0#8, 0#8, 0#8]) ∧
  (∀ (s : State) (q : Request), s.hub.path.Inv → s.hub.admits q.port .status = true →
    (s.hub.port q.port).posted = none →
    (q.payload.length ≠ 1 →
      exec (.fetchPathWindow q) s = .next { s with hub := s.hub.answered q 0x03#8 (.refused .range []) }) ∧
    ∀ o : Byte, q.payload = [o] →
      ∃ record, exec (.fetchPathWindow q) s = .next { s with hub := s.hub.answered q 0x03#8 (.done record) } ∧
        let count := min 16 (s.hub.path.samples.length - o.toNat)
        record.length = 10 + 3 * count ∧
        record.take 10 = o :: be2 s.hub.path.samples.length ++ be2 s.hub.path.r
          ++ wordBytes (if count = 0 then s.hub.path.pushCount else s.hub.path.pushCount - BitVec.ofNat 32 o.toNat)
          ++ [BitVec.ofNat 8 count] ∧
        ∀ i, i < count → ∃ x, s.hub.path.samples[o.toNat + i]? = some x ∧
          (record.drop (10 + 3 * i)).take 3 = (match x.angle with
            | some angle => 1#8 :: be2 angle
            | none => [0#8, 0#8, 0#8]))

/-- FETCH ACTIVE ITEM: the item number, the value in force and its source; a payload that is not one byte or names no
item is refused RANGE (R171). FETCH STORE STATUS copies the store's state: the operation that runs, the clear's progress
and the DEPOT line as of the record's last update, the load count and, for each sector, the numbers of its slots 0 to 31
that are EMPTY, WRITTEN and TORN, closed, lock, clear-in-progress and the status (the sectors in the store's form); no
command but those that start, suspend or complete an operation or install a set updates it (R171). Model's choice (log
entries 16, 17, 31): where the running order has no sector or no slot those bytes are free values, and nothing here
rests on them; in a suspension the read is the operation shown; the value takes two bytes. -/
def Obligations.StoreRecordsCopied : Prop :=
  (∀ (s : State) (q : Request), s.hub.admits q.port .status = true → (s.hub.port q.port).posted = none →
    (∀ (k : SectorId) (slot : Nat) (x : Item), slot < 32 → q.payload = [BitVec.ofNat 8 (32 * k.num + slot)] →
      (s.hub.store.active.get k)[slot]? = some x →
      exec (.fetchActiveItem q) s = .next { s with
        hub := s.hub.answered q 0x0D#8 (.done
          (BitVec.ofNat 8 (32 * k.num + slot) :: be2 x.value ++ [match x.source with
            | .stored => 0#8
            | .default => 1#8
            | .corrected => 2#8])) }) ∧
    ((q.payload.length ≠ 1 ∨ ∀ (k : SectorId) (slot : Nat) (x : Item),
        slot < 32 → q.payload = [BitVec.ofNat 8 (32 * k.num + slot)] → (s.hub.store.active.get k)[slot]? ≠ some x) →
      exec (.fetchActiveItem q) s = .next { s with hub := s.hub.answered q 0x0D#8 (.refused .range []) })) ∧
  (∀ (s : State) (q : Request) (depot : Bool), s.hub.admits q.port .status = true →
    (s.hub.port q.port).posted = none → (∀ k, (s.hub.sector k).wf = true) →
    let sector (k : SectorId) : List Byte :=
      let x := s.hub.sector k
      let state (i : Nat) : Nat :=
        if i = 31 then
          match x.mark with
          | .empty => 0
          | .written _ _ => 1
          | .torn => 2
        else
          match slotContent x.slots i with
          | none => 0
          | some (.written _) => 1
          | some .torn => 2
      let number (n : Nat) : Byte := BitVec.ofNat 8 ((List.range 32).countP fun i => state i == n)
      let yes (b : Bool) : Byte := if b then 1#8 else 0#8
      [number 0, number 1, number 2, yes (state 31 == 1), yes x.lock, yes x.clearing,
        match s.hub.store.statuses.get k with
        | .valid => 0#8
        | .defaulted => 1#8
        | .clamped => 2#8
        | .torn => 3#8]
    ∃ (running : List Byte) (clear : List Byte),
      exec (.fetchStoreStatus q depot) s = .next { s with
        hub := { (readPins (.fetchStoreStatus q depot) s.hub).answered q 0x0B#8 (.done
            ([if s.hub.store.running = none then 0#8 else 1#8] ++ running ++ clear
              ++ [if s.hub.store.shown.depot then 0#8 else 1#8]
              ++ halfBytes s.hub.store.loads ++ SectorId.all.flatMap sector)) with
          freeCount := s.hub.freeCount + 2 } } ∧
      (s.hub.store.running = none → s.hub.store.read = none → running = [0#8, 0#8, 0#8, 0#8, 0#8]) ∧
      (∀ r, (s.hub.store.read.or s.hub.store.running) = some r →
        let shows (code : Byte) (sector slot : Option Nat) : Prop :=
          ∃ a b : Byte, running = [1#8, code, a, b, BitVec.ofNat 8 (portNum r.port)] ∧
            (∀ n, sector = some n → a = BitVec.ofNat 8 n) ∧ ∀ n, slot = some n → b = BitVec.ofNat 8 n
        match r.op with
        | .read k slot => shows 0x38#8 (some k.num) (some slot)
        | .clear k => shows 0x39#8 (some k.num) none
        | .write k slot _ => shows 0x3A#8 (some k.num) (some slot)
        | .close k => shows 0x3B#8 (some k.num) none
        | .lock k => shows 0x3C#8 (some k.num) none
        | .blank k => shows 0x3D#8 (some k.num) none
        | .apply => shows 0x3E#8 none none) ∧
      (∀ r k, s.hub.store.running = some r → r.op = .clear k →
        clear = [1#8, BitVec.ofNat 8 s.hub.store.shown.progress, if s.hub.store.read = none then 0#8 else 1#8]) ∧
      ((∀ r k, s.hub.store.running = some r → r.op ≠ .clear k) → clear = [0#8, 0#8, 0#8])) ∧
  ∀ (s t : State) (c : Instr), exec c s = .next t → classOf c ≠ some .calibration →
    s.hub.store.due = none ∨ completesStore c = false → c ≠ .powerOnReset →
    (∀ inputs, c ≠ .activeSetLoad inputs) → t.hub.store.shown = s.hub.store.shown

/-! ## Requests of the port and event units -/

/-- POST DRIVE DEMAND at an EMPTY buffer: a payload of four bytes is placed as posted and answered TAKEN; any other is
refused RANGE and not placed (R152). -/
def Obligations.PostPlacesTheDemand : Prop :=
  ∀ (s : State) (q : Request), s.hub.admits q.port .demand = true → (s.hub.port q.port).posted = none →
    (∀ seq hi lo drive : Byte, q.payload = [seq, hi, lo, drive] →
      exec (.postDriveDemand q) s = .next { s with
        hub := (s.hub.answered q 0x10#8 (.plain .taken)).onPort q.port fun u =>
          { u with posted := some ⟨seq, hi ++ lo, drive⟩ } }) ∧
    (q.payload.length ≠ 4 →
      exec (.postDriveDemand q) s = .next { s with hub := s.hub.answered q 0x10#8 (.refused .range []) })

/-- CLEAR PATH FLAG clears the underrun flag, set or not, is answered DONE, and changes neither the samples, r, the
push count nor any event. A reverse pulse that underruns sets the flag again, whatever it was, and raises its PATH
event, which a later clear leaves in the queues (R26). -/
def Obligations.ClearPathFlagClearsTheFlag : Prop :=
  (∀ (s : State) (q : Request), s.hub.admits q.port .demand = true →
    exec (.clearPathFlag q) s = .next { s with
      hub := { s.hub.answered q 0x22#8 (.done []) with path := { s.hub.path with underrun := false } } }) ∧
  ∀ (s t : State) (input : WheelInput), exec (.wheelPulse input .reverse) s = .next t → s.hub.clock.loaded = true →
    (s.hub.path.backward s.hub.wp).2 ≠ 0 →
    t.hub.path.underrun = true ∧ ∀ p, (s.hub.events.routing.get .path).getLsbD p.num = true →
      ∃ e ∈ t.hub.events.queues.get p, e.kind = .path ∧ e.subject = 0 ∧ e.last = s.hub.clock.ms ∧
        e.value = BitVec.ofNat 16 (s.hub.path.backward s.hub.wp).2

/-- MAP WRITE and ROUTE WRITE, judged in the order of R156 and R164: LOCKED, then RANGE, then the named set replaced.
-/
def Obligations.MapAndRouteWrites : Prop :=
  ∀ (s : State) (q : Request), s.hub.admits q.port .supervision = true →
    (s.hub.access.lock = true →
      exec (.mapWrite q) s = .next { s with hub := s.hub.answered q 0x30#8 (.plain .locked) } ∧
      exec (.routeWrite q) s = .next { s with hub := s.hub.answered q 0x32#8 (.plain .locked) }) ∧
    (s.hub.access.lock = false →
      (∀ (p : Port) (set : Byte), q.payload = [BitVec.ofNat 8 p.num, set] → set.toNat ≤ 31 →
        exec (.mapWrite q) s = .next { s with
          hub := { s.hub.answered q 0x30#8 (.done []) with
            access := { s.hub.access with map := s.hub.access.map.set p (set.setWidth 5) } } }) ∧
      ((∀ (p : Port) (set : Byte), set.toNat ≤ 31 → q.payload ≠ [BitVec.ofNat 8 p.num, set]) →
        exec (.mapWrite q) s = .next { s with hub := s.hub.answered q 0x30#8 (.refused .range []) }) ∧
      (∀ (k : EventKind) (set : Byte), q.payload = [BitVec.ofNat 8 k.num, set] → set.toNat ≤ 7 →
        exec (.routeWrite q) s = .next { s with
          hub := { s.hub.answered q 0x32#8 (.done []) with
            events := { s.hub.events with routing := s.hub.events.routing.set k (set.setWidth 3) } } }) ∧
      ((∀ (k : EventKind) (set : Byte), set.toNat ≤ 7 → q.payload ≠ [BitVec.ofNat 8 k.num, set]) →
        exec (.routeWrite q) s = .next { s with hub := s.hub.answered q 0x32#8 (.refused .range []) }))

/-- MAP LOCK sets the lock, set or not, and is answered DONE (R157). Once the access map is locked, no command but a
power-on reset changes the map, the lock or the routing table - MAP WRITE and ROUTE WRITE are answered LOCKED - and a
power-on reset clears the lock, to be formed anew at its load. Model's choice (log entry 7): the map counts as owed
until that load; a lock is set only on a map that has been formed. -/
def Obligations.LockedMapStands : Prop :=
  (∀ (s : State) (q : Request), s.hub.admits q.port .supervision = true →
    exec (.mapLock q) s = .next { s with
      hub := { s.hub.answered q 0x31#8 (.done []) with access := { s.hub.access with lock := true } } }) ∧
  (∀ (s t : State) (c : Instr), exec c s = .next t →
    (s.hub.clock.loaded = true → s.hub.access.owed = false) → (s.hub.access.lock = true → s.hub.access.owed = false) →
      ((t.hub.clock.loaded = true → t.hub.access.owed = false) ∧ (t.hub.access.lock = true → t.hub.access.owed = false)) ∧
      (s.hub.access.lock = true → c ≠ .powerOnReset →
        t.hub.access = s.hub.access ∧ t.hub.events.routing = s.hub.events.routing) ∧
      (c = .powerOnReset → t.hub.access.lock = false ∧ t.hub.access.owed = true)) ∧
  ∀ (s : State) (q : Request), s.hub.admits q.port .supervision = true → s.hub.access.lock = true →
    exec (.mapWrite q) s = .next { s with hub := s.hub.answered q 0x30#8 (.plain .locked) } ∧
    exec (.routeWrite q) s = .next { s with hub := s.hub.answered q 0x32#8 (.plain .locked) }

/-- TAKE removes the oldest entries of the asking port's queue, up to n of them, and answers with their number and
their bytes; the attention line falls with the last of them; any other payload is refused RANGE and removes nothing
(R163, R162). -/
def Obligations.TakeRemovesTheOldest : Prop :=
  ∀ (s : State) (q : Request) (code : Byte), s.hub.clock.loaded = true →
    (∀ n : Byte, q.payload = [n] → 1 ≤ n.toNat → n.toNat ≤ 8 →
      let queue := s.hub.events.queues.get q.port
      exec (.take q code) s = .next { s with
        hub := { s.hub.answered q code (.done (BitVec.ofNat 8 (min n.toNat queue.length) ::
            (queue.take n.toNat).flatMap fun e =>
              [BitVec.ofNat 8 e.kind.num, BitVec.ofNat 8 e.subject, BitVec.ofNat 8 e.count] ++ wordBytes e.first
                ++ wordBytes e.last ++ halfBytes e.value)) with
          events := { s.hub.events with
            queues := s.hub.events.queues.set q.port (queue.drop n.toNat)
            attention := s.hub.events.attention.set q.port (decide (n.toNat < queue.length)) } } }) ∧
    ((∀ n : Byte, q.payload = [n] → n.toNat = 0 ∨ 8 < n.toNat) →
      exec (.take q code) s = .next { s with hub := s.hub.answered q code (.refused .range []) })

/-- A raise at a queue: one entry per kind and subject, which counts the raise, takes the time and the value and keeps
its place; else a new entry at the tail, its count 1; the ports of the kind's set and no other (R162, R163, R164). -/
def Obligations.RaiseCoalesces : Prop :=
  ∀ (u : EventUnit) (now : Word) (kind : EventKind) (subject : Nat) (value : Half) (p : Port),
    let before := u.queues.get p
    let after := (u.raise now kind subject value).queues.get p
    let reached := (u.routing.get kind).getLsbD p.num
    (reached = false → after = before ∧ (u.raise now kind subject value).attention.get p = u.attention.get p) ∧
    (reached = true → (u.raise now kind subject value).attention.get p = true) ∧
    (reached = true → (∀ e ∈ before, ¬(e.kind = kind ∧ e.subject = subject)) →
      after = before ++ [⟨kind, subject, 1, now, now, value⟩]) ∧
    (reached = true → ∀ xs e ys, before = xs ++ e :: ys → e.kind = kind → e.subject = subject →
      (∀ x ∈ xs, ¬(x.kind = kind ∧ x.subject = subject)) →
      after = xs ++ ⟨kind, subject, min 255 (e.count + 1), e.first, now, value⟩ :: ys)

/-- ABANDON empties the port's delayed slot, whatever it holds, and is answered DONE; the operation that runs goes on
(R154). -/
def Obligations.AbandonEmptiesTheSlot : Prop :=
  ∀ (s : State) (q : Request) (code : Byte), s.hub.clock.loaded = true →
    exec (.abandon q code) s = .next { s with
      hub := (s.hub.answered q code (.done [])).onPort q.port fun u => { u with slot := .empty } }

/-! ## The calibration store -/

/-- STORE READ, STORE CLEAR, STORE WRITE, STORE CLOSE, STORE LOCK, BLANK TEST and APPLY at an EMPTY slot, past the
checks of their take, are answered RETRY and placed: the operation starts where the store is free, else it waits, but
for a read of another sector than a running clear's, which suspends that clear and has the store's record show the
clear's progress (R153, R155, R171). Model's choice (log entry 23): an operation refused at its start has its outcome in
the slot at once. -/
def Obligations.DelayedOrderIsPlaced : Prop :=
  ∀ (s : State) (i : Instr) (q : Request) (op : StoreOp),
    storeOrder i = some (q, op) → s.hub.admits q.port .calibration = true → (s.hub.port q.port).slot = .empty →
    (op = .apply → s.hub.sensing.standstill = .yes ∧ s.hub.brake.halt = .applied ∧ s.hub.kneel.state = .ride) →
      let judged := (readPins i s.hub).answered q op.code (.plain .retry)
      let rq : HeldRequest := ⟨op, q.tag, q.payload⟩
      (s.hub.store.running = none → exec i s = .next { s with hub := judged.startOp q.port rq }) ∧
      (∀ r k slot, s.hub.store.running = some r → s.hub.store.read = none → op = .read k slot →
        (∃ k', r.op = .clear k' ∧ k' ≠ k) →
        exec i s = .next { s with
          hub := (judged.onStore fun u =>
              { u with read := some ⟨op, q.port, 0, false⟩, shown := ⟨judged.pins.depot, r.elapsed / 10⟩ }).onPort q.port
            fun u => { u with slot := .running rq } }) ∧
      (∀ r, s.hub.store.running = some r →
        (s.hub.store.read ≠ none ∨ ∀ k slot k', op = .read k slot → r.op = .clear k' → k' = k) →
        exec i s = .next { s with hub := judged.onPort q.port fun u => { u with slot := .waiting rq } })

/-- What the store judges at the start of an operation, and what the operation does to its sector at once: a STORE
WRITE makes its slot TORN, a STORE CLOSE slot 31, a STORE CLEAR sets the clear-in-progress flag; a refused one
completes at its start (R166, R167; log entry 23). Either brings the store's record up to date (R171; of a refused one
model's choice, log entry 31). -/
def Obligations.StoreOperationsStart : Prop :=
  ∀ (h : Hub) (p : Port) (rq : HeldRequest),
    let refused (r : Reason) : Hub :=
      (h.onStore fun u => { u with shown := ⟨h.pins.depot, h.store.progress⟩ }).onPort p fun u =>
        { u with slot := .done rq (.refused r []) }
    let started (clearLock : Bool) (g : PerSector Sector → PerSector Sector) : Hub :=
      (h.onStore fun u => { u with
        sectors := g u.sectors, running := some ⟨rq.op, p, 0, clearLock⟩, shown := ⟨h.pins.depot, 0⟩ }).onPort p fun u =>
          { u with slot := .running rq }
    match rq.op with
    | .write k slot _ =>
      let x := h.sector k
      h.startOp p rq =
        if x.lock then refused .sectorLocked
        else if x.isTorn then refused .torn
        else if x.isClosed then refused .sectorClosed
        else if slotContent x.slots slot ≠ none then refused .notEmpty
        else started false fun v => v.set k { x with slots := putSlot slot .torn x.slots }
    | .close k =>
      let x := h.sector k
      h.startOp p rq =
        if x.lock then refused .sectorLocked
        else if x.isTorn then refused .torn
        else if x.isClosed then refused .sectorClosed
        else started false fun v => v.set k { x with mark := .torn }
    | .clear k =>
      let x := h.sector k
      h.startOp p rq =
        if x.lock = true ∧ h.pins.depot = false then refused .sectorLocked
        else started x.lock fun v => v.set k { x with clearing := true }
    | .read _ _ | .lock _ | .blank _ | .apply => h.startOp p rq = started false id

/-- A repetition of the held request is answered RETRY until its outcome is there, then with the outcome, which
empties the slot; its payload and the port's classes are not looked at. Any other delayed request that passes the
checks of its take is answered SLOT_BUSY and not taken (R153, R151 step 5). -/
def Obligations.RepetitionCollectsTheOutcome : Prop :=
  ∀ (s : State) (i : Instr) (q : Request) (code : Byte),
    i.frameParts = some (q, 3, code) → classOf i = some .calibration → s.hub.clock.loaded = true →
    (∀ rq, ((s.hub.port q.port).slot = .waiting rq ∨ (s.hub.port q.port).slot = .running rq) →
      rq.op.code = code → rq.tag = q.tag →
      exec i s = .next { s with hub := (readPins i s.hub).answered q code (.plain .retry) }) ∧
    (∀ rq outcome, (s.hub.port q.port).slot = .done rq outcome → rq.op.code = code → rq.tag = q.tag →
      exec i s = .next { s with
        hub := ((readPins i s.hub).answered q code outcome).onPort q.port fun u => { u with slot := .empty } }) ∧
    (∀ rq op, (s.hub.port q.port).slot.held? = some rq → ¬(rq.op.code = code ∧ rq.tag = q.tag) →
      s.hub.holds q.port .calibration = true → storeOrder i = some (q, op) →
      (op = .apply → s.hub.sensing.standstill = .yes ∧ s.hub.brake.halt = .applied ∧ s.hub.kneel.state = .ride) →
      exec i s = .next { s with hub := (readPins i s.hub).answered q code (.plain .slotBusy) })

/-- A delayed order refused at its take: RANGE for a payload out of range, and for APPLY the first of NOT_STANDSTILL,
HALT_NOT_APPLIED and KNEEL_ACTIVE that applies, whatever the slot's state; the slot is left as it stands (R153, R166,
R170). A payload is in range where it has the order's length, its sector is at most 7 and its slot at most 31 for STORE
READ and 30 for STORE WRITE, and it is then read as that sector, slot and value, the value's most significant byte first
(R148, R166, R167). Model's choice (log entry 33): a sector and a slot take one byte each. -/
def Obligations.DelayedOrderRefusedAtItsTake : Prop :=
  ∀ (s : State) (i : Instr) (q : Request) (code : Byte),
    i.frameParts = some (q, 3, code) → classOf i = some .calibration → s.hub.admits q.port .calibration = true →
    (s.hub.port q.port).slot.repeats code q.tag = false →
    let ranged (inRange : Prop) (op : StoreOp → Prop) : Prop :=
      (¬inRange → exec i s = .next { s with hub := (readPins i s.hub).answered q code (.refused .range []) }) ∧
      (inRange → ∃ x, storeOrder i = some (q, x) ∧ op x)
    let sectorRanged (op : SectorId → StoreOp) : Prop :=
      ranged (∃ k : Byte, q.payload = [k] ∧ k.toNat ≤ 7) fun x =>
        ∃ k, q.payload = [BitVec.ofNat 8 k.num] ∧ x = op k
    (match i with
      | .storeRead _ => ranged (∃ k slot : Byte, q.payload = [k, slot] ∧ k.toNat ≤ 7 ∧ slot.toNat ≤ 31) fun x =>
          ∃ k slot, q.payload = [BitVec.ofNat 8 k.num, BitVec.ofNat 8 slot] ∧ slot ≤ 31 ∧ x = .read k slot
      | .storeWrite _ =>
        ranged (∃ k slot hi lo : Byte, q.payload = [k, slot, hi, lo] ∧ k.toNat ≤ 7 ∧ slot.toNat ≤ 30) fun x =>
          ∃ k slot value, q.payload = BitVec.ofNat 8 k.num :: BitVec.ofNat 8 slot :: halfBytes value ∧ slot ≤ 30 ∧
            x = .write k slot value
      | .storeClear _ _ => sectorRanged .clear
      | .storeClose _ => sectorRanged .close
      | .storeLock _ => sectorRanged .lock
      | .blankTest _ => sectorRanged .blank
      | _ => storeOrder i = some (q, .apply)) ∧
    (storeOrder i = none →
      exec i s = .next { s with hub := (readPins i s.hub).answered q code (.refused .range []) }) ∧
    (∀ depot, i = .apply ⟨q, depot⟩ →
      let refused (r : Reason) : State := { s with hub := (readPins i s.hub).answered q code (.refused r []) }
      (s.hub.sensing.standstill ≠ .yes → exec i s = .next (refused .notStandstill)) ∧
      (s.hub.sensing.standstill = .yes → s.hub.brake.halt ≠ .applied → exec i s = .next (refused .haltNotApplied)) ∧
      (s.hub.sensing.standstill = .yes → s.hub.brake.halt = .applied → s.hub.kneel.state ≠ .ride →
        exec i s = .next (refused .kneelActive)))

/-- STORE READ, WRITE, CLOSE, LOCK and CLEAR COMPLETION, BLANK TEST COMPLETION, and an APPLY COMPLETION whose conditions
fail: the sector afterwards and the outcome of R166, R167 and R170, delivered to the slot that is RUNNING it; then the
store, its record brought up to date, takes the next waiting request (R153, R155, R171). The outcome goes to the slot of
its port where that is RUNNING it, which becomes DONE; where the port has abandoned it, it is discarded (R153, R154). A
read's outcome is the slot's state and its value, or slot 31's check value and count (R166). Model's choice (log entry
33): a slot state and a count take one byte each. -/
def Obligations.StoreOperationsComplete : Prop :=
  (∀ (s : State) (r : RunningOp) (depot : Bool),
    s.hub.store.read = none → s.hub.store.running = some r → r.op.duration ≤ r.elapsed →
    let finish (g : PerSector Sector → PerSector Sector) (data : List Byte) : Hub :=
      (({ s.hub with
        pins := { s.hub.pins with depot := depot }
        store := { s.hub.store with
          sectors := g s.hub.store.sectors, running := none, shown := ⟨depot, 0⟩ } } : Hub).deliver r
          (.done data)).takeNext
    match r.op with
    | .read k slot =>
      exec (.storeReadCompletion depot) s = .next { s with hub := finish id (readOutcome (s.hub.sector k) slot) }
    | .write k slot v =>
      exec (.storeWriteCompletion depot) s = .next { s with
        hub := finish (fun x => x.set k { x.get k with slots := putSlot slot (.written v) (x.get k).slots }) [] }
    | .close k =>
      let sum := checkSum (s.hub.sector k)
      let count := (writtenValues (s.hub.sector k)).length
      exec (.storeCloseCompletion depot) s = .next { s with
        hub := finish (fun x => x.set k { x.get k with mark := .written sum count })
          (halfBytes sum ++ [BitVec.ofNat 8 count]) }
    | .lock k =>
      exec (.storeLockCompletion depot) s = .next { s with
        hub := finish (fun x => x.set k { x.get k with lock := true }) [] }
    | .blank k =>
      let x := s.hub.sector k
      exec (.blankTestCompletion depot) s = .next { s with
        hub := finish id [if x.slots = [] ∧ x.mark = .empty ∧ x.clearing = false then 1#8 else 0#8] }
    | .clear k =>
      exec (.storeClearCompletion depot) s = .next { s with
        hub := finish (fun x => x.set k
          { slots := [], mark := .empty, lock := (x.get k).lock && !r.clearLock, clearing := false }) [] }
    | .apply =>
      ¬(s.hub.sensing.standstill = .yes ∧ s.hub.brake.halt = .applied ∧ s.hub.kneel.state = .ride) →
        exec (.applyCompletion depot) s = .next { s with
          hub := (({ s.hub with
            pins := { s.hub.pins with depot := depot }
            store := { s.hub.store with running := none, shown := ⟨depot, 0⟩ } } : Hub).deliver r
              (.refused .interlock [])).takeNext }) ∧
  ((∀ (h : Hub) (r : RunningOp) (a : Answer),
    (∀ rq, (h.port r.port).slot = .running rq → rq.op = r.op →
      h.deliver r a = h.onPort r.port fun u => { u with slot := .done rq a }) ∧
    ((∀ rq, (h.port r.port).slot = .running rq → rq.op ≠ r.op) → h.deliver r a = h)) ∧
  ∀ (x : Sector) (slot : Nat),
    (slot ≤ 30 → readOutcome x slot =
      match slotContent x.slots slot with
      | none => [0#8, 0#8, 0#8]
      | some (.written v) => 1#8 :: halfBytes v
      | some .torn => [2#8, 0#8, 0#8]) ∧
    readOutcome x 31 =
      match x.mark with
      | .empty => [0#8, 0#8, 0#8, 0#8]
      | .written sum count => 1#8 :: halfBytes sum ++ [BitVec.ofNat 8 count]
      | .torn => [2#8, 0#8, 0#8, 0#8])

/-- The store, free again, takes the WAITING request of the first port in the order S, B, M; a request refused at its
start completes there, and the next one is taken (R155, R166). Model's choice (log entry 30): ports of lower priority
keep their slots, a WAITING read of another sector under a STORE CLEAR that starts here among them. -/
def Obligations.ArbiterTakesByPriority : Prop :=
  ∀ h : Hub, h.store.running = none →
    ((∀ p rq, (h.port p).slot ≠ .waiting rq) → h.takeNext = h) ∧
    ∀ (p : Port) (rq : HeldRequest), (h.port p).slot = .waiting rq → h.startRefusal rq.op = none →
      (∀ p' rq', storePriority p' < storePriority p → (h.port p').slot = .waiting rq' →
        h.startRefusal rq'.op ≠ none) →
      (h.takeNext.store.running.map fun r => (r.op, r.port, r.elapsed)) = some (rq.op, p, 0) ∧
      (h.takeNext.port p).slot = .running rq ∧
      (∀ p', storePriority p < storePriority p' → h.takeNext.port p' = h.port p') ∧
      (∀ p', storePriority p' < storePriority p → (∀ rq', (h.port p').slot ≠ .waiting rq') →
        h.takeNext.port p' = h.port p') ∧
      ∀ p' rq', storePriority p' < storePriority p → (h.port p').slot = .waiting rq' →
        ∃ reason, (h.takeNext.port p').slot = .done rq' (.refused reason [])

/-- The completion of a read that runs in a suspension of a clear: its outcome is delivered (the widths of its slot
state and count: model's choice, log entry 33), and the first WAITING read of another sector, in the order S, B, M,
starts in the same suspension, else the clear resumes where it stopped (R155, R167); the store's record shows the
clear's progress (R171). -/
def Obligations.SuspendedReadCompletes : Prop :=
  ∀ (s : State) (r clear : RunningOp) (k k' : SectorId) (slot : Nat) (depot : Bool),
    s.hub.store.read = some r → r.op = .read k slot → s.hub.store.running = some clear → clear.op = .clear k' →
    r.op.duration ≤ r.elapsed →
    ∃ t, exec (.storeReadCompletion depot) s = .next t ∧ t.pending = s.pending ∧
      t.hub.store.running = some clear ∧ t.hub.store.sectors = s.hub.store.sectors ∧
      t.hub.store.shown = ⟨depot, clear.elapsed / 10⟩ ∧
      (∀ rq, (s.hub.port r.port).slot = .running rq → rq.op = r.op →
        (t.hub.port r.port).slot = .done rq (.done (readOutcome (s.hub.sector k) slot))) ∧
      ((∀ p rq kr sr, (s.hub.port p).slot = .waiting rq → rq.op = .read kr sr → kr = k') →
        t.hub.store.read = none) ∧
      ∀ p rq kr sr, (s.hub.port p).slot = .waiting rq → rq.op = .read kr sr → kr ≠ k' →
        (∀ p' rq' kr' sr', storePriority p' < storePriority p → (s.hub.port p').slot = .waiting rq' →
          rq'.op = .read kr' sr' → kr' = k') →
        t.hub.store.read = some ⟨rq.op, p, 0, false⟩ ∧ (t.hub.port p).slot = .running rq

/-- The completion of an APPLY whose conditions hold: the loaded set replaces the active set and the statuses whole,
each unit takes the installation (R52, R92, R125), the access map and the routing table stay, and the outcome is DONE
with the eight statuses (R170). Where its port has abandoned it the set is installed all the same, and the outcome is
discarded: an EMPTY slot stays EMPTY, and a later request of the port waits or is taken, with no outcome of the APPLY
(R154). -/
def Obligations.ApplyInstalls : Prop :=
  ∀ (s : State) (p : Port) (e : Nat) (l : Bool) (depot : Bool),
    s.hub.store.read = none → s.hub.store.running = some ⟨.apply, p, e, l⟩ → 20 ≤ e →
    s.hub.sensing.standstill = .yes → s.hub.brake.halt = .applied → s.hub.kneel.state = .ride →
    ∃ t, exec (.applyCompletion depot) s = .next t ∧ t.pending = s.pending ∧
      (∀ k, t.hub.store.active.get k = (loadSector k (s.hub.sector k)).1 ∧
        t.hub.store.statuses.get k = (loadSector k (s.hub.sector k)).2) ∧
      t.hub.store.loads = s.hub.store.loads + 1 ∧ t.hub.store.shown = ⟨depot, 0⟩ ∧
      (∀ rq, (s.hub.port p).slot = .running rq → rq.op = .apply →
        (t.hub.port p).slot =
          .done rq (.done (SectorId.all.map fun k => match (loadSector k (s.hub.sector k)).2 with
            | .valid => 0#8
            | .defaulted => 1#8
            | .clamped => 2#8
            | .torn => 3#8))) ∧
      ((s.hub.port p).slot = .empty → (t.hub.port p).slot = .empty) ∧
      (∀ rq, (s.hub.port p).slot = .waiting rq →
        (t.hub.port p).slot = .waiting rq ∨ (t.hub.port p).slot = .running rq ∨
          ∃ reason, (t.hub.port p).slot = .done rq (.refused reason [])) ∧
      t.hub.access = s.hub.access ∧ t.hub.events.routing = s.hub.events.routing ∧
      (∀ x, t.hub.axleSteer x =
        if (s.hub.axleSteer x).initialised then
          { s.hub.axleSteer x with
            setpoint := (s.hub.axleSteer x).setpoint.map (clampTo (-t.hub.angleMax x) (t.hub.angleMax x)) }
        else s.hub.axleSteer x) ∧
      (∀ c, (t.hub.circuit c).target =
        if (s.hub.circuit c).source = .ride then t.hub.trim c else (s.hub.circuit c).target) ∧
      (∀ d, (t.hub.door d).enabled = t.hub.enableMask.testBit (d.num - 1)) ∧
      t.hub.sensing = s.hub.sensing ∧ t.hub.path = s.hub.path ∧ t.hub.clock = s.hub.clock ∧
      t.hub.joints = s.hub.joints

/-- A sector's lock is cleared only by a STORE CLEAR that found the DEPOT line active at its start, and no command but
the starts and completions of the store's operations changes a sector (R166, R167, R168). -/
def Obligations.SectorsKeptAndLocked : Prop :=
  ∀ (s t : State) (c : Instr) (k : SectorId), exec c s = .next t →
    ((s.hub.sector k).lock = true → (t.hub.sector k).lock = false →
      ∃ r, s.hub.store.running = some r ∧ r.op = .clear k ∧ r.clearLock = true) ∧
    (classOf c ≠ some .calibration → s.hub.store.due = none ∨ completesStore c = false → t.hub.sector k = s.hub.sector k)

/-! ## Sensing -/

/-- A raw result from 205 to 3,890 gives the raw result less zero, times span, divided by 2048 and truncated toward
zero, clamped to the group's range; any other result gives none (R4, R5). A pair's conversions: the classes of R6, the
value, state and unusable count of R7, and after a FAULT (R8) exactly 50 agreeing conversions in a row, published with
the last of them, lead back to OK; fewer leave value and state, and a SINGLE or UNUSABLE one sets the good count to 0
from any count. A single entry's conversions (R9): FAULT at the third invalid one in a row with the value held, and back
to OK with the fiftieth valid one in a row, whose value is published; an invalid one sets the good count to 0. -/
def Obligations.ConversionsAndPlausibility : Prop :=
  (∀ (zero span lo hi : Int) (raw : Raw), lo ≤ hi →
    (convert (zero, span) lo hi raw = none ↔ raw.toNat < 205 ∨ 3890 < raw.toNat) ∧
    ∀ v, convert (zero, span) lo hi raw = some v →
      let exact := ((raw.toNat : Int) - zero) * span
      lo ≤ v ∧ v ≤ hi ∧
      (∀ x : Int, 2048 * x.natAbs ≤ exact.natAbs → exact.natAbs < 2048 * (x.natAbs + 1) → 0 ≤ x * exact →
        (lo ≤ x → x ≤ hi → v = x) ∧ (x < lo → v = lo) ∧ (hi < x → v = hi))) ∧
  ((∀ (tolerance a b : Int), 0 ≤ tolerance →
    classify tolerance (some a) (some b) =
      (if a - b ≤ tolerance ∧ b - a ≤ tolerance then .agree ((a + b).tdiv 2) else .unusable) ∧
    classify tolerance (some a) none = .single a false ∧ classify tolerance none (some b) = .single b true ∧
    classify tolerance none none = .unusable) ∧
  (∀ p : Pair, p.state ≠ .fault →
    (∀ v, p.take (.agree v) = { p with value := v, state := .ok, unusable := 0, published := true }) ∧
    (∀ v b, p.take (.single v b) = { p with value := v, state := .degraded, unusable := 0, published := true }) ∧
    (p.unusable + 1 < 3 → p.take .unusable = { p with unusable := p.unusable + 1 }) ∧
    (3 ≤ p.unusable + 1 → p.take .unusable = { p with state := .fault, good := 0, unusable := 0 })) ∧
  (∀ (p : Pair) (c : Conversion), p.state = .fault → (∀ v, c ≠ .agree v) → p.take c = { p with good := 0 }) ∧
  ∀ (p : Pair) (vs : List Int), p.state = .fault → p.good = 0 →
    (vs.length < 50 → (vs.map Conversion.agree).foldl (fun x c => Pair.take c x) p = { p with good := vs.length }) ∧
    ∀ last, vs.length = 49 →
      ((vs ++ [last]).map Conversion.agree).foldl (fun x c => Pair.take c x) p =
        { p with value := last, state := .ok, good := 0, published := true }) ∧
  ((∀ x : Single, x.fault = false →
    (∀ v, x.take (some v) = { x with value := v, invalid := 0 }) ∧
    (x.invalid + 1 < 3 → x.take none = { x with invalid := x.invalid + 1 }) ∧
    (3 ≤ x.invalid + 1 → x.take none = { x with fault := true, invalid := 0, good := 0 })) ∧
  (∀ x : Single, x.fault = true → x.take none = { x with good := 0 }) ∧
  ∀ (x : Single) (vs : List Int), x.fault = true → x.good = 0 →
    (vs.length < 50 → (vs.map some).foldl (fun y v => Single.take v y) x = { x with good := vs.length }) ∧
    ∀ last, vs.length = 49 →
      ((vs ++ [last]).map some).foldl (fun y v => Single.take v y) x = { x with value := last, fault := false, good := 0 })

/-- A SCAN ROUND: S0 to S5 in every round, S6 to S26 in the rounds whose number is a multiple of five, published
together (R2, R3); a height entry that enters FAULT excludes its circuit (R103), and without one neither the kneel
unit nor the doors change. -/
def Obligations.ScanRoundPublishes : Prop :=
  ∀ (s : State) (raw : ScanResults), s.hub.sensing.scanTimer.due scanPeriod = true →
    let h := s.hub
    let u := h.sensing
    let pair (entry : Nat) (limit tolerance : Int) (x : RawPair) : Conversion :=
      classify tolerance (convert (h.zeroSpan entry) (-limit) limit x.a) (convert (h.zeroSpan (entry + 1)) (-limit) limit x.b)
    let single (entry : Nat) (lo hi : Int) (x : Raw) (y : Single) : Single :=
      if u.rounds % 5 = 0 then y.take (convert (h.zeroSpan entry) lo hi x) else y
    ∃ t, exec (.scanRound raw) s = .next t ∧ t.pending = s.pending ∧
      t.hub.sensing = { u with
        steer := u.steer.take (pair 0 4500 150 raw.steer)
        joints := ⟨u.joints.j1.take (pair 2 5500 200 raw.joints.j1), u.joints.j2.take (pair 4 5500 200 raw.joints.j2)⟩
        heights := .tab fun c => single (5 + c.num) (-150) 150 (raw.heights.get c) (u.heights.get c)
        bellows := .tab fun c => single (13 + c.num) 0 1000 (raw.bellows.get c) (u.bellows.get c)
        reservoir := single 22 0 1300 raw.reservoir u.reservoir
        brakes := .tab fun k => single (22 + k.num) 0 1000 (raw.brakes.get k) (u.brakes.get k)
        rounds := u.rounds + 1
        scanTimer := .running 0 } ∧
      t.hub.clock = h.clock ∧ t.hub.pins = h.pins ∧ t.hub.path = h.path ∧ t.hub.steering = h.steering ∧
      t.hub.joints = h.joints ∧ t.hub.ports = h.ports ∧ t.hub.access = h.access ∧ t.hub.store = h.store ∧
      t.hub.freeCount = h.freeCount ∧ t.hub.doors = { h.doors with permit := t.hub.doors.permit } ∧
      t.hub.brake = { h.brake with axles := t.hub.brake.axles } ∧
      t.hub.link = { h.link with valves := t.hub.link.valves, lines := t.hub.link.lines } ∧
      ((∀ c, (t.hub.sensing.heights.get c).fault = true → (u.heights.get c).fault = true) →
        t.hub.kneel = h.kneel ∧ t.hub.doors = h.doors ∧ t.hub.link.lines = h.link.lines) ∧
      (h.level.Inv → ∀ c, (u.heights.get c).fault = false → (t.hub.sensing.heights.get c).fault = true →
        (t.hub.circuit c).action = .excluded ∧ (t.hub.circuit c).causes.height = true)

/-- What else a scan round brings. SENSOR_FAULT, and raised for nothing else: a pair that enters DEGRADED from OK, with
the entry that was invalid, a pair that enters FAULT, with its first entry, and a single entry that enters FAULT, with
its own, in ascending order of entries within a group (R10). A height entry that leaves FAULT has its ring emptied and
its cause cleared (R91, R103). The air cut, judged where S22 is published: it begins, LIFTED, where the entry enters
FAULT or the value lies below Pres_cut, with AIR_LOW 2 or 1, every slot freed and its circuit back in the queue at the
head of its class, the earliest granted first (R99); IN FORCE, it lifts at a value of at least Pres_min and grants up to
three slots (R100), takes the cause SENSOR with AIR_LOW 2 where the entry enters FAULT, and below Pres_min the cause
LOW_PRESSURE after START, with AIR_LOW 3, and after a FAULT, with none (R99, R100); else cut and cause stand, with no
event. Model's choice: the order of SENSOR_FAULT across the groups (log entry 13), that the cause stands when the cut
lifts, and that grants are ordered by their age modulo 65,536 (log entry 14). -/
def Obligations.SensorFaultsAndAirCut : Prop :=
  ∀ (s : State) (raw : ScanResults), s.hub.sensing.scanTimer.due scanPeriod = true → s.hub.level.Inv →
    let h := s.hub
    let old := h.sensing
    ∃ t, exec (.scanRound raw) s = .next t ∧ t.pending = s.pending ∧
      let new := t.hub.sensing
      (let pair (subject entry limit : Int) (x : RawPair) (a b : Pair) : List (Nat × Int) :=
        if a.state = .ok ∧ b.state = .degraded then
          [(subject.toNat, if convert (h.zeroSpan entry.toNat) (-limit) limit x.a = none then entry else entry + 1)]
        else if a.state ≠ .fault ∧ b.state = .fault then [(subject.toNat, entry)]
        else []
       let single (subject : Nat) (entry : Int) (a b : Single) : List (Nat × Int) :=
        if a.fault = false ∧ b.fault = true then [(subject, entry)] else []
       h.Raises t.hub .sensorFault
        (pair 1 0 4500 raw.steer old.steer new.steer ++ pair 2 2 5500 raw.joints.j1 old.joints.j1 new.joints.j1
          ++ pair 3 4 5500 raw.joints.j2 old.joints.j2 new.joints.j2
          ++ (Circuit.all.flatMap fun c => single 4 (5 + c.num) (old.heights.get c) (new.heights.get c))
          ++ (Circuit.all.flatMap fun c => single 5 (13 + c.num) (old.bellows.get c) (new.bellows.get c))
          ++ single 7 22 old.reservoir new.reservoir
          ++ Axle.all.flatMap fun k => single 6 (22 + k.num) (old.brakes.get k) (new.brakes.get k))) ∧
      (∀ c, (old.heights.get c).fault = true → (new.heights.get c).fault = false →
        (t.hub.circuit c).ring = [] ∧ (t.hub.circuit c).height = none ∧ (t.hub.circuit c).error = none ∧
          (t.hub.circuit c).causes.height = false) ∧
      let u := h.level
      let v := t.hub.level
      let judged := old.rounds % 5 = 0
      let was := old.reservoir.fault
      let now := new.reservoir.fault
      let value := new.reservoir.value
      let starts := judged ∧ u.cut = false ∧ ((was = false ∧ now = true) ∨ (now = false ∧ value < h.presCut))
      let lifts := judged ∧ u.cut = true ∧ now = false ∧ h.presMin ≤ value
      let sensor := judged ∧ u.cut = true ∧ was = false ∧ now = true ∧ u.cutCause ≠ .sensor
      let low := judged ∧ u.cut = true ∧ now = false ∧ value < h.presMin ∧ u.cutCause = .start
      let recovered := judged ∧ u.cut = true ∧ now = false ∧ value < h.presMin ∧ u.cutCause ≠ .start ∧ was = true
      (starts → v.cut = true ∧ v.cutCause = (if now then .sensor else .lowPressure) ∧
        h.Raises t.hub .airLow [(0, if now then 2 else 1)] ∧
        (∀ i, v.slots.get i = none) ∧
        ((∀ c, (new.heights.get c).fault = true → (old.heights.get c).fault = true) →
          ∃ held : List HeldSlot, (∀ x, x ∈ held ↔ ∃ i, u.slots.get i = some x) ∧
            held.Pairwise (fun x y => u.grants - y.grant ≤ u.grants - x.grant) ∧
            ∀ n, v.queue.filter (fun e => e.cls == n) =
              ((held.filter fun x => x.cls == n).map fun x => ⟨x.circuit, x.cls⟩)
                ++ u.queue.filter fun e => e.cls == n)) ∧
      (lifts → v.cut = false ∧ v.cutCause = u.cutCause ∧ h.Raises t.hub .airLow [] ∧
        ((∀ c, (new.heights.get c).fault = true → (old.heights.get c).fault = true) →
          v.queue = u.queue.drop 3 ∧ ∀ e ∈ u.queue.take 3, (t.hub.circuit e.circuit).action = .fill)) ∧
      (sensor → v.cut = true ∧ v.cutCause = .sensor ∧ h.Raises t.hub .airLow [(0, 2)]) ∧
      (low → v.cut = true ∧ v.cutCause = .lowPressure ∧ h.Raises t.hub .airLow [(0, 3)]) ∧
      (recovered → v.cut = true ∧ v.cutCause = .lowPressure ∧ h.Raises t.hub .airLow []) ∧
      (¬starts → ¬lifts → ¬sensor → ¬low → ¬recovered →
        v.cut = u.cut ∧ v.cutCause = u.cutCause ∧ h.Raises t.hub .airLow [])

/-- A WHEEL PULSE after the load: travel, bucket, quiet timer, distance, direction, the path memory, and standstill
FALSE at 500 tenths (R11, R12, R14 to R16, R21, R24). A pulse that leaves standstill as it is changes nothing more but
for the PATH event of an underrun (R25); one that takes it from UNSETTLED raises its STANDSTILL event beside that, and
otherwise at most judges the axles' activities anew, with nothing to judge (R17, R78); one that takes it from TRUE stops
a kneel (R116) and handles every enabled door's release (R130). -/
def Obligations.WheelPulseCounted : Prop :=
  ∀ (s : State) (input : WheelInput) (dir : Direction), s.hub.clock.loaded = true →
    let u := s.hub.sensing
    let wp := s.hub.wp
    let path := s.hub.path
    ∃ t, exec (.wheelPulse input dir) s = .next t ∧ t.pending = s.pending ∧
      t.hub.sensing = { u with
        travel := match dir with
          | .forward => u.travel + BitVec.ofNat 32 wp
          | .reverse => u.travel - BitVec.ofNat 32 wp
        buckets := { u.buckets with current := u.buckets.current + wp }
        quiet := .running 0
        distance := min 500 (u.distance + wp)
        direction := dir
        standstill := if 500 ≤ u.distance + wp then .no else u.standstill } ∧
      t.hub.pins = { s.hub.pins with dir := dir } ∧
      t.hub.path = (match dir with
        | .forward => path.forward (if u.steer.state = .fault then none else some u.steer.value) wp
        | .reverse => (path.backward wp).1) ∧
      t.hub.clock = s.hub.clock ∧ t.hub.steering = s.hub.steering ∧ t.hub.joints = s.hub.joints ∧
      t.hub.ports = s.hub.ports ∧ t.hub.access = s.hub.access ∧ t.hub.store = s.hub.store ∧
      t.hub.freeCount = s.hub.freeCount ∧
      (u.distance + wp < 500 ∨ u.standstill = .no →
        t.hub.kneel = s.hub.kneel ∧ t.hub.level = s.hub.level ∧ t.hub.brake = s.hub.brake ∧ t.hub.link = s.hub.link ∧
        t.hub.doors = s.hub.doors ∧
        t.hub.events =
          if dir = .reverse ∧ (path.backward wp).2 ≠ 0 then
            s.hub.eventsAfter .path 0 (BitVec.ofNat 16 (path.backward wp).2)
          else s.hub.events) ∧
      (500 ≤ u.distance + wp → u.standstill = .unsettled →
        t.hub.kneel = s.hub.kneel ∧ t.hub.level = s.hub.level ∧ t.hub.link = s.hub.link ∧ t.hub.doors = s.hub.doors ∧
        t.hub.brake = { s.hub.brake with axles := t.hub.brake.axles } ∧
        (∀ k, t.hub.axleBrake k = { s.hub.axleBrake k with
          activity := match (s.hub.axleBrake k).activity with
            | .on => .after 500
            | x => x }) ∧
        t.hub.events.routing = s.hub.events.routing ∧
        s.hub.Raises t.hub .path
          (if dir = .reverse ∧ (path.backward wp).2 ≠ 0 then [(0, (path.backward wp).2)] else []) ∧
        s.hub.Raises t.hub .standstill [(0, 2)] ∧
        ∀ kind, kind ≠ .path → kind ≠ .standstill → s.hub.Raises t.hub kind []) ∧
      (500 ≤ u.distance + wp → u.standstill = .yes →
        t.hub.brake.halt = s.hub.brake.halt ∧
        t.hub.kneel.state = (match s.hub.kneel.state with
          | .ride => .ride
          | _ => .stopped) ∧
        ∀ d, t.hub.door d =
          (if (s.hub.door d).enabled = false ∨ (s.hub.door d).release = .withdrawn then s.hub.door d
           else if (s.hub.door d).mark = true then { s.hub.door d with release := .waiting }
           else { s.hub.door d with release := .withdrawn }))

/-- Who writes the travel counter and the published direction: a counted pulse adds its signed increment, modulo 2^32,
and sets the direction; a speed expiry sets the direction to the DIR line; every reset sets 0 and FORWARD; no other
command changes either (R12, R13). -/
def Obligations.TravelAndDirection : Prop :=
  ∀ (s t : State) (c : Instr), exec c s = .next t →
    (t.hub.sensing.travel, t.hub.sensing.direction) =
      if resetsPart s.hub c then (0, .forward)
      else
        match c with
        | .wheelPulse _ dir =>
          if s.hub.clock.loaded then
            (match dir with
              | .forward => s.hub.sensing.travel + BitVec.ofNat 32 s.hub.wp
              | .reverse => s.hub.sensing.travel - BitVec.ofNat 32 s.hub.wp, dir)
          else (s.hub.sensing.travel, s.hub.sensing.direction)
        | .speedTimerExpiry dir =>
          (s.hub.sensing.travel, if s.hub.sensing.speedTimer.due speedPeriod then dir else s.hub.sensing.direction)
        | _ => (s.hub.sensing.travel, s.hub.sensing.direction)

/-- Standstill changes only at a reset, to UNSETTLED; at an expiry of the quiet timer, to TRUE; and at a counted pulse
that brings the distance to 500 tenths, to FALSE (R15, R16). But for a reset, each change raises one STANDSTILL event
with the new value, 1 for TRUE and 2 for FALSE, and no command that leaves standstill raises one (R17). -/
def Obligations.StandstillChanges : Prop :=
  (∀ (s t : State) (c : Instr), exec c s = .next t → resetsPart s.hub c = false → (∀ q code, c ≠ .take q code) →
    s.hub.Raises t.hub .standstill
      (if t.hub.sensing.standstill = s.hub.sensing.standstill then []
       else [(0, if t.hub.sensing.standstill = .yes then 1 else 2)])) ∧
  ∀ (s t : State) (c : Instr), exec c s = .next t → t.hub.sensing.standstill ≠ s.hub.sensing.standstill →
    (resetsPart s.hub c = true ∧ t.hub.sensing.standstill = .unsettled) ∨
    (c = .quietTimerExpiry ∧ s.hub.sensing.quiet.due quietTime = true ∧ t.hub.sensing.standstill = .yes) ∨
    (∃ input dir, c = .wheelPulse input dir ∧ s.hub.clock.loaded = true ∧
      500 ≤ s.hub.sensing.distance + s.hub.wp ∧ t.hub.sensing.standstill = .no)

/-- An expiry of the speed timer closes the bucket and publishes the sum of the five newest, at most 25,000 (R13,
R14); a handle waiting at speed is then judged at that speed (R132): its door's mark is set, a WITHDRAWN release becomes
GRANTED where standstill is TRUE under an APPLIED halt brake and WAITING otherwise, any other is unchanged (R131), and
DOOR_EMERGENCY is raised for it with value 1. An expiry of the quiet timer makes standstill
TRUE with distance 0 (R15); a change grants the waiting releases under an APPLIED halt brake (R129) and applies the
halt brake where an enabled door is not CLOSED_LOCKED (R134). -/
def Obligations.SpeedAndQuietExpiries : Prop :=
  (∀ (s : State) (dir : Direction), s.hub.sensing.speedTimer.due speedPeriod = true →
    let b := s.hub.sensing.buckets
    let speed := min 25000 (b.current + b.b1 + b.b2 + b.b3 + b.b4)
    ∃ t, exec (.speedTimerExpiry dir) s = .next t ∧ t.pending = s.pending ∧
      t.hub.sensing = { s.hub.sensing with
        buckets := ⟨0, b.current, b.b1, b.b2, b.b3, b.b4⟩, speed := speed, direction := dir, speedTimer := .running 0 } ∧
      t.hub.pins = { s.hub.pins with dir := dir } ∧ t.hub.clock = s.hub.clock ∧ t.hub.path = s.hub.path ∧
      t.hub.steering = s.hub.steering ∧ t.hub.joints = s.hub.joints ∧ t.hub.ports = s.hub.ports ∧
      t.hub.access = s.hub.access ∧ t.hub.store = s.hub.store ∧ t.hub.freeCount = s.hub.freeCount ∧
      ((∀ d, (s.hub.door d).atSpeed = false) ∨ s.hub.vEmerg < speed →
        t.hub.kneel = s.hub.kneel ∧ t.hub.level = s.hub.level ∧ t.hub.brake = s.hub.brake ∧ t.hub.link = s.hub.link ∧
        t.hub.doors = s.hub.doors ∧ t.hub.events = s.hub.events) ∧
      t.hub.kneel = s.hub.kneel ∧ t.hub.level = s.hub.level ∧
      t.hub.brake = (if t.hub.brake.halt = s.hub.brake.halt then s.hub.brake
        else { s.hub.brake with halt := .applying, applying := .running 0, haltFault := false }) ∧
      (∀ d, (s.hub.door d).atSpeed = false → t.hub.door d = s.hub.door d) ∧
      (speed ≤ s.hub.vEmerg → ∀ d, (s.hub.door d).atSpeed = true →
        t.hub.door d = { s.hub.door d with
          atSpeed := false, mark := true
          release := match (s.hub.door d).release with
            | .withdrawn =>
              if s.hub.sensing.standstill = .yes ∧ s.hub.brake.halt = .applied then .granted else .waiting
            | x => x } ∧
        t.hub.brake.halt ≠ .released) ∧
      s.hub.Raises t.hub .doorEmergency
        ((Door.all.filter fun d => (s.hub.door d).atSpeed && decide ((speed : Int) ≤ s.hub.vEmerg)).map fun d =>
          (d.num, 1))) ∧
  ∀ s : State, s.hub.sensing.quiet.due quietTime = true →
    ∃ t, exec .quietTimerExpiry s = .next t ∧ t.pending = s.pending ∧
      t.hub.sensing = { s.hub.sensing with quiet := .stopped, distance := 0, standstill := .yes } ∧
      t.hub.clock = s.hub.clock ∧ t.hub.pins = s.hub.pins ∧ t.hub.path = s.hub.path ∧
      t.hub.steering = s.hub.steering ∧ t.hub.joints = s.hub.joints ∧ t.hub.ports = s.hub.ports ∧
      t.hub.access = s.hub.access ∧ t.hub.store = s.hub.store ∧ t.hub.freeCount = s.hub.freeCount ∧
      (s.hub.sensing.standstill = .yes →
        t.hub.kneel = s.hub.kneel ∧ t.hub.level = s.hub.level ∧ t.hub.brake = s.hub.brake ∧ t.hub.link = s.hub.link ∧
        t.hub.doors = s.hub.doors ∧ t.hub.events = s.hub.events) ∧
      t.hub.kneel = s.hub.kneel ∧ t.hub.level = s.hub.level ∧
      (s.hub.sensing.standstill ≠ .yes →
        (∀ d, t.hub.door d =
          if s.hub.brake.halt = .applied ∧ (s.hub.door d).release = .waiting then
            { s.hub.door d with release := .granted }
          else s.hub.door d) ∧
        (s.hub.doorsLocked = false → t.hub.brake.halt ≠ .released) ∧
        (s.hub.brake.halt ≠ .released ∨ s.hub.doorsLocked = true → t.hub.brake.halt = s.hub.brake.halt))

/-! ## Path memory -/

/-- Forward travel pushes one sample for each full 1,000 tenths, all with the same angle and with rising indices, and
keeps the newest 256 (R20 to R22); the same travel backward takes them away again and leaves the memory as it was, so
long as nothing was discarded (R24). Reverse travel: r falls by the increment, and each sample passed over is popped;
where the samples do not reach, the memory is empty with r 0, the underrun flag set and the rest discarded (R24, R25). The index
of a push after an underrun follows R20 (log entry 37). -/
def Obligations.TravelMovesThePath : Prop :=
  (∀ (p : PathMemory) (angle : Option Int) (w : Nat), p.Inv →
    let n := (p.r + w) / 1000
    let pushed : List Sample := (List.range n).map fun i => ⟨p.pushCount + BitVec.ofNat 32 (n - i), angle⟩
    (p.forward angle w).samples = (pushed ++ p.samples).take 256 ∧
    (p.forward angle w).r = (p.r + w) % 1000 ∧ (p.forward angle w).pushCount = p.pushCount + BitVec.ofNat 32 n ∧
    (p.forward angle w).underrun = p.underrun ∧
    (p.samples.length + n ≤ 256 → (p.forward angle w).backward w = (p, 0))) ∧
  (∀ (p : PathMemory) (w : Nat), p.Inv →
    let n := (w - p.r + 999) / 1000
    let after := p.backward w
    (n ≤ p.samples.length →
      after.1.samples = p.samples.drop n ∧ after.1.r = p.r + 1000 * n - w ∧
      after.1.pushCount = p.pushCount - BitVec.ofNat 32 n ∧ after.1.underrun = p.underrun ∧ after.2 = 0) ∧
    (p.samples.length < n →
      after.1.samples = [] ∧ after.1.r = 0 ∧
      after.1.pushCount = p.pushCount - BitVec.ofNat 32 p.samples.length ∧ after.1.underrun = true ∧
      after.2 = w - p.r - 1000 * p.samples.length ∧ 0 < after.2))

/-- The lag lookup is available exactly where the two samples at the lag are held and carry angles; its answer is
R27's interpolation, between the two angles, both included, and the first of them where the fraction is 0 (R27, R28).
-/
def Obligations.LagLookup : Prop :=
  ∀ (p : PathMemory) (lag : Int), p.r ≤ 999 → 1000 ≤ lag →
    let back : Int := 10 * lag - p.r
    let i := (back / 1000).toNat
    let f := back % 1000
    (p.lookup lag ≠ none ↔ i + 2 ≤ p.samples.length ∧
      (∃ x a, p.samples[i]? = some x ∧ x.angle = some a) ∧ ∃ x a, p.samples[i + 1]? = some x ∧ x.angle = some a) ∧
    ∀ x y a b, p.samples[i]? = some x → p.samples[i + 1]? = some y → x.angle = some a → y.angle = some b →
      ∃ v, p.lookup lag = some v ∧ v = a + ((b - a) * f).tdiv 1000 ∧ min a b ≤ v ∧ v ≤ max a b ∧ (f = 0 → v = a)

/-! ## Trailing-axle steering -/

/-- A steering period, axle by axle: initialisation (R50), the tracking check (R46), the mode of R36, the laws of R40 to
R42, the fade of R43, the clamp and the rate limit (R44, R45), HELD and CENTRING (R38, R39), FAILED (R47). The two
lookups are independent: an increment taken between them is seen by A4's and not by A3's (R29, R34), and a copy of the
STEER record taken between the two axles' work shows A4 and the period count as they were before it (R54). Model's
choice (log entry 4): such increments and copies are those of the wheel pulses and FETCHes of STEER that wait directly
behind the expiry, as many of these as a free value says; the rest of a pulse's work and the answer of a FETCH come at
their own steps, for which the state keeps what the copies are to show. -/
def Obligations.SteeringPeriod : Prop :=
  ∀ s : State, s.hub.steering.timer.due steeringPeriod = true →
    let h := s.hub
    ∃ t, exec .steeringTimerExpiry s = .next t ∧ t.pending = s.pending ∧
      t.hub = { h with
        steering := t.hub.steering, link := { h.link with actuators := t.hub.link.actuators }
        freeCount := h.freeCount + 1 } ∧
      t.hub.steering.periods = h.steering.periods + 1 ∧ t.hub.steering.timer = .running 0 ∧
      t.hub.steering.midway =
        (if s.between.copies = 0 then none else some ⟨s.between.copies, h.axleSteer .a4, h.steering.periods⟩) ∧
      ∀ x : Trailing,
        let a := h.axleSteer x
        let b := t.hub.axleSteer x
        let pair := h.sensing.joints.get x.joint
        let sp := a.setpoint.getD 0
        let far := decide (300 < (sp - a.measured.getD 0).natAbs)
        let lookup := (match x with
          | .a3 => h.path
          | .a4 => h.pathAfter s.between.pulses).lookup (h.lag x)
        let mode : SteerMode :=
          if h.brake.halt ≠ .released then .held
          else if pair.state = .fault then .centring
          else if h.sensing.direction = .reverse ∧ h.sensing.standstill ≠ .yes then .reverse
          else if lookup.isSome then .follow
          else .short
        let law : Int :=
          match mode with
          | .follow => (pair.value * h.gainK x - lookup.getD 0 * h.gainG x).tdiv 1024
          | .reverse => (pair.value * h.gainRev x).tdiv 1024
          | _ => (pair.value * h.gainK x).tdiv 1024
        let v : Int := h.sensing.speed
        let fade : Int :=
          if v ≤ h.vlo then 1024 else if h.vhi ≤ v then 0 else ((h.vhi - v) * 1024).tdiv (h.vhi - h.vlo)
        let move (w : Int) : Int :=
          sp + clampTo (-h.rateMax x) (h.rateMax x) (clampTo (-h.angleMax x) (h.angleMax x) w - sp)
        (a.mode = some .failed → b = a) ∧
        (a.mode ≠ some .failed → a.initialised = false → a.measured = none → b = a) ∧
        (a.mode ≠ some .failed → a.initialised = false → ∀ m, a.measured = some m →
          b = { a with
            initialised := true, enable := true, tracking := .stopped, mode := some mode
            setpoint := some (clampTo (-h.angleMax x) (h.angleMax x) m)
            lookup := if mode = .follow then lookup else none }) ∧
        (a.mode ≠ some .failed → a.initialised = true → far = true → (∃ n, a.tracking = .running n ∧ 490 ≤ n) →
          b = { a with mode := some .failed, cause := some .tracking, enable := false, tracking := .running 500 }) ∧
        (a.mode ≠ some .failed → a.initialised = true → (far = false ∨ ∀ n, a.tracking = .running n → n < 490) →
          let tracking : Count :=
            if far = false then .stopped
            else match a.tracking with
              | .stopped => .running 0
              | .running n => .running (n + 10)
          b = match mode with
            | .held => { a with tracking := tracking, mode := some .held, lookup := none, law := none, fade := none }
            | .centring => { a with
                tracking := tracking, mode := some .centring, setpoint := some (move 0), lookup := none, law := none
                fade := none }
            | _ => { a with
                tracking := tracking, mode := some mode, setpoint := some (move ((law * fade.toNat).tdiv 1024))
                lookup := if mode = .follow then lookup else none, law := some law, fade := some fade.toNat })

/-- Apart from resets and the clamp of an installing APPLY, an initialised axle's setpoint changes at a steering
expiry alone, by at most the axle's rate limit, and while the halt brake is not RELEASED not at all (R38, R45). An
axle that has FAILED keeps its mode, its first cause and its disabled actuator until a reset (R37, R47). -/
def Obligations.SetpointMovesAndFailedStays : Prop :=
  (∀ (s t : State) (c : Instr) (x : Trailing) (a : Int), exec c s = .next t → resetsPart s.hub c = false →
    (∀ depot, c ≠ .applyCompletion depot) → 0 ≤ s.hub.rateMax x → (s.hub.axleSteer x).initialised = true →
    (s.hub.axleSteer x).setpoint = some a →
    ∃ b, (t.hub.axleSteer x).setpoint = some b ∧ b - a ≤ s.hub.rateMax x ∧ a - b ≤ s.hub.rateMax x ∧
      (c ≠ .steeringTimerExpiry → b = a) ∧ (s.hub.brake.halt ≠ .released → b = a)) ∧
  (∀ (s t : State) (c : Instr) (x : Trailing), exec c s = .next t → resetsPart s.hub c = false →
    (s.hub.axleSteer x).mode = some .failed →
    (t.hub.axleSteer x).mode = some .failed ∧ (t.hub.axleSteer x).cause = (s.hub.axleSteer x).cause ∧
      (t.hub.axleSteer x).enable = (s.hub.axleSteer x).enable)

/-! ## Joint stabilization -/

/-- A joint period: rate and growth (R56), states (R57 to R60), damping (R61, R62), stretch requests (R63), the torque
cut (R64) and its line (R145), and one event per change of state (R65). -/
def Obligations.JointPeriod : Prop :=
  ∀ s : State, s.hub.joints.timer.due jointPeriod = true →
    let h := s.hub
    let speed := h.sensing.speed
    ∃ t, exec .jointTimerExpiry s = .next t ∧ t.pending = s.pending ∧
      t.hub = { h with joints := t.hub.joints, events := t.hub.events, link := t.hub.link } ∧
      t.hub.joints.periods = h.joints.periods + 1 ∧ t.hub.joints.timer = .running 0 ∧
      (∀ j : Joint,
        let x := h.joints.joints.get j
        let y := t.hub.joints.joints.get j
        let pair := h.sensing.joints.get j
        let phi : Int := pair.value.natAbs
        let fast := y.growing = true ∧ h.vStretch ≤ (speed : Int)
        (pair.state = .fault →
          y.state = .sensorLost ∧ y.omega = 0 ∧ y.growing = false ∧ y.hold = .stopped ∧ y.phiPrev = x.phiPrev ∧
          y.table = x.table ∧ y.damping = 15 ∧ y.stretch = 0) ∧
        (pair.state ≠ .fault → x.state = .sensorLost →
          y.state = .free ∧ y.phi = pair.value ∧ y.phiPrev = some pair.value ∧ y.omega = 0 ∧ y.growing = false) ∧
        (pair.state ≠ .fault → x.state ≠ .sensorLost →
          y.phi = pair.value ∧
          (∀ before, x.phiPrev = some before → y.omega = (pair.value - before) * 100 ∧ y.phiPrev = some pair.value) ∧
          (x.phiPrev = none → y.omega = 0 ∧ y.phiPrev = if pair.published then some pair.value else none) ∧
          (y.growing = true ↔ x.phiPrev ≠ none ∧ 0 < pair.value * y.omega ∧ h.omegaWarn ≤ y.omega.natAbs) ∧
          (h.phiLimit ≤ phi → y.state = .limit ∧ y.hold = .stopped) ∧
          (phi < h.phiLimit →
            (x.state = .free → y.state = if h.phiWarn ≤ phi then .watch else .free) ∧
            (x.state = .watch → (phi < h.phiWarn - 200 → y.state = .free) ∧
              (h.phiWarn - 200 ≤ phi → fast → y.state = .stretch ∧ y.hold = .running 0) ∧
              (h.phiWarn - 200 ≤ phi → ¬fast → y.state = .watch)) ∧
            (x.state = .limit → (h.phiLimit - 300 ≤ phi → y.state = .limit) ∧
              (phi < h.phiLimit - 300 → fast → y.state = .stretch ∧ y.hold = .running 0) ∧
              (phi < h.phiLimit - 300 → ¬fast → y.state = .watch)) ∧
            ∀ n, x.state = .stretch → x.hold = .running n →
              (n + 10 < 300 ∨ fast → y.state = .stretch ∧ y.hold = .running (min 300 (n + 10))) ∧
              (300 ≤ n + 10 → ¬fast → y.hold = .stopped ∧
                y.state = if h.phiWarn - 200 ≤ phi then .watch else .free))) ∧
        (y.state ≠ .sensorLost →
          let table := h.dampingEntry y.speedBand y.angleBand
          let boosted := if y.growing then min 15 (table + 4) else table
          y.table = table ∧
          y.speedBand = ([1000, 2500, 4000, 6000, 8000, 11000, 14000].filter fun e => e ≤ speed).length ∧
          y.angleBand = ([500, 1000, 1500, 2000, 3000, 4000, 5000].filter fun e => (e : Int) ≤ phi).length ∧
          y.damping = match y.state with
            | .stretch => max 12 boosted
            | .limit => 15
            | _ => boosted) ∧
        (t.hub.link.dampers.get j).image = y.damping ∧
        y.stretch = match y.state with
          | .stretch => h.pst j
          | .limit => if h.vStretch ≤ (speed : Int) then 2 * h.pst j else 0
          | _ => 0) ∧
      (let y1 := t.hub.joints.joints.j1
       let y2 := t.hub.joints.joints.j2
       t.hub.joints.requests = ⟨y1.stretch, y1.stretch + y2.stretch⟩ ∧
       (t.hub.joints.torqueCut = true ↔ h.brake.drive = .traction ∧
         (y1.state = .stretch ∨ y1.state = .limit ∨ y2.state = .stretch ∨ y2.state = .limit)) ∧
       (h.link.lines.torque = h.joints.torqueCut → t.hub.link.lines.torque = t.hub.joints.torqueCut) ∧
       let raised1 :=
         if y1.state = h.joints.joints.j1.state then h.events
         else h.eventsAfter .jointState 1 (BitVec.ofNat 16 y1.state.num)
       t.hub.events =
         if y2.state = h.joints.joints.j2.state then raised1
         else raised1.raise h.clock.ms .jointState 2 (BitVec.ofNat 16 y2.state.num))

/-! ## Braking -/

/-- A brake period's take: the posted buffers are emptied, the first demand in the order S, B, M is taken, the others
are superseded (R71, R72); without one the demand ages by 5 ms, FRESH to 100 ms, HOLDING below 300 ms, STALE from there,
and the period that brings the age to 300 ms, and no other, raises DEMAND_STALE with the last taken sequence (R73). The
halt confirmation (R84): APPLYING becomes APPLIED when every halt axle's brake pressure entry is OK with at least
Phalt_min, and the waiting releases are granted at standstill (R129); else the applying time grows, and the period that
brings it to 1,500 ms raises one HALT_FAULT, its value the first axle not confirmed. -/
def Obligations.BrakePeriodDemandAndHalt : Prop :=
  ∀ s : State, s.hub.brake.timer.due brakePeriod = true →
    let h := s.hub
    let posted (p : Port) := (h.port p).posted
    let confirmed (k : Axle) : Prop :=
      (h.sensing.brakes.get k).fault = false ∧ h.phaltMin ≤ (h.sensing.brakes.get k).value
    ∃ t, exec .brakeTimerExpiry s = .next t ∧ t.pending = s.pending ∧
      (∀ p, t.hub.port p = { h.port p with posted := none }) ∧
      (∀ p d, posted p = some d → (∀ p', storePriority p' < storePriority p → posted p' = none) →
        t.hub.brake.decel = min 7000 d.decel.toNat ∧
        t.hub.brake.drive = (if d.drive = 1 then .traction else if d.drive = 2 then .retard else .neutral) ∧
        t.hub.brake.lastSeq = some d.seq ∧ t.hub.brake.lastPort = some p ∧ t.hub.brake.age = .running 0 ∧
        t.hub.brake.status = .fresh ∧
        t.hub.brake.superseded =
          min 255 (h.brake.superseded + (Port.all.filter fun p' => p' != p && (posted p').isSome).length) ∧
        h.Raises t.hub .demandStale []) ∧
      ((∀ p, posted p = none) →
        t.hub.brake.decel = h.brake.decel ∧ t.hub.brake.drive = h.brake.drive ∧ t.hub.brake.lastSeq = h.brake.lastSeq ∧
        t.hub.brake.lastPort = h.brake.lastPort ∧ t.hub.brake.superseded = h.brake.superseded ∧
        (h.brake.age = .stopped →
          t.hub.brake.age = .stopped ∧ t.hub.brake.status = .none ∧ h.Raises t.hub .demandStale []) ∧
        ∀ n, h.brake.age = .running n →
          let age := if n < 300 then n + 5 else n
          t.hub.brake.age = .running age ∧
          t.hub.brake.status = (if age ≤ 100 then .fresh else if age < 300 then .holding else .stale) ∧
          (n < 300 → 300 ≤ n + 5 → ∀ seq, h.brake.lastSeq = some seq →
            h.Raises t.hub .demandStale [(0, seq.toNat)]) ∧
          (n + 5 < 300 ∨ 300 ≤ n → h.Raises t.hub .demandStale [])) ∧
      (h.brake.halt ≠ .applying → t.hub.brake.halt = h.brake.halt ∧ t.hub.brake.applying = h.brake.applying ∧
        t.hub.brake.haltFault = h.brake.haltFault ∧ h.Raises t.hub .haltFault [] ∧ h.Raises t.hub .haltState []) ∧
      (h.brake.halt = .applying → (∀ k, h.haltAxle k = true → confirmed k) →
        t.hub.brake.halt = .applied ∧ t.hub.brake.applying = .stopped ∧ h.Raises t.hub .haltFault [] ∧
        h.Raises t.hub .haltState [(0, 2)] ∧
        (∀ d, t.hub.door d =
          if h.sensing.standstill = .yes ∧ (h.door d).release = .waiting then { h.door d with release := .granted }
          else h.door d)) ∧
      ∀ n k, h.brake.halt = .applying → h.brake.applying = .running n → h.haltAxle k = true → ¬confirmed k →
        (∀ k', k'.num < k.num → h.haltAxle k' = true → confirmed k') →
        t.hub.brake.halt = .applying ∧ t.hub.brake.applying = .running (min 1500 (n + 5)) ∧ t.hub.doors = h.doors ∧
        h.Raises t.hub .haltState [] ∧
        (h.brake.haltFault = false → 1500 ≤ n + 5 →
          t.hub.brake.haltFault = true ∧ h.Raises t.hub .haltFault [(0, k.num)]) ∧
        (h.brake.haltFault = true ∨ n + 5 < 1500 →
          t.hub.brake.haltFault = h.brake.haltFault ∧ h.Raises t.hub .haltFault [])

/-- A brake period's commands: the mode of R74, the service pressure of R79 from the load of R75, R76 and R88, the
freezes of R77 and R78 with their after-times run down by 5 ms, the halt contribution and the stretch, at most Pmax, and
at least the smaller of Phalt and Pmax on a halt axle while the halt brake is not RELEASED (R80). Chain B's image
carries them; a changed drive state reaches the joint unit (R64); and nothing else changes, in the link, the other units
or the event queues, but through the take and the halt confirmation. Over all commands: the kneel freeze goes on when
the kneel state leaves RIDE and to an after-time of 2,000 ms when it enters RIDE (R77); an axle's activity freeze is on
exactly while standstill is TRUE and one of its circuits fills or vents, and goes to an after-time of 500 ms when that
ends (R78), also where it begins and ends within one scan round or completion; else only a brake period moves them. -/
def Obligations.BrakePeriodCommands : Prop :=
  (let active (h : Hub) (k : Axle) : Prop :=
    h.sensing.standstill = .yes ∧
      ∃ c, (c = k.left ∨ c = k.right) ∧ ((h.circuit c).action = .fill ∨ (h.circuit c).action = .vent)
   (∀ k, (State.reset.hub.axleBrake k).activity = .on ↔ active State.reset.hub k) ∧
   ∀ (s t : State) (c : Instr), exec c s = .next t → (∀ k, (s.hub.axleBrake k).activity = .on ↔ active s.hub k) →
    (∀ k, (t.hub.axleBrake k).activity = .on ↔ active t.hub k) ∧
    (resetsPart s.hub c = false →
      (s.hub.kneel.state = .ride → t.hub.kneel.state ≠ .ride → t.hub.brake.kneelFreeze = .on) ∧
      (s.hub.kneel.state ≠ .ride → t.hub.kneel.state = .ride → t.hub.brake.kneelFreeze = .after 2000) ∧
      (c ≠ .brakeTimerExpiry → (s.hub.kneel.state = .ride ↔ t.hub.kneel.state = .ride) →
        t.hub.brake.kneelFreeze = s.hub.brake.kneelFreeze) ∧
      ∀ k, (active s.hub k → ¬active t.hub k → (t.hub.axleBrake k).activity = .after 500) ∧
        (c ≠ .brakeTimerExpiry → ¬active s.hub k → ¬active t.hub k →
          (t.hub.axleBrake k).activity = (s.hub.axleBrake k).activity ∨
          ((t.hub.axleBrake k).activity = .after 500 ∧
            ((∃ raw, c = .scanRound raw) ∨ ∃ answers, c = .chainRefreshComplete answers))))) ∧
  ∀ s : State, s.hub.brake.timer.due brakePeriod = true →
    ∃ t, exec .brakeTimerExpiry s = .next t ∧ t.pending = s.pending ∧
      t.hub.brake.periods = s.hub.brake.periods + 1 ∧ t.hub.brake.timer = .running 0 ∧
      (let run (x : Freeze) : Freeze :=
        match x with
        | .off => .off
        | .on => .on
        | .after n => if n ≤ 5 then .off else .after (n - 5)
       t.hub.brake.kneelFreeze = run s.hub.brake.kneelFreeze ∧
       ∀ k, (t.hub.axleBrake k).activity = run (s.hub.axleBrake k).activity) ∧
      (∀ k : Axle,
        let a := t.hub.axleBrake k
        let before := s.hub.axleBrake k
        let bellows := s.hub.sensing.bellows
        let kneelFrozen := s.hub.brake.kneelFreeze = .on ∨ ∃ n, s.hub.brake.kneelFreeze = .after n ∧ 5 < n
        let active := before.activity = .on ∨ ∃ n, before.activity = .after n ∧ 5 < n
        let load (sum : Int) : Nat :=
          (clampTo 0 (s.hub.loadMax k) ((sum * s.hub.bellowsFactor k).tdiv 64 + s.hub.unsprung k)).toNat
        (a.mode = .electronic ↔ (t.hub.brake.status = .fresh ∨ t.hub.brake.status = .holding) ∧
          (s.hub.link.modulators.get k).fault = false ∧ s.hub.link.chainB.fault = false) ∧
        (kneelFrozen ∨ active → a.load = before.load ∧ a.source = before.source ∧ a.frozen = true) ∧
        (¬(kneelFrozen ∨ active) → a.frozen = false ∧
          a.source = (match (bellows.get k.left).fault, (bellows.get k.right).fault with
            | false, false => .bellows
            | true, true => .nominal
            | _, _ => .oneSide) ∧
          a.load = match (bellows.get k.left).fault, (bellows.get k.right).fault with
            | false, false => load ((bellows.get k.left).value + (bellows.get k.right).value)
            | true, false => load (2 * (bellows.get k.right).value)
            | false, true => load (2 * (bellows.get k.left).value)
            | true, true => (min (s.hub.loadNom k) (s.hub.loadMax k)).toNat) ∧
        (a.mode = .backup → a.service = 0) ∧
        (a.mode = .electronic → t.hub.brake.status = .fresh →
          a.service = ((((a.load : Int) * t.hub.brake.decel).tdiv 1000).tdiv (s.hub.brakeFactor k)).toNat) ∧
        (a.mode = .electronic → t.hub.brake.status = .holding → a.service = before.service) ∧
        a.halt = (if s.hub.haltAxle k = true ∧ t.hub.brake.halt ≠ .released then s.hub.phalt else 0) ∧
        a.stretch = (match k with
          | .a1 => 0
          | .a2 => 0
          | .a3 => s.hub.joints.requests.a3
          | .a4 => s.hub.joints.requests.a4) ∧
        a.command = min (s.hub.pmax k) (max a.service a.halt + a.stretch) ∧
        (t.hub.brake.halt ≠ .released → s.hub.haltAxle k = true → min s.hub.phalt (s.hub.pmax k) ≤ a.command) ∧
        t.hub.link.modulators.get k = { s.hub.link.modulators.get k with image := ⟨a.mode, a.command⟩ }) ∧
      t.hub.link = { s.hub.link with modulators := t.hub.link.modulators, lines := t.hub.link.lines } ∧
      t.hub.clock = s.hub.clock ∧ t.hub.pins = s.hub.pins ∧ t.hub.sensing = s.hub.sensing ∧ t.hub.path = s.hub.path ∧
      t.hub.steering = s.hub.steering ∧ t.hub.access = s.hub.access ∧ t.hub.store = s.hub.store ∧
      t.hub.freeCount = s.hub.freeCount ∧
      t.hub.level = s.hub.level ∧ t.hub.kneel = s.hub.kneel ∧
      (t.hub.brake.drive = s.hub.brake.drive →
        t.hub.joints = s.hub.joints ∧ t.hub.link.lines.torque = s.hub.link.lines.torque) ∧
      (t.hub.brake.drive ≠ s.hub.brake.drive →
        let cuts (x : JointState) : Bool := x == .stretch || x == .limit
        t.hub.joints = { s.hub.joints with
          driveSeen := t.hub.brake.drive
          torqueCut := (cuts s.hub.joints.joints.j1.state || cuts s.hub.joints.joints.j2.state)
            && t.hub.brake.drive == .traction } ∧
        (s.hub.link.lines.torque = s.hub.joints.torqueCut → t.hub.link.lines.torque = t.hub.joints.torqueCut)) ∧
      (s.hub.brake.halt ≠ .applying → t.hub.doors = s.hub.doors ∧
        t.hub.link.lines.release = s.hub.link.lines.release ∧ t.hub.link.lines.permit = s.hub.link.lines.permit) ∧
      t.hub.events.routing = s.hub.events.routing ∧
      (∀ kind, kind ∉ [.demandStale, .haltFault, .haltState, .doorRelease, .movePermit] → s.hub.Raises t.hub kind []) ∧
      (s.hub.brake.halt ≠ .applying → ∀ kind, kind ≠ .demandStale → s.hub.Raises t.hub kind [])

/-- HALT ON: APPLYING from RELEASED at a published speed of at most v_emerg, TOO_FAST above, DONE without a change
from APPLYING and APPLIED (R82); the applying time starts, the halt fault raised flag clears, HALT_STATE is raised and
the move permit falls. HALT OFF: DONE without a change in RELEASED; else RELEASED when every enabled door is
CLOSED_LOCKED, every release WITHDRAWN, no enabled door's handle active and the kneel state RIDE, and refused
INTERLOCK otherwise (R85); the move permit follows with its event (R136). Model's choice (log entry 27): HALT_STATE is
raised before MOVE_PERMIT. -/
def Obligations.HaltOrders : Prop :=
  (∀ (s : State) (q : Request), s.hub.admits q.port .demand = true →
    let done := s.hub.answered q 0x20#8 (.done [])
    (s.hub.brake.halt ≠ .released → exec (.haltOn q) s = .next { s with hub := done }) ∧
    (s.hub.brake.halt = .released → s.hub.vEmerg < s.hub.sensing.speed →
      exec (.haltOn q) s = .next { s with hub := s.hub.answered q 0x20#8 (.refused .tooFast []) }) ∧
    (s.hub.brake.halt = .released → s.hub.sensing.speed ≤ s.hub.vEmerg →
      let raised := s.hub.eventsAfter .haltState 0 1
      exec (.haltOn q) s = .next { s with
        hub := { done with
          brake := { s.hub.brake with halt := .applying, applying := .running 0, haltFault := false }
          doors := { s.hub.doors with permit := false }
          link := { s.hub.link with lines := { s.hub.link.lines with
            permit := if s.hub.doors.permit then false else s.hub.link.lines.permit } }
          events := if s.hub.doors.permit then raised.raise s.hub.clock.ms .movePermit 0 0 else raised } })) ∧
  (∀ (s : State) (q : Request), s.hub.admits q.port .demand = true →
    let done := s.hub.answered q 0x21#8 (.done [])
    let interlocks : Prop :=
      (∀ d, (s.hub.door d).enabled = true →
        (s.hub.door d).position = .closedLocked ∧ (s.hub.door d).debounced.handle = false) ∧
      (∀ d, (s.hub.door d).release = .withdrawn) ∧ s.hub.kneel.state = .ride
    (s.hub.brake.halt = .released → exec (.haltOff q) s = .next { s with hub := done }) ∧
    (s.hub.brake.halt ≠ .released → ¬interlocks →
      exec (.haltOff q) s = .next { s with hub := s.hub.answered q 0x21#8 (.refused .interlock []) }) ∧
    (s.hub.brake.halt ≠ .released → interlocks →
      let raised := s.hub.eventsAfter .haltState 0 0
      exec (.haltOff q) s = .next { s with
        hub := { done with
          brake := { s.hub.brake with halt := .released, applying := .stopped }
          doors := { s.hub.doors with permit := true }
          link := { s.hub.link with lines := { s.hub.link.lines with
            permit := if s.hub.doors.permit then s.hub.link.lines.permit else true } }
          events := if s.hub.doors.permit then raised else raised.raise s.hub.clock.ms .movePermit 0 1 } }))

/-- The halt brake's ways (R81): RELEASED to APPLYING by HALT ON or a request of the door unit, APPLYING to APPLIED at a
brake period, and back to RELEASED by HALT OFF or a reset alone. But for a reset, and TAKE, which removes entries: each
change of the halt state raises one HALT_STATE with the new state, 0 RELEASED, 1 APPLYING, 2 APPLIED (R86), each change
of the kneel state one KNEEL_STATE with the new state, 0 RIDE to 4 STOPPED (R118), and each change of the move permit
one MOVE_PERMIT, 1 when it becomes active and 0 when it becomes inactive (R136), and no command raises one otherwise.
Model's choice: at a loss of standstill the kneel unit acts before the door unit (log entry 9), so that no auto-raise
comes before a stop and one pulse raises one KNEEL_STATE; and the load forms the routing table before the doors, so its
MOVE_PERMIT goes by the new one (log entry 25). -/
def Obligations.HaltStateChanges : Prop :=
  (∀ (s t : State) (c : Instr), exec c s = .next t → resetsPart s.hub c = false → (∀ q code, c ≠ .take q code) →
    s.hub.Raises t.hub .haltState
      (if t.hub.brake.halt = s.hub.brake.halt then []
       else [(0, match t.hub.brake.halt with
        | .released => 0
        | .applying => 1
        | .applied => 2)]) ∧
    s.hub.Raises t.hub .kneelState
      (if t.hub.kneel.state = s.hub.kneel.state then []
       else [(0, match t.hub.kneel.state with
        | .ride => 0
        | .lowering => 1
        | .knelt => 2
        | .raising => 3
        | .stopped => 4)]) ∧
    (s.hub.DoorInv →
      let routed := { s.hub with events := { s.hub.events with routing := t.hub.events.routing } }
      routed.Raises t.hub .movePermit
        (if t.hub.doors.permit = s.hub.doors.permit then [] else [(0, if t.hub.doors.permit then 1 else 0)]))) ∧
  ∀ (s t : State) (c : Instr), exec c s = .next t → t.hub.brake.halt ≠ s.hub.brake.halt →
    (s.hub.brake.halt = .released ∧ t.hub.brake.halt = .applying ∧
      ((∃ q, c = .haltOn q) ∨ (∃ q, c = .release q) ∨ (∃ d i, c = .debounceTimerExpiry d i) ∨
        (∃ dir, c = .speedTimerExpiry dir) ∨ c = .quietTimerExpiry)) ∨
    (s.hub.brake.halt = .applying ∧ t.hub.brake.halt = .applied ∧ c = .brakeTimerExpiry) ∨
    (t.hub.brake.halt = .released ∧ (resetsPart s.hub c = true ∨ ∃ q, c = .haltOff q))

/-! ## Levelling and kneeling -/

/-- A levelling period (R90 to R97): each circuit's ring, height and error; a circuit that waits or fills and whose
error has come to minus half its band, and a venting one whose error has come to half its band, return to HOLD (R95) and
stand in it at the end of the period, beyond the band too (from FILL and FILL_WAIT the model's choice, log entry 12);
outside an inhibition, a circuit in HOLD that may start at once and lies outside its band acts, also while a kneel of
scope SIDE lowers or raises, unless it is on the door side and its section stands out of line in the sense of its
deviation; one whose pause ends at this period is such a circuit (R94, R101); the valves' commands and the handed errors
follow (R105); a kneel or a raise completes where every circuit in scope lies within its band (R113, R114), and at the
entry into RIDE the RAISE sources become RIDE (R92, R114). The fill queue after the stops and starts holds, class by
class, the entries that still wait, then the circuits whose slots reached 20,000 ms (R98; their slot order is the
model's choice, log entry 28), then those that start, in circuit order (R94, R96); from its head, unless the cut is IN
FORCE, one entry goes to each free slot, lowest first, with hold time 0 and the next grant number, and fills; every
other slot stays with its circuit, 50 ms on (R95, R97). -/
def Obligations.LevellingPeriod : Prop :=
  ∀ s : State, s.hub.level.timer.due levellingPeriod = true → s.hub.level.Inv →
    let h := s.hub
    ∃ t, exec .levellingTimerExpiry s = .next t ∧ t.pending = s.pending ∧
      t.hub.level.periods = h.level.periods + 1 ∧ t.hub.level.timer = .running 0 ∧
      t.hub.clock = h.clock ∧ t.hub.pins = h.pins ∧ t.hub.sensing = h.sensing ∧ t.hub.path = h.path ∧
      t.hub.steering = h.steering ∧ t.hub.joints = h.joints ∧ t.hub.ports = h.ports ∧ t.hub.access = h.access ∧
      t.hub.store = h.store ∧ t.hub.freeCount = h.freeCount ∧
      t.hub.doors = { h.doors with permit := t.hub.doors.permit } ∧
      t.hub.brake = { h.brake with kneelFreeze := t.hub.brake.kneelFreeze, axles := t.hub.brake.axles } ∧
      t.hub.link = { h.link with valves := t.hub.link.valves, lines := t.hub.link.lines } ∧
      (let within (band : Int) : Prop := ∀ c, h.inScope c = true →
        (t.hub.circuit c).action ≠ .excluded ∧ ∃ e, (t.hub.circuit c).error = some e ∧ -band ≤ e ∧ e ≤ band
       (h.kneel.state = .lowering →
         (within h.dbKneel → t.hub.kneel.state = .knelt ∧ t.hub.kneel.completions = h.kneel.completions + 1) ∧
         (¬within h.dbKneel → t.hub.kneel.state = .lowering ∧ t.hub.kneel.completions = h.kneel.completions)) ∧
       (h.kneel.state = .raising →
         (within h.dbRide → t.hub.kneel.state = .ride ∧ t.hub.kneel.completions = h.kneel.completions + 1) ∧
         (¬within h.dbRide → t.hub.kneel.state = .raising ∧ t.hub.kneel.completions = h.kneel.completions)) ∧
       (h.kneel.state ≠ .lowering → h.kneel.state ≠ .raising →
         t.hub.kneel.state = h.kneel.state ∧ t.hub.doors = h.doors)) ∧
      let gap (a b : Option Int) : Bool :=
        match a, b with
        | some m, some n => decide (h.hmis < n - m)
        | _, _ => false
      let near (c : Circuit) : List (Option Int) × Option Int :=
        match c with
        | .c1 | .c2 | .c3 | .c4 => ([t.hub.level.middle], t.hub.level.front)
        | .c5 | .c6 => ([t.hub.level.front, t.hub.level.rear], t.hub.level.middle)
        | .c7 | .c8 => ([t.hub.level.middle], t.hub.level.rear)
      (∀ c : Circuit,
        let x := h.circuit c
        let y := t.hub.circuit c
        let entry := h.sensing.heights.get c
        let band := if x.source = .kneel then h.dbKneel else h.dbRide
        let mismatch := h.scopeSide = true ∧ (h.kneel.state = .lowering ∨ h.kneel.state = .raising)
        let lower := mismatch ∧ ∃ z ∈ (near c).1, gap (near c).2 z = true
        let higher := mismatch ∧ ∃ z ∈ (near c).1, gap z (near c).2 = true
        let free := x.reason = .none ∨ (x.reason = .mismatchVent ∧ ¬lower) ∨ (x.reason = .mismatchFill ∧ ¬higher)
        y.ring = (if h.sensing.rounds = 0 ∨ entry.fault = true then x.ring else (entry.value :: x.ring).take 8) ∧
        y.height = (if y.ring = [] then none else some (y.ring.sum.tdiv y.ring.length)) ∧
        y.target = x.target ∧ y.error = y.height.map (fun m => m - x.target) ∧ y.causes = x.causes ∧
        y.source = (if h.kneel.state = .raising ∧ t.hub.kneel.state = .ride ∧ x.source = .raise then .ride
          else x.source) ∧
        (x.action = .fill → (∃ e, y.error = some e ∧ -band.tdiv 2 ≤ e) → y.action = .hold) ∧
        (x.action = .fillWait → (∃ e, y.error = some e ∧ -band.tdiv 2 ≤ e) → y.action = .hold) ∧
        (x.action = .vent → (∃ e, y.error = some e ∧ e ≤ band.tdiv 2) → y.action = .hold) ∧
        (x.action = .excluded → x.causes.any = true → y.action = .excluded) ∧
        (x.action = .hold → free →
          (h.sensing.standstill = .yes ∨ (x.source ≠ .ride ∧ h.brake.decel ≤ 1000)) →
          (∀ e, y.error = some e → band < e → -band ≤ e → ¬(h.onDoorSide c = true ∧ lower) → y.action = .vent) ∧
          (∀ e, y.error = some e → e < -band → ¬(h.onDoorSide c = true ∧ higher) →
            y.action = .fill ∨ y.action = .fillWait)) ∧
        (t.hub.link.valves.get c).image = (match y.action with
          | .fill => .fill
          | .vent => .vent
          | _ => .hold) ∧
        (h.inScope c = true → t.hub.kneel.errors.get c = ⟨y.error, band⟩)) ∧
      t.hub.level.cut = h.level.cut ∧ t.hub.level.cutCause = h.level.cutCause ∧
      let fills (c : Circuit) : Bool := (t.hub.circuit c).action == .fillWait || (t.hub.circuit c).action == .fill
      let filled (c : Circuit) : Bool := (h.circuit c).action == .fillWait || (h.circuit c).action == .fill
      let waiting := h.level.queue.filter fun e => fills e.circuit
      let slow := ((FillSlot.all.filterMap h.level.slots.get).filter fun x =>
        decide (20000 ≤ x.time + 50) && fills x.circuit).map fun x => (⟨x.circuit, x.cls⟩ : QueueEntry)
      let starting := (Circuit.all.filter fun c => fills c && !filled c).map fun c =>
        (⟨c, if (h.circuit c).source = .raise then 0 else if h.sensing.standstill = .yes then 1 else 2⟩ : QueueEntry)
      let free := FillSlot.all.filter fun i =>
        match h.level.slots.get i with
        | some x => !fills x.circuit || decide (20000 ≤ x.time + 50)
        | none => true
      ∃ queue : List QueueEntry,
        queue.Pairwise (fun a b => a.cls ≤ b.cls) ∧
        (∀ n, queue.filter (fun e => e.cls == n) = (waiting ++ slow ++ starting).filter fun e => e.cls == n) ∧
        let grants := if h.level.cut then 0 else min queue.length free.length
        t.hub.level.queue = queue.drop grants ∧
        t.hub.level.grants = h.level.grants + BitVec.ofNat 16 grants ∧
        (∀ n e i, n < grants → queue[n]? = some e → free[n]? = some i →
          t.hub.level.slots.get i = some ⟨e.circuit, 0, h.level.grants + BitVec.ofNat 16 n, e.cls⟩ ∧
            (t.hub.circuit e.circuit).action = .fill) ∧
        (∀ n i, grants ≤ n → free[n]? = some i → t.hub.level.slots.get i = none) ∧
        (∀ i x, h.level.slots.get i = some x → i ∉ free →
          t.hub.level.slots.get i = some { x with time := x.time + 50 }) ∧
        ∀ e ∈ t.hub.level.queue, (t.hub.circuit e.circuit).action = .fillWait

/-- What holds a circuit back at a levelling period. A circuit EXCLUDED with no cause left returns (R104). The mismatch
hold (R101): while a kneel of scope SIDE lowers or raises, a door-side circuit that vents, or wants to, pauses where its
section stands lower than an adjacent one by more than Hmis, one that fills, or waits or wants to, where it stands
higher; a pause lasts while that stands and ends when it does not, or the hold no longer applies, and the circuit may
start in the same period. A slot whose circuit fills on has its hold time advanced by 50 ms, and at 20,000 ms loses it,
with SLOW_FILL and the error of that period, raised for nothing else (R98), in a mismatch hold too, unless it pauses the
circuit. Model's choice: the SLOW_FILLs in slot order (log entry 28), that the section heights are formed at every
period, with or without a mismatch hold (log entry 22), and that a count of 0 keeps its direction (log entry 36). A ride
circuit in HOLD, and not paused, without standstill acts only at its hundredth deviation in a row of one direction, its
count going back to 0 within the band or at the start, and no circuit starts while the bus brakes above 1,000 mm/s²
without standstill (R94). -/
def Obligations.LevellingHolds : Prop :=
  ∀ s : State, s.hub.level.timer.due levellingPeriod = true → s.hub.level.Inv →
    let h := s.hub
    let mismatch := h.scopeSide = true ∧ (h.kneel.state = .lowering ∨ h.kneel.state = .raising)
    ∃ t, exec .levellingTimerExpiry s = .next t ∧ t.pending = s.pending ∧
      (t.hub.level.mismatch = true ↔ mismatch) ∧
      (let mean (a b : Option Int) : Option Int :=
        match a, b with
        | some a, some b => some ((a + b).tdiv 2)
        | _, _ => none
       let at' (c : Circuit) := (t.hub.circuit c).height
       t.hub.level.front = (if h.sideLeft then mean (at' .c1) (at' .c3) else mean (at' .c2) (at' .c4)) ∧
       t.hub.level.middle = (if h.sideLeft then at' .c5 else at' .c6) ∧
       t.hub.level.rear = if h.sideLeft then at' .c7 else at' .c8) ∧
      let gap (a b : Option Int) : Bool :=
        match a, b with
        | some m, some n => decide (h.hmis < n - m)
        | _, _ => false
      let near (c : Circuit) : List (Option Int) × Option Int :=
        match c with
        | .c1 | .c2 | .c3 | .c4 => ([t.hub.level.middle], t.hub.level.front)
        | .c5 | .c6 => ([t.hub.level.front, t.hub.level.rear], t.hub.level.middle)
        | .c7 | .c8 => ([t.hub.level.middle], t.hub.level.rear)
      let standsHigher (c : Circuit) : Bool := (near c).1.any fun z => gap z (near c).2
      (∀ c : Circuit,
        let x := h.circuit c
        let y := t.hub.circuit c
        let band := if x.source = .kneel then h.dbKneel else h.dbRide
        let paused := mismatch ∧ h.onDoorSide c = true
        let lower := ∃ z ∈ (near c).1, gap (near c).2 z = true
        let higher := standsHigher c = true
        let free := x.reason = .none ∨ (x.reason = .mismatchVent ∧ ¬(mismatch ∧ lower)) ∨
          (x.reason = .mismatchFill ∧ ¬(mismatch ∧ higher))
        let high := ∃ e, y.error = some e ∧ band < e ∧ -band ≤ e
        let low := ∃ e, y.error = some e ∧ e < -band
        let resting := x.action = .hold ∧ free
        let inhibited := h.sensing.standstill ≠ .yes ∧ 1000 < h.brake.decel
        (x.action = .excluded → x.causes.any = false → y.action ≠ .excluded ∧
          (h.kneel.state = .stopped → h.inScope c = true → y.action = .hold ∧ y.reason = .kneelStopped)) ∧
        (paused → lower → x.action = .vent ∨ (resting ∧ high) ∨ (x.action = .hold ∧ x.reason = .mismatchVent) →
          y.action = .hold ∧ y.reason = .mismatchVent) ∧
        (paused → higher → x.action = .fill ∨ x.action = .fillWait ∨ (resting ∧ low) ∨
            (x.action = .hold ∧ x.reason = .mismatchFill) →
          y.action = .hold ∧ y.reason = .mismatchFill) ∧
        (x.reason = .mismatchVent → ¬(mismatch ∧ lower) → y.reason ≠ .mismatchVent) ∧
        (x.reason = .mismatchFill → ¬(mismatch ∧ higher) → y.reason ≠ .mismatchFill) ∧
        (resting → (∃ e, y.error = some e ∧ -band ≤ e ∧ e ≤ band) → y.action = .hold ∧ y.count = 0) ∧
        (resting → inhibited → y.action = .hold) ∧
        ∀ d : Deviation, resting → x.source = .ride → h.sensing.standstill ≠ .yes →
          (match d with
            | .high => high ∧ ¬(paused ∧ lower)
            | .low => low ∧ ¬(paused ∧ higher)) →
          let n := if x.direction = d then min 100 (x.count + 1) else 1
          y.direction = d ∧
          (n < 100 ∨ inhibited → y.action = .hold ∧ y.count = n) ∧
          (n = 100 → ¬inhibited → y.count = 0 ∧ match d with
            | .high => y.action = .vent
            | .low => y.action = .fill ∨ y.action = .fillWait)) ∧
      let goesOn (x : HeldSlot) : Bool :=
        (match (t.hub.circuit x.circuit).error with
        | some e => decide (e < -(if (h.circuit x.circuit).source = .kneel then h.dbKneel else h.dbRide).tdiv 2)
        | none => true) && !(decide mismatch && h.onDoorSide x.circuit && standsHigher x.circuit)
      ((∀ i x, h.level.slots.get i = some x → goesOn x = true → x.time + 50 < 20000 →
          t.hub.level.slots.get i = some { x with time := x.time + 50 }) ∧
        (∀ i x, h.level.slots.get i = some x → goesOn x = true → 20000 ≤ x.time + 50 →
          ((t.hub.circuit x.circuit).action = .fillWait ∨ (t.hub.circuit x.circuit).action = .fill) ∧
          ∀ j y, t.hub.level.slots.get j = some y → y.circuit = x.circuit → y.time = 0) ∧
        h.Raises t.hub .slowFill
          ((FillSlot.all.filterMap h.level.slots.get).filter (fun x => goesOn x && decide (20000 ≤ x.time + 50))
            |>.map fun x => (x.circuit.num, ((t.hub.circuit x.circuit).error).getD 0)))

/-- KNEEL (R111): DONE without a change in LOWERING and KNELT; else refused NOT_STANDSTILL, HALT_NOT_APPLIED or
CIRCUIT_EXCLUDED with the lowest excluded circuit in scope, in that order; else every circuit in scope takes its KNEEL
target at one moment (R110) and the state becomes LOWERING, with its event (R118), the kneel freeze (R77) and the move
permit (R136). RAISE (R112): DONE without a change in RIDE and RAISING; from LOWERING, KNELT and STOPPED, with no check,
every circuit in scope takes its ride target with source RAISE and the state becomes RAISING. Either leaves STOPPED with
its cause, circuit and state before absent, and the hold reason KNEEL_STOPPED goes (R102, R116). Over all commands but
resets, a kneel in progress enters STOPPED exactly where standstill leaves TRUE or a circuit in scope becomes EXCLUDED,
with that cause, the circuit, and the state before (R116); targets stay, each circuit in scope and not EXCLUDED is in
HOLD with KNEEL_STOPPED, out of slots and queue, the freed slots go to the queue's head, and the valves follow (R97,
R102, R105). Model's choice: KNEEL_STATE is raised before MOVE_PERMIT (log entry 27), RAISE from LOWERING keeps a
mismatch reason (log entry 22), at a loss of standstill the kneel unit acts before the door unit, whose withdrawn
releases might else have raised the body first, so the state before is the one the command finds and no target is
written (log entry 9), and where one command excludes several, the circuit named and the grants (log entry 11). -/
def Obligations.KneelAndRaiseOrders : Prop :=
  (∀ (s t : State) (c : Instr), exec c s = .next t → resetsPart s.hub c = false → s.hub.level.Inv →
    s.hub.kneel.state = .lowering ∨ s.hub.kneel.state = .knelt ∨ s.hub.kneel.state = .raising →
    let h := s.hub
    let u := t.hub
    let excluded (x : Circuit) : Bool := (h.circuit x).action != .excluded && (u.circuit x).action == .excluded
    let gone (x : Circuit) : Bool := h.inScope x || excluded x
    let moved := h.sensing.standstill = .yes ∧ u.sensing.standstill ≠ .yes
    (u.kneel.state = .stopped ↔ moved ∨ ∃ x, h.inScope x = true ∧ excluded x = true) ∧
    (u.kneel.state = .stopped →
      u.kneel.before = some h.kneel.state ∧ u.kneel.completions = h.kneel.completions ∧
      (moved → u.kneel.cause = some .standstill ∧ u.kneel.circuit = none) ∧
      (¬moved → u.kneel.cause = some .exclusion ∧
        ∃ x, u.kneel.circuit = some x ∧ h.inScope x = true ∧ excluded x = true ∧
          ∀ y, h.inScope y = true → excluded y = true →
            ((u.circuit y).causes.valve = true → (u.circuit x).causes.valve = true) ∧
            ((u.circuit y).causes.valve = (u.circuit x).causes.valve → x.num ≤ y.num)) ∧
      (∀ x, (u.circuit x).target = (h.circuit x).target ∧ (u.circuit x).source = (h.circuit x).source ∧
        (h.inScope x = true → (u.circuit x).action = .excluded ∨
          ((u.circuit x).action = .hold ∧ (u.circuit x).reason = .kneelStopped)) ∧
        (h.inScope x = false → excluded x = false → (u.circuit x).reason = (h.circuit x).reason) ∧
        (gone x = true → (∀ i y, u.level.slots.get i = some y → y.circuit ≠ x) ∧
          ∀ e ∈ u.level.queue, e.circuit ≠ x) ∧
        (u.link.valves.get x).image = (match (u.circuit x).action with
          | .fill => .fill
          | .vent => .vent
          | _ => .hold)) ∧
      (u.level.cut = h.level.cut →
        let waiting := h.level.queue.filter fun e => !gone e.circuit
        (∀ i x, h.level.slots.get i = some x → gone x.circuit = false → u.level.slots.get i = some x) ∧
        (u.level.cut = false → u.level.queue = [] ∨ ∀ i, u.level.slots.get i ≠ none) ∧
        ∃ n, u.level.queue = waiting.drop n ∧
          (∀ k e, k < n → waiting[k]? = some e → (u.circuit e.circuit).action = .fill ∧
            ∃ i g, u.level.slots.get i = some ⟨e.circuit, 0, g, e.cls⟩ ∧
              (moved → g = h.level.grants + BitVec.ofNat 16 k)) ∧
          ∀ x, gone x = false → (∀ e ∈ waiting.take n, e.circuit ≠ x) →
            (u.circuit x).action = (h.circuit x).action))) ∧
  (∀ (s : State) (q : Request), s.hub.admits q.port .passenger = true →
    let h := s.hub
    let refused (r : Reason) (data : List Byte) : State := { s with hub := h.answered q 0x2A#8 (.refused r data) }
    let resting := h.kneel.state = .lowering ∨ h.kneel.state = .knelt
    let excluded (c : Circuit) : Prop := h.inScope c = true ∧ (h.circuit c).action = .excluded
    (resting → exec (.kneel q) s = .next { s with hub := h.answered q 0x2A#8 (.done []) }) ∧
    (¬resting → h.sensing.standstill ≠ .yes → exec (.kneel q) s = .next (refused .notStandstill [])) ∧
    (¬resting → h.sensing.standstill = .yes → h.brake.halt ≠ .applied →
      exec (.kneel q) s = .next (refused .haltNotApplied [])) ∧
    (∀ c, ¬resting → h.sensing.standstill = .yes → h.brake.halt = .applied → excluded c →
      (∀ c', excluded c' → c.num ≤ c'.num) →
      exec (.kneel q) s = .next (refused .circuitExcluded [BitVec.ofNat 8 c.num])) ∧
    (¬resting → h.sensing.standstill = .yes → h.brake.halt = .applied → (∀ c, ¬excluded c) →
      exec (.kneel q) s = .next { s with
        hub := { h.answered q 0x2A#8 (.done []) with
          kneel := { h.kneel with state := .lowering, cause := none, circuit := none, before := none }
          level := { h.level with
            circuits := .tab fun c =>
              let x := { h.circuit c with
                reason :=
                  if h.kneel.state = .stopped ∧ (h.circuit c).reason = .kneelStopped then .none
                  else (h.circuit c).reason }
              if h.inScope c = true then { x with target := h.trim c - h.kneelDepth, source := .kneel } else x }
          brake := { h.brake with kneelFreeze := if h.kneel.state = .ride then .on else h.brake.kneelFreeze }
          doors := { h.doors with permit := false }
          link := { h.link with lines := { h.link.lines with
            permit := if h.doors.permit then false else h.link.lines.permit } }
          events :=
            if h.doors.permit then (h.eventsAfter .kneelState 0 1).raise h.clock.ms .movePermit 0 0
            else h.eventsAfter .kneelState 0 1 } })) ∧
  (∀ (s : State) (q : Request), s.hub.admits q.port .passenger = true →
    let h := s.hub
    let done := h.answered q 0x2B#8 (.done [])
    (h.kneel.state = .ride ∨ h.kneel.state = .raising → exec (.raise q) s = .next { s with hub := done }) ∧
    (h.kneel.state ≠ .ride → h.kneel.state ≠ .raising →
      exec (.raise q) s = .next { s with
        hub := { done with
          kneel := { h.kneel with state := .raising, cause := none, circuit := none, before := none }
          level := { h.level with
            circuits := .tab fun c =>
              let x := { h.circuit c with
                reason :=
                  if h.kneel.state = .stopped ∧ (h.circuit c).reason = .kneelStopped then .none
                  else (h.circuit c).reason }
              if h.inScope c = true then { x with target := h.trim c, source := .raise } else x }
          doors := { h.doors with permit := false }
          link := { h.link with lines := { h.link.lines with
            permit := if h.doors.permit then false else h.link.lines.permit } }
          events :=
            if h.doors.permit then (h.eventsAfter .kneelState 0 3).raise h.clock.ms .movePermit 0 0
            else h.eventsAfter .kneelState 0 3 } }))

/-! ## Passenger doors -/

/-- RELEASE (R127): RANGE for any payload but one mask from 1 to 31, NOT_STANDSTILL, DOOR_DISABLED with the disabled
doors where the mask names no enabled one; else DONE with the disabled doors named, each enabled WITHDRAWN door named
becomes GRANTED under an APPLIED halt brake and WAITING otherwise, and the halt brake is asked to apply (R83).
WITHDRAW (R128): RANGE for any payload but one mask of at most 31; else DONE with the enabled doors named whose handle
is active, which are kept; each other enabled door named has its mark cleared and its release WITHDRAWN; a door
condition that becomes true hands the auto-raise (R135): in LOWERING or KNELT with auto-raise ON every circuit in scope
takes its ride target with source RAISE and the state becomes RAISING (R110, R115). -/
def Obligations.ReleaseAndWithdrawOrders : Prop :=
  (∀ (s : State) (q : Request), s.hub.admits q.port .passenger = true →
    let h := s.hub
    let bits (f : Door → Bool) : Byte :=
      BitVec.ofNat 8 ((Door.all.map fun d => if f d then 2 ^ (d.num - 1) else 0).sum)
    ((∀ b : Byte, q.payload = [b] → b.toNat = 0 ∨ 31 < b.toNat) →
      exec (.release q) s = .next { s with hub := h.answered q 0x28#8 (.refused .range []) }) ∧
    ∀ b : Byte, q.payload = [b] → 1 ≤ b.toNat → b.toNat ≤ 31 →
      let named (d : Door) : Bool := b.getLsbD (d.num - 1)
      let off := bits fun d => named d && !(h.door d).enabled
      (h.sensing.standstill ≠ .yes →
        exec (.release q) s = .next { s with hub := h.answered q 0x28#8 (.refused .notStandstill []) }) ∧
      (h.sensing.standstill = .yes → (∀ d, named d = true → (h.door d).enabled = false) →
        exec (.release q) s = .next { s with hub := h.answered q 0x28#8 (.refused .doorDisabled [off]) }) ∧
      (h.sensing.standstill = .yes → (∃ d, named d = true ∧ (h.door d).enabled = true) →
        ∃ t, exec (.release q) s = .next t ∧ t.pending = s.pending ∧
          t.hub.ports = (h.answered q 0x28#8 (.done [off])).ports ∧
          t.hub.pins = (h.answered q 0x28#8 (.done [off])).pins ∧
          (∀ d, t.hub.door d =
            if named d = true ∧ (h.door d).enabled = true ∧ (h.door d).release = .withdrawn then
              { h.door d with release := if h.brake.halt = .applied then .granted else .waiting }
            else h.door d) ∧
          (∀ d, h.link.lines.release.get d = ((h.door d).release == .granted) →
            t.hub.link.lines.release.get d = ((t.hub.door d).release == .granted)) ∧
          t.hub.brake = (if h.brake.halt = .released then
              { h.brake with halt := .applying, applying := .running 0, haltFault := false }
            else h.brake) ∧
          t.hub.kneel = h.kneel ∧ t.hub.level = h.level ∧
          t.hub.link = { h.link with lines := { t.hub.link.lines with torque := h.link.lines.torque } } ∧
          t.hub.clock = h.clock ∧ t.hub.sensing = h.sensing ∧ t.hub.path = h.path ∧ t.hub.steering = h.steering ∧
          t.hub.joints = h.joints ∧ t.hub.access = h.access ∧ t.hub.store = h.store ∧ t.hub.freeCount = h.freeCount)) ∧
  (∀ (s : State) (q : Request), s.hub.admits q.port .passenger = true →
    let h := s.hub
    let bits (f : Door → Bool) : Byte :=
      BitVec.ofNat 8 ((Door.all.map fun d => if f d then 2 ^ (d.num - 1) else 0).sum)
    ((∀ b : Byte, q.payload = [b] → 31 < b.toNat) →
      exec (.withdraw q) s = .next { s with hub := h.answered q 0x29#8 (.refused .range []) }) ∧
    ∀ b : Byte, q.payload = [b] → b.toNat ≤ 31 →
      let named (d : Door) : Bool := b.getLsbD (d.num - 1)
      let kept := bits fun d => named d && (h.door d).enabled && (h.door d).debounced.handle
      ∃ t, exec (.withdraw q) s = .next t ∧ t.pending = s.pending ∧
        t.hub.ports = (h.answered q 0x29#8 (.done [kept])).ports ∧
        t.hub.pins = (h.answered q 0x29#8 (.done [kept])).pins ∧
        (∀ d, t.hub.door d =
          if named d = true ∧ (h.door d).enabled = true ∧ (h.door d).debounced.handle = false then
            { h.door d with mark := false, release := .withdrawn }
          else h.door d) ∧
        (∀ d, h.link.lines.release.get d = ((h.door d).release == .granted) →
          t.hub.link.lines.release.get d = ((t.hub.door d).release == .granted)) ∧
        t.hub.brake = h.brake ∧
        t.hub.link = { h.link with lines := { t.hub.link.lines with torque := h.link.lines.torque } } ∧
        (h.autoRaiseOn = false ∨ (h.kneel.state ≠ .lowering ∧ h.kneel.state ≠ .knelt) →
          t.hub.kneel = h.kneel ∧ t.hub.level = h.level) ∧
        (h.autoRaiseOn = true → h.kneel.state = .lowering ∨ h.kneel.state = .knelt →
          h.doors.condition = (h.doorsLocked && h.releasesWithdrawn) →
          let raised := h.doors.condition = false ∧ t.hub.doors.condition = true
          (¬raised → t.hub.kneel = h.kneel ∧ t.hub.level = h.level) ∧
          (raised →
            t.hub.kneel = { h.kneel with state := .raising, cause := none, circuit := none, before := none } ∧
            t.hub.level = { h.level with
              circuits := .tab fun c =>
                if h.inScope c = true then { h.circuit c with target := h.trim c, source := .raise }
                else h.circuit c })) ∧
        t.hub.clock = h.clock ∧ t.hub.sensing = h.sensing ∧ t.hub.path = h.path ∧ t.hub.steering = h.steering ∧
        t.hub.joints = h.joints ∧ t.hub.access = h.access ∧ t.hub.store = h.store ∧ t.hub.freeCount = h.freeCount)

/-- A change of a raw door input starts its debounce timer (R123); its expiry takes the raw level, and acts on a change:
an enabled door's position at standstill applies a RELEASED halt brake where an enabled door is not CLOSED_LOCKED, and
else leaves it alone (R124, R134); an enabled door's handle acts at or below v_emerg, by R131's table, and waits above
it (R131, R132), its reset clears the at-speed flag (R133), each with its DOOR_EMERGENCY; a door condition that becomes
true hands the auto-raise, which in LOWERING or KNELT writes the raise targets of every circuit in scope and brings
RAISING (R110, R115, R135). A disabled door's change acts on nothing else (R125). But for a reset, the load and a TAKE,
whatever the command: each change of a position raises one DOOR_STATE with it (R124), each change of a release or
setting of a mark one DOOR_RELEASE with both (R126, R131; that an APPLY clears a disabled door's mark before it: model's
choice, log entry 10), in door order, and the change count counts the positions and releases changed (R122). -/
def Obligations.DoorInputs : Prop :=
  (∀ (s t : State) (c : Instr), exec c s = .next t → resetsPart s.hub c = false →
    (∀ inputs, c ≠ .activeSetLoad inputs) → (∀ q code, c ≠ .take q code) →
    let moved := Door.all.filter fun d => decide ((t.hub.door d).position ≠ (s.hub.door d).position)
    let released := Door.all.filter fun d => decide ((t.hub.door d).release ≠ (s.hub.door d).release)
    let reported := Door.all.filter fun d => decide ((t.hub.door d).release ≠ (s.hub.door d).release)
      || ((t.hub.door d).mark && !(s.hub.door d).mark)
    t.hub.doors.changes = s.hub.doors.changes + BitVec.ofNat 16 (moved.length + released.length) ∧
    s.hub.Raises t.hub .doorState (moved.map fun d => (d.num, match (t.hub.door d).position with
      | .closedLocked => 0
      | .closed => 1
      | .opened => 2
      | .switchFault => 3)) ∧
    s.hub.Raises t.hub .doorRelease (reported.map fun d => (d.num, (match (t.hub.door d).release with
      | .withdrawn => 0
      | .waiting => 1
      | .granted => 2) + if (t.hub.door d).mark then 4 else 0))) ∧
  (∀ (s : State) (d : Door) (i : DoorInput) (level : Bool), s.hub.clock.loaded = true →
    levelOf (s.hub.door d).raw i ≠ level →
    exec (.doorInputChange d i level) s = .next { s with
      hub := { s.hub with
        doors := { s.hub.doors with
          doors := s.hub.doors.doors.set d { s.hub.door d with
            raw := withLevel (s.hub.door d).raw i level, timers := (s.hub.door d).timers.set i (.running 0) } } } }) ∧
  ∀ (s : State) (d : Door) (i : DoorInput), ((s.hub.door d).timers.get i).due debounceTime = true →
    let h := s.hub
    let x := h.door d
    let raw := levelOf x.raw i
    (levelOf x.debounced i = raw →
      exec (.debounceTimerExpiry d i) s = .next { s with
        hub := { h with
          doors := { h.doors with doors := h.doors.doors.set d { x with timers := x.timers.set i .stopped } } } }) ∧
    (levelOf x.debounced i ≠ raw →
      ∃ t, exec (.debounceTimerExpiry d i) s = .next t ∧ t.pending = s.pending ∧
        (t.hub.door d).raw = x.raw ∧
        (t.hub.door d).debounced = (match i with
          | .closed => { x.debounced with closed := x.raw.closed }
          | .lock => { x.debounced with lock := x.raw.lock }
          | .handle => { x.debounced with handle := x.raw.handle }) ∧
        (t.hub.door d).timers = x.timers.set i .stopped ∧ (t.hub.door d).enabled = x.enabled ∧
        (∀ d', d' ≠ d → t.hub.door d' = h.door d') ∧
        (let asks : Prop :=
          if i = .handle then x.enabled = true ∧ raw = true ∧ h.sensing.speed ≤ h.vEmerg
          else x.enabled = true ∧ (t.hub.door d).position ≠ x.position ∧ h.sensing.standstill = .yes ∧
            ∃ d', (t.hub.door d').enabled = true ∧ (t.hub.door d').position ≠ .closedLocked
         (asks → h.brake.halt = .released →
           t.hub.brake = { h.brake with halt := .applying, applying := .running 0, haltFault := false }) ∧
         (¬asks ∨ h.brake.halt ≠ .released → t.hub.brake = h.brake)) ∧
        (x.enabled = false → i ≠ .handle →
          t.hub = { h with
            events := t.hub.events
            doors := { h.doors with doors := t.hub.doors.doors, changes := t.hub.doors.changes } } ∧
          ∀ kind, kind ≠ .doorState → h.Raises t.hub kind []) ∧
        (x.enabled = false → i = .handle →
          t.hub = { h with
            doors := { h.doors with
              doors := h.doors.doors.set d { x with
                debounced := withLevel x.debounced i raw, timers := x.timers.set i .stopped } } }) ∧
        h.Raises t.hub .doorEmergency
          (if i = .handle ∧ x.enabled = true then
            [(d.num, if raw = false then 0 else if h.sensing.speed ≤ h.vEmerg then 1 else 2)]
           else []) ∧
        t.hub.link = { h.link with lines := { t.hub.link.lines with torque := h.link.lines.torque } } ∧
        (h.autoRaiseOn = false ∨ (h.kneel.state ≠ .lowering ∧ h.kneel.state ≠ .knelt) →
          t.hub.kneel = h.kneel ∧ t.hub.level = h.level) ∧
        (h.autoRaiseOn = true → h.kneel.state = .lowering ∨ h.kneel.state = .knelt →
          h.doors.condition = (h.doorsLocked && h.releasesWithdrawn) →
          let raised := h.doors.condition = false ∧ t.hub.doors.condition = true
          (¬raised → t.hub.kneel = h.kneel ∧ t.hub.level = h.level) ∧
          (raised →
            t.hub.kneel = { h.kneel with state := .raising, cause := none, circuit := none, before := none } ∧
            t.hub.level = { h.level with
              circuits := .tab fun c =>
                if h.inScope c = true then { h.circuit c with target := h.trim c, source := .raise }
                else h.circuit c })) ∧
        (i ≠ .handle → (t.hub.door d).position = (match (t.hub.door d).debounced.closed, (t.hub.door d).debounced.lock with
            | true, true => .closedLocked
            | true, false => .closed
            | false, false => .opened
            | false, true => .switchFault) ∧
          (t.hub.door d).mark = x.mark ∧ (t.hub.door d).atSpeed = x.atSpeed ∧
          (t.hub.door d).release = x.release) ∧
        (i = .handle → (t.hub.door d).position = x.position ∧
          (x.enabled = true → raw = true → h.sensing.speed ≤ h.vEmerg →
            (t.hub.door d).mark = true ∧ (t.hub.door d).atSpeed = x.atSpeed ∧
            (t.hub.door d).release = match x.release with
              | .withdrawn => if h.sensing.standstill = .yes ∧ h.brake.halt = .applied then .granted else .waiting
              | y => y) ∧
          (x.enabled = true → raw = true → h.vEmerg < h.sensing.speed →
            (t.hub.door d).atSpeed = true ∧ (t.hub.door d).mark = x.mark ∧ (t.hub.door d).release = x.release) ∧
          (x.enabled = true → raw = false →
            (t.hub.door d).atSpeed = false ∧ (t.hub.door d).mark = x.mark ∧ (t.hub.door d).release = x.release)) ∧
        t.hub.clock = h.clock ∧ t.hub.pins = h.pins ∧ t.hub.sensing = h.sensing ∧ t.hub.path = h.path ∧
        t.hub.steering = h.steering ∧ t.hub.joints = h.joints ∧ t.hub.ports = h.ports ∧ t.hub.access = h.access ∧
        t.hub.store = h.store ∧ t.hub.freeCount = h.freeCount)

/-! ## The actuator link -/

/-- An expiry of the refresh timer sends every chain's commands as they stand in the image (R140); model's choice (log
entry 3): a refresh still in progress is overwritten. The completion of a refresh on each of the four chains: the devices
take their echoes, status words and fault flags (`Device.Completes`: R140 to R142), the chain its state and counts
(`ChainHold.Completes`: R141), and CHAIN_FAULT is raised, and raised for nothing else, for each fault flag set, in device
order, with the device's number, and then for the chain's entry into FAULT, with 0 (R144). The commands in the image of
chains B and J stay; on L they are those of the action states, on S those of an axle that fails become off (R105, R37).
Model's choice: a steering status word has 16 bits (log entry 32), and an echo of any number is a given echo (log entry
35). -/
def Obligations.RefreshAndCompletion : Prop :=
  (∀ s : State, s.hub.link.timer.due refreshPeriod = true →
    ∃ t, exec .refreshTimerExpiry s = .next t ∧ t = { s with hub := { s.hub with link := t.hub.link } } ∧
      t.hub.link.lines = s.hub.link.lines ∧ t.hub.link.refreshes = s.hub.link.refreshes + 1 ∧
      t.hub.link.timer = .running 0 ∧
      (∀ c, t.hub.link.valves.get c =
        { s.hub.link.valves.get c with inFlight := some (s.hub.link.valves.get c).image }) ∧
      (∀ k, t.hub.link.modulators.get k =
        { s.hub.link.modulators.get k with inFlight := some (s.hub.link.modulators.get k).image }) ∧
      (∀ x, t.hub.link.actuators.get x =
        { s.hub.link.actuators.get x with inFlight := some (s.hub.link.actuators.get x).image }) ∧
      (∀ j, t.hub.link.dampers.get j =
        { s.hub.link.dampers.get j with inFlight := some (s.hub.link.dampers.get j).image }) ∧
      t.hub.link.chainL = { s.hub.link.chainL with busy := true } ∧
      t.hub.link.chainB = { s.hub.link.chainB with busy := true } ∧
      t.hub.link.chainS = { s.hub.link.chainS with busy := true } ∧
      t.hub.link.chainJ = { s.hub.link.chainJ with busy := true }) ∧
  (∀ (s : State) (answers : PerCircuit (Option (DeviceAnswer ValveCmd Bool))), s.hub.link.chainL.busy = true →
    let old := s.hub.link.valves
    let judged := ∀ c, (old.get c).lastSent ≠ none
    ∃ t, exec (.chainRefreshComplete (.l answers)) s = .next t ∧ t.pending = s.pending ∧
      let new := t.hub.link.valves
      (∀ c, Device.Completes judged id (answers.get c) (old.get c) (new.get c)) ∧
      ChainHold.Completes judged (∀ c, (new.get c).mismatch = false) s.hub.link.chainL t.hub.link.chainL ∧
      (s.hub.ValvesShown → t.hub.ValvesShown) ∧
      s.hub.Raises t.hub .chainFault
        (((Circuit.all.filter fun c => (new.get c).fault && !(old.get c).fault).map fun c => ((1, c.num) : Nat × Int))
          ++ if t.hub.link.chainL.fault && !s.hub.link.chainL.fault then [(1, 0)] else [])) ∧
  (∀ (s : State) (answers : PerAxle (Option (DeviceAnswer ModCmd Bool))), s.hub.link.chainB.busy = true →
    let old := s.hub.link.modulators
    let judged := ∀ k, (old.get k).lastSent ≠ none
    ∃ t, exec (.chainRefreshComplete (.b answers)) s = .next t ∧ t.pending = s.pending ∧
      let new := t.hub.link.modulators
      t.hub = { s.hub with link := t.hub.link, events := t.hub.events } ∧
      t.hub.link = { s.hub.link with modulators := new, chainB := t.hub.link.chainB } ∧
      (∀ k, (new.get k).image = (old.get k).image ∧
        Device.Completes judged id (answers.get k) (old.get k) (new.get k)) ∧
      ChainHold.Completes judged (∀ k, (new.get k).mismatch = false) s.hub.link.chainB t.hub.link.chainB ∧
      s.hub.Raises t.hub .chainFault
        (((Axle.all.filter fun k => (new.get k).fault && !(old.get k).fault).map fun k => ((2, k.num) : Nat × Int))
          ++ if t.hub.link.chainB.fault && !s.hub.link.chainB.fault then [(2, 0)] else []) ∧
      ∀ kind, kind ≠ .chainFault → s.hub.Raises t.hub kind []) ∧
  (∀ (s : State) (answers : PerTrailing (Option (DeviceAnswer SteerCmd Half))), s.hub.link.chainS.busy = true →
    let old := s.hub.link.actuators
    let judged := ∀ x, (old.get x).lastSent ≠ none
    ∃ t, exec (.chainRefreshComplete (.s answers)) s = .next t ∧ t.pending = s.pending ∧
      let new := t.hub.link.actuators
      t.hub.link = { s.hub.link with actuators := new, chainS := t.hub.link.chainS } ∧
      (∀ x, Device.Completes judged (fun w => decide (-2500 ≤ w.toInt) && decide (w.toInt ≤ 2500))
        (answers.get x) (old.get x) (new.get x)) ∧
      (∀ x, (new.get x).image =
        if (t.hub.axleSteer x).mode = some .failed ∧ (s.hub.axleSteer x).mode ≠ some .failed then
          ⟨false, (s.hub.axleSteer x).setpoint.getD 0⟩
        else (old.get x).image) ∧
      ChainHold.Completes judged (∀ x, (new.get x).mismatch = false) s.hub.link.chainS t.hub.link.chainS ∧
      s.hub.Raises t.hub .chainFault
        ((([(.a3, 1), (.a4, 2)] : List (Trailing × Int)).filter fun x =>
            (new.get x.1).fault && !(old.get x.1).fault).map (fun x => ((3, x.2) : Nat × Int))
          ++ if t.hub.link.chainS.fault && !s.hub.link.chainS.fault then [(3, 0)] else []) ∧
      ∀ kind, kind ≠ .chainFault → s.hub.Raises t.hub kind []) ∧
  ∀ (s : State) (answers : PerJoint (Option (DeviceAnswer Nat Bool))), s.hub.link.chainJ.busy = true →
    let old := s.hub.link.dampers
    let judged := ∀ j, (old.get j).lastSent ≠ none
    ∃ t, exec (.chainRefreshComplete (.j answers)) s = .next t ∧ t.pending = s.pending ∧
      let new := t.hub.link.dampers
      t.hub = { s.hub with link := t.hub.link, events := t.hub.events } ∧
      t.hub.link = { s.hub.link with dampers := new, chainJ := t.hub.link.chainJ } ∧
      (∀ j, (new.get j).image = (old.get j).image ∧
        Device.Completes judged id (answers.get j) (old.get j) (new.get j)) ∧
      ChainHold.Completes judged (∀ j, (new.get j).mismatch = false) s.hub.link.chainJ t.hub.link.chainJ ∧
      s.hub.Raises t.hub .chainFault
        (((Joint.all.filter fun j => (new.get j).fault && !(old.get j).fault).map fun j => ((4, j.num) : Nat × Int))
          ++ if t.hub.link.chainJ.fault && !s.hub.link.chainJ.fault then [(4, 0)] else []) ∧
      ∀ kind, kind ≠ .chainFault → s.hub.Raises t.hub kind []

/-- What the owners do with the faults and words of the other chains (R143, R142): a valve's fault flag or chain L's
FAULT excludes its circuit or all eight, with its own cause, VALVE or CHAIN, and its return clears that cause and no
other (R103); a steering actuator's angle is taken, and its fault flag or chain S's FAULT fails both axles, with cause
DEVICE, which is handed first, or CHAIN, an axle already FAILED keeping its first (R37); chain J changes neither joints
nor requests (R62). -/
def Obligations.ChainFaultsReachTheirOwners : Prop :=
  (∀ (s : State) (answers : PerCircuit (Option (DeviceAnswer ValveCmd Bool))), s.hub.link.chainL.busy = true →
    s.hub.level.Inv →
    ∃ t, exec (.chainRefreshComplete (.l answers)) s = .next t ∧ t.pending = s.pending ∧
      t.hub.link.chainL.busy = false ∧
      (∀ c, (s.hub.link.valves.get c).fault = false → (t.hub.link.valves.get c).fault = true →
        (t.hub.circuit c).action = .excluded ∧ (t.hub.circuit c).causes.valve = true) ∧
      (s.hub.link.chainL.fault = false → t.hub.link.chainL.fault = true →
        ∀ c, (t.hub.circuit c).action = .excluded ∧ (t.hub.circuit c).causes.chain = true) ∧
      (s.hub.link.chainL.fault = true → t.hub.link.chainL.fault = false →
        ∀ c, (t.hub.circuit c).causes.chain = false) ∧
      (∀ c, (t.hub.circuit c).causes = {
        height := (s.hub.circuit c).causes.height
        valve :=
          if (t.hub.link.valves.get c).fault = (s.hub.link.valves.get c).fault then (s.hub.circuit c).causes.valve
          else (t.hub.link.valves.get c).fault
        chain :=
          if t.hub.link.chainL.fault = s.hub.link.chainL.fault then (s.hub.circuit c).causes.chain
          else t.hub.link.chainL.fault }) ∧
      t.hub.doors = { s.hub.doors with permit := t.hub.doors.permit } ∧
      t.hub.brake = { s.hub.brake with axles := t.hub.brake.axles } ∧
      t.hub.link = { s.hub.link with
        valves := t.hub.link.valves, chainL := t.hub.link.chainL, lines := t.hub.link.lines } ∧
      t.hub.steering = s.hub.steering ∧ t.hub.joints = s.hub.joints ∧ t.hub.sensing = s.hub.sensing ∧
      t.hub.path = s.hub.path ∧ t.hub.ports = s.hub.ports ∧ t.hub.access = s.hub.access ∧
      t.hub.store = s.hub.store ∧ t.hub.clock = s.hub.clock ∧ t.hub.pins = s.hub.pins ∧
      t.hub.freeCount = s.hub.freeCount) ∧
  (∀ (s : State) (answers : PerTrailing (Option (DeviceAnswer SteerCmd Half))), s.hub.link.chainS.busy = true →
    let old := s.hub.link.actuators
    let judged := ∀ x, (old.get x).lastSent ≠ none
    ∃ t, exec (.chainRefreshComplete (.s answers)) s = .next t ∧ t.pending = s.pending ∧
      t.hub = { s.hub with steering := t.hub.steering, link := t.hub.link, events := t.hub.events } ∧
      t.hub.link.chainS.busy = false ∧
      (∀ x a, answers.get x = some a → ((old.get x).lastSent = some a.echo ∨ ¬judged) →
        -2500 ≤ a.status.toInt → a.status.toInt ≤ 2500 → (t.hub.axleSteer x).measured = some a.status.toInt) ∧
      (∀ x, (∀ a, answers.get x = some a → judged ∧ (old.get x).lastSent ≠ some a.echo) →
        (t.hub.axleSteer x).measured = (s.hub.axleSteer x).measured) ∧
      let device := Trailing.all.any fun x => !(old.get x).fault && (t.hub.link.actuators.get x).fault
      (device = true ∨ (s.hub.link.chainS.fault = false ∧ t.hub.link.chainS.fault = true) →
        ∀ x, (t.hub.axleSteer x).mode = some .failed ∧
          (t.hub.axleSteer x).cause = (if (s.hub.axleSteer x).mode = some .failed then (s.hub.axleSteer x).cause
            else some (if device then .device else .chain)) ∧
          (t.hub.axleSteer x).setpoint = (s.hub.axleSteer x).setpoint ∧
          ((s.hub.axleSteer x).mode ≠ some .failed → (t.hub.axleSteer x).enable = false)) ∧
      ((∀ x, (t.hub.link.actuators.get x).fault = true → (old.get x).fault = true) →
          (t.hub.link.chainS.fault = true → s.hub.link.chainS.fault = true) →
        ∀ x, (t.hub.axleSteer x).mode = (s.hub.axleSteer x).mode ∧
          (t.hub.axleSteer x).cause = (s.hub.axleSteer x).cause)) ∧
  ∀ (s : State) (answers : PerJoint (Option (DeviceAnswer Nat Bool))), s.hub.link.chainJ.busy = true →
    ∃ t, exec (.chainRefreshComplete (.j answers)) s = .next t ∧ t.pending = s.pending ∧
      t.hub = { s.hub with link := t.hub.link, events := t.hub.events } ∧
      t.hub.link = { s.hub.link with dampers := t.hub.link.dampers, chainJ := t.hub.link.chainJ } ∧
      t.hub.link.chainJ.busy = false ∧ ∀ j, (t.hub.link.dampers.get j).image = (s.hub.link.dampers.get j).image

/-! ## Invariants -/

/-- What the invariants below say holds of the part right after the power-on reset. Model's choice (log entries 5, 6):
the erased store and the values of what the load forms. -/
def Obligations.InvariantsAtReset : Prop :=
  State.reset.hub.path.Inv ∧ State.reset.hub.events.Inv ∧ State.reset.hub.level.Inv ∧ State.reset.hub.ValvesShown ∧
    State.reset.hub.DoorInv ∧ State.reset.hub.SteerInv ∧ State.reset.hub.StoreInv

/-- Every step keeps the path memory's form: at most 256 samples, consecutive indices from the push count, r below
1,000, a true absent count (R20). -/
def Obligations.PathMemoryKeepsItsForm : Prop :=
  ∀ s t : State, s.hub.path.Inv → step s = .next t → t.hub.path.Inv

/-- Every step keeps the event queues' form (R161 to R163), and a queue of that form holds at most 44 entries, so that
its capacity of 48 is never reached (R162). -/
def Obligations.EventQueuesKeepTheirForm : Prop :=
  (∀ s t : State, s.hub.events.Inv → step s = .next t → t.hub.events.Inv) ∧
  ∀ u : EventUnit, u.Inv → ∀ p, (u.queues.get p).length ≤ 44

/-- Every step keeps the fill slots, the fill queue, the action states and the exclusions in agreement (R90, R96, R97,
R103), and the valves' commands those of the action states (R105). -/
def Obligations.SlotsAndQueueAgree : Prop :=
  ∀ s t : State, s.hub.level.Inv → s.hub.ValvesShown → step s = .next t → t.hub.level.Inv ∧ t.hub.ValvesShown

/-- Every step keeps the doors' interlocks: a release line is active only under a GRANTED release, a GRANTED release
only at standstill TRUE under an APPLIED halt brake, the move permit is that of R136, an open enabled door at
standstill has the halt brake on (R83), and a kneel has it APPLIED (R111). -/
def Obligations.DoorInterlocksHold : Prop :=
  ∀ s t : State, s.hub.DoorInv → step s = .next t → t.hub.DoorInv

/-- Every step keeps each trailing axle's setpoint within its angle limit, its enable off unless it is initialised and
not FAILED, and chain S's image in agreement (R45, R47, R48, R50). -/
def Obligations.SetpointsStayBounded : Prop :=
  ∀ s t : State, s.hub.SteerInv → step s = .next t → t.hub.SteerInv

/-- Every step keeps the calibration store's sectors in their one form, a running operation's mark on its sector, and
the waiting and suspended requests in order (R153, R155, R166, R167). -/
def Obligations.StoreKeepsItsForm : Prop :=
  ∀ s t : State, s.hub.StoreInv → step s = .next t → t.hub.StoreInv

end
end

