-- ==== Sys2Proof/Laws/State.lean ====
section
/-! SUPPORT. The update of each unit, field by field: what `Hub.onX` does to every part of the state. -/

namespace Sys2Proof.Machine

@[simp] theorem Hub.onClock_clock (g : Clock → Clock) (h : Hub) : (h.onClock g).clock = g h.clock := rfl
@[simp] theorem Hub.onClock_pins (g : Clock → Clock) (h : Hub) : (h.onClock g).pins = h.pins := rfl
@[simp] theorem Hub.onClock_sensing (g : Clock → Clock) (h : Hub) : (h.onClock g).sensing = h.sensing := rfl
@[simp] theorem Hub.onClock_path (g : Clock → Clock) (h : Hub) : (h.onClock g).path = h.path := rfl
@[simp] theorem Hub.onClock_steering (g : Clock → Clock) (h : Hub) : (h.onClock g).steering = h.steering := rfl
@[simp] theorem Hub.onClock_joints (g : Clock → Clock) (h : Hub) : (h.onClock g).joints = h.joints := rfl
@[simp] theorem Hub.onClock_brake (g : Clock → Clock) (h : Hub) : (h.onClock g).brake = h.brake := rfl
@[simp] theorem Hub.onClock_level (g : Clock → Clock) (h : Hub) : (h.onClock g).level = h.level := rfl
@[simp] theorem Hub.onClock_kneel (g : Clock → Clock) (h : Hub) : (h.onClock g).kneel = h.kneel := rfl
@[simp] theorem Hub.onClock_doors (g : Clock → Clock) (h : Hub) : (h.onClock g).doors = h.doors := rfl
@[simp] theorem Hub.onClock_link (g : Clock → Clock) (h : Hub) : (h.onClock g).link = h.link := rfl
@[simp] theorem Hub.onClock_ports (g : Clock → Clock) (h : Hub) : (h.onClock g).ports = h.ports := rfl
@[simp] theorem Hub.onClock_access (g : Clock → Clock) (h : Hub) : (h.onClock g).access = h.access := rfl
@[simp] theorem Hub.onClock_events (g : Clock → Clock) (h : Hub) : (h.onClock g).events = h.events := rfl
@[simp] theorem Hub.onClock_store (g : Clock → Clock) (h : Hub) : (h.onClock g).store = h.store := rfl
@[simp] theorem Hub.onClock_freeCount (g : Clock → Clock) (h : Hub) : (h.onClock g).freeCount = h.freeCount := rfl

@[simp] theorem Hub.onPins_clock (g : Pins → Pins) (h : Hub) : (h.onPins g).clock = h.clock := rfl
@[simp] theorem Hub.onPins_pins (g : Pins → Pins) (h : Hub) : (h.onPins g).pins = g h.pins := rfl
@[simp] theorem Hub.onPins_sensing (g : Pins → Pins) (h : Hub) : (h.onPins g).sensing = h.sensing := rfl
@[simp] theorem Hub.onPins_path (g : Pins → Pins) (h : Hub) : (h.onPins g).path = h.path := rfl
@[simp] theorem Hub.onPins_steering (g : Pins → Pins) (h : Hub) : (h.onPins g).steering = h.steering := rfl
@[simp] theorem Hub.onPins_joints (g : Pins → Pins) (h : Hub) : (h.onPins g).joints = h.joints := rfl
@[simp] theorem Hub.onPins_brake (g : Pins → Pins) (h : Hub) : (h.onPins g).brake = h.brake := rfl
@[simp] theorem Hub.onPins_level (g : Pins → Pins) (h : Hub) : (h.onPins g).level = h.level := rfl
@[simp] theorem Hub.onPins_kneel (g : Pins → Pins) (h : Hub) : (h.onPins g).kneel = h.kneel := rfl
@[simp] theorem Hub.onPins_doors (g : Pins → Pins) (h : Hub) : (h.onPins g).doors = h.doors := rfl
@[simp] theorem Hub.onPins_link (g : Pins → Pins) (h : Hub) : (h.onPins g).link = h.link := rfl
@[simp] theorem Hub.onPins_ports (g : Pins → Pins) (h : Hub) : (h.onPins g).ports = h.ports := rfl
@[simp] theorem Hub.onPins_access (g : Pins → Pins) (h : Hub) : (h.onPins g).access = h.access := rfl
@[simp] theorem Hub.onPins_events (g : Pins → Pins) (h : Hub) : (h.onPins g).events = h.events := rfl
@[simp] theorem Hub.onPins_store (g : Pins → Pins) (h : Hub) : (h.onPins g).store = h.store := rfl
@[simp] theorem Hub.onPins_freeCount (g : Pins → Pins) (h : Hub) : (h.onPins g).freeCount = h.freeCount := rfl

@[simp] theorem Hub.onSensing_clock (g : Sensing → Sensing) (h : Hub) : (h.onSensing g).clock = h.clock := rfl
@[simp] theorem Hub.onSensing_pins (g : Sensing → Sensing) (h : Hub) : (h.onSensing g).pins = h.pins := rfl
@[simp] theorem Hub.onSensing_sensing (g : Sensing → Sensing) (h : Hub) : (h.onSensing g).sensing = g h.sensing := rfl
@[simp] theorem Hub.onSensing_path (g : Sensing → Sensing) (h : Hub) : (h.onSensing g).path = h.path := rfl
@[simp] theorem Hub.onSensing_steering (g : Sensing → Sensing) (h : Hub) : (h.onSensing g).steering = h.steering := rfl
@[simp] theorem Hub.onSensing_joints (g : Sensing → Sensing) (h : Hub) : (h.onSensing g).joints = h.joints := rfl
@[simp] theorem Hub.onSensing_brake (g : Sensing → Sensing) (h : Hub) : (h.onSensing g).brake = h.brake := rfl
@[simp] theorem Hub.onSensing_level (g : Sensing → Sensing) (h : Hub) : (h.onSensing g).level = h.level := rfl
@[simp] theorem Hub.onSensing_kneel (g : Sensing → Sensing) (h : Hub) : (h.onSensing g).kneel = h.kneel := rfl
@[simp] theorem Hub.onSensing_doors (g : Sensing → Sensing) (h : Hub) : (h.onSensing g).doors = h.doors := rfl
@[simp] theorem Hub.onSensing_link (g : Sensing → Sensing) (h : Hub) : (h.onSensing g).link = h.link := rfl
@[simp] theorem Hub.onSensing_ports (g : Sensing → Sensing) (h : Hub) : (h.onSensing g).ports = h.ports := rfl
@[simp] theorem Hub.onSensing_access (g : Sensing → Sensing) (h : Hub) : (h.onSensing g).access = h.access := rfl
@[simp] theorem Hub.onSensing_events (g : Sensing → Sensing) (h : Hub) : (h.onSensing g).events = h.events := rfl
@[simp] theorem Hub.onSensing_store (g : Sensing → Sensing) (h : Hub) : (h.onSensing g).store = h.store := rfl
@[simp] theorem Hub.onSensing_freeCount (g : Sensing → Sensing) (h : Hub) : (h.onSensing g).freeCount = h.freeCount := rfl

@[simp] theorem Hub.onPath_clock (g : PathMemory → PathMemory) (h : Hub) : (h.onPath g).clock = h.clock := rfl
@[simp] theorem Hub.onPath_pins (g : PathMemory → PathMemory) (h : Hub) : (h.onPath g).pins = h.pins := rfl
@[simp] theorem Hub.onPath_sensing (g : PathMemory → PathMemory) (h : Hub) : (h.onPath g).sensing = h.sensing := rfl
@[simp] theorem Hub.onPath_path (g : PathMemory → PathMemory) (h : Hub) : (h.onPath g).path = g h.path := rfl
@[simp] theorem Hub.onPath_steering (g : PathMemory → PathMemory) (h : Hub) : (h.onPath g).steering = h.steering := rfl
@[simp] theorem Hub.onPath_joints (g : PathMemory → PathMemory) (h : Hub) : (h.onPath g).joints = h.joints := rfl
@[simp] theorem Hub.onPath_brake (g : PathMemory → PathMemory) (h : Hub) : (h.onPath g).brake = h.brake := rfl
@[simp] theorem Hub.onPath_level (g : PathMemory → PathMemory) (h : Hub) : (h.onPath g).level = h.level := rfl
@[simp] theorem Hub.onPath_kneel (g : PathMemory → PathMemory) (h : Hub) : (h.onPath g).kneel = h.kneel := rfl
@[simp] theorem Hub.onPath_doors (g : PathMemory → PathMemory) (h : Hub) : (h.onPath g).doors = h.doors := rfl
@[simp] theorem Hub.onPath_link (g : PathMemory → PathMemory) (h : Hub) : (h.onPath g).link = h.link := rfl
@[simp] theorem Hub.onPath_ports (g : PathMemory → PathMemory) (h : Hub) : (h.onPath g).ports = h.ports := rfl
@[simp] theorem Hub.onPath_access (g : PathMemory → PathMemory) (h : Hub) : (h.onPath g).access = h.access := rfl
@[simp] theorem Hub.onPath_events (g : PathMemory → PathMemory) (h : Hub) : (h.onPath g).events = h.events := rfl
@[simp] theorem Hub.onPath_store (g : PathMemory → PathMemory) (h : Hub) : (h.onPath g).store = h.store := rfl
@[simp] theorem Hub.onPath_freeCount (g : PathMemory → PathMemory) (h : Hub) : (h.onPath g).freeCount = h.freeCount := rfl

@[simp] theorem Hub.onSteering_clock (g : Steering → Steering) (h : Hub) : (h.onSteering g).clock = h.clock := rfl
@[simp] theorem Hub.onSteering_pins (g : Steering → Steering) (h : Hub) : (h.onSteering g).pins = h.pins := rfl
@[simp] theorem Hub.onSteering_sensing (g : Steering → Steering) (h : Hub) : (h.onSteering g).sensing = h.sensing := rfl
@[simp] theorem Hub.onSteering_path (g : Steering → Steering) (h : Hub) : (h.onSteering g).path = h.path := rfl
@[simp] theorem Hub.onSteering_steering (g : Steering → Steering) (h : Hub) : (h.onSteering g).steering = g h.steering := rfl
@[simp] theorem Hub.onSteering_joints (g : Steering → Steering) (h : Hub) : (h.onSteering g).joints = h.joints := rfl
@[simp] theorem Hub.onSteering_brake (g : Steering → Steering) (h : Hub) : (h.onSteering g).brake = h.brake := rfl
@[simp] theorem Hub.onSteering_level (g : Steering → Steering) (h : Hub) : (h.onSteering g).level = h.level := rfl
@[simp] theorem Hub.onSteering_kneel (g : Steering → Steering) (h : Hub) : (h.onSteering g).kneel = h.kneel := rfl
@[simp] theorem Hub.onSteering_doors (g : Steering → Steering) (h : Hub) : (h.onSteering g).doors = h.doors := rfl
@[simp] theorem Hub.onSteering_link (g : Steering → Steering) (h : Hub) : (h.onSteering g).link = h.link := rfl
@[simp] theorem Hub.onSteering_ports (g : Steering → Steering) (h : Hub) : (h.onSteering g).ports = h.ports := rfl
@[simp] theorem Hub.onSteering_access (g : Steering → Steering) (h : Hub) : (h.onSteering g).access = h.access := rfl
@[simp] theorem Hub.onSteering_events (g : Steering → Steering) (h : Hub) : (h.onSteering g).events = h.events := rfl
@[simp] theorem Hub.onSteering_store (g : Steering → Steering) (h : Hub) : (h.onSteering g).store = h.store := rfl
@[simp] theorem Hub.onSteering_freeCount (g : Steering → Steering) (h : Hub) : (h.onSteering g).freeCount = h.freeCount := rfl

@[simp] theorem Hub.onJoints_clock (g : JointUnit → JointUnit) (h : Hub) : (h.onJoints g).clock = h.clock := rfl
@[simp] theorem Hub.onJoints_pins (g : JointUnit → JointUnit) (h : Hub) : (h.onJoints g).pins = h.pins := rfl
@[simp] theorem Hub.onJoints_sensing (g : JointUnit → JointUnit) (h : Hub) : (h.onJoints g).sensing = h.sensing := rfl
@[simp] theorem Hub.onJoints_path (g : JointUnit → JointUnit) (h : Hub) : (h.onJoints g).path = h.path := rfl
@[simp] theorem Hub.onJoints_steering (g : JointUnit → JointUnit) (h : Hub) : (h.onJoints g).steering = h.steering := rfl
@[simp] theorem Hub.onJoints_joints (g : JointUnit → JointUnit) (h : Hub) : (h.onJoints g).joints = g h.joints := rfl
@[simp] theorem Hub.onJoints_brake (g : JointUnit → JointUnit) (h : Hub) : (h.onJoints g).brake = h.brake := rfl
@[simp] theorem Hub.onJoints_level (g : JointUnit → JointUnit) (h : Hub) : (h.onJoints g).level = h.level := rfl
@[simp] theorem Hub.onJoints_kneel (g : JointUnit → JointUnit) (h : Hub) : (h.onJoints g).kneel = h.kneel := rfl
@[simp] theorem Hub.onJoints_doors (g : JointUnit → JointUnit) (h : Hub) : (h.onJoints g).doors = h.doors := rfl
@[simp] theorem Hub.onJoints_link (g : JointUnit → JointUnit) (h : Hub) : (h.onJoints g).link = h.link := rfl
@[simp] theorem Hub.onJoints_ports (g : JointUnit → JointUnit) (h : Hub) : (h.onJoints g).ports = h.ports := rfl
@[simp] theorem Hub.onJoints_access (g : JointUnit → JointUnit) (h : Hub) : (h.onJoints g).access = h.access := rfl
@[simp] theorem Hub.onJoints_events (g : JointUnit → JointUnit) (h : Hub) : (h.onJoints g).events = h.events := rfl
@[simp] theorem Hub.onJoints_store (g : JointUnit → JointUnit) (h : Hub) : (h.onJoints g).store = h.store := rfl
@[simp] theorem Hub.onJoints_freeCount (g : JointUnit → JointUnit) (h : Hub) : (h.onJoints g).freeCount = h.freeCount := rfl

@[simp] theorem Hub.onBrake_clock (g : Brake → Brake) (h : Hub) : (h.onBrake g).clock = h.clock := rfl
@[simp] theorem Hub.onBrake_pins (g : Brake → Brake) (h : Hub) : (h.onBrake g).pins = h.pins := rfl
@[simp] theorem Hub.onBrake_sensing (g : Brake → Brake) (h : Hub) : (h.onBrake g).sensing = h.sensing := rfl
@[simp] theorem Hub.onBrake_path (g : Brake → Brake) (h : Hub) : (h.onBrake g).path = h.path := rfl
@[simp] theorem Hub.onBrake_steering (g : Brake → Brake) (h : Hub) : (h.onBrake g).steering = h.steering := rfl
@[simp] theorem Hub.onBrake_joints (g : Brake → Brake) (h : Hub) : (h.onBrake g).joints = h.joints := rfl
@[simp] theorem Hub.onBrake_brake (g : Brake → Brake) (h : Hub) : (h.onBrake g).brake = g h.brake := rfl
@[simp] theorem Hub.onBrake_level (g : Brake → Brake) (h : Hub) : (h.onBrake g).level = h.level := rfl
@[simp] theorem Hub.onBrake_kneel (g : Brake → Brake) (h : Hub) : (h.onBrake g).kneel = h.kneel := rfl
@[simp] theorem Hub.onBrake_doors (g : Brake → Brake) (h : Hub) : (h.onBrake g).doors = h.doors := rfl
@[simp] theorem Hub.onBrake_link (g : Brake → Brake) (h : Hub) : (h.onBrake g).link = h.link := rfl
@[simp] theorem Hub.onBrake_ports (g : Brake → Brake) (h : Hub) : (h.onBrake g).ports = h.ports := rfl
@[simp] theorem Hub.onBrake_access (g : Brake → Brake) (h : Hub) : (h.onBrake g).access = h.access := rfl
@[simp] theorem Hub.onBrake_events (g : Brake → Brake) (h : Hub) : (h.onBrake g).events = h.events := rfl
@[simp] theorem Hub.onBrake_store (g : Brake → Brake) (h : Hub) : (h.onBrake g).store = h.store := rfl
@[simp] theorem Hub.onBrake_freeCount (g : Brake → Brake) (h : Hub) : (h.onBrake g).freeCount = h.freeCount := rfl

@[simp] theorem Hub.onLevel_clock (g : Levelling → Levelling) (h : Hub) : (h.onLevel g).clock = h.clock := rfl
@[simp] theorem Hub.onLevel_pins (g : Levelling → Levelling) (h : Hub) : (h.onLevel g).pins = h.pins := rfl
@[simp] theorem Hub.onLevel_sensing (g : Levelling → Levelling) (h : Hub) : (h.onLevel g).sensing = h.sensing := rfl
@[simp] theorem Hub.onLevel_path (g : Levelling → Levelling) (h : Hub) : (h.onLevel g).path = h.path := rfl
@[simp] theorem Hub.onLevel_steering (g : Levelling → Levelling) (h : Hub) : (h.onLevel g).steering = h.steering := rfl
@[simp] theorem Hub.onLevel_joints (g : Levelling → Levelling) (h : Hub) : (h.onLevel g).joints = h.joints := rfl
@[simp] theorem Hub.onLevel_brake (g : Levelling → Levelling) (h : Hub) : (h.onLevel g).brake = h.brake := rfl
@[simp] theorem Hub.onLevel_level (g : Levelling → Levelling) (h : Hub) : (h.onLevel g).level = g h.level := rfl
@[simp] theorem Hub.onLevel_kneel (g : Levelling → Levelling) (h : Hub) : (h.onLevel g).kneel = h.kneel := rfl
@[simp] theorem Hub.onLevel_doors (g : Levelling → Levelling) (h : Hub) : (h.onLevel g).doors = h.doors := rfl
@[simp] theorem Hub.onLevel_link (g : Levelling → Levelling) (h : Hub) : (h.onLevel g).link = h.link := rfl
@[simp] theorem Hub.onLevel_ports (g : Levelling → Levelling) (h : Hub) : (h.onLevel g).ports = h.ports := rfl
@[simp] theorem Hub.onLevel_access (g : Levelling → Levelling) (h : Hub) : (h.onLevel g).access = h.access := rfl
@[simp] theorem Hub.onLevel_events (g : Levelling → Levelling) (h : Hub) : (h.onLevel g).events = h.events := rfl
@[simp] theorem Hub.onLevel_store (g : Levelling → Levelling) (h : Hub) : (h.onLevel g).store = h.store := rfl
@[simp] theorem Hub.onLevel_freeCount (g : Levelling → Levelling) (h : Hub) : (h.onLevel g).freeCount = h.freeCount := rfl

@[simp] theorem Hub.onKneel_clock (g : Kneel → Kneel) (h : Hub) : (h.onKneel g).clock = h.clock := rfl
@[simp] theorem Hub.onKneel_pins (g : Kneel → Kneel) (h : Hub) : (h.onKneel g).pins = h.pins := rfl
@[simp] theorem Hub.onKneel_sensing (g : Kneel → Kneel) (h : Hub) : (h.onKneel g).sensing = h.sensing := rfl
@[simp] theorem Hub.onKneel_path (g : Kneel → Kneel) (h : Hub) : (h.onKneel g).path = h.path := rfl
@[simp] theorem Hub.onKneel_steering (g : Kneel → Kneel) (h : Hub) : (h.onKneel g).steering = h.steering := rfl
@[simp] theorem Hub.onKneel_joints (g : Kneel → Kneel) (h : Hub) : (h.onKneel g).joints = h.joints := rfl
@[simp] theorem Hub.onKneel_brake (g : Kneel → Kneel) (h : Hub) : (h.onKneel g).brake = h.brake := rfl
@[simp] theorem Hub.onKneel_level (g : Kneel → Kneel) (h : Hub) : (h.onKneel g).level = h.level := rfl
@[simp] theorem Hub.onKneel_kneel (g : Kneel → Kneel) (h : Hub) : (h.onKneel g).kneel = g h.kneel := rfl
@[simp] theorem Hub.onKneel_doors (g : Kneel → Kneel) (h : Hub) : (h.onKneel g).doors = h.doors := rfl
@[simp] theorem Hub.onKneel_link (g : Kneel → Kneel) (h : Hub) : (h.onKneel g).link = h.link := rfl
@[simp] theorem Hub.onKneel_ports (g : Kneel → Kneel) (h : Hub) : (h.onKneel g).ports = h.ports := rfl
@[simp] theorem Hub.onKneel_access (g : Kneel → Kneel) (h : Hub) : (h.onKneel g).access = h.access := rfl
@[simp] theorem Hub.onKneel_events (g : Kneel → Kneel) (h : Hub) : (h.onKneel g).events = h.events := rfl
@[simp] theorem Hub.onKneel_store (g : Kneel → Kneel) (h : Hub) : (h.onKneel g).store = h.store := rfl
@[simp] theorem Hub.onKneel_freeCount (g : Kneel → Kneel) (h : Hub) : (h.onKneel g).freeCount = h.freeCount := rfl

@[simp] theorem Hub.onDoors_clock (g : DoorUnit → DoorUnit) (h : Hub) : (h.onDoors g).clock = h.clock := rfl
@[simp] theorem Hub.onDoors_pins (g : DoorUnit → DoorUnit) (h : Hub) : (h.onDoors g).pins = h.pins := rfl
@[simp] theorem Hub.onDoors_sensing (g : DoorUnit → DoorUnit) (h : Hub) : (h.onDoors g).sensing = h.sensing := rfl
@[simp] theorem Hub.onDoors_path (g : DoorUnit → DoorUnit) (h : Hub) : (h.onDoors g).path = h.path := rfl
@[simp] theorem Hub.onDoors_steering (g : DoorUnit → DoorUnit) (h : Hub) : (h.onDoors g).steering = h.steering := rfl
@[simp] theorem Hub.onDoors_joints (g : DoorUnit → DoorUnit) (h : Hub) : (h.onDoors g).joints = h.joints := rfl
@[simp] theorem Hub.onDoors_brake (g : DoorUnit → DoorUnit) (h : Hub) : (h.onDoors g).brake = h.brake := rfl
@[simp] theorem Hub.onDoors_level (g : DoorUnit → DoorUnit) (h : Hub) : (h.onDoors g).level = h.level := rfl
@[simp] theorem Hub.onDoors_kneel (g : DoorUnit → DoorUnit) (h : Hub) : (h.onDoors g).kneel = h.kneel := rfl
@[simp] theorem Hub.onDoors_doors (g : DoorUnit → DoorUnit) (h : Hub) : (h.onDoors g).doors = g h.doors := rfl
@[simp] theorem Hub.onDoors_link (g : DoorUnit → DoorUnit) (h : Hub) : (h.onDoors g).link = h.link := rfl
@[simp] theorem Hub.onDoors_ports (g : DoorUnit → DoorUnit) (h : Hub) : (h.onDoors g).ports = h.ports := rfl
@[simp] theorem Hub.onDoors_access (g : DoorUnit → DoorUnit) (h : Hub) : (h.onDoors g).access = h.access := rfl
@[simp] theorem Hub.onDoors_events (g : DoorUnit → DoorUnit) (h : Hub) : (h.onDoors g).events = h.events := rfl
@[simp] theorem Hub.onDoors_store (g : DoorUnit → DoorUnit) (h : Hub) : (h.onDoors g).store = h.store := rfl
@[simp] theorem Hub.onDoors_freeCount (g : DoorUnit → DoorUnit) (h : Hub) : (h.onDoors g).freeCount = h.freeCount := rfl

@[simp] theorem Hub.onLink_clock (g : Link → Link) (h : Hub) : (h.onLink g).clock = h.clock := rfl
@[simp] theorem Hub.onLink_pins (g : Link → Link) (h : Hub) : (h.onLink g).pins = h.pins := rfl
@[simp] theorem Hub.onLink_sensing (g : Link → Link) (h : Hub) : (h.onLink g).sensing = h.sensing := rfl
@[simp] theorem Hub.onLink_path (g : Link → Link) (h : Hub) : (h.onLink g).path = h.path := rfl
@[simp] theorem Hub.onLink_steering (g : Link → Link) (h : Hub) : (h.onLink g).steering = h.steering := rfl
@[simp] theorem Hub.onLink_joints (g : Link → Link) (h : Hub) : (h.onLink g).joints = h.joints := rfl
@[simp] theorem Hub.onLink_brake (g : Link → Link) (h : Hub) : (h.onLink g).brake = h.brake := rfl
@[simp] theorem Hub.onLink_level (g : Link → Link) (h : Hub) : (h.onLink g).level = h.level := rfl
@[simp] theorem Hub.onLink_kneel (g : Link → Link) (h : Hub) : (h.onLink g).kneel = h.kneel := rfl
@[simp] theorem Hub.onLink_doors (g : Link → Link) (h : Hub) : (h.onLink g).doors = h.doors := rfl
@[simp] theorem Hub.onLink_link (g : Link → Link) (h : Hub) : (h.onLink g).link = g h.link := rfl
@[simp] theorem Hub.onLink_ports (g : Link → Link) (h : Hub) : (h.onLink g).ports = h.ports := rfl
@[simp] theorem Hub.onLink_access (g : Link → Link) (h : Hub) : (h.onLink g).access = h.access := rfl
@[simp] theorem Hub.onLink_events (g : Link → Link) (h : Hub) : (h.onLink g).events = h.events := rfl
@[simp] theorem Hub.onLink_store (g : Link → Link) (h : Hub) : (h.onLink g).store = h.store := rfl
@[simp] theorem Hub.onLink_freeCount (g : Link → Link) (h : Hub) : (h.onLink g).freeCount = h.freeCount := rfl

@[simp] theorem Hub.onPorts_clock (g : PerPort PortUnit → PerPort PortUnit) (h : Hub) : (h.onPorts g).clock = h.clock := rfl
@[simp] theorem Hub.onPorts_pins (g : PerPort PortUnit → PerPort PortUnit) (h : Hub) : (h.onPorts g).pins = h.pins := rfl
@[simp] theorem Hub.onPorts_sensing (g : PerPort PortUnit → PerPort PortUnit) (h : Hub) : (h.onPorts g).sensing = h.sensing := rfl
@[simp] theorem Hub.onPorts_path (g : PerPort PortUnit → PerPort PortUnit) (h : Hub) : (h.onPorts g).path = h.path := rfl
@[simp] theorem Hub.onPorts_steering (g : PerPort PortUnit → PerPort PortUnit) (h : Hub) : (h.onPorts g).steering = h.steering := rfl
@[simp] theorem Hub.onPorts_joints (g : PerPort PortUnit → PerPort PortUnit) (h : Hub) : (h.onPorts g).joints = h.joints := rfl
@[simp] theorem Hub.onPorts_brake (g : PerPort PortUnit → PerPort PortUnit) (h : Hub) : (h.onPorts g).brake = h.brake := rfl
@[simp] theorem Hub.onPorts_level (g : PerPort PortUnit → PerPort PortUnit) (h : Hub) : (h.onPorts g).level = h.level := rfl
@[simp] theorem Hub.onPorts_kneel (g : PerPort PortUnit → PerPort PortUnit) (h : Hub) : (h.onPorts g).kneel = h.kneel := rfl
@[simp] theorem Hub.onPorts_doors (g : PerPort PortUnit → PerPort PortUnit) (h : Hub) : (h.onPorts g).doors = h.doors := rfl
@[simp] theorem Hub.onPorts_link (g : PerPort PortUnit → PerPort PortUnit) (h : Hub) : (h.onPorts g).link = h.link := rfl
@[simp] theorem Hub.onPorts_ports (g : PerPort PortUnit → PerPort PortUnit) (h : Hub) : (h.onPorts g).ports = g h.ports := rfl
@[simp] theorem Hub.onPorts_access (g : PerPort PortUnit → PerPort PortUnit) (h : Hub) : (h.onPorts g).access = h.access := rfl
@[simp] theorem Hub.onPorts_events (g : PerPort PortUnit → PerPort PortUnit) (h : Hub) : (h.onPorts g).events = h.events := rfl
@[simp] theorem Hub.onPorts_store (g : PerPort PortUnit → PerPort PortUnit) (h : Hub) : (h.onPorts g).store = h.store := rfl
@[simp] theorem Hub.onPorts_freeCount (g : PerPort PortUnit → PerPort PortUnit) (h : Hub) : (h.onPorts g).freeCount = h.freeCount := rfl

@[simp] theorem Hub.onAccess_clock (g : Access → Access) (h : Hub) : (h.onAccess g).clock = h.clock := rfl
@[simp] theorem Hub.onAccess_pins (g : Access → Access) (h : Hub) : (h.onAccess g).pins = h.pins := rfl
@[simp] theorem Hub.onAccess_sensing (g : Access → Access) (h : Hub) : (h.onAccess g).sensing = h.sensing := rfl
@[simp] theorem Hub.onAccess_path (g : Access → Access) (h : Hub) : (h.onAccess g).path = h.path := rfl
@[simp] theorem Hub.onAccess_steering (g : Access → Access) (h : Hub) : (h.onAccess g).steering = h.steering := rfl
@[simp] theorem Hub.onAccess_joints (g : Access → Access) (h : Hub) : (h.onAccess g).joints = h.joints := rfl
@[simp] theorem Hub.onAccess_brake (g : Access → Access) (h : Hub) : (h.onAccess g).brake = h.brake := rfl
@[simp] theorem Hub.onAccess_level (g : Access → Access) (h : Hub) : (h.onAccess g).level = h.level := rfl
@[simp] theorem Hub.onAccess_kneel (g : Access → Access) (h : Hub) : (h.onAccess g).kneel = h.kneel := rfl
@[simp] theorem Hub.onAccess_doors (g : Access → Access) (h : Hub) : (h.onAccess g).doors = h.doors := rfl
@[simp] theorem Hub.onAccess_link (g : Access → Access) (h : Hub) : (h.onAccess g).link = h.link := rfl
@[simp] theorem Hub.onAccess_ports (g : Access → Access) (h : Hub) : (h.onAccess g).ports = h.ports := rfl
@[simp] theorem Hub.onAccess_access (g : Access → Access) (h : Hub) : (h.onAccess g).access = g h.access := rfl
@[simp] theorem Hub.onAccess_events (g : Access → Access) (h : Hub) : (h.onAccess g).events = h.events := rfl
@[simp] theorem Hub.onAccess_store (g : Access → Access) (h : Hub) : (h.onAccess g).store = h.store := rfl
@[simp] theorem Hub.onAccess_freeCount (g : Access → Access) (h : Hub) : (h.onAccess g).freeCount = h.freeCount := rfl

@[simp] theorem Hub.onEvents_clock (g : EventUnit → EventUnit) (h : Hub) : (h.onEvents g).clock = h.clock := rfl
@[simp] theorem Hub.onEvents_pins (g : EventUnit → EventUnit) (h : Hub) : (h.onEvents g).pins = h.pins := rfl
@[simp] theorem Hub.onEvents_sensing (g : EventUnit → EventUnit) (h : Hub) : (h.onEvents g).sensing = h.sensing := rfl
@[simp] theorem Hub.onEvents_path (g : EventUnit → EventUnit) (h : Hub) : (h.onEvents g).path = h.path := rfl
@[simp] theorem Hub.onEvents_steering (g : EventUnit → EventUnit) (h : Hub) : (h.onEvents g).steering = h.steering := rfl
@[simp] theorem Hub.onEvents_joints (g : EventUnit → EventUnit) (h : Hub) : (h.onEvents g).joints = h.joints := rfl
@[simp] theorem Hub.onEvents_brake (g : EventUnit → EventUnit) (h : Hub) : (h.onEvents g).brake = h.brake := rfl
@[simp] theorem Hub.onEvents_level (g : EventUnit → EventUnit) (h : Hub) : (h.onEvents g).level = h.level := rfl
@[simp] theorem Hub.onEvents_kneel (g : EventUnit → EventUnit) (h : Hub) : (h.onEvents g).kneel = h.kneel := rfl
@[simp] theorem Hub.onEvents_doors (g : EventUnit → EventUnit) (h : Hub) : (h.onEvents g).doors = h.doors := rfl
@[simp] theorem Hub.onEvents_link (g : EventUnit → EventUnit) (h : Hub) : (h.onEvents g).link = h.link := rfl
@[simp] theorem Hub.onEvents_ports (g : EventUnit → EventUnit) (h : Hub) : (h.onEvents g).ports = h.ports := rfl
@[simp] theorem Hub.onEvents_access (g : EventUnit → EventUnit) (h : Hub) : (h.onEvents g).access = h.access := rfl
@[simp] theorem Hub.onEvents_events (g : EventUnit → EventUnit) (h : Hub) : (h.onEvents g).events = g h.events := rfl
@[simp] theorem Hub.onEvents_store (g : EventUnit → EventUnit) (h : Hub) : (h.onEvents g).store = h.store := rfl
@[simp] theorem Hub.onEvents_freeCount (g : EventUnit → EventUnit) (h : Hub) : (h.onEvents g).freeCount = h.freeCount := rfl

@[simp] theorem Hub.onStore_clock (g : Store → Store) (h : Hub) : (h.onStore g).clock = h.clock := rfl
@[simp] theorem Hub.onStore_pins (g : Store → Store) (h : Hub) : (h.onStore g).pins = h.pins := rfl
@[simp] theorem Hub.onStore_sensing (g : Store → Store) (h : Hub) : (h.onStore g).sensing = h.sensing := rfl
@[simp] theorem Hub.onStore_path (g : Store → Store) (h : Hub) : (h.onStore g).path = h.path := rfl
@[simp] theorem Hub.onStore_steering (g : Store → Store) (h : Hub) : (h.onStore g).steering = h.steering := rfl
@[simp] theorem Hub.onStore_joints (g : Store → Store) (h : Hub) : (h.onStore g).joints = h.joints := rfl
@[simp] theorem Hub.onStore_brake (g : Store → Store) (h : Hub) : (h.onStore g).brake = h.brake := rfl
@[simp] theorem Hub.onStore_level (g : Store → Store) (h : Hub) : (h.onStore g).level = h.level := rfl
@[simp] theorem Hub.onStore_kneel (g : Store → Store) (h : Hub) : (h.onStore g).kneel = h.kneel := rfl
@[simp] theorem Hub.onStore_doors (g : Store → Store) (h : Hub) : (h.onStore g).doors = h.doors := rfl
@[simp] theorem Hub.onStore_link (g : Store → Store) (h : Hub) : (h.onStore g).link = h.link := rfl
@[simp] theorem Hub.onStore_ports (g : Store → Store) (h : Hub) : (h.onStore g).ports = h.ports := rfl
@[simp] theorem Hub.onStore_access (g : Store → Store) (h : Hub) : (h.onStore g).access = h.access := rfl
@[simp] theorem Hub.onStore_events (g : Store → Store) (h : Hub) : (h.onStore g).events = h.events := rfl
@[simp] theorem Hub.onStore_store (g : Store → Store) (h : Hub) : (h.onStore g).store = g h.store := rfl
@[simp] theorem Hub.onStore_freeCount (g : Store → Store) (h : Hub) : (h.onStore g).freeCount = h.freeCount := rfl

@[simp] theorem Hub.onPort_clock (p : Port) (g : PortUnit → PortUnit) (h : Hub) : (h.onPort p g).clock = h.clock := rfl
@[simp] theorem Hub.onPort_pins (p : Port) (g : PortUnit → PortUnit) (h : Hub) : (h.onPort p g).pins = h.pins := rfl
@[simp] theorem Hub.onPort_sensing (p : Port) (g : PortUnit → PortUnit) (h : Hub) : (h.onPort p g).sensing = h.sensing := rfl
@[simp] theorem Hub.onPort_path (p : Port) (g : PortUnit → PortUnit) (h : Hub) : (h.onPort p g).path = h.path := rfl
@[simp] theorem Hub.onPort_steering (p : Port) (g : PortUnit → PortUnit) (h : Hub) : (h.onPort p g).steering = h.steering := rfl
@[simp] theorem Hub.onPort_joints (p : Port) (g : PortUnit → PortUnit) (h : Hub) : (h.onPort p g).joints = h.joints := rfl
@[simp] theorem Hub.onPort_brake (p : Port) (g : PortUnit → PortUnit) (h : Hub) : (h.onPort p g).brake = h.brake := rfl
@[simp] theorem Hub.onPort_level (p : Port) (g : PortUnit → PortUnit) (h : Hub) : (h.onPort p g).level = h.level := rfl
@[simp] theorem Hub.onPort_kneel (p : Port) (g : PortUnit → PortUnit) (h : Hub) : (h.onPort p g).kneel = h.kneel := rfl
@[simp] theorem Hub.onPort_doors (p : Port) (g : PortUnit → PortUnit) (h : Hub) : (h.onPort p g).doors = h.doors := rfl
@[simp] theorem Hub.onPort_link (p : Port) (g : PortUnit → PortUnit) (h : Hub) : (h.onPort p g).link = h.link := rfl
@[simp] theorem Hub.onPort_access (p : Port) (g : PortUnit → PortUnit) (h : Hub) : (h.onPort p g).access = h.access := rfl
@[simp] theorem Hub.onPort_events (p : Port) (g : PortUnit → PortUnit) (h : Hub) : (h.onPort p g).events = h.events := rfl
@[simp] theorem Hub.onPort_store (p : Port) (g : PortUnit → PortUnit) (h : Hub) : (h.onPort p g).store = h.store := rfl
@[simp] theorem Hub.onPort_freeCount (p : Port) (g : PortUnit → PortUnit) (h : Hub) : (h.onPort p g).freeCount = h.freeCount := rfl

@[simp] theorem Hub.onAxleSteer_clock (t : Trailing) (g : AxleSteer → AxleSteer) (h : Hub) : (h.onAxleSteer t g).clock = h.clock := rfl
@[simp] theorem Hub.onAxleSteer_pins (t : Trailing) (g : AxleSteer → AxleSteer) (h : Hub) : (h.onAxleSteer t g).pins = h.pins := rfl
@[simp] theorem Hub.onAxleSteer_sensing (t : Trailing) (g : AxleSteer → AxleSteer) (h : Hub) : (h.onAxleSteer t g).sensing = h.sensing := rfl
@[simp] theorem Hub.onAxleSteer_path (t : Trailing) (g : AxleSteer → AxleSteer) (h : Hub) : (h.onAxleSteer t g).path = h.path := rfl
@[simp] theorem Hub.onAxleSteer_joints (t : Trailing) (g : AxleSteer → AxleSteer) (h : Hub) : (h.onAxleSteer t g).joints = h.joints := rfl
@[simp] theorem Hub.onAxleSteer_brake (t : Trailing) (g : AxleSteer → AxleSteer) (h : Hub) : (h.onAxleSteer t g).brake = h.brake := rfl
@[simp] theorem Hub.onAxleSteer_level (t : Trailing) (g : AxleSteer → AxleSteer) (h : Hub) : (h.onAxleSteer t g).level = h.level := rfl
@[simp] theorem Hub.onAxleSteer_kneel (t : Trailing) (g : AxleSteer → AxleSteer) (h : Hub) : (h.onAxleSteer t g).kneel = h.kneel := rfl
@[simp] theorem Hub.onAxleSteer_doors (t : Trailing) (g : AxleSteer → AxleSteer) (h : Hub) : (h.onAxleSteer t g).doors = h.doors := rfl
@[simp] theorem Hub.onAxleSteer_link (t : Trailing) (g : AxleSteer → AxleSteer) (h : Hub) : (h.onAxleSteer t g).link = h.link := rfl
@[simp] theorem Hub.onAxleSteer_ports (t : Trailing) (g : AxleSteer → AxleSteer) (h : Hub) : (h.onAxleSteer t g).ports = h.ports := rfl
@[simp] theorem Hub.onAxleSteer_access (t : Trailing) (g : AxleSteer → AxleSteer) (h : Hub) : (h.onAxleSteer t g).access = h.access := rfl
@[simp] theorem Hub.onAxleSteer_events (t : Trailing) (g : AxleSteer → AxleSteer) (h : Hub) : (h.onAxleSteer t g).events = h.events := rfl
@[simp] theorem Hub.onAxleSteer_store (t : Trailing) (g : AxleSteer → AxleSteer) (h : Hub) : (h.onAxleSteer t g).store = h.store := rfl
@[simp] theorem Hub.onAxleSteer_freeCount (t : Trailing) (g : AxleSteer → AxleSteer) (h : Hub) : (h.onAxleSteer t g).freeCount = h.freeCount := rfl

@[simp] theorem Hub.onAxleBrake_clock (k : Axle) (g : AxleBrake → AxleBrake) (h : Hub) : (h.onAxleBrake k g).clock = h.clock := rfl
@[simp] theorem Hub.onAxleBrake_pins (k : Axle) (g : AxleBrake → AxleBrake) (h : Hub) : (h.onAxleBrake k g).pins = h.pins := rfl
@[simp] theorem Hub.onAxleBrake_sensing (k : Axle) (g : AxleBrake → AxleBrake) (h : Hub) : (h.onAxleBrake k g).sensing = h.sensing := rfl
@[simp] theorem Hub.onAxleBrake_path (k : Axle) (g : AxleBrake → AxleBrake) (h : Hub) : (h.onAxleBrake k g).path = h.path := rfl
@[simp] theorem Hub.onAxleBrake_steering (k : Axle) (g : AxleBrake → AxleBrake) (h : Hub) : (h.onAxleBrake k g).steering = h.steering := rfl
@[simp] theorem Hub.onAxleBrake_joints (k : Axle) (g : AxleBrake → AxleBrake) (h : Hub) : (h.onAxleBrake k g).joints = h.joints := rfl
@[simp] theorem Hub.onAxleBrake_level (k : Axle) (g : AxleBrake → AxleBrake) (h : Hub) : (h.onAxleBrake k g).level = h.level := rfl
@[simp] theorem Hub.onAxleBrake_kneel (k : Axle) (g : AxleBrake → AxleBrake) (h : Hub) : (h.onAxleBrake k g).kneel = h.kneel := rfl
@[simp] theorem Hub.onAxleBrake_doors (k : Axle) (g : AxleBrake → AxleBrake) (h : Hub) : (h.onAxleBrake k g).doors = h.doors := rfl
@[simp] theorem Hub.onAxleBrake_link (k : Axle) (g : AxleBrake → AxleBrake) (h : Hub) : (h.onAxleBrake k g).link = h.link := rfl
@[simp] theorem Hub.onAxleBrake_ports (k : Axle) (g : AxleBrake → AxleBrake) (h : Hub) : (h.onAxleBrake k g).ports = h.ports := rfl
@[simp] theorem Hub.onAxleBrake_access (k : Axle) (g : AxleBrake → AxleBrake) (h : Hub) : (h.onAxleBrake k g).access = h.access := rfl
@[simp] theorem Hub.onAxleBrake_events (k : Axle) (g : AxleBrake → AxleBrake) (h : Hub) : (h.onAxleBrake k g).events = h.events := rfl
@[simp] theorem Hub.onAxleBrake_store (k : Axle) (g : AxleBrake → AxleBrake) (h : Hub) : (h.onAxleBrake k g).store = h.store := rfl
@[simp] theorem Hub.onAxleBrake_freeCount (k : Axle) (g : AxleBrake → AxleBrake) (h : Hub) : (h.onAxleBrake k g).freeCount = h.freeCount := rfl

@[simp] theorem Hub.onCircuit_clock (c : Circuit) (g : CircuitLevel → CircuitLevel) (h : Hub) : (h.onCircuit c g).clock = h.clock := rfl
@[simp] theorem Hub.onCircuit_pins (c : Circuit) (g : CircuitLevel → CircuitLevel) (h : Hub) : (h.onCircuit c g).pins = h.pins := rfl
@[simp] theorem Hub.onCircuit_sensing (c : Circuit) (g : CircuitLevel → CircuitLevel) (h : Hub) : (h.onCircuit c g).sensing = h.sensing := rfl
@[simp] theorem Hub.onCircuit_path (c : Circuit) (g : CircuitLevel → CircuitLevel) (h : Hub) : (h.onCircuit c g).path = h.path := rfl
@[simp] theorem Hub.onCircuit_steering (c : Circuit) (g : CircuitLevel → CircuitLevel) (h : Hub) : (h.onCircuit c g).steering = h.steering := rfl
@[simp] theorem Hub.onCircuit_joints (c : Circuit) (g : CircuitLevel → CircuitLevel) (h : Hub) : (h.onCircuit c g).joints = h.joints := rfl
@[simp] theorem Hub.onCircuit_brake (c : Circuit) (g : CircuitLevel → CircuitLevel) (h : Hub) : (h.onCircuit c g).brake = h.brake := rfl
@[simp] theorem Hub.onCircuit_kneel (c : Circuit) (g : CircuitLevel → CircuitLevel) (h : Hub) : (h.onCircuit c g).kneel = h.kneel := rfl
@[simp] theorem Hub.onCircuit_doors (c : Circuit) (g : CircuitLevel → CircuitLevel) (h : Hub) : (h.onCircuit c g).doors = h.doors := rfl
@[simp] theorem Hub.onCircuit_link (c : Circuit) (g : CircuitLevel → CircuitLevel) (h : Hub) : (h.onCircuit c g).link = h.link := rfl
@[simp] theorem Hub.onCircuit_ports (c : Circuit) (g : CircuitLevel → CircuitLevel) (h : Hub) : (h.onCircuit c g).ports = h.ports := rfl
@[simp] theorem Hub.onCircuit_access (c : Circuit) (g : CircuitLevel → CircuitLevel) (h : Hub) : (h.onCircuit c g).access = h.access := rfl
@[simp] theorem Hub.onCircuit_events (c : Circuit) (g : CircuitLevel → CircuitLevel) (h : Hub) : (h.onCircuit c g).events = h.events := rfl
@[simp] theorem Hub.onCircuit_store (c : Circuit) (g : CircuitLevel → CircuitLevel) (h : Hub) : (h.onCircuit c g).store = h.store := rfl
@[simp] theorem Hub.onCircuit_freeCount (c : Circuit) (g : CircuitLevel → CircuitLevel) (h : Hub) : (h.onCircuit c g).freeCount = h.freeCount := rfl

@[simp] theorem Hub.onDoor_clock (d : Door) (g : DoorHold → DoorHold) (h : Hub) : (h.onDoor d g).clock = h.clock := rfl
@[simp] theorem Hub.onDoor_pins (d : Door) (g : DoorHold → DoorHold) (h : Hub) : (h.onDoor d g).pins = h.pins := rfl
@[simp] theorem Hub.onDoor_sensing (d : Door) (g : DoorHold → DoorHold) (h : Hub) : (h.onDoor d g).sensing = h.sensing := rfl
@[simp] theorem Hub.onDoor_path (d : Door) (g : DoorHold → DoorHold) (h : Hub) : (h.onDoor d g).path = h.path := rfl
@[simp] theorem Hub.onDoor_steering (d : Door) (g : DoorHold → DoorHold) (h : Hub) : (h.onDoor d g).steering = h.steering := rfl
@[simp] theorem Hub.onDoor_joints (d : Door) (g : DoorHold → DoorHold) (h : Hub) : (h.onDoor d g).joints = h.joints := rfl
@[simp] theorem Hub.onDoor_brake (d : Door) (g : DoorHold → DoorHold) (h : Hub) : (h.onDoor d g).brake = h.brake := rfl
@[simp] theorem Hub.onDoor_level (d : Door) (g : DoorHold → DoorHold) (h : Hub) : (h.onDoor d g).level = h.level := rfl
@[simp] theorem Hub.onDoor_kneel (d : Door) (g : DoorHold → DoorHold) (h : Hub) : (h.onDoor d g).kneel = h.kneel := rfl
@[simp] theorem Hub.onDoor_link (d : Door) (g : DoorHold → DoorHold) (h : Hub) : (h.onDoor d g).link = h.link := rfl
@[simp] theorem Hub.onDoor_ports (d : Door) (g : DoorHold → DoorHold) (h : Hub) : (h.onDoor d g).ports = h.ports := rfl
@[simp] theorem Hub.onDoor_access (d : Door) (g : DoorHold → DoorHold) (h : Hub) : (h.onDoor d g).access = h.access := rfl
@[simp] theorem Hub.onDoor_events (d : Door) (g : DoorHold → DoorHold) (h : Hub) : (h.onDoor d g).events = h.events := rfl
@[simp] theorem Hub.onDoor_store (d : Door) (g : DoorHold → DoorHold) (h : Hub) : (h.onDoor d g).store = h.store := rfl
@[simp] theorem Hub.onDoor_freeCount (d : Door) (g : DoorHold → DoorHold) (h : Hub) : (h.onDoor d g).freeCount = h.freeCount := rfl

@[simp] theorem Hub.onSector_clock (k : SectorId) (g : Sector → Sector) (h : Hub) : (h.onSector k g).clock = h.clock := rfl
@[simp] theorem Hub.onSector_pins (k : SectorId) (g : Sector → Sector) (h : Hub) : (h.onSector k g).pins = h.pins := rfl
@[simp] theorem Hub.onSector_sensing (k : SectorId) (g : Sector → Sector) (h : Hub) : (h.onSector k g).sensing = h.sensing := rfl
@[simp] theorem Hub.onSector_path (k : SectorId) (g : Sector → Sector) (h : Hub) : (h.onSector k g).path = h.path := rfl
@[simp] theorem Hub.onSector_steering (k : SectorId) (g : Sector → Sector) (h : Hub) : (h.onSector k g).steering = h.steering := rfl
@[simp] theorem Hub.onSector_joints (k : SectorId) (g : Sector → Sector) (h : Hub) : (h.onSector k g).joints = h.joints := rfl
@[simp] theorem Hub.onSector_brake (k : SectorId) (g : Sector → Sector) (h : Hub) : (h.onSector k g).brake = h.brake := rfl
@[simp] theorem Hub.onSector_level (k : SectorId) (g : Sector → Sector) (h : Hub) : (h.onSector k g).level = h.level := rfl
@[simp] theorem Hub.onSector_kneel (k : SectorId) (g : Sector → Sector) (h : Hub) : (h.onSector k g).kneel = h.kneel := rfl
@[simp] theorem Hub.onSector_doors (k : SectorId) (g : Sector → Sector) (h : Hub) : (h.onSector k g).doors = h.doors := rfl
@[simp] theorem Hub.onSector_link (k : SectorId) (g : Sector → Sector) (h : Hub) : (h.onSector k g).link = h.link := rfl
@[simp] theorem Hub.onSector_ports (k : SectorId) (g : Sector → Sector) (h : Hub) : (h.onSector k g).ports = h.ports := rfl
@[simp] theorem Hub.onSector_access (k : SectorId) (g : Sector → Sector) (h : Hub) : (h.onSector k g).access = h.access := rfl
@[simp] theorem Hub.onSector_events (k : SectorId) (g : Sector → Sector) (h : Hub) : (h.onSector k g).events = h.events := rfl
@[simp] theorem Hub.onSector_freeCount (k : SectorId) (g : Sector → Sector) (h : Hub) : (h.onSector k g).freeCount = h.freeCount := rfl

@[simp] theorem Hub.onPort_ports (p : Port) (g : PortUnit → PortUnit) (h : Hub) : (h.onPort p g).ports = h.ports.set p (g (h.ports.get p)) := rfl

@[simp] theorem Hub.onAxleSteer_steering_axles (t : Trailing) (g : AxleSteer → AxleSteer) (h : Hub) : (h.onAxleSteer t g).steering.axles = h.steering.axles.set t (g (h.steering.axles.get t)) := rfl
@[simp] theorem Hub.onAxleSteer_steering_periods (t : Trailing) (g : AxleSteer → AxleSteer) (h : Hub) : (h.onAxleSteer t g).steering.periods = h.steering.periods := rfl
@[simp] theorem Hub.onAxleSteer_steering_timer (t : Trailing) (g : AxleSteer → AxleSteer) (h : Hub) : (h.onAxleSteer t g).steering.timer = h.steering.timer := rfl
@[simp] theorem Hub.onAxleSteer_steering_midway (t : Trailing) (g : AxleSteer → AxleSteer) (h : Hub) : (h.onAxleSteer t g).steering.midway = h.steering.midway := rfl

@[simp] theorem Hub.onAxleBrake_brake_axles (k : Axle) (g : AxleBrake → AxleBrake) (h : Hub) : (h.onAxleBrake k g).brake.axles = h.brake.axles.set k (g (h.brake.axles.get k)) := rfl
@[simp] theorem Hub.onAxleBrake_brake_decel (k : Axle) (g : AxleBrake → AxleBrake) (h : Hub) : (h.onAxleBrake k g).brake.decel = h.brake.decel := rfl
@[simp] theorem Hub.onAxleBrake_brake_drive (k : Axle) (g : AxleBrake → AxleBrake) (h : Hub) : (h.onAxleBrake k g).brake.drive = h.brake.drive := rfl
@[simp] theorem Hub.onAxleBrake_brake_lastSeq (k : Axle) (g : AxleBrake → AxleBrake) (h : Hub) : (h.onAxleBrake k g).brake.lastSeq = h.brake.lastSeq := rfl
@[simp] theorem Hub.onAxleBrake_brake_lastPort (k : Axle) (g : AxleBrake → AxleBrake) (h : Hub) : (h.onAxleBrake k g).brake.lastPort = h.brake.lastPort := rfl
@[simp] theorem Hub.onAxleBrake_brake_superseded (k : Axle) (g : AxleBrake → AxleBrake) (h : Hub) : (h.onAxleBrake k g).brake.superseded = h.brake.superseded := rfl
@[simp] theorem Hub.onAxleBrake_brake_age (k : Axle) (g : AxleBrake → AxleBrake) (h : Hub) : (h.onAxleBrake k g).brake.age = h.brake.age := rfl
@[simp] theorem Hub.onAxleBrake_brake_status (k : Axle) (g : AxleBrake → AxleBrake) (h : Hub) : (h.onAxleBrake k g).brake.status = h.brake.status := rfl
@[simp] theorem Hub.onAxleBrake_brake_kneelFreeze (k : Axle) (g : AxleBrake → AxleBrake) (h : Hub) : (h.onAxleBrake k g).brake.kneelFreeze = h.brake.kneelFreeze := rfl
@[simp] theorem Hub.onAxleBrake_brake_halt (k : Axle) (g : AxleBrake → AxleBrake) (h : Hub) : (h.onAxleBrake k g).brake.halt = h.brake.halt := rfl
@[simp] theorem Hub.onAxleBrake_brake_applying (k : Axle) (g : AxleBrake → AxleBrake) (h : Hub) : (h.onAxleBrake k g).brake.applying = h.brake.applying := rfl
@[simp] theorem Hub.onAxleBrake_brake_haltFault (k : Axle) (g : AxleBrake → AxleBrake) (h : Hub) : (h.onAxleBrake k g).brake.haltFault = h.brake.haltFault := rfl
@[simp] theorem Hub.onAxleBrake_brake_periods (k : Axle) (g : AxleBrake → AxleBrake) (h : Hub) : (h.onAxleBrake k g).brake.periods = h.brake.periods := rfl
@[simp] theorem Hub.onAxleBrake_brake_timer (k : Axle) (g : AxleBrake → AxleBrake) (h : Hub) : (h.onAxleBrake k g).brake.timer = h.brake.timer := rfl

@[simp] theorem Hub.onCircuit_level_circuits (c : Circuit) (g : CircuitLevel → CircuitLevel) (h : Hub) : (h.onCircuit c g).level.circuits = h.level.circuits.set c (g (h.level.circuits.get c)) := rfl
@[simp] theorem Hub.onCircuit_level_slots (c : Circuit) (g : CircuitLevel → CircuitLevel) (h : Hub) : (h.onCircuit c g).level.slots = h.level.slots := rfl
@[simp] theorem Hub.onCircuit_level_grants (c : Circuit) (g : CircuitLevel → CircuitLevel) (h : Hub) : (h.onCircuit c g).level.grants = h.level.grants := rfl
@[simp] theorem Hub.onCircuit_level_queue (c : Circuit) (g : CircuitLevel → CircuitLevel) (h : Hub) : (h.onCircuit c g).level.queue = h.level.queue := rfl
@[simp] theorem Hub.onCircuit_level_cut (c : Circuit) (g : CircuitLevel → CircuitLevel) (h : Hub) : (h.onCircuit c g).level.cut = h.level.cut := rfl
@[simp] theorem Hub.onCircuit_level_cutCause (c : Circuit) (g : CircuitLevel → CircuitLevel) (h : Hub) : (h.onCircuit c g).level.cutCause = h.level.cutCause := rfl
@[simp] theorem Hub.onCircuit_level_mismatch (c : Circuit) (g : CircuitLevel → CircuitLevel) (h : Hub) : (h.onCircuit c g).level.mismatch = h.level.mismatch := rfl
@[simp] theorem Hub.onCircuit_level_front (c : Circuit) (g : CircuitLevel → CircuitLevel) (h : Hub) : (h.onCircuit c g).level.front = h.level.front := rfl
@[simp] theorem Hub.onCircuit_level_middle (c : Circuit) (g : CircuitLevel → CircuitLevel) (h : Hub) : (h.onCircuit c g).level.middle = h.level.middle := rfl
@[simp] theorem Hub.onCircuit_level_rear (c : Circuit) (g : CircuitLevel → CircuitLevel) (h : Hub) : (h.onCircuit c g).level.rear = h.level.rear := rfl
@[simp] theorem Hub.onCircuit_level_periods (c : Circuit) (g : CircuitLevel → CircuitLevel) (h : Hub) : (h.onCircuit c g).level.periods = h.level.periods := rfl
@[simp] theorem Hub.onCircuit_level_timer (c : Circuit) (g : CircuitLevel → CircuitLevel) (h : Hub) : (h.onCircuit c g).level.timer = h.level.timer := rfl

@[simp] theorem Hub.onDoor_doors_doors (d : Door) (g : DoorHold → DoorHold) (h : Hub) : (h.onDoor d g).doors.doors = h.doors.doors.set d (g (h.doors.doors.get d)) := rfl
@[simp] theorem Hub.onDoor_doors_condition (d : Door) (g : DoorHold → DoorHold) (h : Hub) : (h.onDoor d g).doors.condition = h.doors.condition := rfl
@[simp] theorem Hub.onDoor_doors_permit (d : Door) (g : DoorHold → DoorHold) (h : Hub) : (h.onDoor d g).doors.permit = h.doors.permit := rfl
@[simp] theorem Hub.onDoor_doors_changes (d : Door) (g : DoorHold → DoorHold) (h : Hub) : (h.onDoor d g).doors.changes = h.doors.changes := rfl

@[simp] theorem Hub.onSector_store_sectors (k : SectorId) (g : Sector → Sector) (h : Hub) : (h.onSector k g).store.sectors = h.store.sectors.set k (g (h.store.sectors.get k)) := rfl
@[simp] theorem Hub.onSector_store_running (k : SectorId) (g : Sector → Sector) (h : Hub) : (h.onSector k g).store.running = h.store.running := rfl
@[simp] theorem Hub.onSector_store_read (k : SectorId) (g : Sector → Sector) (h : Hub) : (h.onSector k g).store.read = h.store.read := rfl
@[simp] theorem Hub.onSector_store_loads (k : SectorId) (g : Sector → Sector) (h : Hub) : (h.onSector k g).store.loads = h.store.loads := rfl
@[simp] theorem Hub.onSector_store_statuses (k : SectorId) (g : Sector → Sector) (h : Hub) : (h.onSector k g).store.statuses = h.store.statuses := rfl
@[simp] theorem Hub.onSector_store_active (k : SectorId) (g : Sector → Sector) (h : Hub) : (h.onSector k g).store.active = h.store.active := rfl

/-! ## Readers after a sub-update -/

@[simp] theorem Hub.port_onPort (p p' : Port) (g : PortUnit → PortUnit) (h : Hub) :
    (h.onPort p g).port p' = if p' = p then g (h.port p) else h.port p' := by
  cases p <;> cases p' <;> rfl

@[simp] theorem Hub.axleSteer_onAxleSteer (t t' : Trailing) (g : AxleSteer → AxleSteer) (h : Hub) :
    (h.onAxleSteer t g).axleSteer t' = if t' = t then g (h.axleSteer t) else h.axleSteer t' := by
  cases t <;> cases t' <;> rfl

@[simp] theorem Hub.axleBrake_onAxleBrake (k k' : Axle) (g : AxleBrake → AxleBrake) (h : Hub) :
    (h.onAxleBrake k g).axleBrake k' = if k' = k then g (h.axleBrake k) else h.axleBrake k' := by
  cases k <;> cases k' <;> rfl

@[simp] theorem Hub.circuit_onCircuit (c c' : Circuit) (g : CircuitLevel → CircuitLevel) (h : Hub) :
    (h.onCircuit c g).circuit c' = if c' = c then g (h.circuit c) else h.circuit c' := by
  cases c <;> cases c' <;> rfl

@[simp] theorem Hub.door_onDoor (d d' : Door) (g : DoorHold → DoorHold) (h : Hub) :
    (h.onDoor d g).door d' = if d' = d then g (h.door d) else h.door d' := by
  cases d <;> cases d' <;> rfl

@[simp] theorem Hub.sector_onSector (k k' : SectorId) (g : Sector → Sector) (h : Hub) :
    (h.onSector k g).sector k' = if k' = k then g (h.sector k) else h.sector k' := by
  cases k <;> cases k' <;> rfl

end Sys2Proof.Machine
end

