-- ==== Sys2Proof/Laws/Word.lean ====
section
/-! SUPPORT. The containers of Word.lean: reading after writing, and after filling. -/

namespace Sys2Proof

@[simp] theorem PerCircuit.get_set_self {α : Type} (v : PerCircuit α) (i : Circuit) (x : α) : (v.set i x).get i = x := by
  cases i <;> rfl

@[simp] theorem PerCircuit.get_set_ne {α : Type} (v : PerCircuit α) {i j : Circuit} (h : j ≠ i) (x : α) :
    (v.set i x).get j = v.get j := by
  cases i <;> cases j <;> first | rfl | exact absurd rfl h

theorem PerCircuit.get_set {α : Type} (v : PerCircuit α) (i j : Circuit) (x : α) :
    (v.set i x).get j = if j = i then x else v.get j := by
  split
  · next h => subst h; simp
  · next h => simp [h]

@[simp] theorem PerCircuit.get_tab {α : Type} (f : Circuit → α) (i : Circuit) : (PerCircuit.tab f).get i = f i := by
  cases i <;> rfl

@[simp] theorem PerCircuit.get_fill {α : Type} (x : α) (i : Circuit) : (PerCircuit.fill x).get i = x := by
  cases i <;> rfl

@[simp] theorem PerCircuit.get_map {α β : Type} (f : α → β) (v : PerCircuit α) (i : Circuit) :
    (v.map f).get i = f (v.get i) := by
  cases i <;> rfl

theorem PerCircuit.ext_get {α : Type} {v w : PerCircuit α} (h : ∀ i, v.get i = w.get i) : v = w := by
  cases v; cases w
  simp only [PerCircuit.mk.injEq]
  exact ⟨h .c1, h .c2, h .c3, h .c4, h .c5, h .c6, h .c7, h .c8⟩

@[simp] theorem Circuit.mem_all (i : Circuit) : i ∈ Circuit.all := by
  cases i <;> simp [Circuit.all]

@[simp] theorem Circuit.ofNum?_num (i : Circuit) : Circuit.ofNum? i.num = some i := by
  cases i <;> rfl

@[simp] theorem PerAxle.get_set_self {α : Type} (v : PerAxle α) (i : Axle) (x : α) : (v.set i x).get i = x := by
  cases i <;> rfl

@[simp] theorem PerAxle.get_set_ne {α : Type} (v : PerAxle α) {i j : Axle} (h : j ≠ i) (x : α) :
    (v.set i x).get j = v.get j := by
  cases i <;> cases j <;> first | rfl | exact absurd rfl h

theorem PerAxle.get_set {α : Type} (v : PerAxle α) (i j : Axle) (x : α) :
    (v.set i x).get j = if j = i then x else v.get j := by
  split
  · next h => subst h; simp
  · next h => simp [h]

@[simp] theorem PerAxle.get_tab {α : Type} (f : Axle → α) (i : Axle) : (PerAxle.tab f).get i = f i := by
  cases i <;> rfl

@[simp] theorem PerAxle.get_fill {α : Type} (x : α) (i : Axle) : (PerAxle.fill x).get i = x := by
  cases i <;> rfl

@[simp] theorem PerAxle.get_map {α β : Type} (f : α → β) (v : PerAxle α) (i : Axle) :
    (v.map f).get i = f (v.get i) := by
  cases i <;> rfl

theorem PerAxle.ext_get {α : Type} {v w : PerAxle α} (h : ∀ i, v.get i = w.get i) : v = w := by
  cases v; cases w
  simp only [PerAxle.mk.injEq]
  exact ⟨h .a1, h .a2, h .a3, h .a4⟩

@[simp] theorem Axle.mem_all (i : Axle) : i ∈ Axle.all := by
  cases i <;> simp [Axle.all]

@[simp] theorem Axle.ofNum?_num (i : Axle) : Axle.ofNum? i.num = some i := by
  cases i <;> rfl

@[simp] theorem PerTrailing.get_set_self {α : Type} (v : PerTrailing α) (i : Trailing) (x : α) : (v.set i x).get i = x := by
  cases i <;> rfl

@[simp] theorem PerTrailing.get_set_ne {α : Type} (v : PerTrailing α) {i j : Trailing} (h : j ≠ i) (x : α) :
    (v.set i x).get j = v.get j := by
  cases i <;> cases j <;> first | rfl | exact absurd rfl h

theorem PerTrailing.get_set {α : Type} (v : PerTrailing α) (i j : Trailing) (x : α) :
    (v.set i x).get j = if j = i then x else v.get j := by
  split
  · next h => subst h; simp
  · next h => simp [h]

@[simp] theorem PerTrailing.get_tab {α : Type} (f : Trailing → α) (i : Trailing) : (PerTrailing.tab f).get i = f i := by
  cases i <;> rfl

@[simp] theorem PerTrailing.get_fill {α : Type} (x : α) (i : Trailing) : (PerTrailing.fill x).get i = x := by
  cases i <;> rfl

@[simp] theorem PerTrailing.get_map {α β : Type} (f : α → β) (v : PerTrailing α) (i : Trailing) :
    (v.map f).get i = f (v.get i) := by
  cases i <;> rfl

theorem PerTrailing.ext_get {α : Type} {v w : PerTrailing α} (h : ∀ i, v.get i = w.get i) : v = w := by
  cases v; cases w
  simp only [PerTrailing.mk.injEq]
  exact ⟨h .a3, h .a4⟩

@[simp] theorem Trailing.mem_all (i : Trailing) : i ∈ Trailing.all := by
  cases i <;> simp [Trailing.all]

@[simp] theorem Trailing.ofNum?_num (i : Trailing) : Trailing.ofNum? i.num = some i := by
  cases i <;> rfl

@[simp] theorem PerJoint.get_set_self {α : Type} (v : PerJoint α) (i : Joint) (x : α) : (v.set i x).get i = x := by
  cases i <;> rfl

@[simp] theorem PerJoint.get_set_ne {α : Type} (v : PerJoint α) {i j : Joint} (h : j ≠ i) (x : α) :
    (v.set i x).get j = v.get j := by
  cases i <;> cases j <;> first | rfl | exact absurd rfl h

theorem PerJoint.get_set {α : Type} (v : PerJoint α) (i j : Joint) (x : α) :
    (v.set i x).get j = if j = i then x else v.get j := by
  split
  · next h => subst h; simp
  · next h => simp [h]

@[simp] theorem PerJoint.get_tab {α : Type} (f : Joint → α) (i : Joint) : (PerJoint.tab f).get i = f i := by
  cases i <;> rfl

@[simp] theorem PerJoint.get_fill {α : Type} (x : α) (i : Joint) : (PerJoint.fill x).get i = x := by
  cases i <;> rfl

@[simp] theorem PerJoint.get_map {α β : Type} (f : α → β) (v : PerJoint α) (i : Joint) :
    (v.map f).get i = f (v.get i) := by
  cases i <;> rfl

theorem PerJoint.ext_get {α : Type} {v w : PerJoint α} (h : ∀ i, v.get i = w.get i) : v = w := by
  cases v; cases w
  simp only [PerJoint.mk.injEq]
  exact ⟨h .j1, h .j2⟩

@[simp] theorem Joint.mem_all (i : Joint) : i ∈ Joint.all := by
  cases i <;> simp [Joint.all]

@[simp] theorem Joint.ofNum?_num (i : Joint) : Joint.ofNum? i.num = some i := by
  cases i <;> rfl

@[simp] theorem PerDoor.get_set_self {α : Type} (v : PerDoor α) (i : Door) (x : α) : (v.set i x).get i = x := by
  cases i <;> rfl

@[simp] theorem PerDoor.get_set_ne {α : Type} (v : PerDoor α) {i j : Door} (h : j ≠ i) (x : α) :
    (v.set i x).get j = v.get j := by
  cases i <;> cases j <;> first | rfl | exact absurd rfl h

theorem PerDoor.get_set {α : Type} (v : PerDoor α) (i j : Door) (x : α) :
    (v.set i x).get j = if j = i then x else v.get j := by
  split
  · next h => subst h; simp
  · next h => simp [h]

@[simp] theorem PerDoor.get_tab {α : Type} (f : Door → α) (i : Door) : (PerDoor.tab f).get i = f i := by
  cases i <;> rfl

@[simp] theorem PerDoor.get_fill {α : Type} (x : α) (i : Door) : (PerDoor.fill x).get i = x := by
  cases i <;> rfl

@[simp] theorem PerDoor.get_map {α β : Type} (f : α → β) (v : PerDoor α) (i : Door) :
    (v.map f).get i = f (v.get i) := by
  cases i <;> rfl

theorem PerDoor.ext_get {α : Type} {v w : PerDoor α} (h : ∀ i, v.get i = w.get i) : v = w := by
  cases v; cases w
  simp only [PerDoor.mk.injEq]
  exact ⟨h .d1, h .d2, h .d3, h .d4, h .d5⟩

@[simp] theorem Door.mem_all (i : Door) : i ∈ Door.all := by
  cases i <;> simp [Door.all]

@[simp] theorem Door.ofNum?_num (i : Door) : Door.ofNum? i.num = some i := by
  cases i <;> rfl

@[simp] theorem PerPort.get_set_self {α : Type} (v : PerPort α) (i : Port) (x : α) : (v.set i x).get i = x := by
  cases i <;> rfl

@[simp] theorem PerPort.get_set_ne {α : Type} (v : PerPort α) {i j : Port} (h : j ≠ i) (x : α) :
    (v.set i x).get j = v.get j := by
  cases i <;> cases j <;> first | rfl | exact absurd rfl h

theorem PerPort.get_set {α : Type} (v : PerPort α) (i j : Port) (x : α) :
    (v.set i x).get j = if j = i then x else v.get j := by
  split
  · next h => subst h; simp
  · next h => simp [h]

@[simp] theorem PerPort.get_tab {α : Type} (f : Port → α) (i : Port) : (PerPort.tab f).get i = f i := by
  cases i <;> rfl

@[simp] theorem PerPort.get_fill {α : Type} (x : α) (i : Port) : (PerPort.fill x).get i = x := by
  cases i <;> rfl

@[simp] theorem PerPort.get_map {α β : Type} (f : α → β) (v : PerPort α) (i : Port) :
    (v.map f).get i = f (v.get i) := by
  cases i <;> rfl

theorem PerPort.ext_get {α : Type} {v w : PerPort α} (h : ∀ i, v.get i = w.get i) : v = w := by
  cases v; cases w
  simp only [PerPort.mk.injEq]
  exact ⟨h .m, h .b, h .s⟩

@[simp] theorem Port.mem_all (i : Port) : i ∈ Port.all := by
  cases i <;> simp [Port.all]

@[simp] theorem Port.ofNum?_num (i : Port) : Port.ofNum? i.num = some i := by
  cases i <;> rfl

@[simp] theorem PerSlot.get_set_self {α : Type} (v : PerSlot α) (i : FillSlot) (x : α) : (v.set i x).get i = x := by
  cases i <;> rfl

@[simp] theorem PerSlot.get_set_ne {α : Type} (v : PerSlot α) {i j : FillSlot} (h : j ≠ i) (x : α) :
    (v.set i x).get j = v.get j := by
  cases i <;> cases j <;> first | rfl | exact absurd rfl h

theorem PerSlot.get_set {α : Type} (v : PerSlot α) (i j : FillSlot) (x : α) :
    (v.set i x).get j = if j = i then x else v.get j := by
  split
  · next h => subst h; simp
  · next h => simp [h]

@[simp] theorem PerSlot.get_tab {α : Type} (f : FillSlot → α) (i : FillSlot) : (PerSlot.tab f).get i = f i := by
  cases i <;> rfl

@[simp] theorem PerSlot.get_fill {α : Type} (x : α) (i : FillSlot) : (PerSlot.fill x).get i = x := by
  cases i <;> rfl

@[simp] theorem PerSlot.get_map {α β : Type} (f : α → β) (v : PerSlot α) (i : FillSlot) :
    (v.map f).get i = f (v.get i) := by
  cases i <;> rfl

theorem PerSlot.ext_get {α : Type} {v w : PerSlot α} (h : ∀ i, v.get i = w.get i) : v = w := by
  cases v; cases w
  simp only [PerSlot.mk.injEq]
  exact ⟨h .f1, h .f2, h .f3⟩

@[simp] theorem FillSlot.mem_all (i : FillSlot) : i ∈ FillSlot.all := by
  cases i <;> simp [FillSlot.all]

@[simp] theorem FillSlot.ofNum?_num (i : FillSlot) : FillSlot.ofNum? i.num = some i := by
  cases i <;> rfl

@[simp] theorem PerSector.get_set_self {α : Type} (v : PerSector α) (i : SectorId) (x : α) : (v.set i x).get i = x := by
  cases i <;> rfl

@[simp] theorem PerSector.get_set_ne {α : Type} (v : PerSector α) {i j : SectorId} (h : j ≠ i) (x : α) :
    (v.set i x).get j = v.get j := by
  cases i <;> cases j <;> first | rfl | exact absurd rfl h

theorem PerSector.get_set {α : Type} (v : PerSector α) (i j : SectorId) (x : α) :
    (v.set i x).get j = if j = i then x else v.get j := by
  split
  · next h => subst h; simp
  · next h => simp [h]

@[simp] theorem PerSector.get_tab {α : Type} (f : SectorId → α) (i : SectorId) : (PerSector.tab f).get i = f i := by
  cases i <;> rfl

@[simp] theorem PerSector.get_fill {α : Type} (x : α) (i : SectorId) : (PerSector.fill x).get i = x := by
  cases i <;> rfl

@[simp] theorem PerSector.get_map {α β : Type} (f : α → β) (v : PerSector α) (i : SectorId) :
    (v.map f).get i = f (v.get i) := by
  cases i <;> rfl

theorem PerSector.ext_get {α : Type} {v w : PerSector α} (h : ∀ i, v.get i = w.get i) : v = w := by
  cases v; cases w
  simp only [PerSector.mk.injEq]
  exact ⟨h .s0, h .s1, h .s2, h .s3, h .s4, h .s5, h .s6, h .s7⟩

@[simp] theorem SectorId.mem_all (i : SectorId) : i ∈ SectorId.all := by
  cases i <;> simp [SectorId.all]

@[simp] theorem SectorId.ofNum?_num (i : SectorId) : SectorId.ofNum? i.num = some i := by
  cases i <;> rfl

@[simp] theorem PerKind.get_set_self {α : Type} (v : PerKind α) (i : EventKind) (x : α) : (v.set i x).get i = x := by
  cases i <;> rfl

@[simp] theorem PerKind.get_set_ne {α : Type} (v : PerKind α) {i j : EventKind} (h : j ≠ i) (x : α) :
    (v.set i x).get j = v.get j := by
  cases i <;> cases j <;> first | rfl | exact absurd rfl h

theorem PerKind.get_set {α : Type} (v : PerKind α) (i j : EventKind) (x : α) :
    (v.set i x).get j = if j = i then x else v.get j := by
  split
  · next h => subst h; simp
  · next h => simp [h]

@[simp] theorem PerKind.get_tab {α : Type} (f : EventKind → α) (i : EventKind) : (PerKind.tab f).get i = f i := by
  cases i <;> rfl

@[simp] theorem PerKind.get_fill {α : Type} (x : α) (i : EventKind) : (PerKind.fill x).get i = x := by
  cases i <;> rfl

@[simp] theorem PerKind.get_map {α β : Type} (f : α → β) (v : PerKind α) (i : EventKind) :
    (v.map f).get i = f (v.get i) := by
  cases i <;> rfl

theorem PerKind.ext_get {α : Type} {v w : PerKind α} (h : ∀ i, v.get i = w.get i) : v = w := by
  cases v; cases w
  simp only [PerKind.mk.injEq]
  exact ⟨h .doorState, h .doorRelease, h .doorEmergency, h .haltState, h .haltFault, h .kneelState, h .airLow, h .slowFill, h .jointState, h .sensorFault, h .path, h .demandStale, h .chainFault, h .standstill, h .movePermit⟩

@[simp] theorem EventKind.mem_all (i : EventKind) : i ∈ EventKind.all := by
  cases i <;> simp [EventKind.all]

@[simp] theorem EventKind.ofNum?_num (i : EventKind) : EventKind.ofNum? i.num = some i := by
  cases i <;> rfl

end Sys2Proof
end

