-- ==== Sys2Proof/Laws/Frames.lean ====
section
/-! SUPPORT. Frames of the shared operations: the parts of the state each of them leaves unchanged, whatever it is
given. Each theorem lists every part its operation does not touch. -/

set_option linter.unusedSimpArgs false

namespace Sys2Proof.Machine

/-- A fold of steps that each keep a value keeps it. -/
theorem foldl_keeps {α β γ : Type} (π : β → γ) (f : β → α → β) (hf : ∀ b a, π (f b a) = π b) (l : List α) (b : β) :
    π (l.foldl f b) = π b := by
  induction l generalizing b with
  | nil => rfl
  | cons a l ih => simp [ih, hf]

/-- A hand-over keeps a value that the event and the owner's two actions keep. -/
theorem handFault_keeps {γ : Type} (π : Hub → γ) (chain value : Nat) (set clear : Hub → Hub) (old new : Bool) (h : Hub)
    (hr : ∀ h : Hub, π (h.raise .chainFault chain value) = π h) (hs : ∀ h, π (set h) = π h) (hc : ∀ h, π (clear h) = π h) :
    π (h.handFault chain value set clear old new) = π h := by
  cases old <;> cases new <;> simp [Hub.handFault, hr, hs, hc]

/-- A fold of updates of circuits touches the levelling unit alone. -/
@[simp] theorem foldl_onCircuit_frame (g : Circuit → CircuitLevel → CircuitLevel) (cs : List Circuit) (h : Hub) :
    (cs.foldl (fun h c => h.onCircuit c (g c)) h).clock = h.clock ∧
    (cs.foldl (fun h c => h.onCircuit c (g c)) h).pins = h.pins ∧
    (cs.foldl (fun h c => h.onCircuit c (g c)) h).sensing = h.sensing ∧
    (cs.foldl (fun h c => h.onCircuit c (g c)) h).path = h.path ∧
    (cs.foldl (fun h c => h.onCircuit c (g c)) h).steering = h.steering ∧
    (cs.foldl (fun h c => h.onCircuit c (g c)) h).joints = h.joints ∧
    (cs.foldl (fun h c => h.onCircuit c (g c)) h).brake = h.brake ∧
    (cs.foldl (fun h c => h.onCircuit c (g c)) h).kneel = h.kneel ∧
    (cs.foldl (fun h c => h.onCircuit c (g c)) h).doors = h.doors ∧
    (cs.foldl (fun h c => h.onCircuit c (g c)) h).link = h.link ∧
    (cs.foldl (fun h c => h.onCircuit c (g c)) h).ports = h.ports ∧
    (cs.foldl (fun h c => h.onCircuit c (g c)) h).access = h.access ∧
    (cs.foldl (fun h c => h.onCircuit c (g c)) h).events = h.events ∧
    (cs.foldl (fun h c => h.onCircuit c (g c)) h).store = h.store ∧
    (cs.foldl (fun h c => h.onCircuit c (g c)) h).freeCount = h.freeCount := by
  induction cs generalizing h with
  | nil => simp
  | cons c cs ih => simp [ih]

@[simp] theorem Hub.raise_frame (kind : EventKind) (subject : Nat) (value : Int) (h : Hub) :
    (h.raise kind subject value).clock = h.clock ∧ (h.raise kind subject value).pins = h.pins ∧ (h.raise kind
    subject value).sensing = h.sensing ∧ (h.raise kind subject value).path = h.path ∧ (h.raise kind subject
    value).steering = h.steering ∧ (h.raise kind subject value).joints = h.joints ∧ (h.raise kind subject
    value).brake = h.brake ∧ (h.raise kind subject value).level = h.level ∧ (h.raise kind subject value).kneel =
    h.kneel ∧ (h.raise kind subject value).doors = h.doors ∧ (h.raise kind subject value).link = h.link ∧ (h.raise
    kind subject value).ports = h.ports ∧ (h.raise kind subject value).access = h.access ∧ (h.raise kind subject
    value).store = h.store ∧ (h.raise kind subject value).freeCount = h.freeCount := by
  simp [Hub.raise]

@[simp] theorem Hub.driveRelease_frame (d : Door) (b : Bool) (h : Hub) :
    (h.driveRelease d b).clock = h.clock ∧ (h.driveRelease d b).pins = h.pins ∧ (h.driveRelease d b).sensing =
    h.sensing ∧ (h.driveRelease d b).path = h.path ∧ (h.driveRelease d b).steering = h.steering ∧ (h.driveRelease d
    b).joints = h.joints ∧ (h.driveRelease d b).brake = h.brake ∧ (h.driveRelease d b).level = h.level ∧
    (h.driveRelease d b).kneel = h.kneel ∧ (h.driveRelease d b).doors = h.doors ∧ (h.driveRelease d b).ports =
    h.ports ∧ (h.driveRelease d b).access = h.access ∧ (h.driveRelease d b).events = h.events ∧ (h.driveRelease d
    b).store = h.store ∧ (h.driveRelease d b).freeCount = h.freeCount := by
  simp [Hub.driveRelease]

@[simp] theorem Hub.drivePermit_frame (b : Bool) (h : Hub) :
    (h.drivePermit b).clock = h.clock ∧ (h.drivePermit b).pins = h.pins ∧ (h.drivePermit b).sensing = h.sensing ∧
    (h.drivePermit b).path = h.path ∧ (h.drivePermit b).steering = h.steering ∧ (h.drivePermit b).joints = h.joints
    ∧ (h.drivePermit b).brake = h.brake ∧ (h.drivePermit b).level = h.level ∧ (h.drivePermit b).kneel = h.kneel ∧
    (h.drivePermit b).doors = h.doors ∧ (h.drivePermit b).ports = h.ports ∧ (h.drivePermit b).access = h.access ∧
    (h.drivePermit b).events = h.events ∧ (h.drivePermit b).store = h.store ∧ (h.drivePermit b).freeCount =
    h.freeCount := by
  simp [Hub.drivePermit]

@[simp] theorem Hub.driveTorque_frame (b : Bool) (h : Hub) :
    (h.driveTorque b).clock = h.clock ∧ (h.driveTorque b).pins = h.pins ∧ (h.driveTorque b).sensing = h.sensing ∧
    (h.driveTorque b).path = h.path ∧ (h.driveTorque b).steering = h.steering ∧ (h.driveTorque b).joints = h.joints
    ∧ (h.driveTorque b).brake = h.brake ∧ (h.driveTorque b).level = h.level ∧ (h.driveTorque b).kneel = h.kneel ∧
    (h.driveTorque b).doors = h.doors ∧ (h.driveTorque b).ports = h.ports ∧ (h.driveTorque b).access = h.access ∧
    (h.driveTorque b).events = h.events ∧ (h.driveTorque b).store = h.store ∧ (h.driveTorque b).freeCount =
    h.freeCount := by
  simp [Hub.driveTorque]

@[simp] theorem Hub.writeValve_frame (c : Circuit) (x : ValveCmd) (h : Hub) :
    (h.writeValve c x).clock = h.clock ∧ (h.writeValve c x).pins = h.pins ∧ (h.writeValve c x).sensing = h.sensing ∧
    (h.writeValve c x).path = h.path ∧ (h.writeValve c x).steering = h.steering ∧ (h.writeValve c x).joints =
    h.joints ∧ (h.writeValve c x).brake = h.brake ∧ (h.writeValve c x).level = h.level ∧ (h.writeValve c x).kneel =
    h.kneel ∧ (h.writeValve c x).doors = h.doors ∧ (h.writeValve c x).ports = h.ports ∧ (h.writeValve c x).access =
    h.access ∧ (h.writeValve c x).events = h.events ∧ (h.writeValve c x).store = h.store ∧ (h.writeValve c
    x).freeCount = h.freeCount := by
  simp [Hub.writeValve]

@[simp] theorem Hub.writeModulator_frame (k : Axle) (x : ModCmd) (h : Hub) :
    (h.writeModulator k x).clock = h.clock ∧ (h.writeModulator k x).pins = h.pins ∧ (h.writeModulator k x).sensing =
    h.sensing ∧ (h.writeModulator k x).path = h.path ∧ (h.writeModulator k x).steering = h.steering ∧
    (h.writeModulator k x).joints = h.joints ∧ (h.writeModulator k x).brake = h.brake ∧ (h.writeModulator k x).level
    = h.level ∧ (h.writeModulator k x).kneel = h.kneel ∧ (h.writeModulator k x).doors = h.doors ∧ (h.writeModulator
    k x).ports = h.ports ∧ (h.writeModulator k x).access = h.access ∧ (h.writeModulator k x).events = h.events ∧
    (h.writeModulator k x).store = h.store ∧ (h.writeModulator k x).freeCount = h.freeCount := by
  simp [Hub.writeModulator]

@[simp] theorem Hub.writeActuator_frame (t : Trailing) (x : SteerCmd) (h : Hub) :
    (h.writeActuator t x).clock = h.clock ∧ (h.writeActuator t x).pins = h.pins ∧ (h.writeActuator t x).sensing =
    h.sensing ∧ (h.writeActuator t x).path = h.path ∧ (h.writeActuator t x).steering = h.steering ∧ (h.writeActuator
    t x).joints = h.joints ∧ (h.writeActuator t x).brake = h.brake ∧ (h.writeActuator t x).level = h.level ∧
    (h.writeActuator t x).kneel = h.kneel ∧ (h.writeActuator t x).doors = h.doors ∧ (h.writeActuator t x).ports =
    h.ports ∧ (h.writeActuator t x).access = h.access ∧ (h.writeActuator t x).events = h.events ∧ (h.writeActuator t
    x).store = h.store ∧ (h.writeActuator t x).freeCount = h.freeCount := by
  simp [Hub.writeActuator]

@[simp] theorem Hub.writeDamper_frame (j : Joint) (x : Nat) (h : Hub) :
    (h.writeDamper j x).clock = h.clock ∧ (h.writeDamper j x).pins = h.pins ∧ (h.writeDamper j x).sensing =
    h.sensing ∧ (h.writeDamper j x).path = h.path ∧ (h.writeDamper j x).steering = h.steering ∧ (h.writeDamper j
    x).joints = h.joints ∧ (h.writeDamper j x).brake = h.brake ∧ (h.writeDamper j x).level = h.level ∧
    (h.writeDamper j x).kneel = h.kneel ∧ (h.writeDamper j x).doors = h.doors ∧ (h.writeDamper j x).ports = h.ports
    ∧ (h.writeDamper j x).access = h.access ∧ (h.writeDamper j x).events = h.events ∧ (h.writeDamper j x).store =
    h.store ∧ (h.writeDamper j x).freeCount = h.freeCount := by
  simp [Hub.writeDamper]

@[simp] theorem Hub.installLoad_frame (h : Hub) :
    (h.installLoad).clock = h.clock ∧ (h.installLoad).pins = h.pins ∧ (h.installLoad).sensing = h.sensing ∧
    (h.installLoad).path = h.path ∧ (h.installLoad).steering = h.steering ∧ (h.installLoad).joints = h.joints ∧
    (h.installLoad).brake = h.brake ∧ (h.installLoad).level = h.level ∧ (h.installLoad).kneel = h.kneel ∧
    (h.installLoad).doors = h.doors ∧ (h.installLoad).link = h.link ∧ (h.installLoad).ports = h.ports ∧
    (h.installLoad).access = h.access ∧ (h.installLoad).events = h.events ∧ (h.installLoad).freeCount = h.freeCount := by
  simp [Hub.installLoad]

@[simp] theorem Hub.installReset_frame (h : Hub) :
    (h.installReset).clock = h.clock ∧ (h.installReset).pins = h.pins ∧ (h.installReset).sensing = h.sensing ∧
    (h.installReset).path = h.path ∧ (h.installReset).steering = h.steering ∧ (h.installReset).joints = h.joints ∧
    (h.installReset).brake = h.brake ∧ (h.installReset).level = h.level ∧ (h.installReset).kneel = h.kneel ∧
    (h.installReset).doors = h.doors ∧ (h.installReset).link = h.link ∧ (h.installReset).ports = h.ports ∧
    (h.installReset).access = h.access ∧ (h.installReset).events = h.events ∧
    (h.installReset).freeCount = h.freeCount := by
  unfold Hub.installReset
  split <;> simp

/-- What the load at a reset does to the store: sector 7's items stay where the map is not owed (R169). -/
theorem Hub.installReset_store (h : Hub) : h.installReset.store = { h.installLoad.store with
    active := if h.access.owed = true then h.installLoad.store.active
      else h.installLoad.store.active.set .s7 h.store.active.s7 } := by
  unfold Hub.installReset
  split <;> simp [*, Hub.onStore]

@[simp] theorem Hub.judgePermit_frame (h : Hub) :
    (h.judgePermit).clock = h.clock ∧ (h.judgePermit).pins = h.pins ∧ (h.judgePermit).sensing = h.sensing ∧
    (h.judgePermit).path = h.path ∧ (h.judgePermit).steering = h.steering ∧ (h.judgePermit).joints = h.joints ∧
    (h.judgePermit).brake = h.brake ∧ (h.judgePermit).level = h.level ∧ (h.judgePermit).kneel = h.kneel ∧
    (h.judgePermit).ports = h.ports ∧ (h.judgePermit).access = h.access ∧ (h.judgePermit).store = h.store ∧
    (h.judgePermit).freeCount = h.freeCount := by
  unfold Hub.judgePermit
  split <;> simp

@[simp] theorem Hub.judgeActivity_frame (k : Axle) (h : Hub) :
    (h.judgeActivity k).clock = h.clock ∧ (h.judgeActivity k).pins = h.pins ∧ (h.judgeActivity k).sensing =
    h.sensing ∧ (h.judgeActivity k).path = h.path ∧ (h.judgeActivity k).steering = h.steering ∧ (h.judgeActivity
    k).joints = h.joints ∧ (h.judgeActivity k).level = h.level ∧ (h.judgeActivity k).kneel = h.kneel ∧
    (h.judgeActivity k).doors = h.doors ∧ (h.judgeActivity k).link = h.link ∧ (h.judgeActivity k).ports = h.ports ∧
    (h.judgeActivity k).access = h.access ∧ (h.judgeActivity k).events = h.events ∧ (h.judgeActivity k).store =
    h.store ∧ (h.judgeActivity k).freeCount = h.freeCount := by
  simp [Hub.judgeActivity]

@[simp] theorem Hub.judgeActivities_frame (h : Hub) :
    (h.judgeActivities).clock = h.clock ∧ (h.judgeActivities).pins = h.pins ∧ (h.judgeActivities).sensing =
    h.sensing ∧ (h.judgeActivities).path = h.path ∧ (h.judgeActivities).steering = h.steering ∧
    (h.judgeActivities).joints = h.joints ∧ (h.judgeActivities).level = h.level ∧ (h.judgeActivities).kneel =
    h.kneel ∧ (h.judgeActivities).doors = h.doors ∧ (h.judgeActivities).link = h.link ∧ (h.judgeActivities).ports =
    h.ports ∧ (h.judgeActivities).access = h.access ∧ (h.judgeActivities).events = h.events ∧
    (h.judgeActivities).store = h.store ∧ (h.judgeActivities).freeCount = h.freeCount := by
  unfold Hub.judgeActivities
  simp [Axle.all]

@[simp] theorem Hub.setAction_frame (c : Circuit) (a : Action) (h : Hub) :
    (h.setAction c a).clock = h.clock ∧ (h.setAction c a).pins = h.pins ∧ (h.setAction c a).sensing = h.sensing ∧
    (h.setAction c a).path = h.path ∧ (h.setAction c a).steering = h.steering ∧ (h.setAction c a).joints = h.joints
    ∧ (h.setAction c a).kneel = h.kneel ∧ (h.setAction c a).doors = h.doors ∧ (h.setAction c a).link = h.link ∧
    (h.setAction c a).ports = h.ports ∧ (h.setAction c a).access = h.access ∧ (h.setAction c a).events = h.events ∧
    (h.setAction c a).store = h.store ∧ (h.setAction c a).freeCount = h.freeCount := by
  simp [Hub.setAction]

@[simp] theorem Hub.releaseSlot_frame (c : Circuit) (h : Hub) :
    (h.releaseSlot c).clock = h.clock ∧ (h.releaseSlot c).pins = h.pins ∧ (h.releaseSlot c).sensing = h.sensing ∧
    (h.releaseSlot c).path = h.path ∧ (h.releaseSlot c).steering = h.steering ∧ (h.releaseSlot c).joints = h.joints
    ∧ (h.releaseSlot c).brake = h.brake ∧ (h.releaseSlot c).kneel = h.kneel ∧ (h.releaseSlot c).doors = h.doors ∧
    (h.releaseSlot c).link = h.link ∧ (h.releaseSlot c).ports = h.ports ∧ (h.releaseSlot c).access = h.access ∧
    (h.releaseSlot c).events = h.events ∧ (h.releaseSlot c).store = h.store ∧ (h.releaseSlot c).freeCount =
    h.freeCount := by
  simp [Hub.releaseSlot]

@[simp] theorem Hub.leaveQueue_frame (c : Circuit) (h : Hub) :
    (h.leaveQueue c).clock = h.clock ∧ (h.leaveQueue c).pins = h.pins ∧ (h.leaveQueue c).sensing = h.sensing ∧
    (h.leaveQueue c).path = h.path ∧ (h.leaveQueue c).steering = h.steering ∧ (h.leaveQueue c).joints = h.joints ∧
    (h.leaveQueue c).brake = h.brake ∧ (h.leaveQueue c).kneel = h.kneel ∧ (h.leaveQueue c).doors = h.doors ∧
    (h.leaveQueue c).link = h.link ∧ (h.leaveQueue c).ports = h.ports ∧ (h.leaveQueue c).access = h.access ∧
    (h.leaveQueue c).events = h.events ∧ (h.leaveQueue c).store = h.store ∧ (h.leaveQueue c).freeCount = h.freeCount := by
  simp [Hub.leaveQueue]

@[simp] theorem Hub.toHold_frame (c : Circuit) (h : Hub) :
    (h.toHold c).clock = h.clock ∧ (h.toHold c).pins = h.pins ∧ (h.toHold c).sensing = h.sensing ∧ (h.toHold c).path
    = h.path ∧ (h.toHold c).steering = h.steering ∧ (h.toHold c).joints = h.joints ∧ (h.toHold c).kneel = h.kneel ∧
    (h.toHold c).doors = h.doors ∧ (h.toHold c).link = h.link ∧ (h.toHold c).ports = h.ports ∧ (h.toHold c).access =
    h.access ∧ (h.toHold c).events = h.events ∧ (h.toHold c).store = h.store ∧ (h.toHold c).freeCount = h.freeCount := by
  simp [Hub.toHold]

@[simp] theorem Hub.grantHead_frame (h : Hub) :
    (h.grantHead).clock = h.clock ∧ (h.grantHead).pins = h.pins ∧ (h.grantHead).sensing = h.sensing ∧
    (h.grantHead).path = h.path ∧ (h.grantHead).steering = h.steering ∧ (h.grantHead).joints = h.joints ∧
    (h.grantHead).kneel = h.kneel ∧ (h.grantHead).doors = h.doors ∧ (h.grantHead).link = h.link ∧
    (h.grantHead).ports = h.ports ∧ (h.grantHead).access = h.access ∧ (h.grantHead).events = h.events ∧
    (h.grantHead).store = h.store ∧ (h.grantHead).freeCount = h.freeCount := by
  unfold Hub.grantHead
  split <;> simp

@[simp] theorem Hub.grant_frame (h : Hub) :
    (h.grant).clock = h.clock ∧ (h.grant).pins = h.pins ∧ (h.grant).sensing = h.sensing ∧ (h.grant).path = h.path ∧
    (h.grant).steering = h.steering ∧ (h.grant).joints = h.joints ∧ (h.grant).kneel = h.kneel ∧ (h.grant).doors =
    h.doors ∧ (h.grant).link = h.link ∧ (h.grant).ports = h.ports ∧ (h.grant).access = h.access ∧ (h.grant).events =
    h.events ∧ (h.grant).store = h.store ∧ (h.grant).freeCount = h.freeCount := by
  simp [Hub.grant]

@[simp] theorem Hub.grantIfFreed_frame (x y : PerSlot (Option HeldSlot)) (h : Hub) :
    (h.grantIfFreed x y).clock = h.clock ∧ (h.grantIfFreed x y).pins = h.pins ∧ (h.grantIfFreed x y).sensing =
    h.sensing ∧ (h.grantIfFreed x y).path = h.path ∧ (h.grantIfFreed x y).steering = h.steering ∧ (h.grantIfFreed x
    y).joints = h.joints ∧ (h.grantIfFreed x y).kneel = h.kneel ∧ (h.grantIfFreed x y).doors = h.doors ∧
    (h.grantIfFreed x y).link = h.link ∧ (h.grantIfFreed x y).ports = h.ports ∧ (h.grantIfFreed x y).access =
    h.access ∧ (h.grantIfFreed x y).events = h.events ∧ (h.grantIfFreed x y).store = h.store ∧ (h.grantIfFreed x
    y).freeCount = h.freeCount := by
  unfold Hub.grantIfFreed
  split <;> simp

@[simp] theorem Hub.writeValves_frame (h : Hub) :
    (h.writeValves).clock = h.clock ∧ (h.writeValves).pins = h.pins ∧ (h.writeValves).sensing = h.sensing ∧
    (h.writeValves).path = h.path ∧ (h.writeValves).steering = h.steering ∧ (h.writeValves).joints = h.joints ∧
    (h.writeValves).brake = h.brake ∧ (h.writeValves).level = h.level ∧ (h.writeValves).kneel = h.kneel ∧
    (h.writeValves).doors = h.doors ∧ (h.writeValves).ports = h.ports ∧ (h.writeValves).access = h.access ∧
    (h.writeValves).events = h.events ∧ (h.writeValves).store = h.store ∧ (h.writeValves).freeCount = h.freeCount := by
  simp [Hub.writeValves]

@[simp] theorem Hub.stopCircuit_frame (h : Hub) (c : Circuit) :
    (h.stopCircuit c).clock = h.clock ∧ (h.stopCircuit c).pins = h.pins ∧ (h.stopCircuit c).sensing = h.sensing ∧
    (h.stopCircuit c).path = h.path ∧ (h.stopCircuit c).steering = h.steering ∧ (h.stopCircuit c).joints = h.joints
    ∧ (h.stopCircuit c).kneel = h.kneel ∧ (h.stopCircuit c).doors = h.doors ∧ (h.stopCircuit c).link = h.link ∧
    (h.stopCircuit c).ports = h.ports ∧ (h.stopCircuit c).access = h.access ∧ (h.stopCircuit c).events = h.events ∧
    (h.stopCircuit c).store = h.store ∧ (h.stopCircuit c).freeCount = h.freeCount := by
  unfold Hub.stopCircuit
  split <;> simp

@[simp] theorem Hub.levellingTakesKneel_frame (old new : KneelState) (h : Hub) :
    (h.levellingTakesKneel old new).clock = h.clock ∧ (h.levellingTakesKneel old new).pins = h.pins ∧
    (h.levellingTakesKneel old new).sensing = h.sensing ∧ (h.levellingTakesKneel old new).path = h.path ∧
    (h.levellingTakesKneel old new).steering = h.steering ∧ (h.levellingTakesKneel old new).joints = h.joints ∧
    (h.levellingTakesKneel old new).kneel = h.kneel ∧ (h.levellingTakesKneel old new).doors = h.doors ∧
    (h.levellingTakesKneel old new).ports = h.ports ∧ (h.levellingTakesKneel old new).access = h.access ∧
    (h.levellingTakesKneel old new).events = h.events ∧ (h.levellingTakesKneel old new).store = h.store ∧
    (h.levellingTakesKneel old new).freeCount = h.freeCount := by
  unfold Hub.levellingTakesKneel
  (repeat' split) <;> simp [foldl_keeps Hub.clock, foldl_keeps Hub.pins, foldl_keeps Hub.sensing, foldl_keeps Hub.path, foldl_keeps
      Hub.steering, foldl_keeps Hub.joints, foldl_keeps Hub.kneel, foldl_keeps Hub.doors, foldl_keeps
      Hub.ports, foldl_keeps Hub.access, foldl_keeps Hub.events, foldl_keeps Hub.store, foldl_keeps
      Hub.freeCount, apply_ite Hub.clock, apply_ite Hub.pins, apply_ite Hub.sensing, apply_ite Hub.path,
      apply_ite Hub.steering, apply_ite Hub.joints, apply_ite Hub.kneel, apply_ite Hub.doors, apply_ite
      Hub.ports, apply_ite Hub.access, apply_ite Hub.events, apply_ite Hub.store, apply_ite Hub.freeCount]

@[simp] theorem Hub.brakeTakesKneel_frame (old new : KneelState) (h : Hub) :
    (h.brakeTakesKneel old new).clock = h.clock ∧ (h.brakeTakesKneel old new).pins = h.pins ∧ (h.brakeTakesKneel old
    new).sensing = h.sensing ∧ (h.brakeTakesKneel old new).path = h.path ∧ (h.brakeTakesKneel old new).steering =
    h.steering ∧ (h.brakeTakesKneel old new).joints = h.joints ∧ (h.brakeTakesKneel old new).level = h.level ∧
    (h.brakeTakesKneel old new).kneel = h.kneel ∧ (h.brakeTakesKneel old new).doors = h.doors ∧ (h.brakeTakesKneel
    old new).link = h.link ∧ (h.brakeTakesKneel old new).ports = h.ports ∧ (h.brakeTakesKneel old new).access =
    h.access ∧ (h.brakeTakesKneel old new).events = h.events ∧ (h.brakeTakesKneel old new).store = h.store ∧
    (h.brakeTakesKneel old new).freeCount = h.freeCount := by
  unfold Hub.brakeTakesKneel
  (repeat' split) <;> simp

@[simp] theorem Hub.setKneel_frame (new : KneelState) (h : Hub) :
    (h.setKneel new).clock = h.clock ∧ (h.setKneel new).pins = h.pins ∧ (h.setKneel new).sensing = h.sensing ∧
    (h.setKneel new).path = h.path ∧ (h.setKneel new).steering = h.steering ∧ (h.setKneel new).joints = h.joints ∧
    (h.setKneel new).ports = h.ports ∧ (h.setKneel new).access = h.access ∧ (h.setKneel new).store = h.store ∧
    (h.setKneel new).freeCount = h.freeCount := by
  simp [Hub.setKneel]

@[simp] theorem Hub.stopKneel_frame (cause : StopCause) (c : Option Circuit) (h : Hub) :
    (h.stopKneel cause c).clock = h.clock ∧ (h.stopKneel cause c).pins = h.pins ∧ (h.stopKneel cause c).sensing =
    h.sensing ∧ (h.stopKneel cause c).path = h.path ∧ (h.stopKneel cause c).steering = h.steering ∧ (h.stopKneel
    cause c).joints = h.joints ∧ (h.stopKneel cause c).ports = h.ports ∧ (h.stopKneel cause c).access = h.access ∧
    (h.stopKneel cause c).store = h.store ∧ (h.stopKneel cause c).freeCount = h.freeCount := by
  unfold Hub.stopKneel
  split <;> simp

@[simp] theorem Hub.writeTargets_frame (x : TargetSource) (h : Hub) :
    (h.writeTargets x).clock = h.clock ∧ (h.writeTargets x).pins = h.pins ∧ (h.writeTargets x).sensing = h.sensing ∧
    (h.writeTargets x).path = h.path ∧ (h.writeTargets x).steering = h.steering ∧ (h.writeTargets x).joints =
    h.joints ∧ (h.writeTargets x).brake = h.brake ∧ (h.writeTargets x).kneel = h.kneel ∧ (h.writeTargets x).doors =
    h.doors ∧ (h.writeTargets x).link = h.link ∧ (h.writeTargets x).ports = h.ports ∧ (h.writeTargets x).access =
    h.access ∧ (h.writeTargets x).events = h.events ∧ (h.writeTargets x).store = h.store ∧ (h.writeTargets
    x).freeCount = h.freeCount := by
  simp [Hub.writeTargets]

@[simp] theorem Hub.autoRaise_frame (h : Hub) :
    (h.autoRaise).clock = h.clock ∧ (h.autoRaise).pins = h.pins ∧ (h.autoRaise).sensing = h.sensing ∧
    (h.autoRaise).path = h.path ∧ (h.autoRaise).steering = h.steering ∧ (h.autoRaise).joints = h.joints ∧
    (h.autoRaise).ports = h.ports ∧ (h.autoRaise).access = h.access ∧ (h.autoRaise).store = h.store ∧
    (h.autoRaise).freeCount = h.freeCount := by
  unfold Hub.autoRaise
  split <;> simp

@[simp] theorem Hub.takeOut_frame (h : Hub) (c : Circuit) :
    (h.takeOut c).clock = h.clock ∧ (h.takeOut c).pins = h.pins ∧ (h.takeOut c).sensing = h.sensing ∧ (h.takeOut
    c).path = h.path ∧ (h.takeOut c).steering = h.steering ∧ (h.takeOut c).joints = h.joints ∧ (h.takeOut c).kneel =
    h.kneel ∧ (h.takeOut c).doors = h.doors ∧ (h.takeOut c).link = h.link ∧ (h.takeOut c).ports = h.ports ∧
    (h.takeOut c).access = h.access ∧ (h.takeOut c).events = h.events ∧ (h.takeOut c).store = h.store ∧ (h.takeOut
    c).freeCount = h.freeCount := by
  simp [Hub.takeOut]

@[simp] theorem Hub.exclude_frame (cs : List Circuit) (add : Causes → Causes) (h : Hub) :
    (h.exclude cs add).clock = h.clock ∧ (h.exclude cs add).pins = h.pins ∧ (h.exclude cs add).sensing = h.sensing ∧
    (h.exclude cs add).path = h.path ∧ (h.exclude cs add).steering = h.steering ∧ (h.exclude cs add).joints =
    h.joints ∧ (h.exclude cs add).ports = h.ports ∧ (h.exclude cs add).access = h.access ∧ (h.exclude cs add).store
    = h.store ∧ (h.exclude cs add).freeCount = h.freeCount := by
  unfold Hub.exclude
  simp [foldl_keeps Hub.clock, foldl_keeps Hub.pins, foldl_keeps Hub.sensing, foldl_keeps Hub.path, foldl_keeps
      Hub.steering, foldl_keeps Hub.joints, foldl_keeps Hub.ports, foldl_keeps Hub.access, foldl_keeps
      Hub.store, foldl_keeps Hub.freeCount, apply_ite Hub.clock, apply_ite Hub.pins, apply_ite Hub.sensing,
      apply_ite Hub.path, apply_ite Hub.steering, apply_ite Hub.joints, apply_ite Hub.ports, apply_ite
      Hub.access, apply_ite Hub.store, apply_ite Hub.freeCount]

@[simp] theorem Hub.clearCause_frame (cs : List Circuit) (drop : Causes → Causes) (h : Hub) :
    (h.clearCause cs drop).clock = h.clock ∧ (h.clearCause cs drop).pins = h.pins ∧ (h.clearCause cs drop).sensing =
    h.sensing ∧ (h.clearCause cs drop).path = h.path ∧ (h.clearCause cs drop).steering = h.steering ∧ (h.clearCause
    cs drop).joints = h.joints ∧ (h.clearCause cs drop).brake = h.brake ∧ (h.clearCause cs drop).kneel = h.kneel ∧
    (h.clearCause cs drop).doors = h.doors ∧ (h.clearCause cs drop).link = h.link ∧ (h.clearCause cs drop).ports =
    h.ports ∧ (h.clearCause cs drop).access = h.access ∧ (h.clearCause cs drop).events = h.events ∧ (h.clearCause cs
    drop).store = h.store ∧ (h.clearCause cs drop).freeCount = h.freeCount := by
  simp [Hub.clearCause]

@[simp] theorem Hub.judgeCondition_frame (h : Hub) :
    (h.judgeCondition).clock = h.clock ∧ (h.judgeCondition).pins = h.pins ∧ (h.judgeCondition).sensing = h.sensing ∧
    (h.judgeCondition).path = h.path ∧ (h.judgeCondition).steering = h.steering ∧ (h.judgeCondition).joints =
    h.joints ∧ (h.judgeCondition).ports = h.ports ∧ (h.judgeCondition).access = h.access ∧ (h.judgeCondition).store
    = h.store ∧ (h.judgeCondition).freeCount = h.freeCount := by
  unfold Hub.judgeCondition
  simp [foldl_keeps Hub.clock, foldl_keeps Hub.pins, foldl_keeps Hub.sensing, foldl_keeps Hub.path, foldl_keeps
      Hub.steering, foldl_keeps Hub.joints, foldl_keeps Hub.ports, foldl_keeps Hub.access, foldl_keeps
      Hub.store, foldl_keeps Hub.freeCount, apply_ite Hub.clock, apply_ite Hub.pins, apply_ite Hub.sensing,
      apply_ite Hub.path, apply_ite Hub.steering, apply_ite Hub.joints, apply_ite Hub.ports, apply_ite
      Hub.access, apply_ite Hub.store, apply_ite Hub.freeCount]

@[simp] theorem Hub.raiseRelease_frame (d : Door) (h : Hub) :
    (h.raiseRelease d).clock = h.clock ∧ (h.raiseRelease d).pins = h.pins ∧ (h.raiseRelease d).sensing = h.sensing ∧
    (h.raiseRelease d).path = h.path ∧ (h.raiseRelease d).steering = h.steering ∧ (h.raiseRelease d).joints =
    h.joints ∧ (h.raiseRelease d).brake = h.brake ∧ (h.raiseRelease d).level = h.level ∧ (h.raiseRelease d).kneel =
    h.kneel ∧ (h.raiseRelease d).doors = h.doors ∧ (h.raiseRelease d).link = h.link ∧ (h.raiseRelease d).ports =
    h.ports ∧ (h.raiseRelease d).access = h.access ∧ (h.raiseRelease d).store = h.store ∧ (h.raiseRelease
    d).freeCount = h.freeCount := by
  simp [Hub.raiseRelease]

@[simp] theorem Hub.setRelease_frame (d : Door) (r : Release) (h : Hub) :
    (h.setRelease d r).clock = h.clock ∧ (h.setRelease d r).pins = h.pins ∧ (h.setRelease d r).sensing = h.sensing ∧
    (h.setRelease d r).path = h.path ∧ (h.setRelease d r).steering = h.steering ∧ (h.setRelease d r).joints =
    h.joints ∧ (h.setRelease d r).ports = h.ports ∧ (h.setRelease d r).access = h.access ∧ (h.setRelease d r).store
    = h.store ∧ (h.setRelease d r).freeCount = h.freeCount := by
  unfold Hub.setRelease
  split <;> simp

@[simp] theorem Hub.grantWaiting_frame (h : Hub) :
    (h.grantWaiting).clock = h.clock ∧ (h.grantWaiting).pins = h.pins ∧ (h.grantWaiting).sensing = h.sensing ∧
    (h.grantWaiting).path = h.path ∧ (h.grantWaiting).steering = h.steering ∧ (h.grantWaiting).joints = h.joints ∧
    (h.grantWaiting).ports = h.ports ∧ (h.grantWaiting).access = h.access ∧ (h.grantWaiting).store = h.store ∧
    (h.grantWaiting).freeCount = h.freeCount := by
  unfold Hub.grantWaiting
  simp [foldl_keeps Hub.clock, foldl_keeps Hub.pins, foldl_keeps Hub.sensing, foldl_keeps Hub.path, foldl_keeps
      Hub.steering, foldl_keeps Hub.joints, foldl_keeps Hub.ports, foldl_keeps Hub.access, foldl_keeps
      Hub.store, foldl_keeps Hub.freeCount, apply_ite Hub.clock, apply_ite Hub.pins, apply_ite Hub.sensing,
      apply_ite Hub.path, apply_ite Hub.steering, apply_ite Hub.joints, apply_ite Hub.ports, apply_ite
      Hub.access, apply_ite Hub.store, apply_ite Hub.freeCount]

@[simp] theorem Hub.withdrawByMotion_frame (h : Hub) (d : Door) :
    (h.withdrawByMotion d).clock = h.clock ∧ (h.withdrawByMotion d).pins = h.pins ∧ (h.withdrawByMotion d).sensing =
    h.sensing ∧ (h.withdrawByMotion d).path = h.path ∧ (h.withdrawByMotion d).steering = h.steering ∧
    (h.withdrawByMotion d).joints = h.joints ∧ (h.withdrawByMotion d).ports = h.ports ∧ (h.withdrawByMotion
    d).access = h.access ∧ (h.withdrawByMotion d).store = h.store ∧ (h.withdrawByMotion d).freeCount = h.freeCount := by
  unfold Hub.withdrawByMotion
  (repeat' split) <;> simp

@[simp] theorem Hub.setHalt_frame (x : HaltState) (h : Hub) :
    (h.setHalt x).clock = h.clock ∧ (h.setHalt x).pins = h.pins ∧ (h.setHalt x).sensing = h.sensing ∧ (h.setHalt
    x).path = h.path ∧ (h.setHalt x).steering = h.steering ∧ (h.setHalt x).joints = h.joints ∧ (h.setHalt x).ports =
    h.ports ∧ (h.setHalt x).access = h.access ∧ (h.setHalt x).store = h.store ∧ (h.setHalt x).freeCount =
    h.freeCount := by
  unfold Hub.setHalt
  (repeat' split) <;> simp [foldl_keeps Hub.clock, foldl_keeps Hub.pins, foldl_keeps Hub.sensing, foldl_keeps Hub.path, foldl_keeps
      Hub.steering, foldl_keeps Hub.joints, foldl_keeps Hub.ports, foldl_keeps Hub.access, foldl_keeps
      Hub.store, foldl_keeps Hub.freeCount, apply_ite Hub.clock, apply_ite Hub.pins, apply_ite Hub.sensing,
      apply_ite Hub.path, apply_ite Hub.steering, apply_ite Hub.joints, apply_ite Hub.ports, apply_ite
      Hub.access, apply_ite Hub.store, apply_ite Hub.freeCount]

@[simp] theorem Hub.requestApply_frame (h : Hub) :
    (h.requestApply).clock = h.clock ∧ (h.requestApply).pins = h.pins ∧ (h.requestApply).sensing = h.sensing ∧
    (h.requestApply).path = h.path ∧ (h.requestApply).steering = h.steering ∧ (h.requestApply).joints = h.joints ∧
    (h.requestApply).ports = h.ports ∧ (h.requestApply).access = h.access ∧ (h.requestApply).store = h.store ∧
    (h.requestApply).freeCount = h.freeCount := by
  unfold Hub.requestApply
  split <;> simp

@[simp] theorem Hub.judgeAutoHalt_frame (h : Hub) :
    (h.judgeAutoHalt).clock = h.clock ∧ (h.judgeAutoHalt).pins = h.pins ∧ (h.judgeAutoHalt).sensing = h.sensing ∧
    (h.judgeAutoHalt).path = h.path ∧ (h.judgeAutoHalt).steering = h.steering ∧ (h.judgeAutoHalt).joints = h.joints
    ∧ (h.judgeAutoHalt).ports = h.ports ∧ (h.judgeAutoHalt).access = h.access ∧ (h.judgeAutoHalt).store = h.store ∧
    (h.judgeAutoHalt).freeCount = h.freeCount := by
  unfold Hub.judgeAutoHalt
  split <;> simp

@[simp] theorem Hub.enterStandstill_frame (h : Hub) :
    (h.enterStandstill).clock = h.clock ∧ (h.enterStandstill).pins = h.pins ∧ (h.enterStandstill).path = h.path ∧
    (h.enterStandstill).steering = h.steering ∧ (h.enterStandstill).joints = h.joints ∧ (h.enterStandstill).ports =
    h.ports ∧ (h.enterStandstill).access = h.access ∧ (h.enterStandstill).store = h.store ∧
    (h.enterStandstill).freeCount = h.freeCount := by
  unfold Hub.enterStandstill
  simp only []
  split <;> simp

@[simp] theorem Hub.leaveStandstill_frame (h : Hub) :
    (h.leaveStandstill).clock = h.clock ∧ (h.leaveStandstill).pins = h.pins ∧ (h.leaveStandstill).path = h.path ∧
    (h.leaveStandstill).steering = h.steering ∧ (h.leaveStandstill).joints = h.joints ∧ (h.leaveStandstill).ports =
    h.ports ∧ (h.leaveStandstill).access = h.access ∧ (h.leaveStandstill).store = h.store ∧
    (h.leaveStandstill).freeCount = h.freeCount := by
  unfold Hub.leaveStandstill
  (repeat' split) <;> simp [foldl_keeps Hub.clock, foldl_keeps Hub.pins, foldl_keeps Hub.path, foldl_keeps Hub.steering, foldl_keeps
      Hub.joints, foldl_keeps Hub.ports, foldl_keeps Hub.access, foldl_keeps Hub.store, foldl_keeps
      Hub.freeCount, apply_ite Hub.clock, apply_ite Hub.pins, apply_ite Hub.path, apply_ite Hub.steering,
      apply_ite Hub.joints, apply_ite Hub.ports, apply_ite Hub.access, apply_ite Hub.store, apply_ite
      Hub.freeCount]

@[simp] theorem Hub.raisePairFault_frame (n e : Nat) (c : Conversion) (x y : Pair) (h : Hub) :
    (h.raisePairFault n e c x y).clock = h.clock ∧ (h.raisePairFault n e c x y).pins = h.pins ∧ (h.raisePairFault n
    e c x y).sensing = h.sensing ∧ (h.raisePairFault n e c x y).path = h.path ∧ (h.raisePairFault n e c x
    y).steering = h.steering ∧ (h.raisePairFault n e c x y).joints = h.joints ∧ (h.raisePairFault n e c x y).brake =
    h.brake ∧ (h.raisePairFault n e c x y).level = h.level ∧ (h.raisePairFault n e c x y).kneel = h.kneel ∧
    (h.raisePairFault n e c x y).doors = h.doors ∧ (h.raisePairFault n e c x y).link = h.link ∧ (h.raisePairFault n
    e c x y).ports = h.ports ∧ (h.raisePairFault n e c x y).access = h.access ∧ (h.raisePairFault n e c x y).store =
    h.store ∧ (h.raisePairFault n e c x y).freeCount = h.freeCount := by
  unfold Hub.raisePairFault
  (repeat' split) <;> simp

@[simp] theorem Hub.raiseSingleFault_frame (n e : Nat) (x y : Single) (h : Hub) :
    (h.raiseSingleFault n e x y).clock = h.clock ∧ (h.raiseSingleFault n e x y).pins = h.pins ∧ (h.raiseSingleFault
    n e x y).sensing = h.sensing ∧ (h.raiseSingleFault n e x y).path = h.path ∧ (h.raiseSingleFault n e x
    y).steering = h.steering ∧ (h.raiseSingleFault n e x y).joints = h.joints ∧ (h.raiseSingleFault n e x y).brake =
    h.brake ∧ (h.raiseSingleFault n e x y).level = h.level ∧ (h.raiseSingleFault n e x y).kneel = h.kneel ∧
    (h.raiseSingleFault n e x y).doors = h.doors ∧ (h.raiseSingleFault n e x y).link = h.link ∧ (h.raiseSingleFault
    n e x y).ports = h.ports ∧ (h.raiseSingleFault n e x y).access = h.access ∧ (h.raiseSingleFault n e x y).store =
    h.store ∧ (h.raiseSingleFault n e x y).freeCount = h.freeCount := by
  unfold Hub.raiseSingleFault
  split <;> simp

@[simp] theorem Hub.raiseRoundFaults_frame (b : Hub) (raw : ScanResults) (h : Hub) :
    (Hub.raiseRoundFaults b raw h).clock = h.clock ∧ (Hub.raiseRoundFaults b raw h).pins = h.pins ∧
    (Hub.raiseRoundFaults b raw h).sensing = h.sensing ∧ (Hub.raiseRoundFaults b raw h).path = h.path ∧
    (Hub.raiseRoundFaults b raw h).steering = h.steering ∧ (Hub.raiseRoundFaults b raw h).joints = h.joints ∧
    (Hub.raiseRoundFaults b raw h).brake = h.brake ∧ (Hub.raiseRoundFaults b raw h).level = h.level ∧
    (Hub.raiseRoundFaults b raw h).kneel = h.kneel ∧ (Hub.raiseRoundFaults b raw h).doors = h.doors ∧
    (Hub.raiseRoundFaults b raw h).link = h.link ∧ (Hub.raiseRoundFaults b raw h).ports = h.ports ∧
    (Hub.raiseRoundFaults b raw h).access = h.access ∧ (Hub.raiseRoundFaults b raw h).store = h.store ∧
    (Hub.raiseRoundFaults b raw h).freeCount = h.freeCount := by
  unfold Hub.raiseRoundFaults
  simp [foldl_keeps Hub.clock, foldl_keeps Hub.pins, foldl_keeps Hub.sensing, foldl_keeps Hub.path, foldl_keeps
      Hub.steering, foldl_keeps Hub.joints, foldl_keeps Hub.brake, foldl_keeps Hub.level, foldl_keeps
      Hub.kneel, foldl_keeps Hub.doors, foldl_keeps Hub.link, foldl_keeps Hub.ports, foldl_keeps Hub.access,
      foldl_keeps Hub.store, foldl_keeps Hub.freeCount, apply_ite Hub.clock, apply_ite Hub.pins, apply_ite
      Hub.sensing, apply_ite Hub.path, apply_ite Hub.steering, apply_ite Hub.joints, apply_ite Hub.brake,
      apply_ite Hub.level, apply_ite Hub.kneel, apply_ite Hub.doors, apply_ite Hub.link, apply_ite Hub.ports,
      apply_ite Hub.access, apply_ite Hub.store, apply_ite Hub.freeCount]

@[simp] theorem Hub.heightsRecovered_frame (cs : List Circuit) (h : Hub) :
    (h.heightsRecovered cs).clock = h.clock ∧ (h.heightsRecovered cs).pins = h.pins ∧ (h.heightsRecovered
    cs).sensing = h.sensing ∧ (h.heightsRecovered cs).path = h.path ∧ (h.heightsRecovered cs).steering = h.steering
    ∧ (h.heightsRecovered cs).joints = h.joints ∧ (h.heightsRecovered cs).brake = h.brake ∧ (h.heightsRecovered
    cs).kneel = h.kneel ∧ (h.heightsRecovered cs).doors = h.doors ∧ (h.heightsRecovered cs).link = h.link ∧
    (h.heightsRecovered cs).ports = h.ports ∧ (h.heightsRecovered cs).access = h.access ∧ (h.heightsRecovered
    cs).events = h.events ∧ (h.heightsRecovered cs).store = h.store ∧ (h.heightsRecovered cs).freeCount =
    h.freeCount := by
  simp [Hub.heightsRecovered]

@[simp] theorem Hub.backToQueue_frame (h : Hub) (x : HeldSlot) :
    (h.backToQueue x).clock = h.clock ∧ (h.backToQueue x).pins = h.pins ∧ (h.backToQueue x).sensing = h.sensing ∧
    (h.backToQueue x).path = h.path ∧ (h.backToQueue x).steering = h.steering ∧ (h.backToQueue x).joints = h.joints
    ∧ (h.backToQueue x).kneel = h.kneel ∧ (h.backToQueue x).doors = h.doors ∧ (h.backToQueue x).link = h.link ∧
    (h.backToQueue x).ports = h.ports ∧ (h.backToQueue x).access = h.access ∧ (h.backToQueue x).events = h.events ∧
    (h.backToQueue x).store = h.store ∧ (h.backToQueue x).freeCount = h.freeCount := by
  simp [Hub.backToQueue]

@[simp] theorem Hub.beginCut_frame (x : CutCause) (h : Hub) :
    (h.beginCut x).clock = h.clock ∧ (h.beginCut x).pins = h.pins ∧ (h.beginCut x).sensing = h.sensing ∧ (h.beginCut
    x).path = h.path ∧ (h.beginCut x).steering = h.steering ∧ (h.beginCut x).joints = h.joints ∧ (h.beginCut
    x).kneel = h.kneel ∧ (h.beginCut x).doors = h.doors ∧ (h.beginCut x).ports = h.ports ∧ (h.beginCut x).access =
    h.access ∧ (h.beginCut x).store = h.store ∧ (h.beginCut x).freeCount = h.freeCount := by
  unfold Hub.beginCut
  simp [foldl_keeps Hub.clock, foldl_keeps Hub.pins, foldl_keeps Hub.sensing, foldl_keeps Hub.path, foldl_keeps
      Hub.steering, foldl_keeps Hub.joints, foldl_keeps Hub.kneel, foldl_keeps Hub.doors, foldl_keeps
      Hub.ports, foldl_keeps Hub.access, foldl_keeps Hub.store, foldl_keeps Hub.freeCount, apply_ite Hub.clock,
      apply_ite Hub.pins, apply_ite Hub.sensing, apply_ite Hub.path, apply_ite Hub.steering, apply_ite
      Hub.joints, apply_ite Hub.kneel, apply_ite Hub.doors, apply_ite Hub.ports, apply_ite Hub.access,
      apply_ite Hub.store, apply_ite Hub.freeCount]

@[simp] theorem Hub.judgeReservoir_frame (x : Single) (h : Hub) :
    (h.judgeReservoir x).clock = h.clock ∧ (h.judgeReservoir x).pins = h.pins ∧ (h.judgeReservoir x).sensing =
    h.sensing ∧ (h.judgeReservoir x).path = h.path ∧ (h.judgeReservoir x).steering = h.steering ∧ (h.judgeReservoir
    x).joints = h.joints ∧ (h.judgeReservoir x).kneel = h.kneel ∧ (h.judgeReservoir x).doors = h.doors ∧
    (h.judgeReservoir x).ports = h.ports ∧ (h.judgeReservoir x).access = h.access ∧ (h.judgeReservoir x).store =
    h.store ∧ (h.judgeReservoir x).freeCount = h.freeCount := by
  unfold Hub.judgeReservoir
  (repeat' split) <;> simp [foldl_keeps Hub.clock, foldl_keeps Hub.pins, foldl_keeps Hub.sensing, foldl_keeps Hub.path, foldl_keeps
      Hub.steering, foldl_keeps Hub.joints, foldl_keeps Hub.kneel, foldl_keeps Hub.doors, foldl_keeps
      Hub.ports, foldl_keeps Hub.access, foldl_keeps Hub.store, foldl_keeps Hub.freeCount, apply_ite Hub.clock,
      apply_ite Hub.pins, apply_ite Hub.sensing, apply_ite Hub.path, apply_ite Hub.steering, apply_ite
      Hub.joints, apply_ite Hub.kneel, apply_ite Hub.doors, apply_ite Hub.ports, apply_ite Hub.access,
      apply_ite Hub.store, apply_ite Hub.freeCount]

@[simp] theorem Hub.scanRound_frame (raw : ScanResults) (h : Hub) :
    (h.scanRound raw).clock = h.clock ∧ (h.scanRound raw).pins = h.pins ∧ (h.scanRound raw).path = h.path ∧
    (h.scanRound raw).steering = h.steering ∧ (h.scanRound raw).joints = h.joints ∧ (h.scanRound raw).ports =
    h.ports ∧ (h.scanRound raw).access = h.access ∧ (h.scanRound raw).store = h.store ∧ (h.scanRound raw).freeCount
    = h.freeCount := by
  unfold Hub.scanRound
  simp only []
  split <;> simp

@[simp] theorem Hub.pathIncrement_frame (d : Direction) (w : Nat) (h : Hub) :
    (h.pathIncrement d w).clock = h.clock ∧ (h.pathIncrement d w).pins = h.pins ∧ (h.pathIncrement d w).sensing =
    h.sensing ∧ (h.pathIncrement d w).steering = h.steering ∧ (h.pathIncrement d w).joints = h.joints ∧
    (h.pathIncrement d w).brake = h.brake ∧ (h.pathIncrement d w).level = h.level ∧ (h.pathIncrement d w).kneel =
    h.kneel ∧ (h.pathIncrement d w).doors = h.doors ∧ (h.pathIncrement d w).link = h.link ∧ (h.pathIncrement d
    w).ports = h.ports ∧ (h.pathIncrement d w).access = h.access ∧ (h.pathIncrement d w).store = h.store ∧
    (h.pathIncrement d w).freeCount = h.freeCount := by
  unfold Hub.pathIncrement
  (repeat' split) <;> simp

@[simp] theorem Hub.wheelPulse_frame (d : Direction) (h : Hub) :
    (h.wheelPulse d).clock = h.clock ∧ (h.wheelPulse d).steering = h.steering ∧ (h.wheelPulse d).joints = h.joints ∧
    (h.wheelPulse d).ports = h.ports ∧ (h.wheelPulse d).access = h.access ∧ (h.wheelPulse d).store = h.store ∧
    (h.wheelPulse d).freeCount = h.freeCount := by
  unfold Hub.wheelPulse
  simp only []
  split <;> simp

@[simp] theorem Hub.quietExpiry_frame (h : Hub) :
    (h.quietExpiry).clock = h.clock ∧ (h.quietExpiry).pins = h.pins ∧ (h.quietExpiry).path = h.path ∧
    (h.quietExpiry).steering = h.steering ∧ (h.quietExpiry).joints = h.joints ∧ (h.quietExpiry).ports = h.ports ∧
    (h.quietExpiry).access = h.access ∧ (h.quietExpiry).store = h.store ∧ (h.quietExpiry).freeCount = h.freeCount := by
  unfold Hub.quietExpiry
  split <;> simp

@[simp] theorem Hub.writeSteer_frame (t : Trailing) (h : Hub) :
    (h.writeSteer t).clock = h.clock ∧ (h.writeSteer t).pins = h.pins ∧ (h.writeSteer t).sensing = h.sensing ∧
    (h.writeSteer t).path = h.path ∧ (h.writeSteer t).steering = h.steering ∧ (h.writeSteer t).joints = h.joints ∧
    (h.writeSteer t).brake = h.brake ∧ (h.writeSteer t).level = h.level ∧ (h.writeSteer t).kneel = h.kneel ∧
    (h.writeSteer t).doors = h.doors ∧ (h.writeSteer t).ports = h.ports ∧ (h.writeSteer t).access = h.access ∧
    (h.writeSteer t).events = h.events ∧ (h.writeSteer t).store = h.store ∧ (h.writeSteer t).freeCount = h.freeCount := by
  simp [Hub.writeSteer]

@[simp] theorem Hub.failAxle_frame (x : FailCause) (t : Trailing) (h : Hub) :
    (h.failAxle x t).clock = h.clock ∧ (h.failAxle x t).pins = h.pins ∧ (h.failAxle x t).sensing = h.sensing ∧
    (h.failAxle x t).path = h.path ∧ (h.failAxle x t).joints = h.joints ∧ (h.failAxle x t).brake = h.brake ∧
    (h.failAxle x t).level = h.level ∧ (h.failAxle x t).kneel = h.kneel ∧ (h.failAxle x t).doors = h.doors ∧
    (h.failAxle x t).ports = h.ports ∧ (h.failAxle x t).access = h.access ∧ (h.failAxle x t).events = h.events ∧
    (h.failAxle x t).store = h.store ∧ (h.failAxle x t).freeCount = h.freeCount := by
  unfold Hub.failAxle
  split <;> simp

@[simp] theorem Hub.steerAxle_frame (t : Trailing) (h : Hub) :
    (h.steerAxle t).clock = h.clock ∧ (h.steerAxle t).pins = h.pins ∧ (h.steerAxle t).sensing = h.sensing ∧
    (h.steerAxle t).path = h.path ∧ (h.steerAxle t).joints = h.joints ∧ (h.steerAxle t).brake = h.brake ∧
    (h.steerAxle t).level = h.level ∧ (h.steerAxle t).kneel = h.kneel ∧ (h.steerAxle t).doors = h.doors ∧
    (h.steerAxle t).ports = h.ports ∧ (h.steerAxle t).access = h.access ∧ (h.steerAxle t).events = h.events ∧
    (h.steerAxle t).store = h.store ∧ (h.steerAxle t).freeCount = h.freeCount := by
  unfold Hub.steerAxle
  simp [foldl_keeps Hub.clock, foldl_keeps Hub.pins, foldl_keeps Hub.sensing, foldl_keeps Hub.path, foldl_keeps
      Hub.joints, foldl_keeps Hub.brake, foldl_keeps Hub.level, foldl_keeps Hub.kneel, foldl_keeps Hub.doors,
      foldl_keeps Hub.ports, foldl_keeps Hub.access, foldl_keeps Hub.events, foldl_keeps Hub.store, foldl_keeps
      Hub.freeCount, apply_ite Hub.clock, apply_ite Hub.pins, apply_ite Hub.sensing, apply_ite Hub.path,
      apply_ite Hub.joints, apply_ite Hub.brake, apply_ite Hub.level, apply_ite Hub.kneel, apply_ite Hub.doors,
      apply_ite Hub.ports, apply_ite Hub.access, apply_ite Hub.events, apply_ite Hub.store, apply_ite
      Hub.freeCount] <;> (repeat' split) <;> simp

@[simp] theorem Hub.steeringPeriod_frame (x : Between) (h : Hub) :
    (h.steeringPeriod x).clock = h.clock ∧ (h.steeringPeriod x).pins = h.pins ∧ (h.steeringPeriod x).sensing = h.sensing
    ∧ (h.steeringPeriod x).path = h.path ∧ (h.steeringPeriod x).joints = h.joints ∧ (h.steeringPeriod x).brake = h.brake
    ∧ (h.steeringPeriod x).level = h.level ∧ (h.steeringPeriod x).kneel = h.kneel ∧ (h.steeringPeriod x).doors = h.doors
    ∧ (h.steeringPeriod x).ports = h.ports ∧ (h.steeringPeriod x).access = h.access ∧ (h.steeringPeriod x).events =
    h.events ∧ (h.steeringPeriod x).store = h.store ∧ (h.steeringPeriod x).freeCount = h.freeCount + 1 := by
  simp [Hub.steeringPeriod, Hub.steerAxle_frame]

@[simp] theorem Hub.clampSteer_frame (t : Trailing) (h : Hub) :
    (h.clampSteer t).clock = h.clock ∧ (h.clampSteer t).pins = h.pins ∧ (h.clampSteer t).sensing = h.sensing ∧
    (h.clampSteer t).path = h.path ∧ (h.clampSteer t).joints = h.joints ∧ (h.clampSteer t).brake = h.brake ∧
    (h.clampSteer t).level = h.level ∧ (h.clampSteer t).kneel = h.kneel ∧ (h.clampSteer t).doors = h.doors ∧
    (h.clampSteer t).ports = h.ports ∧ (h.clampSteer t).access = h.access ∧ (h.clampSteer t).events = h.events ∧
    (h.clampSteer t).store = h.store ∧ (h.clampSteer t).freeCount = h.freeCount := by
  unfold Hub.clampSteer
  simp only []
  split <;> simp

@[simp] theorem Hub.jointWork_frame (h : Hub) (j : Joint) :
    (h.jointWork j).clock = h.clock ∧ (h.jointWork j).pins = h.pins ∧ (h.jointWork j).sensing = h.sensing ∧
    (h.jointWork j).path = h.path ∧ (h.jointWork j).steering = h.steering ∧ (h.jointWork j).brake = h.brake ∧
    (h.jointWork j).level = h.level ∧ (h.jointWork j).kneel = h.kneel ∧ (h.jointWork j).doors = h.doors ∧
    (h.jointWork j).ports = h.ports ∧ (h.jointWork j).access = h.access ∧ (h.jointWork j).store = h.store ∧
    (h.jointWork j).freeCount = h.freeCount := by
  unfold Hub.jointWork
  simp only []
  split <;> simp

@[simp] theorem Hub.judgeTorque_frame (h : Hub) :
    (h.judgeTorque).clock = h.clock ∧ (h.judgeTorque).pins = h.pins ∧ (h.judgeTorque).sensing = h.sensing ∧
    (h.judgeTorque).path = h.path ∧ (h.judgeTorque).steering = h.steering ∧ (h.judgeTorque).brake = h.brake ∧
    (h.judgeTorque).level = h.level ∧ (h.judgeTorque).kneel = h.kneel ∧ (h.judgeTorque).doors = h.doors ∧
    (h.judgeTorque).ports = h.ports ∧ (h.judgeTorque).access = h.access ∧ (h.judgeTorque).events = h.events ∧
    (h.judgeTorque).store = h.store ∧ (h.judgeTorque).freeCount = h.freeCount := by
  unfold Hub.judgeTorque
  simp only []
  split <;> simp

@[simp] theorem Hub.jointPeriod_frame (h : Hub) :
    (h.jointPeriod).clock = h.clock ∧ (h.jointPeriod).pins = h.pins ∧ (h.jointPeriod).sensing = h.sensing ∧
    (h.jointPeriod).path = h.path ∧ (h.jointPeriod).steering = h.steering ∧ (h.jointPeriod).brake = h.brake ∧
    (h.jointPeriod).level = h.level ∧ (h.jointPeriod).kneel = h.kneel ∧ (h.jointPeriod).doors = h.doors ∧
    (h.jointPeriod).ports = h.ports ∧ (h.jointPeriod).access = h.access ∧ (h.jointPeriod).store = h.store ∧
    (h.jointPeriod).freeCount = h.freeCount := by
  simp [Hub.jointPeriod]

@[simp] theorem Hub.ageDemand_frame (h : Hub) :
    (h.ageDemand).clock = h.clock ∧ (h.ageDemand).pins = h.pins ∧ (h.ageDemand).sensing = h.sensing ∧
    (h.ageDemand).path = h.path ∧ (h.ageDemand).steering = h.steering ∧ (h.ageDemand).joints = h.joints ∧
    (h.ageDemand).level = h.level ∧ (h.ageDemand).kneel = h.kneel ∧ (h.ageDemand).doors = h.doors ∧
    (h.ageDemand).link = h.link ∧ (h.ageDemand).ports = h.ports ∧ (h.ageDemand).access = h.access ∧
    (h.ageDemand).store = h.store ∧ (h.ageDemand).freeCount = h.freeCount := by
  unfold Hub.ageDemand
  simp only []
  split <;> simp

@[simp] theorem Hub.takeDemands_frame (h : Hub) :
    (h.takeDemands).clock = h.clock ∧ (h.takeDemands).pins = h.pins ∧ (h.takeDemands).sensing = h.sensing ∧
    (h.takeDemands).path = h.path ∧ (h.takeDemands).steering = h.steering ∧ (h.takeDemands).level = h.level ∧
    (h.takeDemands).kneel = h.kneel ∧ (h.takeDemands).doors = h.doors ∧ (h.takeDemands).access = h.access ∧
    (h.takeDemands).store = h.store ∧ (h.takeDemands).freeCount = h.freeCount := by
  unfold Hub.takeDemands
  split
  · simp
  · dsimp only
    split <;> simp

@[simp] theorem Hub.setModes_frame (h : Hub) :
    (h.setModes).clock = h.clock ∧ (h.setModes).pins = h.pins ∧ (h.setModes).sensing = h.sensing ∧ (h.setModes).path
    = h.path ∧ (h.setModes).steering = h.steering ∧ (h.setModes).joints = h.joints ∧ (h.setModes).level = h.level ∧
    (h.setModes).kneel = h.kneel ∧ (h.setModes).doors = h.doors ∧ (h.setModes).link = h.link ∧ (h.setModes).ports =
    h.ports ∧ (h.setModes).access = h.access ∧ (h.setModes).events = h.events ∧ (h.setModes).store = h.store ∧
    (h.setModes).freeCount = h.freeCount := by
  simp [Hub.setModes]

@[simp] theorem Hub.runLoads_frame (h : Hub) :
    (h.runLoads).clock = h.clock ∧ (h.runLoads).pins = h.pins ∧ (h.runLoads).sensing = h.sensing ∧ (h.runLoads).path
    = h.path ∧ (h.runLoads).steering = h.steering ∧ (h.runLoads).joints = h.joints ∧ (h.runLoads).level = h.level ∧
    (h.runLoads).kneel = h.kneel ∧ (h.runLoads).doors = h.doors ∧ (h.runLoads).link = h.link ∧ (h.runLoads).ports =
    h.ports ∧ (h.runLoads).access = h.access ∧ (h.runLoads).events = h.events ∧ (h.runLoads).store = h.store ∧
    (h.runLoads).freeCount = h.freeCount := by
  simp [Hub.runLoads]

@[simp] theorem Hub.formService_frame (h : Hub) :
    (h.formService).clock = h.clock ∧ (h.formService).pins = h.pins ∧ (h.formService).sensing = h.sensing ∧
    (h.formService).path = h.path ∧ (h.formService).steering = h.steering ∧ (h.formService).joints = h.joints ∧
    (h.formService).level = h.level ∧ (h.formService).kneel = h.kneel ∧ (h.formService).doors = h.doors ∧
    (h.formService).link = h.link ∧ (h.formService).ports = h.ports ∧ (h.formService).access = h.access ∧
    (h.formService).events = h.events ∧ (h.formService).store = h.store ∧ (h.formService).freeCount = h.freeCount := by
  simp [Hub.formService]

@[simp] theorem Hub.confirmHalt_frame (h : Hub) :
    (h.confirmHalt).clock = h.clock ∧ (h.confirmHalt).pins = h.pins ∧ (h.confirmHalt).sensing = h.sensing ∧
    (h.confirmHalt).path = h.path ∧ (h.confirmHalt).steering = h.steering ∧ (h.confirmHalt).joints = h.joints ∧
    (h.confirmHalt).ports = h.ports ∧ (h.confirmHalt).access = h.access ∧ (h.confirmHalt).store = h.store ∧
    (h.confirmHalt).freeCount = h.freeCount := by
  unfold Hub.confirmHalt
  (repeat' split) <;> simp [foldl_keeps Hub.clock, foldl_keeps Hub.pins, foldl_keeps Hub.sensing, foldl_keeps Hub.path, foldl_keeps
      Hub.steering, foldl_keeps Hub.joints, foldl_keeps Hub.ports, foldl_keeps Hub.access, foldl_keeps
      Hub.store, foldl_keeps Hub.freeCount, apply_ite Hub.clock, apply_ite Hub.pins, apply_ite Hub.sensing,
      apply_ite Hub.path, apply_ite Hub.steering, apply_ite Hub.joints, apply_ite Hub.ports, apply_ite
      Hub.access, apply_ite Hub.store, apply_ite Hub.freeCount]

@[simp] theorem Hub.command_frame (h : Hub) :
    (h.command).clock = h.clock ∧ (h.command).pins = h.pins ∧ (h.command).sensing = h.sensing ∧ (h.command).path =
    h.path ∧ (h.command).steering = h.steering ∧ (h.command).joints = h.joints ∧ (h.command).level = h.level ∧
    (h.command).kneel = h.kneel ∧ (h.command).doors = h.doors ∧ (h.command).ports = h.ports ∧ (h.command).access =
    h.access ∧ (h.command).events = h.events ∧ (h.command).store = h.store ∧ (h.command).freeCount = h.freeCount := by
  unfold Hub.command
  simp [foldl_keeps Hub.clock, foldl_keeps Hub.pins, foldl_keeps Hub.sensing, foldl_keeps Hub.path, foldl_keeps
      Hub.steering, foldl_keeps Hub.joints, foldl_keeps Hub.level, foldl_keeps Hub.kneel, foldl_keeps
      Hub.doors, foldl_keeps Hub.ports, foldl_keeps Hub.access, foldl_keeps Hub.events, foldl_keeps Hub.store,
      foldl_keeps Hub.freeCount, apply_ite Hub.clock, apply_ite Hub.pins, apply_ite Hub.sensing, apply_ite
      Hub.path, apply_ite Hub.steering, apply_ite Hub.joints, apply_ite Hub.level, apply_ite Hub.kneel,
      apply_ite Hub.doors, apply_ite Hub.ports, apply_ite Hub.access, apply_ite Hub.events, apply_ite
      Hub.store, apply_ite Hub.freeCount]

@[simp] theorem Hub.brakePeriod_frame (h : Hub) :
    (h.brakePeriod).clock = h.clock ∧ (h.brakePeriod).pins = h.pins ∧ (h.brakePeriod).sensing = h.sensing ∧
    (h.brakePeriod).path = h.path ∧ (h.brakePeriod).steering = h.steering ∧ (h.brakePeriod).access = h.access ∧
    (h.brakePeriod).store = h.store ∧ (h.brakePeriod).freeCount = h.freeCount := by
  simp [Hub.brakePeriod]

@[simp] theorem Hub.sampleHeights_frame (h : Hub) :
    (h.sampleHeights).clock = h.clock ∧ (h.sampleHeights).pins = h.pins ∧ (h.sampleHeights).sensing = h.sensing ∧
    (h.sampleHeights).path = h.path ∧ (h.sampleHeights).steering = h.steering ∧ (h.sampleHeights).joints = h.joints
    ∧ (h.sampleHeights).brake = h.brake ∧ (h.sampleHeights).kneel = h.kneel ∧ (h.sampleHeights).doors = h.doors ∧
    (h.sampleHeights).link = h.link ∧ (h.sampleHeights).ports = h.ports ∧ (h.sampleHeights).access = h.access ∧
    (h.sampleHeights).events = h.events ∧ (h.sampleHeights).store = h.store ∧ (h.sampleHeights).freeCount =
    h.freeCount := by
  simp [Hub.sampleHeights]

@[simp] theorem Hub.formSections_frame (h : Hub) :
    (h.formSections).clock = h.clock ∧ (h.formSections).pins = h.pins ∧ (h.formSections).sensing = h.sensing ∧
    (h.formSections).path = h.path ∧ (h.formSections).steering = h.steering ∧ (h.formSections).joints = h.joints ∧
    (h.formSections).brake = h.brake ∧ (h.formSections).kneel = h.kneel ∧ (h.formSections).doors = h.doors ∧
    (h.formSections).link = h.link ∧ (h.formSections).ports = h.ports ∧ (h.formSections).access = h.access ∧
    (h.formSections).events = h.events ∧ (h.formSections).store = h.store ∧ (h.formSections).freeCount = h.freeCount := by
  simp [Hub.formSections]

@[simp] theorem Hub.exitExcluded_frame (h : Hub) (c : Circuit) :
    (h.exitExcluded c).clock = h.clock ∧ (h.exitExcluded c).pins = h.pins ∧ (h.exitExcluded c).sensing = h.sensing ∧
    (h.exitExcluded c).path = h.path ∧ (h.exitExcluded c).steering = h.steering ∧ (h.exitExcluded c).joints =
    h.joints ∧ (h.exitExcluded c).kneel = h.kneel ∧ (h.exitExcluded c).doors = h.doors ∧ (h.exitExcluded c).link =
    h.link ∧ (h.exitExcluded c).ports = h.ports ∧ (h.exitExcluded c).access = h.access ∧ (h.exitExcluded c).events =
    h.events ∧ (h.exitExcluded c).store = h.store ∧ (h.exitExcluded c).freeCount = h.freeCount := by
  unfold Hub.exitExcluded
  simp only []
  split <;> simp

@[simp] theorem Hub.endPause_frame (h : Hub) (c : Circuit) :
    (h.endPause c).clock = h.clock ∧ (h.endPause c).pins = h.pins ∧ (h.endPause c).sensing = h.sensing ∧ (h.endPause
    c).path = h.path ∧ (h.endPause c).steering = h.steering ∧ (h.endPause c).joints = h.joints ∧ (h.endPause
    c).brake = h.brake ∧ (h.endPause c).kneel = h.kneel ∧ (h.endPause c).doors = h.doors ∧ (h.endPause c).link =
    h.link ∧ (h.endPause c).ports = h.ports ∧ (h.endPause c).access = h.access ∧ (h.endPause c).events = h.events ∧
    (h.endPause c).store = h.store ∧ (h.endPause c).freeCount = h.freeCount := by
  unfold Hub.endPause
  (repeat' split) <;> simp [foldl_keeps Hub.clock, foldl_keeps Hub.pins, foldl_keeps Hub.sensing, foldl_keeps Hub.path, foldl_keeps
      Hub.steering, foldl_keeps Hub.joints, foldl_keeps Hub.brake, foldl_keeps Hub.kneel, foldl_keeps
      Hub.doors, foldl_keeps Hub.link, foldl_keeps Hub.ports, foldl_keeps Hub.access, foldl_keeps Hub.events,
      foldl_keeps Hub.store, foldl_keeps Hub.freeCount, apply_ite Hub.clock, apply_ite Hub.pins, apply_ite
      Hub.sensing, apply_ite Hub.path, apply_ite Hub.steering, apply_ite Hub.joints, apply_ite Hub.brake,
      apply_ite Hub.kneel, apply_ite Hub.doors, apply_ite Hub.link, apply_ite Hub.ports, apply_ite Hub.access,
      apply_ite Hub.events, apply_ite Hub.store, apply_ite Hub.freeCount]

@[simp] theorem Hub.judgePause_frame (h : Hub) (c : Circuit) :
    (h.judgePause c).clock = h.clock ∧ (h.judgePause c).pins = h.pins ∧ (h.judgePause c).sensing = h.sensing ∧
    (h.judgePause c).path = h.path ∧ (h.judgePause c).steering = h.steering ∧ (h.judgePause c).joints = h.joints ∧
    (h.judgePause c).kneel = h.kneel ∧ (h.judgePause c).doors = h.doors ∧ (h.judgePause c).link = h.link ∧
    (h.judgePause c).ports = h.ports ∧ (h.judgePause c).access = h.access ∧ (h.judgePause c).events = h.events ∧
    (h.judgePause c).store = h.store ∧ (h.judgePause c).freeCount = h.freeCount := by
  unfold Hub.judgePause
  (repeat' split) <;> simp [foldl_keeps Hub.clock, foldl_keeps Hub.pins, foldl_keeps Hub.sensing, foldl_keeps Hub.path, foldl_keeps
      Hub.steering, foldl_keeps Hub.joints, foldl_keeps Hub.kneel, foldl_keeps Hub.doors, foldl_keeps Hub.link,
      foldl_keeps Hub.ports, foldl_keeps Hub.access, foldl_keeps Hub.events, foldl_keeps Hub.store, foldl_keeps
      Hub.freeCount, apply_ite Hub.clock, apply_ite Hub.pins, apply_ite Hub.sensing, apply_ite Hub.path,
      apply_ite Hub.steering, apply_ite Hub.joints, apply_ite Hub.kneel, apply_ite Hub.doors, apply_ite
      Hub.link, apply_ite Hub.ports, apply_ite Hub.access, apply_ite Hub.events, apply_ite Hub.store, apply_ite
      Hub.freeCount]

@[simp] theorem Hub.stopWaiting_frame (h : Hub) (c : Circuit) :
    (h.stopWaiting c).clock = h.clock ∧ (h.stopWaiting c).pins = h.pins ∧ (h.stopWaiting c).sensing = h.sensing ∧
    (h.stopWaiting c).path = h.path ∧ (h.stopWaiting c).steering = h.steering ∧ (h.stopWaiting c).joints = h.joints
    ∧ (h.stopWaiting c).kneel = h.kneel ∧ (h.stopWaiting c).doors = h.doors ∧ (h.stopWaiting c).link = h.link ∧
    (h.stopWaiting c).ports = h.ports ∧ (h.stopWaiting c).access = h.access ∧ (h.stopWaiting c).events = h.events ∧
    (h.stopWaiting c).store = h.store ∧ (h.stopWaiting c).freeCount = h.freeCount := by
  unfold Hub.stopWaiting
  split <;> simp

@[simp] theorem Hub.stopRunning_frame (h : Hub) (c : Circuit) :
    (h.stopRunning c).clock = h.clock ∧ (h.stopRunning c).pins = h.pins ∧ (h.stopRunning c).sensing = h.sensing ∧
    (h.stopRunning c).path = h.path ∧ (h.stopRunning c).steering = h.steering ∧ (h.stopRunning c).joints = h.joints
    ∧ (h.stopRunning c).kneel = h.kneel ∧ (h.stopRunning c).doors = h.doors ∧ (h.stopRunning c).link = h.link ∧
    (h.stopRunning c).ports = h.ports ∧ (h.stopRunning c).access = h.access ∧ (h.stopRunning c).events = h.events ∧
    (h.stopRunning c).store = h.store ∧ (h.stopRunning c).freeCount = h.freeCount := by
  unfold Hub.stopRunning
  (repeat' split) <;> simp

@[simp] theorem Hub.slowFill_frame (h : Hub) (i : FillSlot) (x : HeldSlot) :
    (h.slowFill i x).clock = h.clock ∧ (h.slowFill i x).pins = h.pins ∧ (h.slowFill i x).sensing = h.sensing ∧
    (h.slowFill i x).path = h.path ∧ (h.slowFill i x).steering = h.steering ∧ (h.slowFill i x).joints = h.joints ∧
    (h.slowFill i x).kneel = h.kneel ∧ (h.slowFill i x).doors = h.doors ∧ (h.slowFill i x).link = h.link ∧
    (h.slowFill i x).ports = h.ports ∧ (h.slowFill i x).access = h.access ∧ (h.slowFill i x).store = h.store ∧
    (h.slowFill i x).freeCount = h.freeCount := by
  simp [Hub.slowFill]

@[simp] theorem Hub.advanceSlot_frame (h : Hub) (i : FillSlot) :
    (h.advanceSlot i).clock = h.clock ∧ (h.advanceSlot i).pins = h.pins ∧ (h.advanceSlot i).sensing = h.sensing ∧
    (h.advanceSlot i).path = h.path ∧ (h.advanceSlot i).steering = h.steering ∧ (h.advanceSlot i).joints = h.joints
    ∧ (h.advanceSlot i).kneel = h.kneel ∧ (h.advanceSlot i).doors = h.doors ∧ (h.advanceSlot i).link = h.link ∧
    (h.advanceSlot i).ports = h.ports ∧ (h.advanceSlot i).access = h.access ∧ (h.advanceSlot i).store = h.store ∧
    (h.advanceSlot i).freeCount = h.freeCount := by
  unfold Hub.advanceSlot
  (repeat' split) <;> simp

@[simp] theorem Hub.beginAction_frame (h : Hub) (c : Circuit) (d : Deviation) :
    (h.beginAction c d).clock = h.clock ∧ (h.beginAction c d).pins = h.pins ∧ (h.beginAction c d).sensing =
    h.sensing ∧ (h.beginAction c d).path = h.path ∧ (h.beginAction c d).steering = h.steering ∧ (h.beginAction c
    d).joints = h.joints ∧ (h.beginAction c d).kneel = h.kneel ∧ (h.beginAction c d).doors = h.doors ∧
    (h.beginAction c d).link = h.link ∧ (h.beginAction c d).ports = h.ports ∧ (h.beginAction c d).access = h.access
    ∧ (h.beginAction c d).events = h.events ∧ (h.beginAction c d).store = h.store ∧ (h.beginAction c d).freeCount =
    h.freeCount := by
  unfold Hub.beginAction
  split <;> simp

@[simp] theorem Hub.startCircuit_frame (left : Circuit → Bool) (h : Hub) (c : Circuit) :
    (Hub.startCircuit left h c).clock = h.clock ∧ (Hub.startCircuit left h c).pins = h.pins ∧ (Hub.startCircuit left
    h c).sensing = h.sensing ∧ (Hub.startCircuit left h c).path = h.path ∧ (Hub.startCircuit left h c).steering =
    h.steering ∧ (Hub.startCircuit left h c).joints = h.joints ∧ (Hub.startCircuit left h c).kneel = h.kneel ∧
    (Hub.startCircuit left h c).doors = h.doors ∧ (Hub.startCircuit left h c).link = h.link ∧ (Hub.startCircuit left
    h c).ports = h.ports ∧ (Hub.startCircuit left h c).access = h.access ∧ (Hub.startCircuit left h c).events =
    h.events ∧ (Hub.startCircuit left h c).store = h.store ∧ (Hub.startCircuit left h c).freeCount = h.freeCount := by
  unfold Hub.startCircuit
  (repeat' split) <;> simp [foldl_keeps Hub.clock, foldl_keeps Hub.pins, foldl_keeps Hub.sensing, foldl_keeps Hub.path, foldl_keeps
      Hub.steering, foldl_keeps Hub.joints, foldl_keeps Hub.kneel, foldl_keeps Hub.doors, foldl_keeps Hub.link,
      foldl_keeps Hub.ports, foldl_keeps Hub.access, foldl_keeps Hub.events, foldl_keeps Hub.store, foldl_keeps
      Hub.freeCount, apply_ite Hub.clock, apply_ite Hub.pins, apply_ite Hub.sensing, apply_ite Hub.path,
      apply_ite Hub.steering, apply_ite Hub.joints, apply_ite Hub.kneel, apply_ite Hub.doors, apply_ite
      Hub.link, apply_ite Hub.ports, apply_ite Hub.access, apply_ite Hub.events, apply_ite Hub.store, apply_ite
      Hub.freeCount]

@[simp] theorem Hub.handErrors_frame (h : Hub) :
    (h.handErrors).clock = h.clock ∧ (h.handErrors).pins = h.pins ∧ (h.handErrors).sensing = h.sensing ∧
    (h.handErrors).path = h.path ∧ (h.handErrors).steering = h.steering ∧ (h.handErrors).joints = h.joints ∧
    (h.handErrors).brake = h.brake ∧ (h.handErrors).level = h.level ∧ (h.handErrors).doors = h.doors ∧
    (h.handErrors).link = h.link ∧ (h.handErrors).ports = h.ports ∧ (h.handErrors).access = h.access ∧
    (h.handErrors).events = h.events ∧ (h.handErrors).store = h.store ∧ (h.handErrors).freeCount = h.freeCount := by
  simp [Hub.handErrors]

@[simp] theorem Hub.judgeCompletion_frame (h : Hub) :
    (h.judgeCompletion).clock = h.clock ∧ (h.judgeCompletion).pins = h.pins ∧ (h.judgeCompletion).sensing =
    h.sensing ∧ (h.judgeCompletion).path = h.path ∧ (h.judgeCompletion).steering = h.steering ∧
    (h.judgeCompletion).joints = h.joints ∧ (h.judgeCompletion).ports = h.ports ∧ (h.judgeCompletion).access =
    h.access ∧ (h.judgeCompletion).store = h.store ∧ (h.judgeCompletion).freeCount = h.freeCount := by
  unfold Hub.judgeCompletion
  (repeat' split) <;> simp

@[simp] theorem Hub.levellingStops_frame (h : Hub) :
    (h.levellingStops).clock = h.clock ∧ (h.levellingStops).pins = h.pins ∧ (h.levellingStops).sensing = h.sensing ∧
    (h.levellingStops).path = h.path ∧ (h.levellingStops).steering = h.steering ∧ (h.levellingStops).joints =
    h.joints ∧ (h.levellingStops).kneel = h.kneel ∧ (h.levellingStops).doors = h.doors ∧ (h.levellingStops).link =
    h.link ∧ (h.levellingStops).ports = h.ports ∧ (h.levellingStops).access = h.access ∧ (h.levellingStops).store =
    h.store ∧ (h.levellingStops).freeCount = h.freeCount := by
  unfold Hub.levellingStops
  simp [foldl_keeps Hub.clock, foldl_keeps Hub.pins, foldl_keeps Hub.sensing, foldl_keeps Hub.path, foldl_keeps
      Hub.steering, foldl_keeps Hub.joints, foldl_keeps Hub.kneel, foldl_keeps Hub.doors, foldl_keeps Hub.link,
      foldl_keeps Hub.ports, foldl_keeps Hub.access, foldl_keeps Hub.store, foldl_keeps Hub.freeCount,
      apply_ite Hub.clock, apply_ite Hub.pins, apply_ite Hub.sensing, apply_ite Hub.path, apply_ite
      Hub.steering, apply_ite Hub.joints, apply_ite Hub.kneel, apply_ite Hub.doors, apply_ite Hub.link,
      apply_ite Hub.ports, apply_ite Hub.access, apply_ite Hub.store, apply_ite Hub.freeCount]

@[simp] theorem Hub.levellingPeriod_frame (h : Hub) :
    (h.levellingPeriod).clock = h.clock ∧ (h.levellingPeriod).pins = h.pins ∧ (h.levellingPeriod).sensing =
    h.sensing ∧ (h.levellingPeriod).path = h.path ∧ (h.levellingPeriod).steering = h.steering ∧
    (h.levellingPeriod).joints = h.joints ∧ (h.levellingPeriod).ports = h.ports ∧ (h.levellingPeriod).access =
    h.access ∧ (h.levellingPeriod).store = h.store ∧ (h.levellingPeriod).freeCount = h.freeCount := by
  unfold Hub.levellingPeriod
  simp [foldl_keeps Hub.clock, foldl_keeps Hub.pins, foldl_keeps Hub.sensing, foldl_keeps Hub.path, foldl_keeps
      Hub.steering, foldl_keeps Hub.joints, foldl_keeps Hub.ports, foldl_keeps Hub.access, foldl_keeps
      Hub.store, foldl_keeps Hub.freeCount, apply_ite Hub.clock, apply_ite Hub.pins, apply_ite Hub.sensing,
      apply_ite Hub.path, apply_ite Hub.steering, apply_ite Hub.joints, apply_ite Hub.ports, apply_ite
      Hub.access, apply_ite Hub.store, apply_ite Hub.freeCount]

@[simp] theorem Hub.rawChange_frame (d : Door) (i : DoorInput) (b : Bool) (h : Hub) :
    (h.rawChange d i b).clock = h.clock ∧ (h.rawChange d i b).pins = h.pins ∧ (h.rawChange d i b).sensing =
    h.sensing ∧ (h.rawChange d i b).path = h.path ∧ (h.rawChange d i b).steering = h.steering ∧ (h.rawChange d i
    b).joints = h.joints ∧ (h.rawChange d i b).brake = h.brake ∧ (h.rawChange d i b).level = h.level ∧ (h.rawChange
    d i b).kneel = h.kneel ∧ (h.rawChange d i b).link = h.link ∧ (h.rawChange d i b).ports = h.ports ∧ (h.rawChange
    d i b).access = h.access ∧ (h.rawChange d i b).events = h.events ∧ (h.rawChange d i b).store = h.store ∧
    (h.rawChange d i b).freeCount = h.freeCount := by
  simp [Hub.rawChange]

@[simp] theorem Hub.positionChange_frame (d : Door) (h : Hub) :
    (h.positionChange d).clock = h.clock ∧ (h.positionChange d).pins = h.pins ∧ (h.positionChange d).sensing =
    h.sensing ∧ (h.positionChange d).path = h.path ∧ (h.positionChange d).steering = h.steering ∧ (h.positionChange
    d).joints = h.joints ∧ (h.positionChange d).ports = h.ports ∧ (h.positionChange d).access = h.access ∧
    (h.positionChange d).store = h.store ∧ (h.positionChange d).freeCount = h.freeCount := by
  unfold Hub.positionChange
  (repeat' split) <;> simp [foldl_keeps Hub.clock, foldl_keeps Hub.pins, foldl_keeps Hub.sensing, foldl_keeps Hub.path, foldl_keeps
      Hub.steering, foldl_keeps Hub.joints, foldl_keeps Hub.ports, foldl_keeps Hub.access, foldl_keeps
      Hub.store, foldl_keeps Hub.freeCount, apply_ite Hub.clock, apply_ite Hub.pins, apply_ite Hub.sensing,
      apply_ite Hub.path, apply_ite Hub.steering, apply_ite Hub.joints, apply_ite Hub.ports, apply_ite
      Hub.access, apply_ite Hub.store, apply_ite Hub.freeCount]

@[simp] theorem Hub.handleActs_frame (d : Door) (h : Hub) :
    (h.handleActs d).clock = h.clock ∧ (h.handleActs d).pins = h.pins ∧ (h.handleActs d).sensing = h.sensing ∧
    (h.handleActs d).path = h.path ∧ (h.handleActs d).steering = h.steering ∧ (h.handleActs d).joints = h.joints ∧
    (h.handleActs d).ports = h.ports ∧ (h.handleActs d).access = h.access ∧ (h.handleActs d).store = h.store ∧
    (h.handleActs d).freeCount = h.freeCount := by
  unfold Hub.handleActs
  simp [foldl_keeps Hub.clock, foldl_keeps Hub.pins, foldl_keeps Hub.sensing, foldl_keeps Hub.path, foldl_keeps
      Hub.steering, foldl_keeps Hub.joints, foldl_keeps Hub.ports, foldl_keeps Hub.access, foldl_keeps
      Hub.store, foldl_keeps Hub.freeCount, apply_ite Hub.clock, apply_ite Hub.pins, apply_ite Hub.sensing,
      apply_ite Hub.path, apply_ite Hub.steering, apply_ite Hub.joints, apply_ite Hub.ports, apply_ite
      Hub.access, apply_ite Hub.store, apply_ite Hub.freeCount]

@[simp] theorem Hub.handleActive_frame (d : Door) (h : Hub) :
    (h.handleActive d).clock = h.clock ∧ (h.handleActive d).pins = h.pins ∧ (h.handleActive d).sensing = h.sensing ∧
    (h.handleActive d).path = h.path ∧ (h.handleActive d).steering = h.steering ∧ (h.handleActive d).joints =
    h.joints ∧ (h.handleActive d).ports = h.ports ∧ (h.handleActive d).access = h.access ∧ (h.handleActive d).store
    = h.store ∧ (h.handleActive d).freeCount = h.freeCount := by
  unfold Hub.handleActive
  split <;> simp

@[simp] theorem Hub.handleInactive_frame (d : Door) (h : Hub) :
    (h.handleInactive d).clock = h.clock ∧ (h.handleInactive d).pins = h.pins ∧ (h.handleInactive d).sensing =
    h.sensing ∧ (h.handleInactive d).path = h.path ∧ (h.handleInactive d).steering = h.steering ∧ (h.handleInactive
    d).joints = h.joints ∧ (h.handleInactive d).brake = h.brake ∧ (h.handleInactive d).level = h.level ∧
    (h.handleInactive d).kneel = h.kneel ∧ (h.handleInactive d).link = h.link ∧ (h.handleInactive d).ports = h.ports
    ∧ (h.handleInactive d).access = h.access ∧ (h.handleInactive d).store = h.store ∧ (h.handleInactive d).freeCount
    = h.freeCount := by
  simp [Hub.handleInactive]

@[simp] theorem Hub.handleChange_frame (d : Door) (h : Hub) :
    (h.handleChange d).clock = h.clock ∧ (h.handleChange d).pins = h.pins ∧ (h.handleChange d).sensing = h.sensing ∧
    (h.handleChange d).path = h.path ∧ (h.handleChange d).steering = h.steering ∧ (h.handleChange d).joints =
    h.joints ∧ (h.handleChange d).ports = h.ports ∧ (h.handleChange d).access = h.access ∧ (h.handleChange d).store
    = h.store ∧ (h.handleChange d).freeCount = h.freeCount := by
  unfold Hub.handleChange
  (repeat' split) <;> simp

@[simp] theorem Hub.debounceExpiry_frame (d : Door) (i : DoorInput) (h : Hub) :
    (h.debounceExpiry d i).clock = h.clock ∧ (h.debounceExpiry d i).pins = h.pins ∧ (h.debounceExpiry d i).sensing =
    h.sensing ∧ (h.debounceExpiry d i).path = h.path ∧ (h.debounceExpiry d i).steering = h.steering ∧
    (h.debounceExpiry d i).joints = h.joints ∧ (h.debounceExpiry d i).ports = h.ports ∧ (h.debounceExpiry d
    i).access = h.access ∧ (h.debounceExpiry d i).store = h.store ∧ (h.debounceExpiry d i).freeCount = h.freeCount := by
  unfold Hub.debounceExpiry
  (repeat' split) <;> simp [foldl_keeps Hub.clock, foldl_keeps Hub.pins, foldl_keeps Hub.sensing, foldl_keeps Hub.path, foldl_keeps
      Hub.steering, foldl_keeps Hub.joints, foldl_keeps Hub.ports, foldl_keeps Hub.access, foldl_keeps
      Hub.store, foldl_keeps Hub.freeCount, apply_ite Hub.clock, apply_ite Hub.pins, apply_ite Hub.sensing,
      apply_ite Hub.path, apply_ite Hub.steering, apply_ite Hub.joints, apply_ite Hub.ports, apply_ite
      Hub.access, apply_ite Hub.store, apply_ite Hub.freeCount]

@[simp] theorem Hub.judgeAtSpeed_frame (h : Hub) (d : Door) :
    (h.judgeAtSpeed d).clock = h.clock ∧ (h.judgeAtSpeed d).pins = h.pins ∧ (h.judgeAtSpeed d).sensing = h.sensing ∧
    (h.judgeAtSpeed d).path = h.path ∧ (h.judgeAtSpeed d).steering = h.steering ∧ (h.judgeAtSpeed d).joints =
    h.joints ∧ (h.judgeAtSpeed d).ports = h.ports ∧ (h.judgeAtSpeed d).access = h.access ∧ (h.judgeAtSpeed d).store
    = h.store ∧ (h.judgeAtSpeed d).freeCount = h.freeCount := by
  unfold Hub.judgeAtSpeed
  split <;> simp

@[simp] theorem Hub.speedExpiry_frame (d : Direction) (h : Hub) :
    (h.speedExpiry d).clock = h.clock ∧ (h.speedExpiry d).path = h.path ∧ (h.speedExpiry d).steering = h.steering ∧
    (h.speedExpiry d).joints = h.joints ∧ (h.speedExpiry d).ports = h.ports ∧ (h.speedExpiry d).access = h.access ∧
    (h.speedExpiry d).store = h.store ∧ (h.speedExpiry d).freeCount = h.freeCount := by
  unfold Hub.speedExpiry
  simp [foldl_keeps Hub.clock, foldl_keeps Hub.path, foldl_keeps Hub.steering, foldl_keeps Hub.joints,
      foldl_keeps Hub.ports, foldl_keeps Hub.access, foldl_keeps Hub.store, foldl_keeps Hub.freeCount,
      apply_ite Hub.clock, apply_ite Hub.path, apply_ite Hub.steering, apply_ite Hub.joints, apply_ite
      Hub.ports, apply_ite Hub.access, apply_ite Hub.store, apply_ite Hub.freeCount]

@[simp] theorem Hub.releaseDoor_frame (m : DoorMask) (h : Hub) (d : Door) :
    (Hub.releaseDoor m h d).clock = h.clock ∧ (Hub.releaseDoor m h d).pins = h.pins ∧ (Hub.releaseDoor m h
    d).sensing = h.sensing ∧ (Hub.releaseDoor m h d).path = h.path ∧ (Hub.releaseDoor m h d).steering = h.steering ∧
    (Hub.releaseDoor m h d).joints = h.joints ∧ (Hub.releaseDoor m h d).ports = h.ports ∧ (Hub.releaseDoor m h
    d).access = h.access ∧ (Hub.releaseDoor m h d).store = h.store ∧ (Hub.releaseDoor m h d).freeCount = h.freeCount := by
  unfold Hub.releaseDoor
  split <;> simp

@[simp] theorem Hub.withdrawDoor_frame (m : DoorMask) (h : Hub) (d : Door) :
    (Hub.withdrawDoor m h d).clock = h.clock ∧ (Hub.withdrawDoor m h d).pins = h.pins ∧ (Hub.withdrawDoor m h
    d).sensing = h.sensing ∧ (Hub.withdrawDoor m h d).path = h.path ∧ (Hub.withdrawDoor m h d).steering = h.steering
    ∧ (Hub.withdrawDoor m h d).joints = h.joints ∧ (Hub.withdrawDoor m h d).ports = h.ports ∧ (Hub.withdrawDoor m h
    d).access = h.access ∧ (Hub.withdrawDoor m h d).store = h.store ∧ (Hub.withdrawDoor m h d).freeCount =
    h.freeCount := by
  unfold Hub.withdrawDoor
  split <;> simp

@[simp] theorem Hub.disableDoor_frame (h : Hub) (d : Door) :
    (h.disableDoor d).clock = h.clock ∧ (h.disableDoor d).pins = h.pins ∧ (h.disableDoor d).sensing = h.sensing ∧
    (h.disableDoor d).path = h.path ∧ (h.disableDoor d).steering = h.steering ∧ (h.disableDoor d).joints = h.joints
    ∧ (h.disableDoor d).ports = h.ports ∧ (h.disableDoor d).access = h.access ∧ (h.disableDoor d).store = h.store ∧
    (h.disableDoor d).freeCount = h.freeCount := by
  simp [Hub.disableDoor]

@[simp] theorem Hub.installEnables_frame (h : Hub) :
    (h.installEnables).clock = h.clock ∧ (h.installEnables).pins = h.pins ∧ (h.installEnables).sensing = h.sensing ∧
    (h.installEnables).path = h.path ∧ (h.installEnables).steering = h.steering ∧ (h.installEnables).joints =
    h.joints ∧ (h.installEnables).ports = h.ports ∧ (h.installEnables).access = h.access ∧ (h.installEnables).store
    = h.store ∧ (h.installEnables).freeCount = h.freeCount := by
  unfold Hub.installEnables
  simp [foldl_keeps Hub.clock, foldl_keeps Hub.pins, foldl_keeps Hub.sensing, foldl_keeps Hub.path, foldl_keeps
      Hub.steering, foldl_keeps Hub.joints, foldl_keeps Hub.ports, foldl_keeps Hub.access, foldl_keeps
      Hub.store, foldl_keeps Hub.freeCount, apply_ite Hub.clock, apply_ite Hub.pins, apply_ite Hub.sensing,
      apply_ite Hub.path, apply_ite Hub.steering, apply_ite Hub.joints, apply_ite Hub.ports, apply_ite
      Hub.access, apply_ite Hub.store, apply_ite Hub.freeCount]

@[simp] theorem Hub.sampleDoors_frame (x : PerDoor DoorLevels) (h : Hub) :
    (h.sampleDoors x).clock = h.clock ∧ (h.sampleDoors x).pins = h.pins ∧ (h.sampleDoors x).sensing = h.sensing ∧
    (h.sampleDoors x).path = h.path ∧ (h.sampleDoors x).steering = h.steering ∧ (h.sampleDoors x).joints = h.joints
    ∧ (h.sampleDoors x).brake = h.brake ∧ (h.sampleDoors x).level = h.level ∧ (h.sampleDoors x).kneel = h.kneel ∧
    (h.sampleDoors x).ports = h.ports ∧ (h.sampleDoors x).access = h.access ∧ (h.sampleDoors x).store = h.store ∧
    (h.sampleDoors x).freeCount = h.freeCount := by
  simp [Hub.sampleDoors]

@[simp] theorem Hub.failBoth_frame (x : FailCause) (h : Hub) :
    (h.failBoth x).clock = h.clock ∧ (h.failBoth x).pins = h.pins ∧ (h.failBoth x).sensing = h.sensing ∧ (h.failBoth
    x).path = h.path ∧ (h.failBoth x).joints = h.joints ∧ (h.failBoth x).brake = h.brake ∧ (h.failBoth x).level =
    h.level ∧ (h.failBoth x).kneel = h.kneel ∧ (h.failBoth x).doors = h.doors ∧ (h.failBoth x).ports = h.ports ∧
    (h.failBoth x).access = h.access ∧ (h.failBoth x).events = h.events ∧ (h.failBoth x).store = h.store ∧
    (h.failBoth x).freeCount = h.freeCount := by
  simp [Hub.failBoth]

@[simp] theorem Hub.takeAngle_frame (t : Trailing) (w : Option Half) (h : Hub) :
    (h.takeAngle t w).clock = h.clock ∧ (h.takeAngle t w).pins = h.pins ∧ (h.takeAngle t w).sensing = h.sensing ∧
    (h.takeAngle t w).path = h.path ∧ (h.takeAngle t w).joints = h.joints ∧ (h.takeAngle t w).brake = h.brake ∧
    (h.takeAngle t w).level = h.level ∧ (h.takeAngle t w).kneel = h.kneel ∧ (h.takeAngle t w).doors = h.doors ∧
    (h.takeAngle t w).link = h.link ∧ (h.takeAngle t w).ports = h.ports ∧ (h.takeAngle t w).access = h.access ∧
    (h.takeAngle t w).events = h.events ∧ (h.takeAngle t w).store = h.store ∧ (h.takeAngle t w).freeCount =
    h.freeCount := by
  unfold Hub.takeAngle
  split <;> simp

@[simp] theorem Hub.completeB_frame (a : PerAxle (Option (DeviceAnswer ModCmd Bool))) (h : Hub) :
    (h.completeB a).clock = h.clock ∧ (h.completeB a).pins = h.pins ∧ (h.completeB a).sensing = h.sensing ∧
    (h.completeB a).path = h.path ∧ (h.completeB a).steering = h.steering ∧ (h.completeB a).joints = h.joints ∧
    (h.completeB a).brake = h.brake ∧ (h.completeB a).level = h.level ∧ (h.completeB a).kneel = h.kneel ∧
    (h.completeB a).doors = h.doors ∧ (h.completeB a).ports = h.ports ∧ (h.completeB a).access = h.access ∧
    (h.completeB a).store = h.store ∧ (h.completeB a).freeCount = h.freeCount := by
  unfold Hub.completeB
  simp [foldl_keeps Hub.clock, foldl_keeps Hub.pins, foldl_keeps Hub.sensing, foldl_keeps Hub.path, foldl_keeps
      Hub.steering, foldl_keeps Hub.joints, foldl_keeps Hub.brake, foldl_keeps Hub.level, foldl_keeps
      Hub.kneel, foldl_keeps Hub.doors, foldl_keeps Hub.ports, foldl_keeps Hub.access, foldl_keeps Hub.store,
      foldl_keeps Hub.freeCount, apply_ite Hub.clock, apply_ite Hub.pins, apply_ite Hub.sensing, apply_ite
      Hub.path, apply_ite Hub.steering, apply_ite Hub.joints, apply_ite Hub.brake, apply_ite Hub.level,
      apply_ite Hub.kneel, apply_ite Hub.doors, apply_ite Hub.ports, apply_ite Hub.access, apply_ite Hub.store,
      apply_ite Hub.freeCount, handFault_keeps Hub.clock, handFault_keeps Hub.pins, handFault_keeps
      Hub.sensing, handFault_keeps Hub.path, handFault_keeps Hub.steering, handFault_keeps Hub.joints,
      handFault_keeps Hub.brake, handFault_keeps Hub.level, handFault_keeps Hub.kneel, handFault_keeps
      Hub.doors, handFault_keeps Hub.ports, handFault_keeps Hub.access, handFault_keeps Hub.store,
      handFault_keeps Hub.freeCount]

@[simp] theorem Hub.completeL_frame (a : PerCircuit (Option (DeviceAnswer ValveCmd Bool))) (h : Hub) :
    (h.completeL a).clock = h.clock ∧ (h.completeL a).pins = h.pins ∧ (h.completeL a).sensing = h.sensing ∧
    (h.completeL a).path = h.path ∧ (h.completeL a).steering = h.steering ∧ (h.completeL a).joints = h.joints ∧
    (h.completeL a).ports = h.ports ∧ (h.completeL a).access = h.access ∧ (h.completeL a).store = h.store ∧
    (h.completeL a).freeCount = h.freeCount := by
  unfold Hub.completeL
  simp [foldl_keeps Hub.clock, foldl_keeps Hub.pins, foldl_keeps Hub.sensing, foldl_keeps Hub.path, foldl_keeps
      Hub.steering, foldl_keeps Hub.joints, foldl_keeps Hub.ports, foldl_keeps Hub.access, foldl_keeps
      Hub.store, foldl_keeps Hub.freeCount, apply_ite Hub.clock, apply_ite Hub.pins, apply_ite Hub.sensing,
      apply_ite Hub.path, apply_ite Hub.steering, apply_ite Hub.joints, apply_ite Hub.ports, apply_ite
      Hub.access, apply_ite Hub.store, apply_ite Hub.freeCount, handFault_keeps Hub.clock, handFault_keeps
      Hub.pins, handFault_keeps Hub.sensing, handFault_keeps Hub.path, handFault_keeps Hub.steering,
      handFault_keeps Hub.joints, handFault_keeps Hub.ports, handFault_keeps Hub.access, handFault_keeps
      Hub.store, handFault_keeps Hub.freeCount]

@[simp] theorem Hub.completeS_frame (a : PerTrailing (Option (DeviceAnswer SteerCmd Half))) (h : Hub) :
    (h.completeS a).clock = h.clock ∧ (h.completeS a).pins = h.pins ∧ (h.completeS a).sensing = h.sensing ∧
    (h.completeS a).path = h.path ∧ (h.completeS a).joints = h.joints ∧ (h.completeS a).brake = h.brake ∧
    (h.completeS a).level = h.level ∧ (h.completeS a).kneel = h.kneel ∧ (h.completeS a).doors = h.doors ∧
    (h.completeS a).ports = h.ports ∧ (h.completeS a).access = h.access ∧ (h.completeS a).store = h.store ∧
    (h.completeS a).freeCount = h.freeCount := by
  unfold Hub.completeS
  simp [foldl_keeps Hub.clock, foldl_keeps Hub.pins, foldl_keeps Hub.sensing, foldl_keeps Hub.path, foldl_keeps
      Hub.joints, foldl_keeps Hub.brake, foldl_keeps Hub.level, foldl_keeps Hub.kneel, foldl_keeps Hub.doors,
      foldl_keeps Hub.ports, foldl_keeps Hub.access, foldl_keeps Hub.store, foldl_keeps Hub.freeCount,
      apply_ite Hub.clock, apply_ite Hub.pins, apply_ite Hub.sensing, apply_ite Hub.path, apply_ite Hub.joints,
      apply_ite Hub.brake, apply_ite Hub.level, apply_ite Hub.kneel, apply_ite Hub.doors, apply_ite Hub.ports,
      apply_ite Hub.access, apply_ite Hub.store, apply_ite Hub.freeCount, handFault_keeps Hub.clock,
      handFault_keeps Hub.pins, handFault_keeps Hub.sensing, handFault_keeps Hub.path, handFault_keeps
      Hub.joints, handFault_keeps Hub.brake, handFault_keeps Hub.level, handFault_keeps Hub.kneel,
      handFault_keeps Hub.doors, handFault_keeps Hub.ports, handFault_keeps Hub.access, handFault_keeps
      Hub.store, handFault_keeps Hub.freeCount]

@[simp] theorem Hub.completeJ_frame (a : PerJoint (Option (DeviceAnswer Nat Bool))) (h : Hub) :
    (h.completeJ a).clock = h.clock ∧ (h.completeJ a).pins = h.pins ∧ (h.completeJ a).sensing = h.sensing ∧
    (h.completeJ a).path = h.path ∧ (h.completeJ a).steering = h.steering ∧ (h.completeJ a).joints = h.joints ∧
    (h.completeJ a).brake = h.brake ∧ (h.completeJ a).level = h.level ∧ (h.completeJ a).kneel = h.kneel ∧
    (h.completeJ a).doors = h.doors ∧ (h.completeJ a).ports = h.ports ∧ (h.completeJ a).access = h.access ∧
    (h.completeJ a).store = h.store ∧ (h.completeJ a).freeCount = h.freeCount := by
  unfold Hub.completeJ
  simp [foldl_keeps Hub.clock, foldl_keeps Hub.pins, foldl_keeps Hub.sensing, foldl_keeps Hub.path, foldl_keeps
      Hub.steering, foldl_keeps Hub.joints, foldl_keeps Hub.brake, foldl_keeps Hub.level, foldl_keeps
      Hub.kneel, foldl_keeps Hub.doors, foldl_keeps Hub.ports, foldl_keeps Hub.access, foldl_keeps Hub.store,
      foldl_keeps Hub.freeCount, apply_ite Hub.clock, apply_ite Hub.pins, apply_ite Hub.sensing, apply_ite
      Hub.path, apply_ite Hub.steering, apply_ite Hub.joints, apply_ite Hub.brake, apply_ite Hub.level,
      apply_ite Hub.kneel, apply_ite Hub.doors, apply_ite Hub.ports, apply_ite Hub.access, apply_ite Hub.store,
      apply_ite Hub.freeCount, handFault_keeps Hub.clock, handFault_keeps Hub.pins, handFault_keeps
      Hub.sensing, handFault_keeps Hub.path, handFault_keeps Hub.steering, handFault_keeps Hub.joints,
      handFault_keeps Hub.brake, handFault_keeps Hub.level, handFault_keeps Hub.kneel, handFault_keeps
      Hub.doors, handFault_keeps Hub.ports, handFault_keeps Hub.access, handFault_keeps Hub.store,
      handFault_keeps Hub.freeCount]

@[simp] theorem Hub.chainComplete_frame (a : ChainAnswers) (h : Hub) :
    (h.chainComplete a).clock = h.clock ∧ (h.chainComplete a).pins = h.pins ∧ (h.chainComplete a).sensing =
    h.sensing ∧ (h.chainComplete a).path = h.path ∧ (h.chainComplete a).joints = h.joints ∧ (h.chainComplete
    a).ports = h.ports ∧ (h.chainComplete a).access = h.access ∧ (h.chainComplete a).store = h.store ∧
    (h.chainComplete a).freeCount = h.freeCount := by
  unfold Hub.chainComplete
  split <;> simp

@[simp] theorem Hub.beginWork_frame (o : StoreOp) (h : Hub) :
    (h.beginWork o).clock = h.clock ∧ (h.beginWork o).pins = h.pins ∧ (h.beginWork o).sensing = h.sensing ∧
    (h.beginWork o).path = h.path ∧ (h.beginWork o).steering = h.steering ∧ (h.beginWork o).joints = h.joints ∧
    (h.beginWork o).brake = h.brake ∧ (h.beginWork o).level = h.level ∧ (h.beginWork o).kneel = h.kneel ∧
    (h.beginWork o).doors = h.doors ∧ (h.beginWork o).link = h.link ∧ (h.beginWork o).ports = h.ports ∧ (h.beginWork
    o).access = h.access ∧ (h.beginWork o).events = h.events ∧ (h.beginWork o).freeCount = h.freeCount := by
  unfold Hub.beginWork
  split <;> simp

@[simp] theorem Hub.setSlot_frame (p : Port) (x : DelayedSlot) (h : Hub) :
    (h.setSlot p x).clock = h.clock ∧ (h.setSlot p x).pins = h.pins ∧ (h.setSlot p x).sensing = h.sensing ∧
    (h.setSlot p x).path = h.path ∧ (h.setSlot p x).steering = h.steering ∧ (h.setSlot p x).joints = h.joints ∧
    (h.setSlot p x).brake = h.brake ∧ (h.setSlot p x).level = h.level ∧ (h.setSlot p x).kneel = h.kneel ∧ (h.setSlot
    p x).doors = h.doors ∧ (h.setSlot p x).link = h.link ∧ (h.setSlot p x).access = h.access ∧ (h.setSlot p
    x).events = h.events ∧ (h.setSlot p x).store = h.store ∧ (h.setSlot p x).freeCount = h.freeCount := by
  simp [Hub.setSlot]

@[simp] theorem Hub.updateRecord_frame (h : Hub) :
    (h.updateRecord).clock = h.clock ∧ (h.updateRecord).pins = h.pins ∧ (h.updateRecord).sensing = h.sensing ∧
    (h.updateRecord).path = h.path ∧ (h.updateRecord).steering = h.steering ∧ (h.updateRecord).joints = h.joints ∧
    (h.updateRecord).brake = h.brake ∧ (h.updateRecord).level = h.level ∧ (h.updateRecord).kneel = h.kneel ∧
    (h.updateRecord).doors = h.doors ∧ (h.updateRecord).link = h.link ∧ (h.updateRecord).ports = h.ports ∧
    (h.updateRecord).access = h.access ∧ (h.updateRecord).events = h.events ∧ (h.updateRecord).freeCount = h.freeCount
    := by
  exact ⟨rfl, rfl, rfl, rfl, rfl, rfl, rfl, rfl, rfl, rfl, rfl, rfl, rfl, rfl, rfl⟩

@[simp] theorem Hub.readDepot_frame (b : Bool) (h : Hub) :
    (h.readDepot b).clock = h.clock ∧ (h.readDepot b).sensing = h.sensing ∧ (h.readDepot b).path = h.path ∧
    (h.readDepot b).steering = h.steering ∧ (h.readDepot b).joints = h.joints ∧ (h.readDepot b).brake = h.brake ∧
    (h.readDepot b).level = h.level ∧ (h.readDepot b).kneel = h.kneel ∧ (h.readDepot b).doors = h.doors ∧ (h.readDepot
    b).link = h.link ∧ (h.readDepot b).ports = h.ports ∧ (h.readDepot b).access = h.access ∧ (h.readDepot b).events =
    h.events ∧ (h.readDepot b).store = h.store ∧ (h.readDepot b).freeCount = h.freeCount := by
  exact ⟨rfl, rfl, rfl, rfl, rfl, rfl, rfl, rfl, rfl, rfl, rfl, rfl, rfl, rfl, rfl⟩

@[simp] theorem Hub.startOp_frame (p : Port) (rq : HeldRequest) (h : Hub) :
    (h.startOp p rq).clock = h.clock ∧ (h.startOp p rq).pins = h.pins ∧ (h.startOp p rq).sensing = h.sensing ∧
    (h.startOp p rq).path = h.path ∧ (h.startOp p rq).steering = h.steering ∧ (h.startOp p rq).joints = h.joints ∧
    (h.startOp p rq).brake = h.brake ∧ (h.startOp p rq).level = h.level ∧ (h.startOp p rq).kneel = h.kneel ∧
    (h.startOp p rq).doors = h.doors ∧ (h.startOp p rq).link = h.link ∧ (h.startOp p rq).access = h.access ∧
    (h.startOp p rq).events = h.events ∧ (h.startOp p rq).freeCount = h.freeCount := by
  unfold Hub.startOp
  split <;> simp

@[simp] theorem Hub.takeWaiting_frame (h : Hub) (p : Port) :
    (h.takeWaiting p).clock = h.clock ∧ (h.takeWaiting p).pins = h.pins ∧ (h.takeWaiting p).sensing = h.sensing ∧
    (h.takeWaiting p).path = h.path ∧ (h.takeWaiting p).steering = h.steering ∧ (h.takeWaiting p).joints = h.joints
    ∧ (h.takeWaiting p).brake = h.brake ∧ (h.takeWaiting p).level = h.level ∧ (h.takeWaiting p).kneel = h.kneel ∧
    (h.takeWaiting p).doors = h.doors ∧ (h.takeWaiting p).link = h.link ∧ (h.takeWaiting p).access = h.access ∧
    (h.takeWaiting p).events = h.events ∧ (h.takeWaiting p).freeCount = h.freeCount := by
  unfold Hub.takeWaiting
  split <;> simp

@[simp] theorem Hub.takeNext_frame (h : Hub) :
    (h.takeNext).clock = h.clock ∧ (h.takeNext).pins = h.pins ∧ (h.takeNext).sensing = h.sensing ∧ (h.takeNext).path
    = h.path ∧ (h.takeNext).steering = h.steering ∧ (h.takeNext).joints = h.joints ∧ (h.takeNext).brake = h.brake ∧
    (h.takeNext).level = h.level ∧ (h.takeNext).kneel = h.kneel ∧ (h.takeNext).doors = h.doors ∧ (h.takeNext).link =
    h.link ∧ (h.takeNext).access = h.access ∧ (h.takeNext).events = h.events ∧ (h.takeNext).freeCount = h.freeCount := by
  unfold Hub.takeNext
  simp [portOrder]

@[simp] theorem Hub.startSuspended_frame (p : Port) (rq : HeldRequest) (h : Hub) :
    (h.startSuspended p rq).clock = h.clock ∧ (h.startSuspended p rq).pins = h.pins ∧ (h.startSuspended p
    rq).sensing = h.sensing ∧ (h.startSuspended p rq).path = h.path ∧ (h.startSuspended p rq).steering = h.steering
    ∧ (h.startSuspended p rq).joints = h.joints ∧ (h.startSuspended p rq).brake = h.brake ∧ (h.startSuspended p
    rq).level = h.level ∧ (h.startSuspended p rq).kneel = h.kneel ∧ (h.startSuspended p rq).doors = h.doors ∧
    (h.startSuspended p rq).link = h.link ∧ (h.startSuspended p rq).access = h.access ∧ (h.startSuspended p
    rq).events = h.events ∧ (h.startSuspended p rq).freeCount = h.freeCount := by
  simp [Hub.startSuspended]

@[simp] theorem Hub.placeDelayed_frame (p : Port) (rq : HeldRequest) (h : Hub) :
    (h.placeDelayed p rq).clock = h.clock ∧ (h.placeDelayed p rq).pins = h.pins ∧ (h.placeDelayed p rq).sensing =
    h.sensing ∧ (h.placeDelayed p rq).path = h.path ∧ (h.placeDelayed p rq).steering = h.steering ∧ (h.placeDelayed
    p rq).joints = h.joints ∧ (h.placeDelayed p rq).brake = h.brake ∧ (h.placeDelayed p rq).level = h.level ∧
    (h.placeDelayed p rq).kneel = h.kneel ∧ (h.placeDelayed p rq).doors = h.doors ∧ (h.placeDelayed p rq).link =
    h.link ∧ (h.placeDelayed p rq).access = h.access ∧ (h.placeDelayed p rq).events = h.events ∧ (h.placeDelayed p
    rq).freeCount = h.freeCount := by
  unfold Hub.placeDelayed
  (repeat' split) <;> simp

@[simp] theorem Hub.formRideTargets_frame (h : Hub) :
    (h.formRideTargets).clock = h.clock ∧ (h.formRideTargets).pins = h.pins ∧ (h.formRideTargets).sensing =
    h.sensing ∧ (h.formRideTargets).path = h.path ∧ (h.formRideTargets).steering = h.steering ∧
    (h.formRideTargets).joints = h.joints ∧ (h.formRideTargets).brake = h.brake ∧ (h.formRideTargets).kneel =
    h.kneel ∧ (h.formRideTargets).doors = h.doors ∧ (h.formRideTargets).link = h.link ∧ (h.formRideTargets).ports =
    h.ports ∧ (h.formRideTargets).access = h.access ∧ (h.formRideTargets).events = h.events ∧
    (h.formRideTargets).store = h.store ∧ (h.formRideTargets).freeCount = h.freeCount := by
  simp [Hub.formRideTargets]

@[simp] theorem Hub.installApply_frame (h : Hub) :
    (h.installApply).clock = h.clock ∧ (h.installApply).pins = h.pins ∧ (h.installApply).sensing = h.sensing ∧
    (h.installApply).path = h.path ∧ (h.installApply).joints = h.joints ∧ (h.installApply).ports = h.ports ∧
    (h.installApply).access = h.access ∧ (h.installApply).freeCount = h.freeCount := by
  simp [Hub.installApply]

@[simp] theorem Hub.finishWork_frame (r : RunningOp) (h : Hub) :
    ((h.finishWork r).1).clock = h.clock ∧ ((h.finishWork r).1).pins = h.pins ∧ ((h.finishWork r).1).sensing =
    h.sensing ∧ ((h.finishWork r).1).path = h.path ∧ ((h.finishWork r).1).joints = h.joints ∧ ((h.finishWork
    r).1).ports = h.ports ∧ ((h.finishWork r).1).access = h.access ∧ ((h.finishWork r).1).freeCount = h.freeCount := by
  unfold Hub.finishWork
  (repeat' split) <;> simp

@[simp] theorem Hub.deliver_frame (r : RunningOp) (a : Answer) (h : Hub) :
    (h.deliver r a).clock = h.clock ∧ (h.deliver r a).pins = h.pins ∧ (h.deliver r a).sensing = h.sensing ∧
    (h.deliver r a).path = h.path ∧ (h.deliver r a).steering = h.steering ∧ (h.deliver r a).joints = h.joints ∧
    (h.deliver r a).brake = h.brake ∧ (h.deliver r a).level = h.level ∧ (h.deliver r a).kneel = h.kneel ∧ (h.deliver
    r a).doors = h.doors ∧ (h.deliver r a).link = h.link ∧ (h.deliver r a).access = h.access ∧ (h.deliver r
    a).events = h.events ∧ (h.deliver r a).store = h.store ∧ (h.deliver r a).freeCount = h.freeCount := by
  unfold Hub.deliver
  (repeat' split) <;> simp

@[simp] theorem Hub.completeOp_frame (r : RunningOp) (h : Hub) :
    (h.completeOp r).clock = h.clock ∧ (h.completeOp r).pins = h.pins ∧ (h.completeOp r).sensing = h.sensing ∧
    (h.completeOp r).path = h.path ∧ (h.completeOp r).joints = h.joints ∧ (h.completeOp r).access = h.access ∧
    (h.completeOp r).freeCount = h.freeCount := by
  simp [Hub.completeOp]

@[simp] theorem Hub.completeSuspended_frame (r : RunningOp) (h : Hub) :
    (h.completeSuspended r).clock = h.clock ∧ (h.completeSuspended r).pins = h.pins ∧ (h.completeSuspended
    r).sensing = h.sensing ∧ (h.completeSuspended r).path = h.path ∧ (h.completeSuspended r).steering = h.steering ∧
    (h.completeSuspended r).joints = h.joints ∧ (h.completeSuspended r).brake = h.brake ∧ (h.completeSuspended
    r).level = h.level ∧ (h.completeSuspended r).kneel = h.kneel ∧ (h.completeSuspended r).doors = h.doors ∧
    (h.completeSuspended r).link = h.link ∧ (h.completeSuspended r).access = h.access ∧ (h.completeSuspended
    r).events = h.events ∧ (h.completeSuspended r).freeCount = h.freeCount := by
  unfold Hub.completeSuspended
  (repeat' split) <;> simp [foldl_keeps Hub.clock, foldl_keeps Hub.pins, foldl_keeps Hub.sensing, foldl_keeps Hub.path, foldl_keeps
      Hub.steering, foldl_keeps Hub.joints, foldl_keeps Hub.brake, foldl_keeps Hub.level, foldl_keeps
      Hub.kneel, foldl_keeps Hub.doors, foldl_keeps Hub.link, foldl_keeps Hub.access, foldl_keeps Hub.events,
      foldl_keeps Hub.freeCount, apply_ite Hub.clock, apply_ite Hub.pins, apply_ite Hub.sensing, apply_ite
      Hub.path, apply_ite Hub.steering, apply_ite Hub.joints, apply_ite Hub.brake, apply_ite Hub.level,
      apply_ite Hub.kneel, apply_ite Hub.doors, apply_ite Hub.link, apply_ite Hub.access, apply_ite Hub.events,
      apply_ite Hub.freeCount] <;> (repeat' split) <;> simp

@[simp] theorem Hub.storeCompletion_frame (code : Byte) (b : Bool) (h : Hub) :
    (h.storeCompletion code b).clock = h.clock ∧ (h.storeCompletion code b).sensing = h.sensing ∧ (h.storeCompletion
    code b).path = h.path ∧ (h.storeCompletion code b).joints = h.joints ∧ (h.storeCompletion code b).access =
    h.access ∧ (h.storeCompletion code b).freeCount = h.freeCount := by
  unfold Hub.storeCompletion
  (repeat' split) <;> simp

@[simp] theorem Hub.formAccess_frame (h : Hub) :
    (h.formAccess).clock = h.clock ∧ (h.formAccess).pins = h.pins ∧ (h.formAccess).sensing = h.sensing ∧
    (h.formAccess).path = h.path ∧ (h.formAccess).steering = h.steering ∧ (h.formAccess).joints = h.joints ∧
    (h.formAccess).brake = h.brake ∧ (h.formAccess).level = h.level ∧ (h.formAccess).kneel = h.kneel ∧
    (h.formAccess).doors = h.doors ∧ (h.formAccess).link = h.link ∧ (h.formAccess).ports = h.ports ∧
    (h.formAccess).store = h.store ∧ (h.formAccess).freeCount = h.freeCount := by
  unfold Hub.formAccess
  split <;> simp

@[simp] theorem Hub.startTimers_frame (h : Hub) :
    (h.startTimers).clock = h.clock ∧ (h.startTimers).pins = h.pins ∧ (h.startTimers).path = h.path ∧
    (h.startTimers).kneel = h.kneel ∧ (h.startTimers).doors = h.doors ∧ (h.startTimers).link = h.link ∧
    (h.startTimers).ports = h.ports ∧ (h.startTimers).access = h.access ∧ (h.startTimers).events = h.events ∧
    (h.startTimers).store = h.store ∧ (h.startTimers).freeCount = h.freeCount := by
  simp [Hub.startTimers]

@[simp] theorem Hub.startLoads_frame (h : Hub) :
    (h.startLoads).clock = h.clock ∧ (h.startLoads).pins = h.pins ∧ (h.startLoads).sensing = h.sensing ∧
    (h.startLoads).path = h.path ∧ (h.startLoads).steering = h.steering ∧ (h.startLoads).joints = h.joints ∧
    (h.startLoads).level = h.level ∧ (h.startLoads).kneel = h.kneel ∧ (h.startLoads).doors = h.doors ∧
    (h.startLoads).link = h.link ∧ (h.startLoads).ports = h.ports ∧ (h.startLoads).access = h.access ∧
    (h.startLoads).events = h.events ∧ (h.startLoads).store = h.store ∧ (h.startLoads).freeCount = h.freeCount := by
  simp [Hub.startLoads]

@[simp] theorem Hub.completeLoad_frame (x : PerDoor DoorLevels) (h : Hub) :
    (h.completeLoad x).pins = h.pins ∧ (h.completeLoad x).path = h.path ∧ (h.completeLoad x).kneel = h.kneel ∧
    (h.completeLoad x).ports = h.ports ∧ (h.completeLoad x).freeCount = h.freeCount := by
  simp [Hub.completeLoad]

@[simp] theorem Hub.clockFrame_frame (p : Port) (n : Nat) (h : Hub) :
    (h.clockFrame p n).clock = h.clock ∧ (h.clockFrame p n).sensing = h.sensing ∧ (h.clockFrame p n).path = h.path ∧
    (h.clockFrame p n).steering = h.steering ∧ (h.clockFrame p n).joints = h.joints ∧ (h.clockFrame p n).brake =
    h.brake ∧ (h.clockFrame p n).level = h.level ∧ (h.clockFrame p n).kneel = h.kneel ∧ (h.clockFrame p n).doors =
    h.doors ∧ (h.clockFrame p n).link = h.link ∧ (h.clockFrame p n).access = h.access ∧ (h.clockFrame p n).events =
    h.events ∧ (h.clockFrame p n).store = h.store ∧ (h.clockFrame p n).freeCount = h.freeCount := by
  simp [Hub.clockFrame]

@[simp] theorem Hub.reply_frame (p : Port) (c t : Byte) (a : Answer) (h : Hub) :
    (h.reply p c t a).clock = h.clock ∧ (h.reply p c t a).pins = h.pins ∧ (h.reply p c t a).sensing = h.sensing ∧
    (h.reply p c t a).path = h.path ∧ (h.reply p c t a).steering = h.steering ∧ (h.reply p c t a).joints = h.joints
    ∧ (h.reply p c t a).brake = h.brake ∧ (h.reply p c t a).level = h.level ∧ (h.reply p c t a).kneel = h.kneel ∧
    (h.reply p c t a).doors = h.doors ∧ (h.reply p c t a).link = h.link ∧ (h.reply p c t a).access = h.access ∧
    (h.reply p c t a).events = h.events ∧ (h.reply p c t a).store = h.store ∧ (h.reply p c t a).freeCount =
    h.freeCount := by
  simp [Hub.reply]

@[simp] theorem Hub.frameError_frame (p : Port) (b : List Byte) (h : Hub) :
    (h.frameError p b).clock = h.clock ∧ (h.frameError p b).sensing = h.sensing ∧ (h.frameError p b).path = h.path ∧
    (h.frameError p b).steering = h.steering ∧ (h.frameError p b).joints = h.joints ∧ (h.frameError p b).brake =
    h.brake ∧ (h.frameError p b).level = h.level ∧ (h.frameError p b).kneel = h.kneel ∧ (h.frameError p b).doors =
    h.doors ∧ (h.frameError p b).link = h.link ∧ (h.frameError p b).access = h.access ∧ (h.frameError p b).events =
    h.events ∧ (h.frameError p b).store = h.store ∧ (h.frameError p b).freeCount = h.freeCount := by
  simp [Hub.frameError]

@[simp] theorem serveHaltOn_frame (h : Hub) :
    ((serveHaltOn h).1).clock = h.clock ∧ ((serveHaltOn h).1).pins = h.pins ∧ ((serveHaltOn h).1).sensing =
    h.sensing ∧ ((serveHaltOn h).1).path = h.path ∧ ((serveHaltOn h).1).steering = h.steering ∧ ((serveHaltOn
    h).1).joints = h.joints ∧ ((serveHaltOn h).1).ports = h.ports ∧ ((serveHaltOn h).1).access = h.access ∧
    ((serveHaltOn h).1).store = h.store ∧ ((serveHaltOn h).1).freeCount = h.freeCount := by
  unfold serveHaltOn
  (repeat' split) <;> simp

@[simp] theorem serveHaltOff_frame (h : Hub) :
    ((serveHaltOff h).1).clock = h.clock ∧ ((serveHaltOff h).1).pins = h.pins ∧ ((serveHaltOff h).1).sensing =
    h.sensing ∧ ((serveHaltOff h).1).path = h.path ∧ ((serveHaltOff h).1).steering = h.steering ∧ ((serveHaltOff
    h).1).joints = h.joints ∧ ((serveHaltOff h).1).ports = h.ports ∧ ((serveHaltOff h).1).access = h.access ∧
    ((serveHaltOff h).1).store = h.store ∧ ((serveHaltOff h).1).freeCount = h.freeCount := by
  unfold serveHaltOff
  (repeat' split) <;> simp

@[simp] theorem serveKneel_frame (h : Hub) :
    ((serveKneel h).1).clock = h.clock ∧ ((serveKneel h).1).pins = h.pins ∧ ((serveKneel h).1).sensing = h.sensing ∧
    ((serveKneel h).1).path = h.path ∧ ((serveKneel h).1).steering = h.steering ∧ ((serveKneel h).1).joints =
    h.joints ∧ ((serveKneel h).1).ports = h.ports ∧ ((serveKneel h).1).access = h.access ∧ ((serveKneel h).1).store
    = h.store ∧ ((serveKneel h).1).freeCount = h.freeCount := by
  unfold serveKneel
  (repeat' split) <;> simp

@[simp] theorem serveRaise_frame (h : Hub) :
    ((serveRaise h).1).clock = h.clock ∧ ((serveRaise h).1).pins = h.pins ∧ ((serveRaise h).1).sensing = h.sensing ∧
    ((serveRaise h).1).path = h.path ∧ ((serveRaise h).1).steering = h.steering ∧ ((serveRaise h).1).joints =
    h.joints ∧ ((serveRaise h).1).ports = h.ports ∧ ((serveRaise h).1).access = h.access ∧ ((serveRaise h).1).store
    = h.store ∧ ((serveRaise h).1).freeCount = h.freeCount := by
  unfold serveRaise
  split <;> simp

@[simp] theorem serveRelease_frame (b : List Byte) (h : Hub) :
    ((serveRelease b h).1).clock = h.clock ∧ ((serveRelease b h).1).pins = h.pins ∧ ((serveRelease b h).1).sensing =
    h.sensing ∧ ((serveRelease b h).1).path = h.path ∧ ((serveRelease b h).1).steering = h.steering ∧ ((serveRelease
    b h).1).joints = h.joints ∧ ((serveRelease b h).1).ports = h.ports ∧ ((serveRelease b h).1).access = h.access ∧
    ((serveRelease b h).1).store = h.store ∧ ((serveRelease b h).1).freeCount = h.freeCount := by
  unfold serveRelease
  (repeat' split) <;> simp [foldl_keeps Hub.clock, foldl_keeps Hub.pins, foldl_keeps Hub.sensing, foldl_keeps Hub.path, foldl_keeps
      Hub.steering, foldl_keeps Hub.joints, foldl_keeps Hub.ports, foldl_keeps Hub.access, foldl_keeps
      Hub.store, foldl_keeps Hub.freeCount, apply_ite Hub.clock, apply_ite Hub.pins, apply_ite Hub.sensing,
      apply_ite Hub.path, apply_ite Hub.steering, apply_ite Hub.joints, apply_ite Hub.ports, apply_ite
      Hub.access, apply_ite Hub.store, apply_ite Hub.freeCount]

@[simp] theorem serveWithdraw_frame (b : List Byte) (h : Hub) :
    ((serveWithdraw b h).1).clock = h.clock ∧ ((serveWithdraw b h).1).pins = h.pins ∧ ((serveWithdraw b
    h).1).sensing = h.sensing ∧ ((serveWithdraw b h).1).path = h.path ∧ ((serveWithdraw b h).1).steering =
    h.steering ∧ ((serveWithdraw b h).1).joints = h.joints ∧ ((serveWithdraw b h).1).ports = h.ports ∧
    ((serveWithdraw b h).1).access = h.access ∧ ((serveWithdraw b h).1).store = h.store ∧ ((serveWithdraw b
    h).1).freeCount = h.freeCount := by
  unfold serveWithdraw
  (repeat' split) <;> simp [foldl_keeps Hub.clock, foldl_keeps Hub.pins, foldl_keeps Hub.sensing, foldl_keeps Hub.path, foldl_keeps
      Hub.steering, foldl_keeps Hub.joints, foldl_keeps Hub.ports, foldl_keeps Hub.access, foldl_keeps
      Hub.store, foldl_keeps Hub.freeCount, apply_ite Hub.clock, apply_ite Hub.pins, apply_ite Hub.sensing,
      apply_ite Hub.path, apply_ite Hub.steering, apply_ite Hub.joints, apply_ite Hub.ports, apply_ite
      Hub.access, apply_ite Hub.store, apply_ite Hub.freeCount]

@[simp] theorem serveClearPathFlag_frame (h : Hub) :
    ((serveClearPathFlag h).1).clock = h.clock ∧ ((serveClearPathFlag h).1).pins = h.pins ∧ ((serveClearPathFlag
    h).1).sensing = h.sensing ∧ ((serveClearPathFlag h).1).steering = h.steering ∧ ((serveClearPathFlag h).1).joints
    = h.joints ∧ ((serveClearPathFlag h).1).brake = h.brake ∧ ((serveClearPathFlag h).1).level = h.level ∧
    ((serveClearPathFlag h).1).kneel = h.kneel ∧ ((serveClearPathFlag h).1).doors = h.doors ∧ ((serveClearPathFlag
    h).1).link = h.link ∧ ((serveClearPathFlag h).1).ports = h.ports ∧ ((serveClearPathFlag h).1).access = h.access
    ∧ ((serveClearPathFlag h).1).events = h.events ∧ ((serveClearPathFlag h).1).store = h.store ∧
    ((serveClearPathFlag h).1).freeCount = h.freeCount := by
  simp [serveClearPathFlag]

@[simp] theorem serveMapWrite_frame (b : List Byte) (h : Hub) :
    ((serveMapWrite b h).1).clock = h.clock ∧ ((serveMapWrite b h).1).pins = h.pins ∧ ((serveMapWrite b
    h).1).sensing = h.sensing ∧ ((serveMapWrite b h).1).path = h.path ∧ ((serveMapWrite b h).1).steering =
    h.steering ∧ ((serveMapWrite b h).1).joints = h.joints ∧ ((serveMapWrite b h).1).brake = h.brake ∧
    ((serveMapWrite b h).1).level = h.level ∧ ((serveMapWrite b h).1).kneel = h.kneel ∧ ((serveMapWrite b
    h).1).doors = h.doors ∧ ((serveMapWrite b h).1).link = h.link ∧ ((serveMapWrite b h).1).ports = h.ports ∧
    ((serveMapWrite b h).1).events = h.events ∧ ((serveMapWrite b h).1).store = h.store ∧ ((serveMapWrite b
    h).1).freeCount = h.freeCount := by
  unfold serveMapWrite
  (repeat' split) <;> simp

@[simp] theorem serveMapLock_frame (h : Hub) :
    ((serveMapLock h).1).clock = h.clock ∧ ((serveMapLock h).1).pins = h.pins ∧ ((serveMapLock h).1).sensing =
    h.sensing ∧ ((serveMapLock h).1).path = h.path ∧ ((serveMapLock h).1).steering = h.steering ∧ ((serveMapLock
    h).1).joints = h.joints ∧ ((serveMapLock h).1).brake = h.brake ∧ ((serveMapLock h).1).level = h.level ∧
    ((serveMapLock h).1).kneel = h.kneel ∧ ((serveMapLock h).1).doors = h.doors ∧ ((serveMapLock h).1).link = h.link
    ∧ ((serveMapLock h).1).ports = h.ports ∧ ((serveMapLock h).1).events = h.events ∧ ((serveMapLock h).1).store =
    h.store ∧ ((serveMapLock h).1).freeCount = h.freeCount := by
  simp [serveMapLock]

@[simp] theorem serveRouteWrite_frame (b : List Byte) (h : Hub) :
    ((serveRouteWrite b h).1).clock = h.clock ∧ ((serveRouteWrite b h).1).pins = h.pins ∧ ((serveRouteWrite b
    h).1).sensing = h.sensing ∧ ((serveRouteWrite b h).1).path = h.path ∧ ((serveRouteWrite b h).1).steering =
    h.steering ∧ ((serveRouteWrite b h).1).joints = h.joints ∧ ((serveRouteWrite b h).1).brake = h.brake ∧
    ((serveRouteWrite b h).1).level = h.level ∧ ((serveRouteWrite b h).1).kneel = h.kneel ∧ ((serveRouteWrite b
    h).1).doors = h.doors ∧ ((serveRouteWrite b h).1).link = h.link ∧ ((serveRouteWrite b h).1).ports = h.ports ∧
    ((serveRouteWrite b h).1).access = h.access ∧ ((serveRouteWrite b h).1).store = h.store ∧ ((serveRouteWrite b
    h).1).freeCount = h.freeCount := by
  unfold serveRouteWrite
  (repeat' split) <;> simp

@[simp] theorem serveTake_frame (p : Port) (b : List Byte) (h : Hub) :
    ((serveTake p b h).1).clock = h.clock ∧ ((serveTake p b h).1).pins = h.pins ∧ ((serveTake p b h).1).sensing =
    h.sensing ∧ ((serveTake p b h).1).path = h.path ∧ ((serveTake p b h).1).steering = h.steering ∧ ((serveTake p b
    h).1).joints = h.joints ∧ ((serveTake p b h).1).brake = h.brake ∧ ((serveTake p b h).1).level = h.level ∧
    ((serveTake p b h).1).kneel = h.kneel ∧ ((serveTake p b h).1).doors = h.doors ∧ ((serveTake p b h).1).link =
    h.link ∧ ((serveTake p b h).1).ports = h.ports ∧ ((serveTake p b h).1).access = h.access ∧ ((serveTake p b
    h).1).store = h.store ∧ ((serveTake p b h).1).freeCount = h.freeCount := by
  unfold serveTake
  split <;> simp

@[simp] theorem serveAbandon_frame (p : Port) (h : Hub) :
    ((serveAbandon p h).1).clock = h.clock ∧ ((serveAbandon p h).1).pins = h.pins ∧ ((serveAbandon p h).1).sensing =
    h.sensing ∧ ((serveAbandon p h).1).path = h.path ∧ ((serveAbandon p h).1).steering = h.steering ∧ ((serveAbandon
    p h).1).joints = h.joints ∧ ((serveAbandon p h).1).brake = h.brake ∧ ((serveAbandon p h).1).level = h.level ∧
    ((serveAbandon p h).1).kneel = h.kneel ∧ ((serveAbandon p h).1).doors = h.doors ∧ ((serveAbandon p h).1).link =
    h.link ∧ ((serveAbandon p h).1).access = h.access ∧ ((serveAbandon p h).1).events = h.events ∧ ((serveAbandon p
    h).1).store = h.store ∧ ((serveAbandon p h).1).freeCount = h.freeCount := by
  simp [serveAbandon]

@[simp] theorem servePost_frame (p : Port) (b : List Byte) (h : Hub) :
    ((servePost p b h).1).clock = h.clock ∧ ((servePost p b h).1).pins = h.pins ∧ ((servePost p b h).1).sensing =
    h.sensing ∧ ((servePost p b h).1).path = h.path ∧ ((servePost p b h).1).steering = h.steering ∧ ((servePost p b
    h).1).joints = h.joints ∧ ((servePost p b h).1).brake = h.brake ∧ ((servePost p b h).1).level = h.level ∧
    ((servePost p b h).1).kneel = h.kneel ∧ ((servePost p b h).1).doors = h.doors ∧ ((servePost p b h).1).link =
    h.link ∧ ((servePost p b h).1).access = h.access ∧ ((servePost p b h).1).events = h.events ∧ ((servePost p b
    h).1).store = h.store ∧ ((servePost p b h).1).freeCount = h.freeCount := by
  unfold servePost
  split <;> simp

@[simp] theorem serveDelayed_frame (q : Request) (o : StoreOp) (h : Hub) :
    ((serveDelayed q o h).1).clock = h.clock ∧ ((serveDelayed q o h).1).pins = h.pins ∧ ((serveDelayed q o
    h).1).sensing = h.sensing ∧ ((serveDelayed q o h).1).path = h.path ∧ ((serveDelayed q o h).1).steering =
    h.steering ∧ ((serveDelayed q o h).1).joints = h.joints ∧ ((serveDelayed q o h).1).brake = h.brake ∧
    ((serveDelayed q o h).1).level = h.level ∧ ((serveDelayed q o h).1).kneel = h.kneel ∧ ((serveDelayed q o
    h).1).doors = h.doors ∧ ((serveDelayed q o h).1).link = h.link ∧ ((serveDelayed q o h).1).access = h.access ∧
    ((serveDelayed q o h).1).events = h.events ∧ ((serveDelayed q o h).1).freeCount = h.freeCount := by
  unfold serveDelayed
  split <;> simp

@[simp] theorem serveRepetition_frame (p : Port) (h : Hub) :
    ((serveRepetition p h).1).clock = h.clock ∧ ((serveRepetition p h).1).pins = h.pins ∧ ((serveRepetition p
    h).1).sensing = h.sensing ∧ ((serveRepetition p h).1).path = h.path ∧ ((serveRepetition p h).1).steering =
    h.steering ∧ ((serveRepetition p h).1).joints = h.joints ∧ ((serveRepetition p h).1).brake = h.brake ∧
    ((serveRepetition p h).1).level = h.level ∧ ((serveRepetition p h).1).kneel = h.kneel ∧ ((serveRepetition p
    h).1).doors = h.doors ∧ ((serveRepetition p h).1).link = h.link ∧ ((serveRepetition p h).1).access = h.access ∧
    ((serveRepetition p h).1).events = h.events ∧ ((serveRepetition p h).1).store = h.store ∧ ((serveRepetition p
    h).1).freeCount = h.freeCount := by
  unfold serveRepetition
  split <;> simp

end Sys2Proof.Machine
end

