-- ==== Sys2Proof/Laws/Services.lean ====
section
/-! SUPPORT. What a service keeps, a frame keeps: one lemma per step of the judging of a frame (R151). -/

namespace Sys2Proof.Machine

/-- A service keeps a value of the part. -/
def Service.Keeps {γ : Type} (π : Hub → γ) (f : Service) : Prop := ∀ h, π (f h).1 = π h

theorem answering_keeps {γ : Type} (π : Hub → γ) (a : Answer) : Service.Keeps π (answering a) := fun _ => rfl

theorem copying_keeps {γ : Type} (π : Hub → γ) (record : Hub → List Byte) : Service.Keeps π (copying record) := fun _ => rfl

/-- A copy of the STEER record touches the copies still to come between the two axles' work, and nothing else. -/
theorem serveSteer_keeps {γ : Type} (π : Hub → γ)
    (hm : ∀ x h, π (Hub.onSteering (fun u => { u with midway := x }) h) = π h) : Service.Keeps π serveSteer := by
  intro h; unfold serveSteer; split
  · rfl
  · exact hm _ h

theorem whenLoaded_keeps {γ : Type} (π : Hub → γ) {f : Service} (hf : f.Keeps π) : Service.Keeps π (whenLoaded f) := by
  intro h; unfold whenLoaded; split
  · exact hf h
  · rfl

theorem whenUnposted_keeps {γ : Type} (π : Hub → γ) {f : Service} (p : Port) (hf : f.Keeps π) :
    Service.Keeps π (whenUnposted p f) := by
  intro h; unfold whenUnposted; split
  · rfl
  · exact hf h

theorem whenAllowed_keeps {γ : Type} (π : Hub → γ) {f : Service} (p : Port) (c : AccessClass) (hf : f.Keeps π)
    (hp : ∀ p g h, π (Hub.onPort p g h) = π h) : Service.Keeps π (whenAllowed p c f) := by
  intro h; unfold whenAllowed; split
  · exact hf h
  · exact hp p (fun u => { u with denied := u.denied + 1 }) h

/-- A frame keeps what its service keeps, less the port units and the pins. -/
theorem exchange_keeps {γ : Type} (π : Hub → γ) {f : Service} (q : Request) (code : Byte) (h : Hub) (hf : f.Keeps π)
    (hp : ∀ p g h, π (Hub.onPort p g h) = π h) (hd : ∀ g h, π (Hub.onPins g h) = π h) :
    π (h.exchange q code f) = π h := by
  have hc : ∀ p n h, π (Hub.clockFrame p n h) = π h := fun p n h => by simp only [Hub.clockFrame, hp, hd]
  simp only [Hub.exchange, Hub.reply, hp, hf _, hc]

/-- An order answered at once. -/
theorem order_keeps {γ : Type} (π : Hub → γ) {f : Service} (q : Request) (code : Byte) (c : AccessClass) (h : Hub)
    (hf : f.Keeps π) (hp : ∀ p g h, π (Hub.onPort p g h) = π h) (hd : ∀ g h, π (Hub.onPins g h) = π h) :
    π (h.order q code c f) = π h :=
  exchange_keeps π q code h (whenLoaded_keeps π (whenAllowed_keeps π q.port c hf hp)) hp hd

/-- A FETCH. -/
theorem fetch_keeps {γ : Type} (π : Hub → γ) {f : Service} (q : Request) (code : Byte) (h : Hub)
    (hf : f.Keeps π) (hp : ∀ p g h, π (Hub.onPort p g h) = π h) (hd : ∀ g h, π (Hub.onPins g h) = π h) :
    π (h.fetch q code f) = π h :=
  exchange_keeps π q code h
    (whenLoaded_keeps π (whenAllowed_keeps π q.port .status (whenUnposted_keeps π q.port hf) hp)) hp hd

/-- A FETCH that is served is its record's service alone (R151). -/
theorem Hub.fetch_of_served {f : Service} (q : Request) (code : Byte) (h : Hub) (hs : h.fetchServed q.port = true) :
    h.fetch q code f = h.exchange q code f := by
  simp only [Hub.fetchServed, Hub.holds, Hub.port, Bool.and_eq_true, Option.isNone_iff_eq_none] at hs
  simp [Hub.fetch, Hub.exchange, whenLoaded, whenAllowed, whenUnposted, Hub.holds, Hub.clockFrame, Hub.port, hs]

/-- What may come between the two axles' work waits at the front of the queue (log entry 4). -/
theorem nextBetween_prefix (q : List Instr) (n : Nat) : nextBetween q n <+: q := by
  induction q, n using nextBetween.induct <;> simp_all [nextBetween]

/-- A delayed order touches the store and the port units alone, beside the pins. -/
theorem delayedOrder_keeps {γ : Type} (π : Hub → γ) (q : Request) (code : Byte) (judge : Hub → Except Reason StoreOp)
    (h : Hub) (hp : ∀ p g h, π (Hub.onPort p g h) = π h) (hd : ∀ g h, π (Hub.onPins g h) = π h)
    (hs : ∀ q op, Service.Keeps π (serveDelayed q op)) : π (h.delayedOrder q code judge) = π h := by
  refine exchange_keeps π q code h (whenLoaded_keeps π fun h => ?_) hp hd
  split
  · unfold serveRepetition; split <;> simp [Hub.setSlot, hp]
  · refine whenAllowed_keeps π q.port .calibration (fun h => ?_) hp h
    split
    · exact hs q _ h
    · rfl

end Sys2Proof.Machine
end

