-- ==== Sys2Proof/Laws/Commands.lean ====
section
/-! SUPPORT. Every command answers a next state, the queue untouched: the part after each command, in one place. -/

namespace Sys2Proof.Machine

/-- The part after a command; `between` is what an expiry of the steering timer finds behind it (R29, R54). -/
def Hub.after (h : Hub) (between : Between) : Instr → Hub
  | .powerOnReset => h.powerOn
  | .rstLine => h.warmReset (Config.cutFrame h.freeCount)
  | .activeSetLoad inputs =>
    if h.clock.load.due loadTime then (h.readDepot inputs.depot).completeLoad inputs.doors else h
  | .scanRound raw => if h.sensing.scanTimer.due scanPeriod then h.scanRound raw else h
  | .wheelPulse _input dir => if h.clock.loaded then h.wheelPulse dir else h
  | .speedTimerExpiry dir => if h.sensing.speedTimer.due speedPeriod then h.speedExpiry dir else h
  | .quietTimerExpiry => if h.sensing.quiet.due quietTime then h.quietExpiry else h
  | .steeringTimerExpiry => if h.steering.timer.due Machine.steeringPeriod then h.steeringPeriod between else h
  | .jointTimerExpiry => if h.joints.timer.due Machine.jointPeriod then h.jointPeriod else h
  | .brakeTimerExpiry => if h.brake.timer.due Machine.brakePeriod then h.brakePeriod else h
  | .levellingTimerExpiry => if h.level.timer.due Machine.levellingPeriod then h.levellingPeriod else h
  | .refreshTimerExpiry => if h.link.timer.due refreshPeriod then h.onLink Link.refresh else h
  | .chainRefreshComplete answers => if h.chainBusy answers then h.chainComplete answers else h
  | .doorInputChange door input level =>
    if h.clock.loaded = true ∧ levelOf (h.door door).raw input ≠ level then h.rawChange door input level else h
  | .debounceTimerExpiry door input =>
    if ((h.door door).timers.get input).due debounceTime then h.debounceExpiry door input else h
  | .frameError port bytes =>
    if bytes.isEmpty = false ∧ (readFrame bytes).isNone = true then h.frameError port bytes else h
  | .unknownObject q kind code =>
    if (codedCommand q false kind code.toNat).isNone then h.exchange q code (whenLoaded (answering (.refused .unknownObject []))) else h
  | .nop q code => h.exchange q code (answering (.done []))
  | .fetchMotion q => h.fetch q 0x01#8 (copying Hub.motionRecord)
  | .fetchPath q => h.fetch q 0x02#8 (copying Hub.pathRecord)
  | .fetchPathWindow q => h.fetch q 0x03#8 (servePathWindow q.payload)
  | .fetchSteer q => h.fetch q 0x04#8 serveSteer
  | .fetchJoints q => h.fetch q 0x05#8 (copying Hub.jointsRecord)
  | .fetchBrake q => h.fetch q 0x06#8 (copying Hub.brakeRecord)
  | .fetchLevel q => h.fetch q 0x07#8 (copying Hub.levelRecord)
  | .fetchKneel q => h.fetch q 0x08#8 (copying Hub.kneelRecord)
  | .fetchDoors q => h.fetch q 0x09#8 (copying Hub.doorsRecord)
  | .fetchLink q => h.fetch q 0x0A#8 (copying Hub.linkRecord)
  | .fetchStoreStatus q depot => (h.readDepot depot).fetch q 0x0B#8 serveStoreStatus
  | .fetchPort q => h.fetch q 0x0C#8 (copying (Hub.portRecord q.port))
  | .fetchActiveItem q => h.fetch q 0x0D#8 (serveActiveItem q.payload)
  | .fetchAccess q => h.fetch q 0x0E#8 (copying Hub.accessRecord)
  | .postDriveDemand q => h.post q
  | .haltOn q => h.order q 0x20#8 .demand serveHaltOn
  | .haltOff q => h.order q 0x21#8 .demand serveHaltOff
  | .clearPathFlag q => h.order q 0x22#8 .demand serveClearPathFlag
  | .release q => h.order q 0x28#8 .passenger (serveRelease q.payload)
  | .withdraw q => h.order q 0x29#8 .passenger (serveWithdraw q.payload)
  | .kneel q => h.order q 0x2A#8 .passenger serveKneel
  | .raise q => h.order q 0x2B#8 .passenger serveRaise
  | .mapWrite q => h.order q 0x30#8 .supervision (serveMapWrite q.payload)
  | .mapLock q => h.order q 0x31#8 .supervision serveMapLock
  | .routeWrite q => h.order q 0x32#8 .supervision (serveRouteWrite q.payload)
  | .hubReset q => h.hubReset q
  | .storeRead q => (h.readDepot q.depot).delayedOrder q.toRequest 0x38#8 (orRange (readOperand q.payload))
  | .storeClear q depot => (h.readDepot depot).delayedOrder q 0x39#8 (orRange ((sectorOperand q.payload).map .clear))
  | .storeWrite q => (h.readDepot q.depot).delayedOrder q.toRequest 0x3A#8 (orRange (writeOperand q.payload))
  | .storeClose q => (h.readDepot q.depot).delayedOrder q.toRequest 0x3B#8 (orRange ((sectorOperand q.payload).map .close))
  | .storeLock q => (h.readDepot q.depot).delayedOrder q.toRequest 0x3C#8 (orRange ((sectorOperand q.payload).map .lock))
  | .blankTest q => (h.readDepot q.depot).delayedOrder q.toRequest 0x3D#8 (orRange ((sectorOperand q.payload).map .blank))
  | .apply q => (h.readDepot q.depot).delayedOrder q.toRequest 0x3E#8 applyOperand
  | .take q code => h.exchange q code (whenLoaded (serveTake q.port q.payload))
  | .abandon q code => h.exchange q code (whenLoaded (serveAbandon q.port))
  | .storeReadCompletion depot => h.storeCompletion 0x38 depot
  | .storeWriteCompletion depot => h.storeCompletion 0x3A depot
  | .storeCloseCompletion depot => h.storeCompletion 0x3B depot
  | .storeLockCompletion depot => h.storeCompletion 0x3C depot
  | .blankTestCompletion depot => h.storeCompletion 0x3D depot
  | .storeClearCompletion depot => h.storeCompletion 0x39 depot
  | .applyCompletion depot => h.storeCompletion 0x3E depot

/-- Every command takes a next state, and none touches the queue. -/
theorem exec_eq (i : Instr) (s : State) : exec i s = .next { s with hub := s.hub.after s.between i } := by
  cases i <;> first
    | rfl
    | (simp only [exec, Hub.after, execActiveSetLoad, execScanRound, execWheelPulse, execSpeedTimerExpiry,
        execQuietTimerExpiry, execSteeringTimerExpiry, execJointTimerExpiry, execBrakeTimerExpiry,
        execLevellingTimerExpiry, execRefreshTimerExpiry, execChainRefreshComplete, execDoorInputChange,
        execDebounceTimerExpiry, execFrameError, execUnknownObject]; split <;> rfl)

/-- A step either takes the command at the front of the queue or is a tick. -/
theorem step_cases {s t : State} (h : step s = .next t) :
    (∃ c rest, s.pending = c :: rest ∧ t = ⟨s.hub.after (State.between ⟨s.hub, rest⟩) c, rest⟩) ∨
      (s.pending = [] ∧ t = { s with hub := s.hub.tick }) := by
  unfold step at h
  split at h
  · next c rest hp =>
    rw [exec_eq] at h
    injection h with h
    exact .inl ⟨c, rest, hp, h.symm⟩
  · next hp =>
    injection h with h
    exact .inr ⟨hp, h.symm⟩

/-- What every command and the tick keep, every step keeps. -/
theorem step_induction {P : Hub → Prop} (hc : ∀ h between c, P h → P (h.after between c)) (ht : ∀ h, P h → P h.tick) {s t : State}
    (hs : P s.hub) (h : step s = .next t) : P t.hub := by
  obtain ⟨c, rest, -, rfl⟩ | ⟨-, rfl⟩ := step_cases h
  · exact hc _ _ _ hs
  · exact ht _ hs

end Sys2Proof.Machine
end

