-- ==== Sys2Proof/Laws/After.lean ====
section
/-! SUPPORT. The frame of every command: the parts of the state it leaves unchanged, whatever its operands. -/

set_option linter.unusedSimpArgs false

namespace Sys2Proof.Machine

@[simp] theorem Hub.after_activeSetLoad (x : LoadInputs) (w : Between) (h : Hub) :
    (h.after w (.activeSetLoad x)).path = h.path ∧ (h.after
    w (.activeSetLoad x)).kneel = h.kneel ∧ (h.after w (.activeSetLoad x)).ports = h.ports ∧ (h.after
    w (.activeSetLoad x)).freeCount = h.freeCount := by
  simp only [Hub.after]; split <;> simp

@[simp] theorem Hub.after_scanRound (raw : ScanResults) (w : Between) (h : Hub) :
    (h.after w (.scanRound raw)).clock = h.clock ∧ (h.after w (.scanRound raw)).pins = h.pins ∧ (h.after w (.scanRound
    raw)).path = h.path ∧ (h.after w (.scanRound raw)).steering = h.steering ∧ (h.after w (.scanRound raw)).joints =
    h.joints ∧ (h.after w (.scanRound raw)).ports = h.ports ∧ (h.after w (.scanRound raw)).access = h.access ∧
    (h.after w (.scanRound raw)).store = h.store ∧ (h.after w (.scanRound raw)).freeCount = h.freeCount := by
  simp only [Hub.after]; split <;> simp

@[simp] theorem Hub.after_wheelPulse (i : WheelInput) (dir : Direction) (w : Between) (h : Hub) :
    (h.after w (.wheelPulse i dir)).clock = h.clock ∧ (h.after w (.wheelPulse i dir)).steering = h.steering ∧
    (h.after w (.wheelPulse i dir)).joints = h.joints ∧ (h.after w (.wheelPulse i dir)).ports = h.ports ∧ (h.after
    w (.wheelPulse i dir)).access = h.access ∧ (h.after w (.wheelPulse i dir)).store = h.store ∧ (h.after
    w (.wheelPulse i dir)).freeCount = h.freeCount := by
  simp only [Hub.after]; split <;> simp

@[simp] theorem Hub.after_speedTimerExpiry (dir : Direction) (w : Between) (h : Hub) :
    (h.after w (.speedTimerExpiry dir)).clock = h.clock ∧ (h.after w (.speedTimerExpiry dir)).path = h.path ∧
    (h.after w (.speedTimerExpiry dir)).steering = h.steering ∧ (h.after w (.speedTimerExpiry dir)).joints =
    h.joints ∧ (h.after w (.speedTimerExpiry dir)).ports = h.ports ∧ (h.after w (.speedTimerExpiry dir)).access =
    h.access ∧ (h.after w (.speedTimerExpiry dir)).store = h.store ∧ (h.after w (.speedTimerExpiry dir)).freeCount =
    h.freeCount := by
  simp only [Hub.after]; split <;> simp

@[simp] theorem Hub.after_quietTimerExpiry (w : Between) (h : Hub) :
    (h.after w (.quietTimerExpiry)).clock = h.clock ∧ (h.after w (.quietTimerExpiry)).pins = h.pins ∧ (h.after
    w (.quietTimerExpiry)).path = h.path ∧ (h.after w (.quietTimerExpiry)).steering = h.steering ∧ (h.after
    w (.quietTimerExpiry)).joints = h.joints ∧ (h.after w (.quietTimerExpiry)).ports = h.ports ∧ (h.after
    w (.quietTimerExpiry)).access = h.access ∧ (h.after w (.quietTimerExpiry)).store = h.store ∧ (h.after
    w (.quietTimerExpiry)).freeCount = h.freeCount := by
  simp only [Hub.after]; split <;> simp

@[simp] theorem Hub.after_steeringTimerExpiry (w : Between) (h : Hub) :
    (h.after w (.steeringTimerExpiry)).clock = h.clock ∧ (h.after w (.steeringTimerExpiry)).pins = h.pins ∧ (h.after
    w (.steeringTimerExpiry)).sensing = h.sensing ∧ (h.after w (.steeringTimerExpiry)).path = h.path ∧ (h.after
    w (.steeringTimerExpiry)).joints = h.joints ∧ (h.after w (.steeringTimerExpiry)).brake = h.brake ∧ (h.after
    w (.steeringTimerExpiry)).level = h.level ∧ (h.after w (.steeringTimerExpiry)).kneel = h.kneel ∧ (h.after
    w (.steeringTimerExpiry)).doors = h.doors ∧ (h.after w (.steeringTimerExpiry)).ports = h.ports ∧ (h.after
    w (.steeringTimerExpiry)).access = h.access ∧ (h.after w (.steeringTimerExpiry)).events = h.events ∧ (h.after
    w (.steeringTimerExpiry)).store = h.store := by
  simp only [Hub.after]; split <;> simp

@[simp] theorem Hub.after_jointTimerExpiry (w : Between) (h : Hub) :
    (h.after w (.jointTimerExpiry)).clock = h.clock ∧ (h.after w (.jointTimerExpiry)).pins = h.pins ∧ (h.after
    w (.jointTimerExpiry)).sensing = h.sensing ∧ (h.after w (.jointTimerExpiry)).path = h.path ∧ (h.after
    w (.jointTimerExpiry)).steering = h.steering ∧ (h.after w (.jointTimerExpiry)).brake = h.brake ∧ (h.after
    w (.jointTimerExpiry)).level = h.level ∧ (h.after w (.jointTimerExpiry)).kneel = h.kneel ∧ (h.after
    w (.jointTimerExpiry)).doors = h.doors ∧ (h.after w (.jointTimerExpiry)).ports = h.ports ∧ (h.after
    w (.jointTimerExpiry)).access = h.access ∧ (h.after w (.jointTimerExpiry)).store = h.store ∧ (h.after
    w (.jointTimerExpiry)).freeCount = h.freeCount := by
  simp only [Hub.after]; split <;> simp

@[simp] theorem Hub.after_brakeTimerExpiry (w : Between) (h : Hub) :
    (h.after w (.brakeTimerExpiry)).clock = h.clock ∧ (h.after w (.brakeTimerExpiry)).pins = h.pins ∧ (h.after
    w (.brakeTimerExpiry)).sensing = h.sensing ∧ (h.after w (.brakeTimerExpiry)).path = h.path ∧ (h.after
    w (.brakeTimerExpiry)).steering = h.steering ∧ (h.after w (.brakeTimerExpiry)).access = h.access ∧ (h.after
    w (.brakeTimerExpiry)).store = h.store ∧ (h.after w (.brakeTimerExpiry)).freeCount = h.freeCount := by
  simp only [Hub.after]; split <;> simp

@[simp] theorem Hub.after_levellingTimerExpiry (w : Between) (h : Hub) :
    (h.after w (.levellingTimerExpiry)).clock = h.clock ∧ (h.after w (.levellingTimerExpiry)).pins = h.pins ∧
    (h.after w (.levellingTimerExpiry)).sensing = h.sensing ∧ (h.after w (.levellingTimerExpiry)).path = h.path ∧
    (h.after w (.levellingTimerExpiry)).steering = h.steering ∧ (h.after w (.levellingTimerExpiry)).joints =
    h.joints ∧ (h.after w (.levellingTimerExpiry)).ports = h.ports ∧ (h.after w (.levellingTimerExpiry)).access =
    h.access ∧ (h.after w (.levellingTimerExpiry)).store = h.store ∧ (h.after w (.levellingTimerExpiry)).freeCount =
    h.freeCount := by
  simp only [Hub.after]; split <;> simp

@[simp] theorem Hub.after_refreshTimerExpiry (w : Between) (h : Hub) :
    (h.after w (.refreshTimerExpiry)).clock = h.clock ∧ (h.after w (.refreshTimerExpiry)).pins = h.pins ∧ (h.after
    w (.refreshTimerExpiry)).sensing = h.sensing ∧ (h.after w (.refreshTimerExpiry)).path = h.path ∧ (h.after
    w (.refreshTimerExpiry)).steering = h.steering ∧ (h.after w (.refreshTimerExpiry)).joints = h.joints ∧ (h.after
    w (.refreshTimerExpiry)).brake = h.brake ∧ (h.after w (.refreshTimerExpiry)).level = h.level ∧ (h.after
    w (.refreshTimerExpiry)).kneel = h.kneel ∧ (h.after w (.refreshTimerExpiry)).doors = h.doors ∧ (h.after
    w (.refreshTimerExpiry)).ports = h.ports ∧ (h.after w (.refreshTimerExpiry)).access = h.access ∧ (h.after
    w (.refreshTimerExpiry)).events = h.events ∧ (h.after w (.refreshTimerExpiry)).store = h.store ∧ (h.after
    w (.refreshTimerExpiry)).freeCount = h.freeCount := by
  simp only [Hub.after]; split <;> simp

@[simp] theorem Hub.after_chainRefreshComplete (a : ChainAnswers) (w : Between) (h : Hub) :
    (h.after w (.chainRefreshComplete a)).clock = h.clock ∧ (h.after w (.chainRefreshComplete a)).pins = h.pins ∧
    (h.after w (.chainRefreshComplete a)).sensing = h.sensing ∧ (h.after w (.chainRefreshComplete a)).path = h.path
    ∧ (h.after w (.chainRefreshComplete a)).joints = h.joints ∧ (h.after w (.chainRefreshComplete a)).ports =
    h.ports ∧ (h.after w (.chainRefreshComplete a)).access = h.access ∧ (h.after w (.chainRefreshComplete a)).store
    = h.store ∧ (h.after w (.chainRefreshComplete a)).freeCount = h.freeCount := by
  simp only [Hub.after]; split <;> simp

@[simp] theorem Hub.after_doorInputChange (d : Door) (i : DoorInput) (l : Bool) (w : Between) (h : Hub) :
    (h.after w (.doorInputChange d i l)).clock = h.clock ∧ (h.after w (.doorInputChange d i l)).pins = h.pins ∧
    (h.after w (.doorInputChange d i l)).sensing = h.sensing ∧ (h.after w (.doorInputChange d i l)).path = h.path ∧
    (h.after w (.doorInputChange d i l)).steering = h.steering ∧ (h.after w (.doorInputChange d i l)).joints =
    h.joints ∧ (h.after w (.doorInputChange d i l)).brake = h.brake ∧ (h.after w (.doorInputChange d i l)).level =
    h.level ∧ (h.after w (.doorInputChange d i l)).kneel = h.kneel ∧ (h.after w (.doorInputChange d i l)).link =
    h.link ∧ (h.after w (.doorInputChange d i l)).ports = h.ports ∧ (h.after w (.doorInputChange d i l)).access =
    h.access ∧ (h.after w (.doorInputChange d i l)).events = h.events ∧ (h.after w (.doorInputChange d i l)).store =
    h.store ∧ (h.after w (.doorInputChange d i l)).freeCount = h.freeCount := by
  simp only [Hub.after]; split <;> simp

@[simp] theorem Hub.after_debounceTimerExpiry (d : Door) (i : DoorInput) (w : Between) (h : Hub) :
    (h.after w (.debounceTimerExpiry d i)).clock = h.clock ∧ (h.after w (.debounceTimerExpiry d i)).pins = h.pins ∧
    (h.after w (.debounceTimerExpiry d i)).sensing = h.sensing ∧ (h.after w (.debounceTimerExpiry d i)).path =
    h.path ∧ (h.after w (.debounceTimerExpiry d i)).steering = h.steering ∧ (h.after w (.debounceTimerExpiry d
    i)).joints = h.joints ∧ (h.after w (.debounceTimerExpiry d i)).ports = h.ports ∧ (h.after
    w (.debounceTimerExpiry d i)).access = h.access ∧ (h.after w (.debounceTimerExpiry d i)).store = h.store ∧
    (h.after w (.debounceTimerExpiry d i)).freeCount = h.freeCount := by
  simp only [Hub.after]; split <;> simp

@[simp] theorem Hub.after_frameError (p : Port) (bytes : List Byte) (w : Between) (h : Hub) :
    (h.after w (.frameError p bytes)).clock = h.clock ∧ (h.after w (.frameError p bytes)).sensing = h.sensing ∧
    (h.after w (.frameError p bytes)).path = h.path ∧ (h.after w (.frameError p bytes)).steering = h.steering ∧
    (h.after w (.frameError p bytes)).joints = h.joints ∧ (h.after w (.frameError p bytes)).brake = h.brake ∧
    (h.after w (.frameError p bytes)).level = h.level ∧ (h.after w (.frameError p bytes)).kneel = h.kneel ∧ (h.after
    w (.frameError p bytes)).doors = h.doors ∧ (h.after w (.frameError p bytes)).link = h.link ∧ (h.after
    w (.frameError p bytes)).access = h.access ∧ (h.after w (.frameError p bytes)).events = h.events ∧ (h.after
    w (.frameError p bytes)).store = h.store ∧ (h.after w (.frameError p bytes)).freeCount = h.freeCount := by
  simp only [Hub.after]; split <;> simp

@[simp] theorem Hub.after_unknownObject (q : Request) (k : CodedKind) (code : Byte) (w : Between) (h : Hub) :
    (h.after w (.unknownObject q k code)).clock = h.clock ∧ (h.after w (.unknownObject q k code)).sensing =
    h.sensing ∧ (h.after w (.unknownObject q k code)).path = h.path ∧ (h.after w (.unknownObject q k code)).steering
    = h.steering ∧ (h.after w (.unknownObject q k code)).joints = h.joints ∧ (h.after w (.unknownObject q k
    code)).brake = h.brake ∧ (h.after w (.unknownObject q k code)).level = h.level ∧ (h.after w (.unknownObject q k
    code)).kneel = h.kneel ∧ (h.after w (.unknownObject q k code)).doors = h.doors ∧ (h.after w (.unknownObject q k
    code)).link = h.link ∧ (h.after w (.unknownObject q k code)).access = h.access ∧ (h.after w (.unknownObject q k
    code)).events = h.events ∧ (h.after w (.unknownObject q k code)).store = h.store ∧ (h.after w (.unknownObject q
    k code)).freeCount = h.freeCount := by
  simp only [Hub.after]; split
  · exact ⟨exchange_keeps Hub.clock q code h (whenLoaded_keeps _ (answering_keeps _ _)) (by simp) (by simp), exchange_keeps Hub.sensing q code h (whenLoaded_keeps _ (answering_keeps _ _)) (by simp) (by simp), exchange_keeps Hub.path q code h (whenLoaded_keeps _ (answering_keeps _ _)) (by simp) (by simp), exchange_keeps Hub.steering q code h (whenLoaded_keeps _ (answering_keeps _ _)) (by simp) (by simp), exchange_keeps Hub.joints q code h (whenLoaded_keeps _ (answering_keeps _ _)) (by simp) (by simp), exchange_keeps Hub.brake q code h (whenLoaded_keeps _ (answering_keeps _ _)) (by simp) (by simp), exchange_keeps Hub.level q code h (whenLoaded_keeps _ (answering_keeps _ _)) (by simp) (by simp), exchange_keeps Hub.kneel q code h (whenLoaded_keeps _ (answering_keeps _ _)) (by simp) (by simp), exchange_keeps Hub.doors q code h (whenLoaded_keeps _ (answering_keeps _ _)) (by simp) (by simp), exchange_keeps Hub.link q code h (whenLoaded_keeps _ (answering_keeps _ _)) (by simp) (by simp), exchange_keeps Hub.access q code h (whenLoaded_keeps _ (answering_keeps _ _)) (by simp) (by simp), exchange_keeps Hub.events q code h (whenLoaded_keeps _ (answering_keeps _ _)) (by simp) (by simp), exchange_keeps Hub.store q code h (whenLoaded_keeps _ (answering_keeps _ _)) (by simp) (by simp), exchange_keeps Hub.freeCount q code h (whenLoaded_keeps _ (answering_keeps _ _)) (by simp) (by simp)⟩
  · simp

@[simp] theorem Hub.after_nop (q : Request) (code : Byte) (w : Between) (h : Hub) :
    (h.after w (.nop q code)).clock = h.clock ∧ (h.after w (.nop q code)).sensing = h.sensing ∧ (h.after w (.nop q
    code)).path = h.path ∧ (h.after w (.nop q code)).steering = h.steering ∧ (h.after w (.nop q code)).joints =
    h.joints ∧ (h.after w (.nop q code)).brake = h.brake ∧ (h.after w (.nop q code)).level = h.level ∧ (h.after
    w (.nop q code)).kneel = h.kneel ∧ (h.after w (.nop q code)).doors = h.doors ∧ (h.after w (.nop q code)).link =
    h.link ∧ (h.after w (.nop q code)).access = h.access ∧ (h.after w (.nop q code)).events = h.events ∧ (h.after
    w (.nop q code)).store = h.store ∧ (h.after w (.nop q code)).freeCount = h.freeCount := by
  exact ⟨exchange_keeps Hub.clock q code h (answering_keeps _ _) (by simp) (by simp), exchange_keeps Hub.sensing q code h (answering_keeps _ _) (by simp) (by simp), exchange_keeps Hub.path q code h (answering_keeps _ _) (by simp) (by simp), exchange_keeps Hub.steering q code h (answering_keeps _ _) (by simp) (by simp), exchange_keeps Hub.joints q code h (answering_keeps _ _) (by simp) (by simp), exchange_keeps Hub.brake q code h (answering_keeps _ _) (by simp) (by simp), exchange_keeps Hub.level q code h (answering_keeps _ _) (by simp) (by simp), exchange_keeps Hub.kneel q code h (answering_keeps _ _) (by simp) (by simp), exchange_keeps Hub.doors q code h (answering_keeps _ _) (by simp) (by simp), exchange_keeps Hub.link q code h (answering_keeps _ _) (by simp) (by simp), exchange_keeps Hub.access q code h (answering_keeps _ _) (by simp) (by simp), exchange_keeps Hub.events q code h (answering_keeps _ _) (by simp) (by simp), exchange_keeps Hub.store q code h (answering_keeps _ _) (by simp) (by simp), exchange_keeps Hub.freeCount q code h (answering_keeps _ _) (by simp) (by simp)⟩

@[simp] theorem Hub.after_fetchMotion (q : Request) (w : Between) (h : Hub) :
    (h.after w (.fetchMotion q)).clock = h.clock ∧ (h.after w (.fetchMotion q)).sensing = h.sensing ∧ (h.after
    w (.fetchMotion q)).path = h.path ∧ (h.after w (.fetchMotion q)).steering = h.steering ∧ (h.after w (.fetchMotion
    q)).joints = h.joints ∧ (h.after w (.fetchMotion q)).brake = h.brake ∧ (h.after w (.fetchMotion q)).level =
    h.level ∧ (h.after w (.fetchMotion q)).kneel = h.kneel ∧ (h.after w (.fetchMotion q)).doors = h.doors ∧ (h.after
    w (.fetchMotion q)).link = h.link ∧ (h.after w (.fetchMotion q)).access = h.access ∧ (h.after w (.fetchMotion
    q)).events = h.events ∧ (h.after w (.fetchMotion q)).store = h.store ∧ (h.after w (.fetchMotion q)).freeCount =
    h.freeCount := by
  exact ⟨fetch_keeps Hub.clock q _ h (copying_keeps _ _) (by simp) (by simp), fetch_keeps Hub.sensing q _ h (copying_keeps _ _) (by simp) (by simp), fetch_keeps Hub.path q _ h (copying_keeps _ _) (by simp) (by simp), fetch_keeps Hub.steering q _ h (copying_keeps _ _) (by simp) (by simp), fetch_keeps Hub.joints q _ h (copying_keeps _ _) (by simp) (by simp), fetch_keeps Hub.brake q _ h (copying_keeps _ _) (by simp) (by simp), fetch_keeps Hub.level q _ h (copying_keeps _ _) (by simp) (by simp), fetch_keeps Hub.kneel q _ h (copying_keeps _ _) (by simp) (by simp), fetch_keeps Hub.doors q _ h (copying_keeps _ _) (by simp) (by simp), fetch_keeps Hub.link q _ h (copying_keeps _ _) (by simp) (by simp), fetch_keeps Hub.access q _ h (copying_keeps _ _) (by simp) (by simp), fetch_keeps Hub.events q _ h (copying_keeps _ _) (by simp) (by simp), fetch_keeps Hub.store q _ h (copying_keeps _ _) (by simp) (by simp), fetch_keeps Hub.freeCount q _ h (copying_keeps _ _) (by simp) (by simp)⟩

@[simp] theorem Hub.after_fetchPath (q : Request) (w : Between) (h : Hub) :
    (h.after w (.fetchPath q)).clock = h.clock ∧ (h.after w (.fetchPath q)).sensing = h.sensing ∧ (h.after
    w (.fetchPath q)).path = h.path ∧ (h.after w (.fetchPath q)).steering = h.steering ∧ (h.after w (.fetchPath
    q)).joints = h.joints ∧ (h.after w (.fetchPath q)).brake = h.brake ∧ (h.after w (.fetchPath q)).level = h.level
    ∧ (h.after w (.fetchPath q)).kneel = h.kneel ∧ (h.after w (.fetchPath q)).doors = h.doors ∧ (h.after w (.fetchPath
    q)).link = h.link ∧ (h.after w (.fetchPath q)).access = h.access ∧ (h.after w (.fetchPath q)).events = h.events
    ∧ (h.after w (.fetchPath q)).store = h.store ∧ (h.after w (.fetchPath q)).freeCount = h.freeCount := by
  exact ⟨fetch_keeps Hub.clock q _ h (copying_keeps _ _) (by simp) (by simp), fetch_keeps Hub.sensing q _ h (copying_keeps _ _) (by simp) (by simp), fetch_keeps Hub.path q _ h (copying_keeps _ _) (by simp) (by simp), fetch_keeps Hub.steering q _ h (copying_keeps _ _) (by simp) (by simp), fetch_keeps Hub.joints q _ h (copying_keeps _ _) (by simp) (by simp), fetch_keeps Hub.brake q _ h (copying_keeps _ _) (by simp) (by simp), fetch_keeps Hub.level q _ h (copying_keeps _ _) (by simp) (by simp), fetch_keeps Hub.kneel q _ h (copying_keeps _ _) (by simp) (by simp), fetch_keeps Hub.doors q _ h (copying_keeps _ _) (by simp) (by simp), fetch_keeps Hub.link q _ h (copying_keeps _ _) (by simp) (by simp), fetch_keeps Hub.access q _ h (copying_keeps _ _) (by simp) (by simp), fetch_keeps Hub.events q _ h (copying_keeps _ _) (by simp) (by simp), fetch_keeps Hub.store q _ h (copying_keeps _ _) (by simp) (by simp), fetch_keeps Hub.freeCount q _ h (copying_keeps _ _) (by simp) (by simp)⟩

@[simp] theorem Hub.after_fetchPathWindow (q : Request) (w : Between) (h : Hub) :
    (h.after w (.fetchPathWindow q)).clock = h.clock ∧ (h.after w (.fetchPathWindow q)).sensing = h.sensing ∧
    (h.after w (.fetchPathWindow q)).path = h.path ∧ (h.after w (.fetchPathWindow q)).steering = h.steering ∧
    (h.after w (.fetchPathWindow q)).joints = h.joints ∧ (h.after w (.fetchPathWindow q)).brake = h.brake ∧ (h.after
    w (.fetchPathWindow q)).level = h.level ∧ (h.after w (.fetchPathWindow q)).kneel = h.kneel ∧ (h.after
    w (.fetchPathWindow q)).doors = h.doors ∧ (h.after w (.fetchPathWindow q)).link = h.link ∧ (h.after
    w (.fetchPathWindow q)).access = h.access ∧ (h.after w (.fetchPathWindow q)).events = h.events ∧ (h.after
    w (.fetchPathWindow q)).store = h.store ∧ (h.after w (.fetchPathWindow q)).freeCount = h.freeCount := by
  exact ⟨fetch_keeps Hub.clock q _ h (fun h => by unfold servePathWindow; split <;> rfl) (by simp) (by simp), fetch_keeps Hub.sensing q _ h (fun h => by unfold servePathWindow; split <;> rfl) (by simp) (by simp), fetch_keeps Hub.path q _ h (fun h => by unfold servePathWindow; split <;> rfl) (by simp) (by simp), fetch_keeps Hub.steering q _ h (fun h => by unfold servePathWindow; split <;> rfl) (by simp) (by simp), fetch_keeps Hub.joints q _ h (fun h => by unfold servePathWindow; split <;> rfl) (by simp) (by simp), fetch_keeps Hub.brake q _ h (fun h => by unfold servePathWindow; split <;> rfl) (by simp) (by simp), fetch_keeps Hub.level q _ h (fun h => by unfold servePathWindow; split <;> rfl) (by simp) (by simp), fetch_keeps Hub.kneel q _ h (fun h => by unfold servePathWindow; split <;> rfl) (by simp) (by simp), fetch_keeps Hub.doors q _ h (fun h => by unfold servePathWindow; split <;> rfl) (by simp) (by simp), fetch_keeps Hub.link q _ h (fun h => by unfold servePathWindow; split <;> rfl) (by simp) (by simp), fetch_keeps Hub.access q _ h (fun h => by unfold servePathWindow; split <;> rfl) (by simp) (by simp), fetch_keeps Hub.events q _ h (fun h => by unfold servePathWindow; split <;> rfl) (by simp) (by simp), fetch_keeps Hub.store q _ h (fun h => by unfold servePathWindow; split <;> rfl) (by simp) (by simp), fetch_keeps Hub.freeCount q _ h (fun h => by unfold servePathWindow; split <;> rfl) (by simp) (by simp)⟩

@[simp] theorem Hub.after_fetchSteer (q : Request) (w : Between) (h : Hub) :
    (h.after w (.fetchSteer q)).clock = h.clock ∧
    (h.after w (.fetchSteer q)).sensing = h.sensing ∧
    (h.after w (.fetchSteer q)).path = h.path ∧
    (h.after w (.fetchSteer q)).steering.axles = h.steering.axles ∧
    (h.after w (.fetchSteer q)).steering.periods = h.steering.periods ∧
    (h.after w (.fetchSteer q)).steering.timer = h.steering.timer ∧
    (h.after w (.fetchSteer q)).joints = h.joints ∧
    (h.after w (.fetchSteer q)).brake = h.brake ∧
    (h.after w (.fetchSteer q)).level = h.level ∧
    (h.after w (.fetchSteer q)).kneel = h.kneel ∧
    (h.after w (.fetchSteer q)).doors = h.doors ∧
    (h.after w (.fetchSteer q)).link = h.link ∧
    (h.after w (.fetchSteer q)).access = h.access ∧
    (h.after w (.fetchSteer q)).events = h.events ∧
    (h.after w (.fetchSteer q)).store = h.store ∧
    (h.after w (.fetchSteer q)).freeCount = h.freeCount :=
  ⟨fetch_keeps Hub.clock q _ h (serveSteer_keeps _ (fun _ _ => rfl)) (by simp) (by simp),
    fetch_keeps Hub.sensing q _ h (serveSteer_keeps _ (fun _ _ => rfl)) (by simp) (by simp),
    fetch_keeps Hub.path q _ h (serveSteer_keeps _ (fun _ _ => rfl)) (by simp) (by simp),
    fetch_keeps (fun h => h.steering.axles) q _ h (serveSteer_keeps _ (fun _ _ => rfl)) (by simp) (by simp),
    fetch_keeps (fun h => h.steering.periods) q _ h (serveSteer_keeps _ (fun _ _ => rfl)) (by simp) (by simp),
    fetch_keeps (fun h => h.steering.timer) q _ h (serveSteer_keeps _ (fun _ _ => rfl)) (by simp) (by simp),
    fetch_keeps Hub.joints q _ h (serveSteer_keeps _ (fun _ _ => rfl)) (by simp) (by simp),
    fetch_keeps Hub.brake q _ h (serveSteer_keeps _ (fun _ _ => rfl)) (by simp) (by simp),
    fetch_keeps Hub.level q _ h (serveSteer_keeps _ (fun _ _ => rfl)) (by simp) (by simp),
    fetch_keeps Hub.kneel q _ h (serveSteer_keeps _ (fun _ _ => rfl)) (by simp) (by simp),
    fetch_keeps Hub.doors q _ h (serveSteer_keeps _ (fun _ _ => rfl)) (by simp) (by simp),
    fetch_keeps Hub.link q _ h (serveSteer_keeps _ (fun _ _ => rfl)) (by simp) (by simp),
    fetch_keeps Hub.access q _ h (serveSteer_keeps _ (fun _ _ => rfl)) (by simp) (by simp),
    fetch_keeps Hub.events q _ h (serveSteer_keeps _ (fun _ _ => rfl)) (by simp) (by simp),
    fetch_keeps Hub.store q _ h (serveSteer_keeps _ (fun _ _ => rfl)) (by simp) (by simp),
    fetch_keeps Hub.freeCount q _ h (serveSteer_keeps _ (fun _ _ => rfl)) (by simp) (by simp)⟩

@[simp] theorem Hub.after_fetchJoints (q : Request) (w : Between) (h : Hub) :
    (h.after w (.fetchJoints q)).clock = h.clock ∧ (h.after w (.fetchJoints q)).sensing = h.sensing ∧ (h.after
    w (.fetchJoints q)).path = h.path ∧ (h.after w (.fetchJoints q)).steering = h.steering ∧ (h.after w (.fetchJoints
    q)).joints = h.joints ∧ (h.after w (.fetchJoints q)).brake = h.brake ∧ (h.after w (.fetchJoints q)).level =
    h.level ∧ (h.after w (.fetchJoints q)).kneel = h.kneel ∧ (h.after w (.fetchJoints q)).doors = h.doors ∧ (h.after
    w (.fetchJoints q)).link = h.link ∧ (h.after w (.fetchJoints q)).access = h.access ∧ (h.after w (.fetchJoints
    q)).events = h.events ∧ (h.after w (.fetchJoints q)).store = h.store ∧ (h.after w (.fetchJoints q)).freeCount =
    h.freeCount := by
  exact ⟨fetch_keeps Hub.clock q _ h (copying_keeps _ _) (by simp) (by simp), fetch_keeps Hub.sensing q _ h (copying_keeps _ _) (by simp) (by simp), fetch_keeps Hub.path q _ h (copying_keeps _ _) (by simp) (by simp), fetch_keeps Hub.steering q _ h (copying_keeps _ _) (by simp) (by simp), fetch_keeps Hub.joints q _ h (copying_keeps _ _) (by simp) (by simp), fetch_keeps Hub.brake q _ h (copying_keeps _ _) (by simp) (by simp), fetch_keeps Hub.level q _ h (copying_keeps _ _) (by simp) (by simp), fetch_keeps Hub.kneel q _ h (copying_keeps _ _) (by simp) (by simp), fetch_keeps Hub.doors q _ h (copying_keeps _ _) (by simp) (by simp), fetch_keeps Hub.link q _ h (copying_keeps _ _) (by simp) (by simp), fetch_keeps Hub.access q _ h (copying_keeps _ _) (by simp) (by simp), fetch_keeps Hub.events q _ h (copying_keeps _ _) (by simp) (by simp), fetch_keeps Hub.store q _ h (copying_keeps _ _) (by simp) (by simp), fetch_keeps Hub.freeCount q _ h (copying_keeps _ _) (by simp) (by simp)⟩

@[simp] theorem Hub.after_fetchBrake (q : Request) (w : Between) (h : Hub) :
    (h.after w (.fetchBrake q)).clock = h.clock ∧ (h.after w (.fetchBrake q)).sensing = h.sensing ∧ (h.after
    w (.fetchBrake q)).path = h.path ∧ (h.after w (.fetchBrake q)).steering = h.steering ∧ (h.after w (.fetchBrake
    q)).joints = h.joints ∧ (h.after w (.fetchBrake q)).brake = h.brake ∧ (h.after w (.fetchBrake q)).level =
    h.level ∧ (h.after w (.fetchBrake q)).kneel = h.kneel ∧ (h.after w (.fetchBrake q)).doors = h.doors ∧ (h.after
    w (.fetchBrake q)).link = h.link ∧ (h.after w (.fetchBrake q)).access = h.access ∧ (h.after w (.fetchBrake
    q)).events = h.events ∧ (h.after w (.fetchBrake q)).store = h.store ∧ (h.after w (.fetchBrake q)).freeCount =
    h.freeCount := by
  exact ⟨fetch_keeps Hub.clock q _ h (copying_keeps _ _) (by simp) (by simp), fetch_keeps Hub.sensing q _ h (copying_keeps _ _) (by simp) (by simp), fetch_keeps Hub.path q _ h (copying_keeps _ _) (by simp) (by simp), fetch_keeps Hub.steering q _ h (copying_keeps _ _) (by simp) (by simp), fetch_keeps Hub.joints q _ h (copying_keeps _ _) (by simp) (by simp), fetch_keeps Hub.brake q _ h (copying_keeps _ _) (by simp) (by simp), fetch_keeps Hub.level q _ h (copying_keeps _ _) (by simp) (by simp), fetch_keeps Hub.kneel q _ h (copying_keeps _ _) (by simp) (by simp), fetch_keeps Hub.doors q _ h (copying_keeps _ _) (by simp) (by simp), fetch_keeps Hub.link q _ h (copying_keeps _ _) (by simp) (by simp), fetch_keeps Hub.access q _ h (copying_keeps _ _) (by simp) (by simp), fetch_keeps Hub.events q _ h (copying_keeps _ _) (by simp) (by simp), fetch_keeps Hub.store q _ h (copying_keeps _ _) (by simp) (by simp), fetch_keeps Hub.freeCount q _ h (copying_keeps _ _) (by simp) (by simp)⟩

@[simp] theorem Hub.after_fetchLevel (q : Request) (w : Between) (h : Hub) :
    (h.after w (.fetchLevel q)).clock = h.clock ∧ (h.after w (.fetchLevel q)).sensing = h.sensing ∧ (h.after
    w (.fetchLevel q)).path = h.path ∧ (h.after w (.fetchLevel q)).steering = h.steering ∧ (h.after w (.fetchLevel
    q)).joints = h.joints ∧ (h.after w (.fetchLevel q)).brake = h.brake ∧ (h.after w (.fetchLevel q)).level =
    h.level ∧ (h.after w (.fetchLevel q)).kneel = h.kneel ∧ (h.after w (.fetchLevel q)).doors = h.doors ∧ (h.after
    w (.fetchLevel q)).link = h.link ∧ (h.after w (.fetchLevel q)).access = h.access ∧ (h.after w (.fetchLevel
    q)).events = h.events ∧ (h.after w (.fetchLevel q)).store = h.store ∧ (h.after w (.fetchLevel q)).freeCount =
    h.freeCount := by
  exact ⟨fetch_keeps Hub.clock q _ h (copying_keeps _ _) (by simp) (by simp), fetch_keeps Hub.sensing q _ h (copying_keeps _ _) (by simp) (by simp), fetch_keeps Hub.path q _ h (copying_keeps _ _) (by simp) (by simp), fetch_keeps Hub.steering q _ h (copying_keeps _ _) (by simp) (by simp), fetch_keeps Hub.joints q _ h (copying_keeps _ _) (by simp) (by simp), fetch_keeps Hub.brake q _ h (copying_keeps _ _) (by simp) (by simp), fetch_keeps Hub.level q _ h (copying_keeps _ _) (by simp) (by simp), fetch_keeps Hub.kneel q _ h (copying_keeps _ _) (by simp) (by simp), fetch_keeps Hub.doors q _ h (copying_keeps _ _) (by simp) (by simp), fetch_keeps Hub.link q _ h (copying_keeps _ _) (by simp) (by simp), fetch_keeps Hub.access q _ h (copying_keeps _ _) (by simp) (by simp), fetch_keeps Hub.events q _ h (copying_keeps _ _) (by simp) (by simp), fetch_keeps Hub.store q _ h (copying_keeps _ _) (by simp) (by simp), fetch_keeps Hub.freeCount q _ h (copying_keeps _ _) (by simp) (by simp)⟩

@[simp] theorem Hub.after_fetchKneel (q : Request) (w : Between) (h : Hub) :
    (h.after w (.fetchKneel q)).clock = h.clock ∧ (h.after w (.fetchKneel q)).sensing = h.sensing ∧ (h.after
    w (.fetchKneel q)).path = h.path ∧ (h.after w (.fetchKneel q)).steering = h.steering ∧ (h.after w (.fetchKneel
    q)).joints = h.joints ∧ (h.after w (.fetchKneel q)).brake = h.brake ∧ (h.after w (.fetchKneel q)).level =
    h.level ∧ (h.after w (.fetchKneel q)).kneel = h.kneel ∧ (h.after w (.fetchKneel q)).doors = h.doors ∧ (h.after
    w (.fetchKneel q)).link = h.link ∧ (h.after w (.fetchKneel q)).access = h.access ∧ (h.after w (.fetchKneel
    q)).events = h.events ∧ (h.after w (.fetchKneel q)).store = h.store ∧ (h.after w (.fetchKneel q)).freeCount =
    h.freeCount := by
  exact ⟨fetch_keeps Hub.clock q _ h (copying_keeps _ _) (by simp) (by simp), fetch_keeps Hub.sensing q _ h (copying_keeps _ _) (by simp) (by simp), fetch_keeps Hub.path q _ h (copying_keeps _ _) (by simp) (by simp), fetch_keeps Hub.steering q _ h (copying_keeps _ _) (by simp) (by simp), fetch_keeps Hub.joints q _ h (copying_keeps _ _) (by simp) (by simp), fetch_keeps Hub.brake q _ h (copying_keeps _ _) (by simp) (by simp), fetch_keeps Hub.level q _ h (copying_keeps _ _) (by simp) (by simp), fetch_keeps Hub.kneel q _ h (copying_keeps _ _) (by simp) (by simp), fetch_keeps Hub.doors q _ h (copying_keeps _ _) (by simp) (by simp), fetch_keeps Hub.link q _ h (copying_keeps _ _) (by simp) (by simp), fetch_keeps Hub.access q _ h (copying_keeps _ _) (by simp) (by simp), fetch_keeps Hub.events q _ h (copying_keeps _ _) (by simp) (by simp), fetch_keeps Hub.store q _ h (copying_keeps _ _) (by simp) (by simp), fetch_keeps Hub.freeCount q _ h (copying_keeps _ _) (by simp) (by simp)⟩

@[simp] theorem Hub.after_fetchDoors (q : Request) (w : Between) (h : Hub) :
    (h.after w (.fetchDoors q)).clock = h.clock ∧ (h.after w (.fetchDoors q)).sensing = h.sensing ∧ (h.after
    w (.fetchDoors q)).path = h.path ∧ (h.after w (.fetchDoors q)).steering = h.steering ∧ (h.after w (.fetchDoors
    q)).joints = h.joints ∧ (h.after w (.fetchDoors q)).brake = h.brake ∧ (h.after w (.fetchDoors q)).level =
    h.level ∧ (h.after w (.fetchDoors q)).kneel = h.kneel ∧ (h.after w (.fetchDoors q)).doors = h.doors ∧ (h.after
    w (.fetchDoors q)).link = h.link ∧ (h.after w (.fetchDoors q)).access = h.access ∧ (h.after w (.fetchDoors
    q)).events = h.events ∧ (h.after w (.fetchDoors q)).store = h.store ∧ (h.after w (.fetchDoors q)).freeCount =
    h.freeCount := by
  exact ⟨fetch_keeps Hub.clock q _ h (copying_keeps _ _) (by simp) (by simp), fetch_keeps Hub.sensing q _ h (copying_keeps _ _) (by simp) (by simp), fetch_keeps Hub.path q _ h (copying_keeps _ _) (by simp) (by simp), fetch_keeps Hub.steering q _ h (copying_keeps _ _) (by simp) (by simp), fetch_keeps Hub.joints q _ h (copying_keeps _ _) (by simp) (by simp), fetch_keeps Hub.brake q _ h (copying_keeps _ _) (by simp) (by simp), fetch_keeps Hub.level q _ h (copying_keeps _ _) (by simp) (by simp), fetch_keeps Hub.kneel q _ h (copying_keeps _ _) (by simp) (by simp), fetch_keeps Hub.doors q _ h (copying_keeps _ _) (by simp) (by simp), fetch_keeps Hub.link q _ h (copying_keeps _ _) (by simp) (by simp), fetch_keeps Hub.access q _ h (copying_keeps _ _) (by simp) (by simp), fetch_keeps Hub.events q _ h (copying_keeps _ _) (by simp) (by simp), fetch_keeps Hub.store q _ h (copying_keeps _ _) (by simp) (by simp), fetch_keeps Hub.freeCount q _ h (copying_keeps _ _) (by simp) (by simp)⟩

@[simp] theorem Hub.after_fetchLink (q : Request) (w : Between) (h : Hub) :
    (h.after w (.fetchLink q)).clock = h.clock ∧ (h.after w (.fetchLink q)).sensing = h.sensing ∧ (h.after
    w (.fetchLink q)).path = h.path ∧ (h.after w (.fetchLink q)).steering = h.steering ∧ (h.after w (.fetchLink
    q)).joints = h.joints ∧ (h.after w (.fetchLink q)).brake = h.brake ∧ (h.after w (.fetchLink q)).level = h.level
    ∧ (h.after w (.fetchLink q)).kneel = h.kneel ∧ (h.after w (.fetchLink q)).doors = h.doors ∧ (h.after w (.fetchLink
    q)).link = h.link ∧ (h.after w (.fetchLink q)).access = h.access ∧ (h.after w (.fetchLink q)).events = h.events
    ∧ (h.after w (.fetchLink q)).store = h.store ∧ (h.after w (.fetchLink q)).freeCount = h.freeCount := by
  exact ⟨fetch_keeps Hub.clock q _ h (copying_keeps _ _) (by simp) (by simp), fetch_keeps Hub.sensing q _ h (copying_keeps _ _) (by simp) (by simp), fetch_keeps Hub.path q _ h (copying_keeps _ _) (by simp) (by simp), fetch_keeps Hub.steering q _ h (copying_keeps _ _) (by simp) (by simp), fetch_keeps Hub.joints q _ h (copying_keeps _ _) (by simp) (by simp), fetch_keeps Hub.brake q _ h (copying_keeps _ _) (by simp) (by simp), fetch_keeps Hub.level q _ h (copying_keeps _ _) (by simp) (by simp), fetch_keeps Hub.kneel q _ h (copying_keeps _ _) (by simp) (by simp), fetch_keeps Hub.doors q _ h (copying_keeps _ _) (by simp) (by simp), fetch_keeps Hub.link q _ h (copying_keeps _ _) (by simp) (by simp), fetch_keeps Hub.access q _ h (copying_keeps _ _) (by simp) (by simp), fetch_keeps Hub.events q _ h (copying_keeps _ _) (by simp) (by simp), fetch_keeps Hub.store q _ h (copying_keeps _ _) (by simp) (by simp), fetch_keeps Hub.freeCount q _ h (copying_keeps _ _) (by simp) (by simp)⟩

@[simp] theorem Hub.after_fetchPort (q : Request) (w : Between) (h : Hub) :
    (h.after w (.fetchPort q)).clock = h.clock ∧ (h.after w (.fetchPort q)).sensing = h.sensing ∧ (h.after
    w (.fetchPort q)).path = h.path ∧ (h.after w (.fetchPort q)).steering = h.steering ∧ (h.after w (.fetchPort
    q)).joints = h.joints ∧ (h.after w (.fetchPort q)).brake = h.brake ∧ (h.after w (.fetchPort q)).level = h.level
    ∧ (h.after w (.fetchPort q)).kneel = h.kneel ∧ (h.after w (.fetchPort q)).doors = h.doors ∧ (h.after w (.fetchPort
    q)).link = h.link ∧ (h.after w (.fetchPort q)).access = h.access ∧ (h.after w (.fetchPort q)).events = h.events
    ∧ (h.after w (.fetchPort q)).store = h.store ∧ (h.after w (.fetchPort q)).freeCount = h.freeCount := by
  exact ⟨fetch_keeps Hub.clock q _ h (copying_keeps _ _) (by simp) (by simp), fetch_keeps Hub.sensing q _ h (copying_keeps _ _) (by simp) (by simp), fetch_keeps Hub.path q _ h (copying_keeps _ _) (by simp) (by simp), fetch_keeps Hub.steering q _ h (copying_keeps _ _) (by simp) (by simp), fetch_keeps Hub.joints q _ h (copying_keeps _ _) (by simp) (by simp), fetch_keeps Hub.brake q _ h (copying_keeps _ _) (by simp) (by simp), fetch_keeps Hub.level q _ h (copying_keeps _ _) (by simp) (by simp), fetch_keeps Hub.kneel q _ h (copying_keeps _ _) (by simp) (by simp), fetch_keeps Hub.doors q _ h (copying_keeps _ _) (by simp) (by simp), fetch_keeps Hub.link q _ h (copying_keeps _ _) (by simp) (by simp), fetch_keeps Hub.access q _ h (copying_keeps _ _) (by simp) (by simp), fetch_keeps Hub.events q _ h (copying_keeps _ _) (by simp) (by simp), fetch_keeps Hub.store q _ h (copying_keeps _ _) (by simp) (by simp), fetch_keeps Hub.freeCount q _ h (copying_keeps _ _) (by simp) (by simp)⟩

@[simp] theorem Hub.after_fetchActiveItem (q : Request) (w : Between) (h : Hub) :
    (h.after w (.fetchActiveItem q)).clock = h.clock ∧ (h.after w (.fetchActiveItem q)).sensing = h.sensing ∧
    (h.after w (.fetchActiveItem q)).path = h.path ∧ (h.after w (.fetchActiveItem q)).steering = h.steering ∧
    (h.after w (.fetchActiveItem q)).joints = h.joints ∧ (h.after w (.fetchActiveItem q)).brake = h.brake ∧ (h.after
    w (.fetchActiveItem q)).level = h.level ∧ (h.after w (.fetchActiveItem q)).kneel = h.kneel ∧ (h.after
    w (.fetchActiveItem q)).doors = h.doors ∧ (h.after w (.fetchActiveItem q)).link = h.link ∧ (h.after
    w (.fetchActiveItem q)).access = h.access ∧ (h.after w (.fetchActiveItem q)).events = h.events ∧ (h.after
    w (.fetchActiveItem q)).store = h.store ∧ (h.after w (.fetchActiveItem q)).freeCount = h.freeCount := by
  exact ⟨fetch_keeps Hub.clock q _ h (fun h => by unfold serveActiveItem; (repeat' split) <;> rfl) (by simp) (by simp), fetch_keeps Hub.sensing q _ h (fun h => by unfold serveActiveItem; (repeat' split) <;> rfl) (by simp) (by simp), fetch_keeps Hub.path q _ h (fun h => by unfold serveActiveItem; (repeat' split) <;> rfl) (by simp) (by simp), fetch_keeps Hub.steering q _ h (fun h => by unfold serveActiveItem; (repeat' split) <;> rfl) (by simp) (by simp), fetch_keeps Hub.joints q _ h (fun h => by unfold serveActiveItem; (repeat' split) <;> rfl) (by simp) (by simp), fetch_keeps Hub.brake q _ h (fun h => by unfold serveActiveItem; (repeat' split) <;> rfl) (by simp) (by simp), fetch_keeps Hub.level q _ h (fun h => by unfold serveActiveItem; (repeat' split) <;> rfl) (by simp) (by simp), fetch_keeps Hub.kneel q _ h (fun h => by unfold serveActiveItem; (repeat' split) <;> rfl) (by simp) (by simp), fetch_keeps Hub.doors q _ h (fun h => by unfold serveActiveItem; (repeat' split) <;> rfl) (by simp) (by simp), fetch_keeps Hub.link q _ h (fun h => by unfold serveActiveItem; (repeat' split) <;> rfl) (by simp) (by simp), fetch_keeps Hub.access q _ h (fun h => by unfold serveActiveItem; (repeat' split) <;> rfl) (by simp) (by simp), fetch_keeps Hub.events q _ h (fun h => by unfold serveActiveItem; (repeat' split) <;> rfl) (by simp) (by simp), fetch_keeps Hub.store q _ h (fun h => by unfold serveActiveItem; (repeat' split) <;> rfl) (by simp) (by simp), fetch_keeps Hub.freeCount q _ h (fun h => by unfold serveActiveItem; (repeat' split) <;> rfl) (by simp) (by simp)⟩

@[simp] theorem Hub.after_fetchAccess (q : Request) (w : Between) (h : Hub) :
    (h.after w (.fetchAccess q)).clock = h.clock ∧ (h.after w (.fetchAccess q)).sensing = h.sensing ∧ (h.after
    w (.fetchAccess q)).path = h.path ∧ (h.after w (.fetchAccess q)).steering = h.steering ∧ (h.after w (.fetchAccess
    q)).joints = h.joints ∧ (h.after w (.fetchAccess q)).brake = h.brake ∧ (h.after w (.fetchAccess q)).level =
    h.level ∧ (h.after w (.fetchAccess q)).kneel = h.kneel ∧ (h.after w (.fetchAccess q)).doors = h.doors ∧ (h.after
    w (.fetchAccess q)).link = h.link ∧ (h.after w (.fetchAccess q)).access = h.access ∧ (h.after w (.fetchAccess
    q)).events = h.events ∧ (h.after w (.fetchAccess q)).store = h.store ∧ (h.after w (.fetchAccess q)).freeCount =
    h.freeCount := by
  exact ⟨fetch_keeps Hub.clock q _ h (copying_keeps _ _) (by simp) (by simp), fetch_keeps Hub.sensing q _ h (copying_keeps _ _) (by simp) (by simp), fetch_keeps Hub.path q _ h (copying_keeps _ _) (by simp) (by simp), fetch_keeps Hub.steering q _ h (copying_keeps _ _) (by simp) (by simp), fetch_keeps Hub.joints q _ h (copying_keeps _ _) (by simp) (by simp), fetch_keeps Hub.brake q _ h (copying_keeps _ _) (by simp) (by simp), fetch_keeps Hub.level q _ h (copying_keeps _ _) (by simp) (by simp), fetch_keeps Hub.kneel q _ h (copying_keeps _ _) (by simp) (by simp), fetch_keeps Hub.doors q _ h (copying_keeps _ _) (by simp) (by simp), fetch_keeps Hub.link q _ h (copying_keeps _ _) (by simp) (by simp), fetch_keeps Hub.access q _ h (copying_keeps _ _) (by simp) (by simp), fetch_keeps Hub.events q _ h (copying_keeps _ _) (by simp) (by simp), fetch_keeps Hub.store q _ h (copying_keeps _ _) (by simp) (by simp), fetch_keeps Hub.freeCount q _ h (copying_keeps _ _) (by simp) (by simp)⟩

@[simp] theorem Hub.after_fetchStoreStatus (q : Request) (d : Bool) (w : Between) (h : Hub) :
    (h.after w (.fetchStoreStatus q d)).clock = h.clock ∧ (h.after w (.fetchStoreStatus q d)).sensing = h.sensing ∧
    (h.after w (.fetchStoreStatus q d)).path = h.path ∧ (h.after w (.fetchStoreStatus q d)).steering = h.steering ∧
    (h.after w (.fetchStoreStatus q d)).joints = h.joints ∧ (h.after w (.fetchStoreStatus q d)).brake = h.brake ∧
    (h.after w (.fetchStoreStatus q d)).level = h.level ∧ (h.after w (.fetchStoreStatus q d)).kneel = h.kneel ∧
    (h.after w (.fetchStoreStatus q d)).doors = h.doors ∧ (h.after w (.fetchStoreStatus q d)).link = h.link ∧
    (h.after w (.fetchStoreStatus q d)).access = h.access ∧ (h.after w (.fetchStoreStatus q d)).events = h.events ∧
    (h.after w (.fetchStoreStatus q d)).store = h.store := by
  exact ⟨(fetch_keeps Hub.clock q _ (h.readDepot d) (fun _ => rfl) (by simp) (by simp)).trans rfl, (fetch_keeps Hub.sensing q _ (h.readDepot d) (fun _ => rfl) (by simp) (by simp)).trans rfl, (fetch_keeps Hub.path q _ (h.readDepot d) (fun _ => rfl) (by simp) (by simp)).trans rfl, (fetch_keeps Hub.steering q _ (h.readDepot d) (fun _ => rfl) (by simp) (by simp)).trans rfl, (fetch_keeps Hub.joints q _ (h.readDepot d) (fun _ => rfl) (by simp) (by simp)).trans rfl, (fetch_keeps Hub.brake q _ (h.readDepot d) (fun _ => rfl) (by simp) (by simp)).trans rfl, (fetch_keeps Hub.level q _ (h.readDepot d) (fun _ => rfl) (by simp) (by simp)).trans rfl, (fetch_keeps Hub.kneel q _ (h.readDepot d) (fun _ => rfl) (by simp) (by simp)).trans rfl, (fetch_keeps Hub.doors q _ (h.readDepot d) (fun _ => rfl) (by simp) (by simp)).trans rfl, (fetch_keeps Hub.link q _ (h.readDepot d) (fun _ => rfl) (by simp) (by simp)).trans rfl, (fetch_keeps Hub.access q _ (h.readDepot d) (fun _ => rfl) (by simp) (by simp)).trans rfl, (fetch_keeps Hub.events q _ (h.readDepot d) (fun _ => rfl) (by simp) (by simp)).trans rfl, (fetch_keeps Hub.store q _ (h.readDepot d) (fun _ => rfl) (by simp) (by simp)).trans rfl⟩

@[simp] theorem Hub.after_postDriveDemand (q : Request) (w : Between) (h : Hub) :
    (h.after w (.postDriveDemand q)).clock = h.clock ∧ (h.after w (.postDriveDemand q)).sensing = h.sensing ∧
    (h.after w (.postDriveDemand q)).path = h.path ∧ (h.after w (.postDriveDemand q)).steering = h.steering ∧
    (h.after w (.postDriveDemand q)).joints = h.joints ∧ (h.after w (.postDriveDemand q)).brake = h.brake ∧ (h.after
    w (.postDriveDemand q)).level = h.level ∧ (h.after w (.postDriveDemand q)).kneel = h.kneel ∧ (h.after
    w (.postDriveDemand q)).doors = h.doors ∧ (h.after w (.postDriveDemand q)).link = h.link ∧ (h.after
    w (.postDriveDemand q)).access = h.access ∧ (h.after w (.postDriveDemand q)).events = h.events ∧ (h.after
    w (.postDriveDemand q)).store = h.store ∧ (h.after w (.postDriveDemand q)).freeCount = h.freeCount := by
  exact ⟨exchange_keeps Hub.clock q _ h (whenLoaded_keeps _ (whenAllowed_keeps _ _ _ (whenUnposted_keeps _ _ (fun _ => by simp)) (by simp))) (by simp) (by simp), exchange_keeps Hub.sensing q _ h (whenLoaded_keeps _ (whenAllowed_keeps _ _ _ (whenUnposted_keeps _ _ (fun _ => by simp)) (by simp))) (by simp) (by simp), exchange_keeps Hub.path q _ h (whenLoaded_keeps _ (whenAllowed_keeps _ _ _ (whenUnposted_keeps _ _ (fun _ => by simp)) (by simp))) (by simp) (by simp), exchange_keeps Hub.steering q _ h (whenLoaded_keeps _ (whenAllowed_keeps _ _ _ (whenUnposted_keeps _ _ (fun _ => by simp)) (by simp))) (by simp) (by simp), exchange_keeps Hub.joints q _ h (whenLoaded_keeps _ (whenAllowed_keeps _ _ _ (whenUnposted_keeps _ _ (fun _ => by simp)) (by simp))) (by simp) (by simp), exchange_keeps Hub.brake q _ h (whenLoaded_keeps _ (whenAllowed_keeps _ _ _ (whenUnposted_keeps _ _ (fun _ => by simp)) (by simp))) (by simp) (by simp), exchange_keeps Hub.level q _ h (whenLoaded_keeps _ (whenAllowed_keeps _ _ _ (whenUnposted_keeps _ _ (fun _ => by simp)) (by simp))) (by simp) (by simp), exchange_keeps Hub.kneel q _ h (whenLoaded_keeps _ (whenAllowed_keeps _ _ _ (whenUnposted_keeps _ _ (fun _ => by simp)) (by simp))) (by simp) (by simp), exchange_keeps Hub.doors q _ h (whenLoaded_keeps _ (whenAllowed_keeps _ _ _ (whenUnposted_keeps _ _ (fun _ => by simp)) (by simp))) (by simp) (by simp), exchange_keeps Hub.link q _ h (whenLoaded_keeps _ (whenAllowed_keeps _ _ _ (whenUnposted_keeps _ _ (fun _ => by simp)) (by simp))) (by simp) (by simp), exchange_keeps Hub.access q _ h (whenLoaded_keeps _ (whenAllowed_keeps _ _ _ (whenUnposted_keeps _ _ (fun _ => by simp)) (by simp))) (by simp) (by simp), exchange_keeps Hub.events q _ h (whenLoaded_keeps _ (whenAllowed_keeps _ _ _ (whenUnposted_keeps _ _ (fun _ => by simp)) (by simp))) (by simp) (by simp), exchange_keeps Hub.store q _ h (whenLoaded_keeps _ (whenAllowed_keeps _ _ _ (whenUnposted_keeps _ _ (fun _ => by simp)) (by simp))) (by simp) (by simp), exchange_keeps Hub.freeCount q _ h (whenLoaded_keeps _ (whenAllowed_keeps _ _ _ (whenUnposted_keeps _ _ (fun _ => by simp)) (by simp))) (by simp) (by simp)⟩

@[simp] theorem Hub.after_haltOn (q : Request) (w : Between) (h : Hub) :
    (h.after w (.haltOn q)).clock = h.clock ∧ (h.after w (.haltOn q)).sensing = h.sensing ∧ (h.after w (.haltOn
    q)).path = h.path ∧ (h.after w (.haltOn q)).steering = h.steering ∧ (h.after w (.haltOn q)).joints = h.joints ∧
    (h.after w (.haltOn q)).access = h.access ∧ (h.after w (.haltOn q)).store = h.store ∧ (h.after w (.haltOn
    q)).freeCount = h.freeCount := by
  exact ⟨order_keeps Hub.clock q _ _ h (fun _ => by simp) (by simp) (by simp), order_keeps Hub.sensing q _ _ h (fun _ => by simp) (by simp) (by simp), order_keeps Hub.path q _ _ h (fun _ => by simp) (by simp) (by simp), order_keeps Hub.steering q _ _ h (fun _ => by simp) (by simp) (by simp), order_keeps Hub.joints q _ _ h (fun _ => by simp) (by simp) (by simp), order_keeps Hub.access q _ _ h (fun _ => by simp) (by simp) (by simp), order_keeps Hub.store q _ _ h (fun _ => by simp) (by simp) (by simp), order_keeps Hub.freeCount q _ _ h (fun _ => by simp) (by simp) (by simp)⟩

@[simp] theorem Hub.after_haltOff (q : Request) (w : Between) (h : Hub) :
    (h.after w (.haltOff q)).clock = h.clock ∧ (h.after w (.haltOff q)).sensing = h.sensing ∧ (h.after w (.haltOff
    q)).path = h.path ∧ (h.after w (.haltOff q)).steering = h.steering ∧ (h.after w (.haltOff q)).joints = h.joints
    ∧ (h.after w (.haltOff q)).access = h.access ∧ (h.after w (.haltOff q)).store = h.store ∧ (h.after w (.haltOff
    q)).freeCount = h.freeCount := by
  exact ⟨order_keeps Hub.clock q _ _ h (fun _ => by simp) (by simp) (by simp), order_keeps Hub.sensing q _ _ h (fun _ => by simp) (by simp) (by simp), order_keeps Hub.path q _ _ h (fun _ => by simp) (by simp) (by simp), order_keeps Hub.steering q _ _ h (fun _ => by simp) (by simp) (by simp), order_keeps Hub.joints q _ _ h (fun _ => by simp) (by simp) (by simp), order_keeps Hub.access q _ _ h (fun _ => by simp) (by simp) (by simp), order_keeps Hub.store q _ _ h (fun _ => by simp) (by simp) (by simp), order_keeps Hub.freeCount q _ _ h (fun _ => by simp) (by simp) (by simp)⟩

@[simp] theorem Hub.after_clearPathFlag (q : Request) (w : Between) (h : Hub) :
    (h.after w (.clearPathFlag q)).clock = h.clock ∧ (h.after w (.clearPathFlag q)).sensing = h.sensing ∧ (h.after
    w (.clearPathFlag q)).steering = h.steering ∧ (h.after w (.clearPathFlag q)).joints = h.joints ∧ (h.after
    w (.clearPathFlag q)).brake = h.brake ∧ (h.after w (.clearPathFlag q)).level = h.level ∧ (h.after
    w (.clearPathFlag q)).kneel = h.kneel ∧ (h.after w (.clearPathFlag q)).doors = h.doors ∧ (h.after
    w (.clearPathFlag q)).link = h.link ∧ (h.after w (.clearPathFlag q)).access = h.access ∧ (h.after
    w (.clearPathFlag q)).events = h.events ∧ (h.after w (.clearPathFlag q)).store = h.store ∧ (h.after
    w (.clearPathFlag q)).freeCount = h.freeCount := by
  exact ⟨order_keeps Hub.clock q _ _ h (fun _ => by simp) (by simp) (by simp), order_keeps Hub.sensing q _ _ h (fun _ => by simp) (by simp) (by simp), order_keeps Hub.steering q _ _ h (fun _ => by simp) (by simp) (by simp), order_keeps Hub.joints q _ _ h (fun _ => by simp) (by simp) (by simp), order_keeps Hub.brake q _ _ h (fun _ => by simp) (by simp) (by simp), order_keeps Hub.level q _ _ h (fun _ => by simp) (by simp) (by simp), order_keeps Hub.kneel q _ _ h (fun _ => by simp) (by simp) (by simp), order_keeps Hub.doors q _ _ h (fun _ => by simp) (by simp) (by simp), order_keeps Hub.link q _ _ h (fun _ => by simp) (by simp) (by simp), order_keeps Hub.access q _ _ h (fun _ => by simp) (by simp) (by simp), order_keeps Hub.events q _ _ h (fun _ => by simp) (by simp) (by simp), order_keeps Hub.store q _ _ h (fun _ => by simp) (by simp) (by simp), order_keeps Hub.freeCount q _ _ h (fun _ => by simp) (by simp) (by simp)⟩

@[simp] theorem Hub.after_release (q : Request) (w : Between) (h : Hub) :
    (h.after w (.release q)).clock = h.clock ∧ (h.after w (.release q)).sensing = h.sensing ∧ (h.after w (.release
    q)).path = h.path ∧ (h.after w (.release q)).steering = h.steering ∧ (h.after w (.release q)).joints = h.joints
    ∧ (h.after w (.release q)).access = h.access ∧ (h.after w (.release q)).store = h.store ∧ (h.after w (.release
    q)).freeCount = h.freeCount := by
  exact ⟨order_keeps Hub.clock q _ _ h (fun _ => by simp) (by simp) (by simp), order_keeps Hub.sensing q _ _ h (fun _ => by simp) (by simp) (by simp), order_keeps Hub.path q _ _ h (fun _ => by simp) (by simp) (by simp), order_keeps Hub.steering q _ _ h (fun _ => by simp) (by simp) (by simp), order_keeps Hub.joints q _ _ h (fun _ => by simp) (by simp) (by simp), order_keeps Hub.access q _ _ h (fun _ => by simp) (by simp) (by simp), order_keeps Hub.store q _ _ h (fun _ => by simp) (by simp) (by simp), order_keeps Hub.freeCount q _ _ h (fun _ => by simp) (by simp) (by simp)⟩

@[simp] theorem Hub.after_withdraw (q : Request) (w : Between) (h : Hub) :
    (h.after w (.withdraw q)).clock = h.clock ∧ (h.after w (.withdraw q)).sensing = h.sensing ∧ (h.after w (.withdraw
    q)).path = h.path ∧ (h.after w (.withdraw q)).steering = h.steering ∧ (h.after w (.withdraw q)).joints =
    h.joints ∧ (h.after w (.withdraw q)).access = h.access ∧ (h.after w (.withdraw q)).store = h.store ∧ (h.after
    w (.withdraw q)).freeCount = h.freeCount := by
  exact ⟨order_keeps Hub.clock q _ _ h (fun _ => by simp) (by simp) (by simp), order_keeps Hub.sensing q _ _ h (fun _ => by simp) (by simp) (by simp), order_keeps Hub.path q _ _ h (fun _ => by simp) (by simp) (by simp), order_keeps Hub.steering q _ _ h (fun _ => by simp) (by simp) (by simp), order_keeps Hub.joints q _ _ h (fun _ => by simp) (by simp) (by simp), order_keeps Hub.access q _ _ h (fun _ => by simp) (by simp) (by simp), order_keeps Hub.store q _ _ h (fun _ => by simp) (by simp) (by simp), order_keeps Hub.freeCount q _ _ h (fun _ => by simp) (by simp) (by simp)⟩

@[simp] theorem Hub.after_kneel (q : Request) (w : Between) (h : Hub) :
    (h.after w (.kneel q)).clock = h.clock ∧ (h.after w (.kneel q)).sensing = h.sensing ∧ (h.after w (.kneel q)).path
    = h.path ∧ (h.after w (.kneel q)).steering = h.steering ∧ (h.after w (.kneel q)).joints = h.joints ∧ (h.after
    w (.kneel q)).access = h.access ∧ (h.after w (.kneel q)).store = h.store ∧ (h.after w (.kneel q)).freeCount =
    h.freeCount := by
  exact ⟨order_keeps Hub.clock q _ _ h (fun _ => by simp) (by simp) (by simp), order_keeps Hub.sensing q _ _ h (fun _ => by simp) (by simp) (by simp), order_keeps Hub.path q _ _ h (fun _ => by simp) (by simp) (by simp), order_keeps Hub.steering q _ _ h (fun _ => by simp) (by simp) (by simp), order_keeps Hub.joints q _ _ h (fun _ => by simp) (by simp) (by simp), order_keeps Hub.access q _ _ h (fun _ => by simp) (by simp) (by simp), order_keeps Hub.store q _ _ h (fun _ => by simp) (by simp) (by simp), order_keeps Hub.freeCount q _ _ h (fun _ => by simp) (by simp) (by simp)⟩

@[simp] theorem Hub.after_raise (q : Request) (w : Between) (h : Hub) :
    (h.after w (.raise q)).clock = h.clock ∧ (h.after w (.raise q)).sensing = h.sensing ∧ (h.after w (.raise q)).path
    = h.path ∧ (h.after w (.raise q)).steering = h.steering ∧ (h.after w (.raise q)).joints = h.joints ∧ (h.after
    w (.raise q)).access = h.access ∧ (h.after w (.raise q)).store = h.store ∧ (h.after w (.raise q)).freeCount =
    h.freeCount := by
  exact ⟨order_keeps Hub.clock q _ _ h (fun _ => by simp) (by simp) (by simp), order_keeps Hub.sensing q _ _ h (fun _ => by simp) (by simp) (by simp), order_keeps Hub.path q _ _ h (fun _ => by simp) (by simp) (by simp), order_keeps Hub.steering q _ _ h (fun _ => by simp) (by simp) (by simp), order_keeps Hub.joints q _ _ h (fun _ => by simp) (by simp) (by simp), order_keeps Hub.access q _ _ h (fun _ => by simp) (by simp) (by simp), order_keeps Hub.store q _ _ h (fun _ => by simp) (by simp) (by simp), order_keeps Hub.freeCount q _ _ h (fun _ => by simp) (by simp) (by simp)⟩

@[simp] theorem Hub.after_mapWrite (q : Request) (w : Between) (h : Hub) :
    (h.after w (.mapWrite q)).clock = h.clock ∧ (h.after w (.mapWrite q)).sensing = h.sensing ∧ (h.after w (.mapWrite
    q)).path = h.path ∧ (h.after w (.mapWrite q)).steering = h.steering ∧ (h.after w (.mapWrite q)).joints =
    h.joints ∧ (h.after w (.mapWrite q)).brake = h.brake ∧ (h.after w (.mapWrite q)).level = h.level ∧ (h.after
    w (.mapWrite q)).kneel = h.kneel ∧ (h.after w (.mapWrite q)).doors = h.doors ∧ (h.after w (.mapWrite q)).link =
    h.link ∧ (h.after w (.mapWrite q)).events = h.events ∧ (h.after w (.mapWrite q)).store = h.store ∧ (h.after
    w (.mapWrite q)).freeCount = h.freeCount := by
  exact ⟨order_keeps Hub.clock q _ _ h (fun _ => by simp) (by simp) (by simp), order_keeps Hub.sensing q _ _ h (fun _ => by simp) (by simp) (by simp), order_keeps Hub.path q _ _ h (fun _ => by simp) (by simp) (by simp), order_keeps Hub.steering q _ _ h (fun _ => by simp) (by simp) (by simp), order_keeps Hub.joints q _ _ h (fun _ => by simp) (by simp) (by simp), order_keeps Hub.brake q _ _ h (fun _ => by simp) (by simp) (by simp), order_keeps Hub.level q _ _ h (fun _ => by simp) (by simp) (by simp), order_keeps Hub.kneel q _ _ h (fun _ => by simp) (by simp) (by simp), order_keeps Hub.doors q _ _ h (fun _ => by simp) (by simp) (by simp), order_keeps Hub.link q _ _ h (fun _ => by simp) (by simp) (by simp), order_keeps Hub.events q _ _ h (fun _ => by simp) (by simp) (by simp), order_keeps Hub.store q _ _ h (fun _ => by simp) (by simp) (by simp), order_keeps Hub.freeCount q _ _ h (fun _ => by simp) (by simp) (by simp)⟩

@[simp] theorem Hub.after_mapLock (q : Request) (w : Between) (h : Hub) :
    (h.after w (.mapLock q)).clock = h.clock ∧ (h.after w (.mapLock q)).sensing = h.sensing ∧ (h.after w (.mapLock
    q)).path = h.path ∧ (h.after w (.mapLock q)).steering = h.steering ∧ (h.after w (.mapLock q)).joints = h.joints
    ∧ (h.after w (.mapLock q)).brake = h.brake ∧ (h.after w (.mapLock q)).level = h.level ∧ (h.after w (.mapLock
    q)).kneel = h.kneel ∧ (h.after w (.mapLock q)).doors = h.doors ∧ (h.after w (.mapLock q)).link = h.link ∧
    (h.after w (.mapLock q)).events = h.events ∧ (h.after w (.mapLock q)).store = h.store ∧ (h.after w (.mapLock
    q)).freeCount = h.freeCount := by
  exact ⟨order_keeps Hub.clock q _ _ h (fun _ => by simp) (by simp) (by simp), order_keeps Hub.sensing q _ _ h (fun _ => by simp) (by simp) (by simp), order_keeps Hub.path q _ _ h (fun _ => by simp) (by simp) (by simp), order_keeps Hub.steering q _ _ h (fun _ => by simp) (by simp) (by simp), order_keeps Hub.joints q _ _ h (fun _ => by simp) (by simp) (by simp), order_keeps Hub.brake q _ _ h (fun _ => by simp) (by simp) (by simp), order_keeps Hub.level q _ _ h (fun _ => by simp) (by simp) (by simp), order_keeps Hub.kneel q _ _ h (fun _ => by simp) (by simp) (by simp), order_keeps Hub.doors q _ _ h (fun _ => by simp) (by simp) (by simp), order_keeps Hub.link q _ _ h (fun _ => by simp) (by simp) (by simp), order_keeps Hub.events q _ _ h (fun _ => by simp) (by simp) (by simp), order_keeps Hub.store q _ _ h (fun _ => by simp) (by simp) (by simp), order_keeps Hub.freeCount q _ _ h (fun _ => by simp) (by simp) (by simp)⟩

@[simp] theorem Hub.after_routeWrite (q : Request) (w : Between) (h : Hub) :
    (h.after w (.routeWrite q)).clock = h.clock ∧ (h.after w (.routeWrite q)).sensing = h.sensing ∧ (h.after
    w (.routeWrite q)).path = h.path ∧ (h.after w (.routeWrite q)).steering = h.steering ∧ (h.after w (.routeWrite
    q)).joints = h.joints ∧ (h.after w (.routeWrite q)).brake = h.brake ∧ (h.after w (.routeWrite q)).level =
    h.level ∧ (h.after w (.routeWrite q)).kneel = h.kneel ∧ (h.after w (.routeWrite q)).doors = h.doors ∧ (h.after
    w (.routeWrite q)).link = h.link ∧ (h.after w (.routeWrite q)).access = h.access ∧ (h.after w (.routeWrite
    q)).store = h.store ∧ (h.after w (.routeWrite q)).freeCount = h.freeCount := by
  exact ⟨order_keeps Hub.clock q _ _ h (fun _ => by simp) (by simp) (by simp), order_keeps Hub.sensing q _ _ h (fun _ => by simp) (by simp) (by simp), order_keeps Hub.path q _ _ h (fun _ => by simp) (by simp) (by simp), order_keeps Hub.steering q _ _ h (fun _ => by simp) (by simp) (by simp), order_keeps Hub.joints q _ _ h (fun _ => by simp) (by simp) (by simp), order_keeps Hub.brake q _ _ h (fun _ => by simp) (by simp) (by simp), order_keeps Hub.level q _ _ h (fun _ => by simp) (by simp) (by simp), order_keeps Hub.kneel q _ _ h (fun _ => by simp) (by simp) (by simp), order_keeps Hub.doors q _ _ h (fun _ => by simp) (by simp) (by simp), order_keeps Hub.link q _ _ h (fun _ => by simp) (by simp) (by simp), order_keeps Hub.access q _ _ h (fun _ => by simp) (by simp) (by simp), order_keeps Hub.store q _ _ h (fun _ => by simp) (by simp) (by simp), order_keeps Hub.freeCount q _ _ h (fun _ => by simp) (by simp) (by simp)⟩

@[simp] theorem Hub.after_storeRead (q : DelayedOrder) (w : Between) (h : Hub) :
    (h.after w (.storeRead q)).clock = h.clock ∧ (h.after w (.storeRead q)).sensing = h.sensing ∧ (h.after
    w (.storeRead q)).path = h.path ∧ (h.after w (.storeRead q)).steering = h.steering ∧ (h.after w (.storeRead
    q)).joints = h.joints ∧ (h.after w (.storeRead q)).brake = h.brake ∧ (h.after w (.storeRead q)).level = h.level
    ∧ (h.after w (.storeRead q)).kneel = h.kneel ∧ (h.after w (.storeRead q)).doors = h.doors ∧ (h.after w (.storeRead
    q)).link = h.link ∧ (h.after w (.storeRead q)).access = h.access ∧ (h.after w (.storeRead q)).events = h.events
    ∧ (h.after w (.storeRead q)).freeCount = h.freeCount := by
  exact ⟨(delayedOrder_keeps Hub.clock q.toRequest _ _ (h.readDepot q.depot) (by simp) (by simp) (fun _ _ _ => by simp)).trans rfl, (delayedOrder_keeps Hub.sensing q.toRequest _ _ (h.readDepot q.depot) (by simp) (by simp) (fun _ _ _ => by simp)).trans rfl, (delayedOrder_keeps Hub.path q.toRequest _ _ (h.readDepot q.depot) (by simp) (by simp) (fun _ _ _ => by simp)).trans rfl, (delayedOrder_keeps Hub.steering q.toRequest _ _ (h.readDepot q.depot) (by simp) (by simp) (fun _ _ _ => by simp)).trans rfl, (delayedOrder_keeps Hub.joints q.toRequest _ _ (h.readDepot q.depot) (by simp) (by simp) (fun _ _ _ => by simp)).trans rfl, (delayedOrder_keeps Hub.brake q.toRequest _ _ (h.readDepot q.depot) (by simp) (by simp) (fun _ _ _ => by simp)).trans rfl, (delayedOrder_keeps Hub.level q.toRequest _ _ (h.readDepot q.depot) (by simp) (by simp) (fun _ _ _ => by simp)).trans rfl, (delayedOrder_keeps Hub.kneel q.toRequest _ _ (h.readDepot q.depot) (by simp) (by simp) (fun _ _ _ => by simp)).trans rfl, (delayedOrder_keeps Hub.doors q.toRequest _ _ (h.readDepot q.depot) (by simp) (by simp) (fun _ _ _ => by simp)).trans rfl, (delayedOrder_keeps Hub.link q.toRequest _ _ (h.readDepot q.depot) (by simp) (by simp) (fun _ _ _ => by simp)).trans rfl, (delayedOrder_keeps Hub.access q.toRequest _ _ (h.readDepot q.depot) (by simp) (by simp) (fun _ _ _ => by simp)).trans rfl, (delayedOrder_keeps Hub.events q.toRequest _ _ (h.readDepot q.depot) (by simp) (by simp) (fun _ _ _ => by simp)).trans rfl, (delayedOrder_keeps Hub.freeCount q.toRequest _ _ (h.readDepot q.depot) (by simp) (by simp) (fun _ _ _ => by simp)).trans rfl⟩

@[simp] theorem Hub.after_storeClear (q : Request) (d : Bool) (w : Between) (h : Hub) :
    (h.after w (.storeClear q d)).clock = h.clock ∧ (h.after w (.storeClear q d)).sensing = h.sensing ∧ (h.after
    w (.storeClear q d)).path = h.path ∧ (h.after w (.storeClear q d)).steering = h.steering ∧ (h.after w (.storeClear
    q d)).joints = h.joints ∧ (h.after w (.storeClear q d)).brake = h.brake ∧ (h.after w (.storeClear q d)).level =
    h.level ∧ (h.after w (.storeClear q d)).kneel = h.kneel ∧ (h.after w (.storeClear q d)).doors = h.doors ∧
    (h.after w (.storeClear q d)).link = h.link ∧ (h.after w (.storeClear q d)).access = h.access ∧ (h.after
    w (.storeClear q d)).events = h.events ∧ (h.after w (.storeClear q d)).freeCount = h.freeCount := by
  exact ⟨(delayedOrder_keeps Hub.clock q _ _ (h.readDepot d) (by simp) (by simp) (fun _ _ _ => by simp)).trans rfl, (delayedOrder_keeps Hub.sensing q _ _ (h.readDepot d) (by simp) (by simp) (fun _ _ _ => by simp)).trans rfl, (delayedOrder_keeps Hub.path q _ _ (h.readDepot d) (by simp) (by simp) (fun _ _ _ => by simp)).trans rfl, (delayedOrder_keeps Hub.steering q _ _ (h.readDepot d) (by simp) (by simp) (fun _ _ _ => by simp)).trans rfl, (delayedOrder_keeps Hub.joints q _ _ (h.readDepot d) (by simp) (by simp) (fun _ _ _ => by simp)).trans rfl, (delayedOrder_keeps Hub.brake q _ _ (h.readDepot d) (by simp) (by simp) (fun _ _ _ => by simp)).trans rfl, (delayedOrder_keeps Hub.level q _ _ (h.readDepot d) (by simp) (by simp) (fun _ _ _ => by simp)).trans rfl, (delayedOrder_keeps Hub.kneel q _ _ (h.readDepot d) (by simp) (by simp) (fun _ _ _ => by simp)).trans rfl, (delayedOrder_keeps Hub.doors q _ _ (h.readDepot d) (by simp) (by simp) (fun _ _ _ => by simp)).trans rfl, (delayedOrder_keeps Hub.link q _ _ (h.readDepot d) (by simp) (by simp) (fun _ _ _ => by simp)).trans rfl, (delayedOrder_keeps Hub.access q _ _ (h.readDepot d) (by simp) (by simp) (fun _ _ _ => by simp)).trans rfl, (delayedOrder_keeps Hub.events q _ _ (h.readDepot d) (by simp) (by simp) (fun _ _ _ => by simp)).trans rfl, (delayedOrder_keeps Hub.freeCount q _ _ (h.readDepot d) (by simp) (by simp) (fun _ _ _ => by simp)).trans rfl⟩

@[simp] theorem Hub.after_storeWrite (q : DelayedOrder) (w : Between) (h : Hub) :
    (h.after w (.storeWrite q)).clock = h.clock ∧ (h.after w (.storeWrite q)).sensing = h.sensing ∧ (h.after
    w (.storeWrite q)).path = h.path ∧ (h.after w (.storeWrite q)).steering = h.steering ∧ (h.after w (.storeWrite
    q)).joints = h.joints ∧ (h.after w (.storeWrite q)).brake = h.brake ∧ (h.after w (.storeWrite q)).level =
    h.level ∧ (h.after w (.storeWrite q)).kneel = h.kneel ∧ (h.after w (.storeWrite q)).doors = h.doors ∧ (h.after
    w (.storeWrite q)).link = h.link ∧ (h.after w (.storeWrite q)).access = h.access ∧ (h.after w (.storeWrite
    q)).events = h.events ∧ (h.after w (.storeWrite q)).freeCount = h.freeCount := by
  exact ⟨(delayedOrder_keeps Hub.clock q.toRequest _ _ (h.readDepot q.depot) (by simp) (by simp) (fun _ _ _ => by simp)).trans rfl, (delayedOrder_keeps Hub.sensing q.toRequest _ _ (h.readDepot q.depot) (by simp) (by simp) (fun _ _ _ => by simp)).trans rfl, (delayedOrder_keeps Hub.path q.toRequest _ _ (h.readDepot q.depot) (by simp) (by simp) (fun _ _ _ => by simp)).trans rfl, (delayedOrder_keeps Hub.steering q.toRequest _ _ (h.readDepot q.depot) (by simp) (by simp) (fun _ _ _ => by simp)).trans rfl, (delayedOrder_keeps Hub.joints q.toRequest _ _ (h.readDepot q.depot) (by simp) (by simp) (fun _ _ _ => by simp)).trans rfl, (delayedOrder_keeps Hub.brake q.toRequest _ _ (h.readDepot q.depot) (by simp) (by simp) (fun _ _ _ => by simp)).trans rfl, (delayedOrder_keeps Hub.level q.toRequest _ _ (h.readDepot q.depot) (by simp) (by simp) (fun _ _ _ => by simp)).trans rfl, (delayedOrder_keeps Hub.kneel q.toRequest _ _ (h.readDepot q.depot) (by simp) (by simp) (fun _ _ _ => by simp)).trans rfl, (delayedOrder_keeps Hub.doors q.toRequest _ _ (h.readDepot q.depot) (by simp) (by simp) (fun _ _ _ => by simp)).trans rfl, (delayedOrder_keeps Hub.link q.toRequest _ _ (h.readDepot q.depot) (by simp) (by simp) (fun _ _ _ => by simp)).trans rfl, (delayedOrder_keeps Hub.access q.toRequest _ _ (h.readDepot q.depot) (by simp) (by simp) (fun _ _ _ => by simp)).trans rfl, (delayedOrder_keeps Hub.events q.toRequest _ _ (h.readDepot q.depot) (by simp) (by simp) (fun _ _ _ => by simp)).trans rfl, (delayedOrder_keeps Hub.freeCount q.toRequest _ _ (h.readDepot q.depot) (by simp) (by simp) (fun _ _ _ => by simp)).trans rfl⟩

@[simp] theorem Hub.after_storeClose (q : DelayedOrder) (w : Between) (h : Hub) :
    (h.after w (.storeClose q)).clock = h.clock ∧ (h.after w (.storeClose q)).sensing = h.sensing ∧ (h.after
    w (.storeClose q)).path = h.path ∧ (h.after w (.storeClose q)).steering = h.steering ∧ (h.after w (.storeClose
    q)).joints = h.joints ∧ (h.after w (.storeClose q)).brake = h.brake ∧ (h.after w (.storeClose q)).level =
    h.level ∧ (h.after w (.storeClose q)).kneel = h.kneel ∧ (h.after w (.storeClose q)).doors = h.doors ∧ (h.after
    w (.storeClose q)).link = h.link ∧ (h.after w (.storeClose q)).access = h.access ∧ (h.after w (.storeClose
    q)).events = h.events ∧ (h.after w (.storeClose q)).freeCount = h.freeCount := by
  exact ⟨(delayedOrder_keeps Hub.clock q.toRequest _ _ (h.readDepot q.depot) (by simp) (by simp) (fun _ _ _ => by simp)).trans rfl, (delayedOrder_keeps Hub.sensing q.toRequest _ _ (h.readDepot q.depot) (by simp) (by simp) (fun _ _ _ => by simp)).trans rfl, (delayedOrder_keeps Hub.path q.toRequest _ _ (h.readDepot q.depot) (by simp) (by simp) (fun _ _ _ => by simp)).trans rfl, (delayedOrder_keeps Hub.steering q.toRequest _ _ (h.readDepot q.depot) (by simp) (by simp) (fun _ _ _ => by simp)).trans rfl, (delayedOrder_keeps Hub.joints q.toRequest _ _ (h.readDepot q.depot) (by simp) (by simp) (fun _ _ _ => by simp)).trans rfl, (delayedOrder_keeps Hub.brake q.toRequest _ _ (h.readDepot q.depot) (by simp) (by simp) (fun _ _ _ => by simp)).trans rfl, (delayedOrder_keeps Hub.level q.toRequest _ _ (h.readDepot q.depot) (by simp) (by simp) (fun _ _ _ => by simp)).trans rfl, (delayedOrder_keeps Hub.kneel q.toRequest _ _ (h.readDepot q.depot) (by simp) (by simp) (fun _ _ _ => by simp)).trans rfl, (delayedOrder_keeps Hub.doors q.toRequest _ _ (h.readDepot q.depot) (by simp) (by simp) (fun _ _ _ => by simp)).trans rfl, (delayedOrder_keeps Hub.link q.toRequest _ _ (h.readDepot q.depot) (by simp) (by simp) (fun _ _ _ => by simp)).trans rfl, (delayedOrder_keeps Hub.access q.toRequest _ _ (h.readDepot q.depot) (by simp) (by simp) (fun _ _ _ => by simp)).trans rfl, (delayedOrder_keeps Hub.events q.toRequest _ _ (h.readDepot q.depot) (by simp) (by simp) (fun _ _ _ => by simp)).trans rfl, (delayedOrder_keeps Hub.freeCount q.toRequest _ _ (h.readDepot q.depot) (by simp) (by simp) (fun _ _ _ => by simp)).trans rfl⟩

@[simp] theorem Hub.after_storeLock (q : DelayedOrder) (w : Between) (h : Hub) :
    (h.after w (.storeLock q)).clock = h.clock ∧ (h.after w (.storeLock q)).sensing = h.sensing ∧ (h.after
    w (.storeLock q)).path = h.path ∧ (h.after w (.storeLock q)).steering = h.steering ∧ (h.after w (.storeLock
    q)).joints = h.joints ∧ (h.after w (.storeLock q)).brake = h.brake ∧ (h.after w (.storeLock q)).level = h.level
    ∧ (h.after w (.storeLock q)).kneel = h.kneel ∧ (h.after w (.storeLock q)).doors = h.doors ∧ (h.after w (.storeLock
    q)).link = h.link ∧ (h.after w (.storeLock q)).access = h.access ∧ (h.after w (.storeLock q)).events = h.events
    ∧ (h.after w (.storeLock q)).freeCount = h.freeCount := by
  exact ⟨(delayedOrder_keeps Hub.clock q.toRequest _ _ (h.readDepot q.depot) (by simp) (by simp) (fun _ _ _ => by simp)).trans rfl, (delayedOrder_keeps Hub.sensing q.toRequest _ _ (h.readDepot q.depot) (by simp) (by simp) (fun _ _ _ => by simp)).trans rfl, (delayedOrder_keeps Hub.path q.toRequest _ _ (h.readDepot q.depot) (by simp) (by simp) (fun _ _ _ => by simp)).trans rfl, (delayedOrder_keeps Hub.steering q.toRequest _ _ (h.readDepot q.depot) (by simp) (by simp) (fun _ _ _ => by simp)).trans rfl, (delayedOrder_keeps Hub.joints q.toRequest _ _ (h.readDepot q.depot) (by simp) (by simp) (fun _ _ _ => by simp)).trans rfl, (delayedOrder_keeps Hub.brake q.toRequest _ _ (h.readDepot q.depot) (by simp) (by simp) (fun _ _ _ => by simp)).trans rfl, (delayedOrder_keeps Hub.level q.toRequest _ _ (h.readDepot q.depot) (by simp) (by simp) (fun _ _ _ => by simp)).trans rfl, (delayedOrder_keeps Hub.kneel q.toRequest _ _ (h.readDepot q.depot) (by simp) (by simp) (fun _ _ _ => by simp)).trans rfl, (delayedOrder_keeps Hub.doors q.toRequest _ _ (h.readDepot q.depot) (by simp) (by simp) (fun _ _ _ => by simp)).trans rfl, (delayedOrder_keeps Hub.link q.toRequest _ _ (h.readDepot q.depot) (by simp) (by simp) (fun _ _ _ => by simp)).trans rfl, (delayedOrder_keeps Hub.access q.toRequest _ _ (h.readDepot q.depot) (by simp) (by simp) (fun _ _ _ => by simp)).trans rfl, (delayedOrder_keeps Hub.events q.toRequest _ _ (h.readDepot q.depot) (by simp) (by simp) (fun _ _ _ => by simp)).trans rfl, (delayedOrder_keeps Hub.freeCount q.toRequest _ _ (h.readDepot q.depot) (by simp) (by simp) (fun _ _ _ => by simp)).trans rfl⟩

@[simp] theorem Hub.after_blankTest (q : DelayedOrder) (w : Between) (h : Hub) :
    (h.after w (.blankTest q)).clock = h.clock ∧ (h.after w (.blankTest q)).sensing = h.sensing ∧ (h.after
    w (.blankTest q)).path = h.path ∧ (h.after w (.blankTest q)).steering = h.steering ∧ (h.after w (.blankTest
    q)).joints = h.joints ∧ (h.after w (.blankTest q)).brake = h.brake ∧ (h.after w (.blankTest q)).level = h.level
    ∧ (h.after w (.blankTest q)).kneel = h.kneel ∧ (h.after w (.blankTest q)).doors = h.doors ∧ (h.after w (.blankTest
    q)).link = h.link ∧ (h.after w (.blankTest q)).access = h.access ∧ (h.after w (.blankTest q)).events = h.events
    ∧ (h.after w (.blankTest q)).freeCount = h.freeCount := by
  exact ⟨(delayedOrder_keeps Hub.clock q.toRequest _ _ (h.readDepot q.depot) (by simp) (by simp) (fun _ _ _ => by simp)).trans rfl, (delayedOrder_keeps Hub.sensing q.toRequest _ _ (h.readDepot q.depot) (by simp) (by simp) (fun _ _ _ => by simp)).trans rfl, (delayedOrder_keeps Hub.path q.toRequest _ _ (h.readDepot q.depot) (by simp) (by simp) (fun _ _ _ => by simp)).trans rfl, (delayedOrder_keeps Hub.steering q.toRequest _ _ (h.readDepot q.depot) (by simp) (by simp) (fun _ _ _ => by simp)).trans rfl, (delayedOrder_keeps Hub.joints q.toRequest _ _ (h.readDepot q.depot) (by simp) (by simp) (fun _ _ _ => by simp)).trans rfl, (delayedOrder_keeps Hub.brake q.toRequest _ _ (h.readDepot q.depot) (by simp) (by simp) (fun _ _ _ => by simp)).trans rfl, (delayedOrder_keeps Hub.level q.toRequest _ _ (h.readDepot q.depot) (by simp) (by simp) (fun _ _ _ => by simp)).trans rfl, (delayedOrder_keeps Hub.kneel q.toRequest _ _ (h.readDepot q.depot) (by simp) (by simp) (fun _ _ _ => by simp)).trans rfl, (delayedOrder_keeps Hub.doors q.toRequest _ _ (h.readDepot q.depot) (by simp) (by simp) (fun _ _ _ => by simp)).trans rfl, (delayedOrder_keeps Hub.link q.toRequest _ _ (h.readDepot q.depot) (by simp) (by simp) (fun _ _ _ => by simp)).trans rfl, (delayedOrder_keeps Hub.access q.toRequest _ _ (h.readDepot q.depot) (by simp) (by simp) (fun _ _ _ => by simp)).trans rfl, (delayedOrder_keeps Hub.events q.toRequest _ _ (h.readDepot q.depot) (by simp) (by simp) (fun _ _ _ => by simp)).trans rfl, (delayedOrder_keeps Hub.freeCount q.toRequest _ _ (h.readDepot q.depot) (by simp) (by simp) (fun _ _ _ => by simp)).trans rfl⟩

@[simp] theorem Hub.after_apply (q : DelayedOrder) (w : Between) (h : Hub) :
    (h.after w (.apply q)).clock = h.clock ∧ (h.after w (.apply q)).sensing = h.sensing ∧ (h.after w (.apply q)).path
    = h.path ∧ (h.after w (.apply q)).steering = h.steering ∧ (h.after w (.apply q)).joints = h.joints ∧ (h.after
    w (.apply q)).brake = h.brake ∧ (h.after w (.apply q)).level = h.level ∧ (h.after w (.apply q)).kneel = h.kneel ∧
    (h.after w (.apply q)).doors = h.doors ∧ (h.after w (.apply q)).link = h.link ∧ (h.after w (.apply q)).access =
    h.access ∧ (h.after w (.apply q)).events = h.events ∧ (h.after w (.apply q)).freeCount = h.freeCount := by
  exact ⟨(delayedOrder_keeps Hub.clock q.toRequest _ _ (h.readDepot q.depot) (by simp) (by simp) (fun _ _ _ => by simp)).trans rfl, (delayedOrder_keeps Hub.sensing q.toRequest _ _ (h.readDepot q.depot) (by simp) (by simp) (fun _ _ _ => by simp)).trans rfl, (delayedOrder_keeps Hub.path q.toRequest _ _ (h.readDepot q.depot) (by simp) (by simp) (fun _ _ _ => by simp)).trans rfl, (delayedOrder_keeps Hub.steering q.toRequest _ _ (h.readDepot q.depot) (by simp) (by simp) (fun _ _ _ => by simp)).trans rfl, (delayedOrder_keeps Hub.joints q.toRequest _ _ (h.readDepot q.depot) (by simp) (by simp) (fun _ _ _ => by simp)).trans rfl, (delayedOrder_keeps Hub.brake q.toRequest _ _ (h.readDepot q.depot) (by simp) (by simp) (fun _ _ _ => by simp)).trans rfl, (delayedOrder_keeps Hub.level q.toRequest _ _ (h.readDepot q.depot) (by simp) (by simp) (fun _ _ _ => by simp)).trans rfl, (delayedOrder_keeps Hub.kneel q.toRequest _ _ (h.readDepot q.depot) (by simp) (by simp) (fun _ _ _ => by simp)).trans rfl, (delayedOrder_keeps Hub.doors q.toRequest _ _ (h.readDepot q.depot) (by simp) (by simp) (fun _ _ _ => by simp)).trans rfl, (delayedOrder_keeps Hub.link q.toRequest _ _ (h.readDepot q.depot) (by simp) (by simp) (fun _ _ _ => by simp)).trans rfl, (delayedOrder_keeps Hub.access q.toRequest _ _ (h.readDepot q.depot) (by simp) (by simp) (fun _ _ _ => by simp)).trans rfl, (delayedOrder_keeps Hub.events q.toRequest _ _ (h.readDepot q.depot) (by simp) (by simp) (fun _ _ _ => by simp)).trans rfl, (delayedOrder_keeps Hub.freeCount q.toRequest _ _ (h.readDepot q.depot) (by simp) (by simp) (fun _ _ _ => by simp)).trans rfl⟩

@[simp] theorem Hub.after_take (q : Request) (code : Byte) (w : Between) (h : Hub) :
    (h.after w (.take q code)).clock = h.clock ∧ (h.after w (.take q code)).sensing = h.sensing ∧ (h.after w (.take q
    code)).path = h.path ∧ (h.after w (.take q code)).steering = h.steering ∧ (h.after w (.take q code)).joints =
    h.joints ∧ (h.after w (.take q code)).brake = h.brake ∧ (h.after w (.take q code)).level = h.level ∧ (h.after
    w (.take q code)).kneel = h.kneel ∧ (h.after w (.take q code)).doors = h.doors ∧ (h.after w (.take q code)).link =
    h.link ∧ (h.after w (.take q code)).access = h.access ∧ (h.after w (.take q code)).store = h.store ∧ (h.after
    w (.take q code)).freeCount = h.freeCount := by
  exact ⟨exchange_keeps Hub.clock q code h (whenLoaded_keeps _ (fun _ => by simp)) (by simp) (by simp), exchange_keeps Hub.sensing q code h (whenLoaded_keeps _ (fun _ => by simp)) (by simp) (by simp), exchange_keeps Hub.path q code h (whenLoaded_keeps _ (fun _ => by simp)) (by simp) (by simp), exchange_keeps Hub.steering q code h (whenLoaded_keeps _ (fun _ => by simp)) (by simp) (by simp), exchange_keeps Hub.joints q code h (whenLoaded_keeps _ (fun _ => by simp)) (by simp) (by simp), exchange_keeps Hub.brake q code h (whenLoaded_keeps _ (fun _ => by simp)) (by simp) (by simp), exchange_keeps Hub.level q code h (whenLoaded_keeps _ (fun _ => by simp)) (by simp) (by simp), exchange_keeps Hub.kneel q code h (whenLoaded_keeps _ (fun _ => by simp)) (by simp) (by simp), exchange_keeps Hub.doors q code h (whenLoaded_keeps _ (fun _ => by simp)) (by simp) (by simp), exchange_keeps Hub.link q code h (whenLoaded_keeps _ (fun _ => by simp)) (by simp) (by simp), exchange_keeps Hub.access q code h (whenLoaded_keeps _ (fun _ => by simp)) (by simp) (by simp), exchange_keeps Hub.store q code h (whenLoaded_keeps _ (fun _ => by simp)) (by simp) (by simp), exchange_keeps Hub.freeCount q code h (whenLoaded_keeps _ (fun _ => by simp)) (by simp) (by simp)⟩

@[simp] theorem Hub.after_abandon (q : Request) (code : Byte) (w : Between) (h : Hub) :
    (h.after w (.abandon q code)).clock = h.clock ∧ (h.after w (.abandon q code)).sensing = h.sensing ∧ (h.after
    w (.abandon q code)).path = h.path ∧ (h.after w (.abandon q code)).steering = h.steering ∧ (h.after w (.abandon q
    code)).joints = h.joints ∧ (h.after w (.abandon q code)).brake = h.brake ∧ (h.after w (.abandon q code)).level =
    h.level ∧ (h.after w (.abandon q code)).kneel = h.kneel ∧ (h.after w (.abandon q code)).doors = h.doors ∧
    (h.after w (.abandon q code)).link = h.link ∧ (h.after w (.abandon q code)).access = h.access ∧ (h.after
    w (.abandon q code)).events = h.events ∧ (h.after w (.abandon q code)).store = h.store ∧ (h.after w (.abandon q
    code)).freeCount = h.freeCount := by
  exact ⟨exchange_keeps Hub.clock q code h (whenLoaded_keeps _ (fun _ => by simp)) (by simp) (by simp), exchange_keeps Hub.sensing q code h (whenLoaded_keeps _ (fun _ => by simp)) (by simp) (by simp), exchange_keeps Hub.path q code h (whenLoaded_keeps _ (fun _ => by simp)) (by simp) (by simp), exchange_keeps Hub.steering q code h (whenLoaded_keeps _ (fun _ => by simp)) (by simp) (by simp), exchange_keeps Hub.joints q code h (whenLoaded_keeps _ (fun _ => by simp)) (by simp) (by simp), exchange_keeps Hub.brake q code h (whenLoaded_keeps _ (fun _ => by simp)) (by simp) (by simp), exchange_keeps Hub.level q code h (whenLoaded_keeps _ (fun _ => by simp)) (by simp) (by simp), exchange_keeps Hub.kneel q code h (whenLoaded_keeps _ (fun _ => by simp)) (by simp) (by simp), exchange_keeps Hub.doors q code h (whenLoaded_keeps _ (fun _ => by simp)) (by simp) (by simp), exchange_keeps Hub.link q code h (whenLoaded_keeps _ (fun _ => by simp)) (by simp) (by simp), exchange_keeps Hub.access q code h (whenLoaded_keeps _ (fun _ => by simp)) (by simp) (by simp), exchange_keeps Hub.events q code h (whenLoaded_keeps _ (fun _ => by simp)) (by simp) (by simp), exchange_keeps Hub.store q code h (whenLoaded_keeps _ (fun _ => by simp)) (by simp) (by simp), exchange_keeps Hub.freeCount q code h (whenLoaded_keeps _ (fun _ => by simp)) (by simp) (by simp)⟩

@[simp] theorem Hub.after_storeReadCompletion (depot : Bool) (w : Between) (h : Hub) :
    (h.after w (.storeReadCompletion depot)).clock = h.clock ∧ (h.after w (.storeReadCompletion depot)).sensing =
    h.sensing ∧ (h.after w (.storeReadCompletion depot)).path = h.path ∧ (h.after w (.storeReadCompletion
    depot)).joints = h.joints ∧ (h.after w (.storeReadCompletion depot)).access = h.access ∧ (h.after
    w (.storeReadCompletion depot)).freeCount = h.freeCount := by
  simp [Hub.after]

@[simp] theorem Hub.after_storeWriteCompletion (depot : Bool) (w : Between) (h : Hub) :
    (h.after w (.storeWriteCompletion depot)).clock = h.clock ∧ (h.after w (.storeWriteCompletion depot)).sensing =
    h.sensing ∧ (h.after w (.storeWriteCompletion depot)).path = h.path ∧ (h.after w (.storeWriteCompletion
    depot)).joints = h.joints ∧ (h.after w (.storeWriteCompletion depot)).access = h.access ∧ (h.after
    w (.storeWriteCompletion depot)).freeCount = h.freeCount := by
  simp [Hub.after]

@[simp] theorem Hub.after_storeCloseCompletion (depot : Bool) (w : Between) (h : Hub) :
    (h.after w (.storeCloseCompletion depot)).clock = h.clock ∧ (h.after w (.storeCloseCompletion depot)).sensing =
    h.sensing ∧ (h.after w (.storeCloseCompletion depot)).path = h.path ∧ (h.after w (.storeCloseCompletion
    depot)).joints = h.joints ∧ (h.after w (.storeCloseCompletion depot)).access = h.access ∧ (h.after
    w (.storeCloseCompletion depot)).freeCount = h.freeCount := by
  simp [Hub.after]

@[simp] theorem Hub.after_storeLockCompletion (depot : Bool) (w : Between) (h : Hub) :
    (h.after w (.storeLockCompletion depot)).clock = h.clock ∧ (h.after w (.storeLockCompletion depot)).sensing =
    h.sensing ∧ (h.after w (.storeLockCompletion depot)).path = h.path ∧ (h.after w (.storeLockCompletion
    depot)).joints = h.joints ∧ (h.after w (.storeLockCompletion depot)).access = h.access ∧ (h.after
    w (.storeLockCompletion depot)).freeCount = h.freeCount := by
  simp [Hub.after]

@[simp] theorem Hub.after_blankTestCompletion (depot : Bool) (w : Between) (h : Hub) :
    (h.after w (.blankTestCompletion depot)).clock = h.clock ∧ (h.after w (.blankTestCompletion depot)).sensing =
    h.sensing ∧ (h.after w (.blankTestCompletion depot)).path = h.path ∧ (h.after w (.blankTestCompletion
    depot)).joints = h.joints ∧ (h.after w (.blankTestCompletion depot)).access = h.access ∧ (h.after
    w (.blankTestCompletion depot)).freeCount = h.freeCount := by
  simp [Hub.after]

@[simp] theorem Hub.after_storeClearCompletion (depot : Bool) (w : Between) (h : Hub) :
    (h.after w (.storeClearCompletion depot)).clock = h.clock ∧ (h.after w (.storeClearCompletion depot)).sensing =
    h.sensing ∧ (h.after w (.storeClearCompletion depot)).path = h.path ∧ (h.after w (.storeClearCompletion
    depot)).joints = h.joints ∧ (h.after w (.storeClearCompletion depot)).access = h.access ∧ (h.after
    w (.storeClearCompletion depot)).freeCount = h.freeCount := by
  simp [Hub.after]

@[simp] theorem Hub.after_applyCompletion (depot : Bool) (w : Between) (h : Hub) :
    (h.after w (.applyCompletion depot)).clock = h.clock ∧ (h.after w (.applyCompletion depot)).sensing = h.sensing
    ∧ (h.after w (.applyCompletion depot)).path = h.path ∧ (h.after w (.applyCompletion depot)).joints = h.joints ∧
    (h.after w (.applyCompletion depot)).access = h.access ∧ (h.after w (.applyCompletion depot)).freeCount =
    h.freeCount := by
  simp [Hub.after]

end Sys2Proof.Machine
end

