-- ==== Sys2Proof/Laws/Requests.lean ====
section
/-! SUPPORT. What a request comes to at its port, by the step of R151 that answers it: one lemma per step. -/

namespace Sys2Proof.Machine

/-- The part at the moment a request's frame is judged: its bytes are clocked and the frame is counted. -/
def Hub.judged (q : Request) (h : Hub) : Hub := h.clockFrame q.port (clockedBytes q)

@[simp] theorem Hub.judged_loaded (q : Request) (h : Hub) : (h.judged q).clock = h.clock := by simp [Hub.judged]
@[simp] theorem Hub.judged_sensing (q : Request) (h : Hub) : (h.judged q).sensing = h.sensing := by simp [Hub.judged]
@[simp] theorem Hub.judged_path (q : Request) (h : Hub) : (h.judged q).path = h.path := by simp [Hub.judged]
@[simp] theorem Hub.judged_steering (q : Request) (h : Hub) : (h.judged q).steering = h.steering := by simp [Hub.judged]
@[simp] theorem Hub.judged_joints (q : Request) (h : Hub) : (h.judged q).joints = h.joints := by simp [Hub.judged]
@[simp] theorem Hub.judged_brake (q : Request) (h : Hub) : (h.judged q).brake = h.brake := by simp [Hub.judged]
@[simp] theorem Hub.judged_level (q : Request) (h : Hub) : (h.judged q).level = h.level := by simp [Hub.judged]
@[simp] theorem Hub.judged_kneel (q : Request) (h : Hub) : (h.judged q).kneel = h.kneel := by simp [Hub.judged]
@[simp] theorem Hub.judged_doors (q : Request) (h : Hub) : (h.judged q).doors = h.doors := by simp [Hub.judged]
@[simp] theorem Hub.judged_link (q : Request) (h : Hub) : (h.judged q).link = h.link := by simp [Hub.judged]
@[simp] theorem Hub.judged_access (q : Request) (h : Hub) : (h.judged q).access = h.access := by simp [Hub.judged]
@[simp] theorem Hub.judged_events (q : Request) (h : Hub) : (h.judged q).events = h.events := by simp [Hub.judged]
@[simp] theorem Hub.judged_store (q : Request) (h : Hub) : (h.judged q).store = h.store := by simp [Hub.judged]
@[simp] theorem Hub.judged_freeCount (q : Request) (h : Hub) : (h.judged q).freeCount = h.freeCount := by
  simp [Hub.judged]
@[simp] theorem Hub.judged_dir (q : Request) (h : Hub) : (h.judged q).pins.dir = h.pins.dir := by
  simp [Hub.judged, Hub.clockFrame, Hub.onPort]
@[simp] theorem Hub.judged_depot (q : Request) (h : Hub) : (h.judged q).pins.depot = h.pins.depot := by
  simp [Hub.judged, Hub.clockFrame, Hub.onPort]
@[simp] theorem Hub.judged_port (q : Request) (h : Hub) :
    (h.judged q).port q.port = { h.port q.port with frames := (h.port q.port).frames + 1 } := by
  simp [Hub.judged, Hub.clockFrame, Hub.onPort, Hub.port]
theorem Hub.judged_other (q : Request) (h : Hub) {p : Port} (hp : p ≠ q.port) : (h.judged q).port p = h.port p := by
  simp [Hub.judged, Hub.clockFrame, Hub.onPort, Hub.port, hp]

/-- The judged frame with its answer. -/
theorem Hub.judged_reply (q : Request) (code : Byte) (a : Answer) (h : Hub) :
    (h.judged q).reply q.port code q.tag a = h.answered q code a := by
  simp only [Hub.judged, Hub.reply, Hub.clockFrame, Hub.answered, Hub.onPort, Hub.onPorts, Hub.onPins, Hub.port, clockedBytes]
  cases q.port <;> rfl

/-- Any answer is given to the judged frame. -/
theorem Hub.exchange_eq (q : Request) (code : Byte) (f : Service) (h : Hub) :
    h.exchange q code f = (f (h.judged q)).1.reply q.port code q.tag (f (h.judged q)).2 := rfl

/-- A service that answers `a` and changes nothing. -/
theorem Hub.exchange_answers (q : Request) (code : Byte) {f : Service} {a : Answer} (h : Hub)
    (hf : f (h.judged q) = (h.judged q, a)) : h.exchange q code f = h.answered q code a := by
  rw [Hub.exchange_eq, hf, Hub.judged_reply]

theorem whenLoaded_loaded {f : Service} {h : Hub} (hl : h.clock.loaded = true) : whenLoaded f h = f h := by
  simp [whenLoaded, hl]

theorem whenLoaded_starting {f : Service} {h : Hub} (hl : h.clock.loaded = false) :
    whenLoaded f h = (h, .plain .starting) := by
  simp [whenLoaded, hl]

theorem whenAllowed_held {f : Service} {p : Port} {c : AccessClass} {h : Hub} (hh : h.holds p c = true) :
    whenAllowed p c f h = f h := by
  simp [whenAllowed, hh]

theorem whenUnposted_empty {f : Service} {p : Port} {h : Hub} (hp : (h.port p).posted = none) :
    whenUnposted p f h = f h := by
  simp [whenUnposted, hp]

theorem Hub.admits_loaded {h : Hub} {p : Port} {c : AccessClass} (ha : h.admits p c = true) : h.clock.loaded = true := by
  simp only [Hub.admits, Bool.and_eq_true] at ha; exact ha.1

theorem Hub.admits_holds {h : Hub} {p : Port} {c : AccessClass} (ha : h.admits p c = true) : h.holds p c = true := by
  simp only [Hub.admits, Bool.and_eq_true] at ha; exact ha.2

@[simp] theorem Hub.judged_holds (q : Request) (h : Hub) (p : Port) (c : AccessClass) :
    (h.judged q).holds p c = h.holds p c := by
  simp [Hub.holds]

/-- Before the load (R151, step 3). -/
theorem Hub.exchange_starting (q : Request) (code : Byte) (f : Service) {h : Hub} (hl : h.clock.loaded = false) :
    h.exchange q code (whenLoaded f) = h.answered q code (.plain .starting) :=
  Hub.exchange_answers q code h (whenLoaded_starting (by simpa using hl))

/-- An order without its class (R151, step 6). -/
theorem Hub.exchange_denied (q : Request) (code : Byte) (c : AccessClass) (f : Service) {h : Hub}
    (hl : h.clock.loaded = true) (hh : h.holds q.port c = false) :
    h.exchange q code (whenLoaded (whenAllowed q.port c f)) =
      (h.answered q code (.plain .denied)).onPort q.port fun u => { u with denied := u.denied + 1 } := by
  rw [Hub.exchange_eq, whenLoaded_loaded (by simpa using hl)]
  simp only [whenAllowed, Hub.judged_holds, hh, Bool.false_eq_true, if_false]
  rw [← Hub.judged_reply]
  simp only [Hub.reply, Hub.onPort, Hub.onPorts]
  cases q.port <;> rfl

/-- An order that is taken (R151, step 8). -/
theorem Hub.order_taken (q : Request) (code : Byte) (c : AccessClass) (f : Service) {h : Hub}
    (ha : h.admits q.port c = true) :
    h.order q code c f = (f (h.judged q)).1.reply q.port code q.tag (f (h.judged q)).2 := by
  rw [Hub.order, Hub.exchange_eq, whenLoaded_loaded (by simpa using h.admits_loaded ha),
    whenAllowed_held (by simpa using h.admits_holds ha)]

/-- A FETCH that is taken (R151, step 8). -/
theorem Hub.fetch_taken (q : Request) (code : Byte) (f : Service) {h : Hub} (ha : h.admits q.port .status = true)
    (hp : (h.port q.port).posted = none) :
    h.fetch q code f = (f (h.judged q)).1.reply q.port code q.tag (f (h.judged q)).2 := by
  rw [Hub.fetch, Hub.exchange_eq, whenLoaded_loaded (by simpa using h.admits_loaded ha),
    whenAllowed_held (by simpa using h.admits_holds ha), whenUnposted_empty (by simpa using hp)]

/-- A FETCH or POST at an OCCUPIED posted buffer (R151, step 7). -/
theorem Hub.exchange_retry (q : Request) (code : Byte) (c : AccessClass) (f : Service) {h : Hub}
    (ha : h.admits q.port c = true) (hp : (h.port q.port).posted ≠ none) :
    h.exchange q code (whenLoaded (whenAllowed q.port c (whenUnposted q.port f))) = h.answered q code (.plain .retry) := by
  refine Hub.exchange_answers q code h ?_
  rw [whenLoaded_loaded (by simpa using h.admits_loaded ha), whenAllowed_held (by simpa using h.admits_holds ha)]
  simp [whenUnposted, Option.isSome_iff_ne_none, hp]

/-- A delayed order that repeats the held request (R151, step 5). -/
theorem Hub.delayedOrder_repeats (q : Request) (code : Byte) (judge : Hub → Except Reason StoreOp) {h : Hub}
    (hl : h.clock.loaded = true) (hr : (h.port q.port).slot.repeats code q.tag = true) :
    h.delayedOrder q code judge =
      (serveRepetition q.port (h.judged q)).1.reply q.port code q.tag (serveRepetition q.port (h.judged q)).2 := by
  rw [Hub.delayedOrder, Hub.exchange_eq, whenLoaded_loaded (by simpa using hl)]
  simp only [Hub.judged_port, hr, if_true]

/-- A delayed order that is no repetition is judged like an order (R151, steps 6 and 8; R153). -/
theorem Hub.delayedOrder_new (q : Request) (code : Byte) (judge : Hub → Except Reason StoreOp) {h : Hub}
    (hl : h.clock.loaded = true) (hr : (h.port q.port).slot.repeats code q.tag = false) :
    h.delayedOrder q code judge =
      h.exchange q code (whenLoaded (whenAllowed q.port .calibration fun h =>
        match judge h with
        | .ok op => serveDelayed q op h
        | .error r => (h, .refused r []))) := by
  rw [Hub.delayedOrder, Hub.exchange_eq, Hub.exchange_eq, whenLoaded_loaded (by simpa using hl),
    whenLoaded_loaded (by simpa using hl)]
  simp only [Hub.judged_port, hr, Bool.false_eq_true, if_false] <;> rfl

end Sys2Proof.Machine
end

