-- ==== Sys2Proof/Laws/Events.lean ====
section
/-! SUPPORT. The event queues under a raise: what an entry can be afterwards, and that the form is kept (R161 to
R163). -/

namespace Sys2Proof.Machine

/-- An entry of a queue after a raise: an old one, its count raised at most, or the new one (R162). -/
theorem placeEvent_mem {now : Word} {kind : EventKind} {sb : Nat} {v : Half} {l : List EventEntry} {e : EventEntry}
    (he : e ∈ placeEvent now kind sb v l) :
    (∃ x ∈ l, e.kind = x.kind ∧ e.subject = x.subject ∧ (e.count = x.count ∨ e.count = min 255 (x.count + 1))) ∨
    (e.kind = kind ∧ e.subject = sb ∧ e.count = 1) := by
  induction l with
  | nil => simp [placeEvent] at he; subst he; right; simp
  | cons x xs ih =>
    simp only [placeEvent] at he
    split at he
    · rcases List.mem_cons.mp he with rfl | he
      · left; exact ⟨x, by simp, rfl, rfl, .inr rfl⟩
      · left; exact ⟨e, by simp [he], rfl, rfl, .inl rfl⟩
    · rcases List.mem_cons.mp he with rfl | he
      · left; exact ⟨e, by simp, rfl, rfl, .inl rfl⟩
      · rcases ih he with ⟨y, hy, h⟩ | h
        · left; exact ⟨y, by simp [hy], h⟩
        · exact .inr h

/-- A raise keeps one entry per kind and subject (R162). -/
theorem placeEvent_distinct {now : Word} {kind : EventKind} {sb : Nat} {v : Half} {l : List EventEntry}
    (h : l.Pairwise fun a b => ¬(a.kind = b.kind ∧ a.subject = b.subject)) :
    (placeEvent now kind sb v l).Pairwise fun a b => ¬(a.kind = b.kind ∧ a.subject = b.subject) := by
  induction l with
  | nil => simp [placeEvent]
  | cons x xs ih =>
    rw [List.pairwise_cons] at h
    simp only [placeEvent]
    split
    · next hx => rw [List.pairwise_cons]; exact ⟨h.1, h.2⟩
    · next hx =>
      rw [List.pairwise_cons]
      refine ⟨fun e he => ?_, ih h.2⟩
      rcases placeEvent_mem he with ⟨y, hy, hk, hs, -⟩ | ⟨hk, hs, -⟩
      · rw [hk, hs]; exact h.1 y hy
      · rw [hk, hs]; exact hx

/-- A raise about a subject of its kind keeps the event unit's form (R161 to R163). -/
theorem EventUnit.raise_inv {u : EventUnit} (now : Word) (kind : EventKind) (sb : Nat) (v : Half)
    (hs : sb ∈ subjectsOf kind) (h : u.Inv) : (u.raise now kind sb v).Inv := by
  refine ⟨?_, ?_, ?_⟩
  · intro p
    simp only [EventUnit.raise, PerPort.get_tab]
    split
    · next hp => 
      simp only [hp, Bool.true_or]
      cases hq : placeEvent now kind sb v (u.queues.get p) with
      | nil => cases hl : u.queues.get p <;> simp [hl, placeEvent] at hq; split at hq <;> simp at hq
      | cons => rfl
    · next hp => simp only [hp, Bool.false_or]; exact h.attention p
  · intro p
    simp only [EventUnit.raise, PerPort.get_tab]
    split
    · exact placeEvent_distinct (h.distinct p)
    · exact h.distinct p
  · intro p e he
    simp only [EventUnit.raise, PerPort.get_tab] at he
    split at he
    · rcases placeEvent_mem he with ⟨y, hy, hk, hs, hc⟩ | ⟨hk, hs, hc⟩
      · have := h.entries p y hy
        rw [hk, hs]; refine ⟨by omega, by omega, this.2.2⟩
      · rw [hk, hs, hc]; exact ⟨by omega, by omega, by assumption⟩
    · exact h.entries p e he

/-- A unit's raise keeps the event unit's form. -/
theorem Hub.raise_events_inv {h : Hub} (kind : EventKind) (sb : Nat) (v : Int) (hs : sb ∈ subjectsOf kind)
    (he : h.events.Inv) : (h.raise kind sb v).events.Inv := EventUnit.raise_inv _ _ _ _ hs he

/-- A TAKE keeps the event unit's form (R163). -/
theorem EventUnit.removeOldest_inv {u : EventUnit} (p : Port) (n : Nat) (h : u.Inv) : (u.removeOldest p n).Inv := by
  have hq (q : Port) : ((u.removeOldest p n).queues.get q) =
      if q = p then (u.queues.get p).drop n else u.queues.get q := by
    by_cases hp : q = p
    · subst hp; simp [EventUnit.removeOldest]
    · simp [EventUnit.removeOldest, hp]
  refine ⟨fun q => ?_, fun q => ?_, fun q e he => ?_⟩
  · rw [hq]
    by_cases hp : q = p
    · subst hp; simp [EventUnit.removeOldest]
    · simpa [EventUnit.removeOldest, hp] using h.attention q
  · rw [hq]
    split
    · exact (h.distinct p).sublist (List.drop_sublist n _)
    · exact h.distinct q
  · rw [hq] at he
    split at he
    · exact h.entries p e (List.mem_of_mem_drop he)
    · exact h.entries q e he

end Sys2Proof.Machine
end

