-- ==== Sys2Proof/Laws/Loading.lean ====
section
/-! SUPPORT. The load of a sector, item by item (R169). -/

namespace Sys2Proof.Machine

/-- The item loaded for a home slot (R169). -/
theorem loadItems_get (sec : Sector) (specs : List ItemSpec) (n i : Nat) :
    (loadItems sec n specs)[i]? = (specs[i]?).map fun spec => loadItem spec (slotContent sec.slots (n + i)) := by
  induction specs generalizing n i with
  | nil => simp [loadItems]
  | cons sp rest ih =>
    cases i with
    | zero => simp [loadItems]
    | succ i => simp [loadItems, ih, show n + 1 + i = n + (i + 1) by omega]

/-- Every built-in default lies in its item's range. -/
theorem itemSpecs_default_in_range : ∀ (k : SectorId) (i : Nat) (spec : ItemSpec),
    (itemSpecs k)[i]? = some spec → spec.lo ≤ spec.default ∧ spec.default ≤ spec.hi := by
  intro k
  have h : (itemSpecs k).all (fun spec => decide (spec.lo ≤ spec.default ∧ spec.default ≤ spec.hi)) = true := by
    cases k <;> decide
  intro i spec hs
  have := List.all_eq_true.mp h spec (List.mem_of_getElem? hs)
  simpa using this

/-- What a loaded item can be: in its range, the default for an EMPTY slot, the stored value where it is STORED (R169). -/
theorem loadItem_cases (spec : ItemSpec) (c : Option SlotContent) (h : spec.lo ≤ spec.default ∧ spec.default ≤ spec.hi) :
    spec.lo ≤ (loadItem spec c).value ∧ (loadItem spec c).value ≤ spec.hi ∧
    (c = none → (loadItem spec c).value = spec.default) ∧
    ∀ v, c = some (.written v) → (loadItem spec c).source = .stored → (loadItem spec c).value = spec.read v := by
  unfold loadItem
  split
  · next v =>
    dsimp only
    split
    · next h => exact ⟨h.1, h.2, by simp, by simp⟩
    · next h2 =>
      refine ⟨?_, ?_, by simp, by simp⟩ <;> simp [clampTo] <;> split <;> omega
  · next h2 =>
    refine ⟨h.1, h.2, by simp [ItemSpec.builtIn], ?_⟩
    intro v hv; exact absurd hv (h2 v)

end Sys2Proof.Machine
end

