-- ==== Sys2Proof/Laws/PathMemory.lean ====
section
/-! SUPPORT. The path memory keeps its form: a push, a pop and a discard each keep the relations of R20. -/

namespace Sys2Proof.Machine

theorem PathMemory.discard_inv {p : PathMemory} (h : p.Inv) : p.discard.Inv ∧ (p.samples ≠ [] → p.discard.samples.length + 1 = p.samples.length) := by
  unfold PathMemory.discard
  obtain ⟨h1, h2, h3, h4⟩ := h
  cases hx : p.samples.getLast? with
  | none => 
    simp at hx
    exact ⟨⟨h1,h2,h3,h4⟩, fun h => absurd hx h⟩
  | some x =>
    have hne : p.samples ≠ [] := by rintro h; simp [h] at hx
    have hs : p.samples = p.samples.dropLast ++ [x] := by
      rw [List.getLast?_eq_some_getLast hne] at hx; injection hx with hx; rw [← hx]; exact (List.dropLast_append_getLast hne).symm
    refine ⟨⟨?_, h2, ?_, ?_⟩, ?_⟩
    · simp; omega
    · intro i y hy
      simp only at hy
      apply h3 i y
      rw [List.getElem?_dropLast] at hy
      split at hy
      · exact hy
      · cases hy
    · simp only
      rw [h4]; conv_lhs => rw [hs]
      cases ha : x.angle <;> simp [Sample.absence, List.filter_append, ha]
    · intro _; have := List.length_pos_iff.mpr hne; simp; omega

theorem PathMemory.push_inv {p : PathMemory} (angle : Option Int) (h : p.Inv) : (p.push angle).Inv := by
  have key : ∀ room : PathMemory, room.Inv → room.samples.length < 256 → room.pushCount = p.pushCount → room.r = p.r →
     PathMemory.Inv { room with samples := ⟨p.pushCount + 1, angle⟩ :: room.samples, pushCount := p.pushCount + 1, absent := room.absent + Sample.absence ⟨p.pushCount + 1, angle⟩ } := by
    intro room hr hl hc hr2
    refine ⟨by simp; omega, by simpa using hr.r, ?_, ?_⟩
    · intro i x hx
      cases i with
      | zero => simp at hx; subst hx; simp
      | succ i =>
        simp at hx
        rw [hr.index i x hx, hc, BitVec.ofNat_add]
        bv_omega
    · simp only
      rw [hr.absent]
      cases angle <;> simp [Sample.absence]
  unfold PathMemory.push
  dsimp only
  split
  · next hc =>
    have hd := PathMemory.discard_inv h
    have hne : p.samples ≠ [] := by rintro h; simp [h, pathCapacity] at hc
    have := hd.2 hne
    apply key _ hd.1
    · have := h.depth; omega
    · unfold discard; split <;> rfl
    · unfold discard; split <;> rfl
  · next hc => exact key _ h (by simp [pathCapacity] at hc; omega) rfl rfl

theorem PathMemory.pushes_inv {p : PathMemory} (angle : Option Int) (n : Nat) (h : p.Inv) : (p.pushes angle n).Inv := by
  induction n generalizing p with
  | zero => exact h
  | succ n ih => exact ih (push_inv angle h)

theorem PathMemory.forward_inv {p : PathMemory} (angle : Option Int) (w : Nat) (h : p.Inv) : (p.forward angle w).Inv := by
  have := pushes_inv angle ((p.r + w) / 1000) h
  exact ⟨this.depth, by simp [forward]; omega, this.index, this.absent⟩

theorem popWhileNegative_inv (xs : List Sample) (r : Int) (count : Word) (absent : Nat)
    (hi : ∀ i x, xs[i]? = some x → x.index = count - BitVec.ofNat 32 i)
    (ha : absent = (xs.filter fun x => x.angle.isNone).length) (hr : r ≤ 999) :
    let out := popWhileNegative xs r count absent
    out.1.length ≤ xs.length ∧ out.2.1 ≤ 999 ∧ (∀ i x, out.1[i]? = some x → x.index = out.2.2.1 - BitVec.ofNat 32 i) ∧
      out.2.2.2 = (out.1.filter fun x => x.angle.isNone).length := by
  induction xs generalizing r count absent with
  | nil => exact ⟨le_refl _, hr, hi, ha⟩
  | cons x xs ih =>
    simp only [popWhileNegative]
    split
    · next hneg =>
      have := ih (r + 1000) (count - 1) (absent - x.absence) ?_ ?_ (by omega)
      · exact ⟨this.1.trans (by simp), this.2⟩
      · intro i y hy
        have := hi (i + 1) y (by simpa using hy)
        rw [this, BitVec.ofNat_add]; bv_omega
      · rw [ha]; cases hx : x.angle <;> simp [Sample.absence, hx]
    · exact ⟨le_refl _, hr, hi, ha⟩

theorem PathMemory.backward_inv {p : PathMemory} (w : Nat) (h : p.Inv) : (p.backward w).1.Inv := by
  have := popWhileNegative_inv p.samples ((p.r : Int) - w) p.pushCount p.absent h.index h.absent (by have := h.r; omega)
  unfold backward
  revert this
  rcases hp : popWhileNegative p.samples ((p.r : Int) - w) p.pushCount p.absent with ⟨a, b, c, d⟩
  intro this
  simp only at this ⊢
  have h1 := h.depth
  split
  · exact ⟨by simp only; omega, by simp, this.2.2.1, this.2.2.2⟩
  · exact ⟨by simp only; omega, by simp only; omega, this.2.2.1, this.2.2.2⟩

theorem Hub.pathIncrement_inv {h : Hub} (dir : Direction) (w : Nat) (hp : h.path.Inv) : (h.pathIncrement dir w).path.Inv := by
  cases dir
  · exact PathMemory.forward_inv _ _ hp
  · have := PathMemory.backward_inv w hp
    unfold pathIncrement
    rcases hb : h.path.backward w with ⟨a, b⟩
    rw [hb] at this
    dsimp only
    split
    · exact this
    · simpa using this

theorem PathMemory.atReset_inv : PathMemory.atReset.Inv := by
  constructor <;> simp [PathMemory.atReset]

end Sys2Proof.Machine
end

