-- ==== Sys2Proof/Laws/Store.lean ====
section
/-! SUPPORT. The calibration store as a memory: a slot reads what was put there, every other slot as before, and every
operation keeps the sectors in their one form (R166). -/

namespace Sys2Proof.Machine

/-! ## Slots -/

/-- What a slot's replacement can bring into the list. -/
theorem putSlot_mem {slot : Nat} {c : SlotContent} {l : List (Nat × SlotContent)} {x : Nat × SlotContent}
    (h : x ∈ putSlot slot c l) : x = (slot, c) ∨ x ∈ l := by
  induction l with
  | nil => simpa [putSlot] using h
  | cons y ys ih =>
    simp only [putSlot] at h
    split at h
    · simpa using h
    · split at h
      · rcases List.mem_cons.mp h with rfl | h
        · exact .inl rfl
        · exact .inr (List.mem_cons_of_mem _ h)
      · rcases List.mem_cons.mp h with rfl | h
        · exact .inr List.mem_cons_self
        · exact (ih h).imp_right (List.mem_cons_of_mem _)

/-- A slot just put reads its content. -/
@[simp] theorem slotContent_putSlot_same (slot : Nat) (c : SlotContent) (l : List (Nat × SlotContent)) :
    slotContent (putSlot slot c l) slot = some c := by
  induction l with
  | nil => simp [putSlot, slotContent]
  | cons y ys ih =>
    simp only [putSlot]
    split
    · simp [slotContent]
    · split
      · simp [slotContent]
      · next h => simp [slotContent, Ne.symm h, ih]

/-- Every other slot reads as before. -/
theorem slotContent_putSlot_other {slot other : Nat} (c : SlotContent) (l : List (Nat × SlotContent)) (h : other ≠ slot) :
    slotContent (putSlot slot c l) other = slotContent l other := by
  induction l with
  | nil => simp [putSlot, slotContent, Ne.symm h]
  | cons y ys ih =>
    simp only [putSlot]
    split
    · simp [slotContent, Ne.symm h]
    · split
      · next hy => simp [slotContent, Ne.symm h, ← hy]
      · simp [slotContent, ih]

/-- The slot numbers rise still. -/
theorem putSlot_sorted {slot : Nat} (c : SlotContent) {l : List (Nat × SlotContent)}
    (h : l.Pairwise fun a b => a.1 < b.1) : (putSlot slot c l).Pairwise fun a b => a.1 < b.1 := by
  induction l with
  | nil => simp [putSlot]
  | cons y ys ih =>
    rw [List.pairwise_cons] at h
    simp only [putSlot]
    split
    · next hlt =>
      refine List.pairwise_cons.mpr ⟨fun z hz => ?_, List.pairwise_cons.mpr h⟩
      rcases List.mem_cons.mp hz with rfl | hz
      · exact hlt
      · exact hlt.trans (h.1 z hz)
    · split
      · next heq => exact List.pairwise_cons.mpr ⟨fun z hz => heq ▸ h.1 z hz, h.2⟩
      · next hge hne =>
        refine List.pairwise_cons.mpr ⟨fun z hz => ?_, ih h.2⟩
        rcases putSlot_mem hz with rfl | hz
        · show y.1 < slot
          omega
        · exact h.1 z hz

/-- A slot below every slot of the list reads EMPTY. -/
theorem slotContent_below {i : Nat} {l : List (Nat × SlotContent)} (h : ∀ x ∈ l, i < x.1) : slotContent l i = none := by
  induction l with
  | nil => rfl
  | cons y ys ih =>
    have hy := h y List.mem_cons_self
    simp only [slotContent]
    rw [if_neg (by omega)]
    exact ih fun x hx => h x (List.mem_cons_of_mem _ hx)

/-- A list of rising slots holds, in order, what its slots read. -/
theorem slots_eq_range {l : List (Nat × SlotContent)} {m n : Nat} (h : l.Pairwise fun a b => a.1 < b.1)
    (hm : ∀ x ∈ l, m ≤ x.1 ∧ x.1 < m + n) :
    ((List.range' m n).filterMap fun i => (slotContent l i).map fun c => (i, c)) = l := by
  induction n generalizing l m with
  | zero =>
    cases l with
    | nil => rfl
    | cons y ys => have := hm y List.mem_cons_self; omega
  | succ n ih =>
    rw [List.range'_succ, List.filterMap_cons]
    match l with
    | [] => simp [slotContent]
    | (a, c) :: rest =>
      rw [List.pairwise_cons] at h
      by_cases ha : a = m
      · subst ha
        simp only [slotContent, if_true, Option.map_some]
        congr 1
        refine Eq.trans (List.filterMap_congr fun i hi => ?_) (ih h.2 fun x hx => ?_)
        · have := (List.mem_range'_1.mp hi).1
          rw [if_neg (by omega)]
        · have := h.1 x hx
          have := (hm x (List.mem_cons_of_mem _ hx)).2
          simp only at *
          omega
      · have hlow : ∀ x ∈ (a, c) :: rest, m < x.1 := by
          intro x hx
          have h0 := (hm (a, c) List.mem_cons_self).1
          rcases List.mem_cons.mp hx with rfl | hx
          · simp only at *; omega
          · have := h.1 x hx; simp only at *; omega
        rw [slotContent_below hlow]
        refine ih (List.pairwise_cons.mpr h) fun x hx => ?_
        have := hlow x hx
        have := (hm x hx).2
        omega

/-! ## Sectors -/

/-- A sector in its form holds, in order, what its slots 0 to 30 read (R166). -/
theorem Sector.slots_eq {x : Sector} (h : x.wf = true) :
    ((List.range 31).filterMap fun i => (slotContent x.slots i).map fun c => (i, c)) = x.slots := by
  simp only [Sector.wf, Bool.and_eq_true, decide_eq_true_eq, List.all_eq_true] at h
  rw [List.range_eq_range']
  exact slots_eq_range h.1 fun y hy => by have := h.2 y hy; omega

/-- A write of a slot 0 to 30 keeps a sector's form. -/
theorem Sector.wf_putSlot {x : Sector} (h : x.wf = true) {slot : Nat} (hs : slot ≤ 30) (c : SlotContent) :
    ({ x with slots := putSlot slot c x.slots } : Sector).wf = true := by
  simp only [Sector.wf, Bool.and_eq_true, decide_eq_true_eq, List.all_eq_true] at h ⊢
  refine ⟨putSlot_sorted c h.1, fun z hz => ?_⟩
  rcases putSlot_mem hz with rfl | hz
  · exact hs
  · exact h.2 z hz

/-- The mark and the flags are no part of a sector's form. -/
@[simp] theorem Sector.wf_fields (x : Sector) (mark : Mark) (lock clearing : Bool) :
    (Sector.mk x.slots mark lock clearing).wf = x.wf := rfl

/-- A cleared sector has its form. -/
@[simp] theorem Sector.wf_cleared (mark : Mark) (lock clearing : Bool) : (Sector.mk [] mark lock clearing).wf = true := rfl

/-- The store of a part as delivered, and so of the power-on reset, has its form (log entry 5). -/
theorem reset_sectors_wf (k : SectorId) : (State.reset.hub.sector k).wf = true := by cases k <;> rfl

/-- Every sector of the part is in its form. -/
def Hub.sectorsWf (h : Hub) : Prop := ∀ k, (h.sector k).wf = true

/-- An update of one sector that keeps its form. -/
theorem Hub.onSector_wf {h : Hub} (hw : h.sectorsWf) (k : SectorId) (g : Sector → Sector)
    (hg : (g (h.sector k)).wf = true) : (h.onSector k g).sectorsWf := by
  intro j
  by_cases hj : j = k
  · subst hj; simpa [Hub.onSector, Hub.sector] using hg
  · simpa [Hub.onSector, Hub.sector, hj] using hw j

/-- Whether an operation writes a slot that is one: 0 to 30. -/
def StoreOp.writable : StoreOp → Prop
  | .write _ slot _ => slot ≤ 30
  | .read _ _ | .clear _ | .close _ | .lock _ | .blank _ | .apply => True

/-- An operation's start keeps the sectors' form (R166, R167). -/
theorem Hub.beginWork_wf {h : Hub} (hw : h.sectorsWf) {op : StoreOp} (ho : op.writable) :
    (h.beginWork op).sectorsWf := by
  cases op with
  | write k slot v => exact Hub.onSector_wf hw k _ (Sector.wf_putSlot (hw k) ho _)
  | close k => exact Hub.onSector_wf hw k _ (hw k)
  | clear k => exact Hub.onSector_wf hw k _ (hw k)
  | read | lock | blank | apply => exact hw

/-- An operation's end keeps the sectors' form (R166, R167). -/
theorem Hub.finishWork_wf {h : Hub} (hw : h.sectorsWf) {r : RunningOp} (ho : r.op.writable) :
    (h.finishWork r).1.sectorsWf := by
  unfold Hub.finishWork
  split
  · exact hw
  · next k slot v hr => rw [hr] at ho; exact Hub.onSector_wf hw k _ (Sector.wf_putSlot (hw k) ho _)
  · next k hr => exact Hub.onSector_wf hw k _ (hw k)
  · next k hr => exact Hub.onSector_wf hw k _ (hw k)
  · exact hw
  · next k hr => exact Hub.onSector_wf hw k _ rfl
  · split
    · intro k
      have : h.installApply.store.sectors = h.store.sectors := by simp [Hub.installApply, Hub.installLoad, Hub.onStore]
      simpa [Hub.sector, this] using hw k
    · exact hw

end Sys2Proof.Machine
end

