-- ==== Sys2Proof/Tests/Slice0.lean ====
section
/-! SUPPORT. Tests: expected results from the manual's worked examples and rules, refusals of ill-formed commands, and
for every statement of Certificates/Slice0/Obligations.lean a state and operands that meet its hypotheses. -/

namespace Sys2Proof.Tests

open Sys2Proof.Machine

set_option Elab.async false

/-! ## States and requests to test on -/

/-- A request from Port S, which the built-in map gives every class. -/
def req (payload : List Byte) : Request := ⟨.s, 0x07#8, payload, 0⟩

/-- The same request with the DEPOT line's level at its frame (log entry 8). -/
def order (payload : List Byte) : DelayedOrder := ⟨req payload, false⟩

/-- The part after its first load with an erased store, every door closed and locked, at standstill. -/
def loaded : Hub :=
  { Hub.atPowerOn with
    clock := ⟨0, 0, true, .stopped⟩
    sensing := { Sensing.atReset with standstill := .yes }
    access := { Access.atPowerOn with owed := false }
    doors :=
      { DoorUnit.atReset with
        doors := .fill { DoorHold.atReset with
          raw := ⟨true, true, false⟩, debounced := ⟨true, true, false⟩, position := .closedLocked, enabled := true } }
    store := { Store.asDelivered with active := .tab fun k => (loadSector k .erased).1 } }

/-- The part 2 ms after a power-on reset, the load due. -/
def loading : Hub := { Hub.atPowerOn with clock := { Clock.atReset with load := .running 20 } }

/-- A state with no command waiting. -/
def on (h : Hub) : State := ⟨h, []⟩

/-- The part after a command. -/
def run (c : Instr) (h : Hub) : Hub :=
  match exec c (on h) with
  | .next s => s.hub
  | .fault _ | .refused _ => h

/-- The answer of a request on Port S, its pending reply. -/
def answer (c : Instr) (h : Hub) : Reply := ((run c h).port .s).pending

/-- An answer to `req`. -/
def reply (status : Status) (code : Byte) (payload : List Byte) : Reply := ⟨status, code, 0x07#8, payload⟩

/-- The loaded part with the halt brake in a state. -/
def halted (x : HaltState) : Hub := { loaded with brake := { Brake.atReset with halt := x } }

/-- The loaded part with the store working for Port S. -/
def storing (op : StoreOp) (elapsed : Nat) (clearLock : Bool) : Hub :=
  { loaded with
    store := { loaded.store with running := some ⟨op, .s, elapsed, clearLock⟩ }
    ports := loaded.ports.set .s { loaded.port .s with slot := .running ⟨op, 0x07#8, []⟩ } }

/-- The loaded part with a request in Port S's delayed slot. -/
def slotted (x : DelayedSlot) : Hub :=
  { loaded with ports := loaded.ports.set .s { loaded.port .s with slot := x } }

/-- The loaded part with one sector of its store replaced. -/
def sectored (k : SectorId) (x : Sector) : Hub :=
  { loaded with store := { loaded.store with sectors := loaded.store.sectors.set k x } }

/-- The loaded part with one door replaced. -/
def doored (d : Door) (g : DoorHold → DoorHold) (h : Hub) : Hub := h.onDoor d g

/-- A path memory of samples with falling indices that all carry an angle. -/
def pathOf (angles : List Int) (r : Nat) (count : Word) : PathMemory :=
  ⟨(angles.zipIdx).map fun (a, i) => ⟨count - BitVec.ofNat 32 i, some a⟩, r, count, 0, false⟩

/-! ## Well-formedness refuses -/

/-- A FRAME_ERROR row whose frame passes R149. -/
theorem test_wf_refuses_good_frame :
    (Instr.frameError .m [0x00#8, 0x00#8, 0x06#8, 0x00#8, 0x7E#8]).wf = false := by decide +kernel
/-- A FRAME_ERROR row without a whole byte is no frame (R148). -/
theorem test_wf_refuses_empty_frame : (Instr.frameError .m []).wf = false := by decide
/-- A request of 61 payload bytes (R148). -/
theorem test_wf_refuses_long_payload : (Instr.haltOn (req (List.replicate 61 0#8))).wf = false := by decide +kernel
/-- An UNKNOWN_OBJECT row whose code names an object (section 10.3). -/
theorem test_wf_refuses_known_object : (Instr.unknownObject (req []) .fetch 0x0E#8).wf = false := by decide +kernel
/-- An UNKNOWN_OBJECT row of 61 payload bytes (R148). -/
theorem test_wf_refuses_long_unknown :
    (Instr.unknownObject (req (List.replicate 61 0#8)) .order 0xFF#8).wf = false := by decide +kernel
theorem test_wf_accepts : (Instr.unknownObject (req []) .fetch 0x0F#8).wf = true ∧
    (Instr.release (req [0x1F#8])).wf = true ∧ (Instr.haltOn (req (List.replicate 60 0#8))).wf = true := by decide +kernel

/-! ## Frames -/

/-- The check byte of HALT ON's frame (section 10.10). -/
theorem test_crc_of_halt_on : crc8 [0x03#8, 0x20#8, 0x05#8, 0x00#8] = 0x38#8 := by decide +kernel
/-- A NOP's frame with tag 6, and the DONE it clocks out (section 10.10). -/
theorem test_frame_of_nop :
    frameOf (.nop ⟨.m, 0x06#8, [], 0⟩ 0x00#8) = some (.m, [0x00#8, 0x00#8, 0x06#8, 0x00#8, 0x7E#8]) ∧
    Reply.shiftOut ⟨.done, 0x20#8, 0x05#8, []⟩ 8 =
      [0x00#8, 0x20#8, 0x05#8, 0x00#8, 0x02#8, 0x00#8, 0x00#8, 0x00#8] := by decide +kernel
/-- Bytes back to a request, and a wrong check byte (section 10.10, R149). -/
theorem test_frame_read :
    frameCommand .m false [0x03#8, 0x20#8, 0x05#8, 0x00#8, 0x38#8] = some (.haltOn ⟨.m, 0x05#8, [], 0⟩) ∧
    frameCommand .m false [0x03#8, 0x20#8, 0x05#8, 0x00#8, 0x39#8] =
      some (.frameError .m [0x03#8, 0x20#8, 0x05#8, 0x00#8, 0x39#8]) := by decide +kernel
/-- A frame of two bytes is an error that echoes byte 1 and 0x00 (R149). -/
theorem test_frame_error : ((run (.frameError .s [0x03#8, 0x20#8]) loaded).port .s).pending =
    ⟨.frameError, 0x20#8, 0x00#8, []⟩ ∧ ((run (.frameError .s [0x03#8, 0x20#8]) loaded).port .s).errors = 1 := by
  decide +kernel
theorem test_unknown_object : answer (.unknownObject (req []) .order 0x3F#8) loaded =
    reply .refused 0x3F#8 [11#8] := by decide +kernel
theorem test_nop_before_load : answer (.nop (req []) 0x55#8) Hub.atPowerOn = reply .done 0x55#8 [] := by decide +kernel

/-! ## Sensing, path memory, steering, joints -/

/-- The worked conversions of a steer sensor (section 1.2). -/
theorem test_worked_conversions : convert (2048, 5120) (-4500) 4500 2600#12 = some 1380 ∧
    convert (2048, 5120) (-4500) 4500 1501#12 = some (-1367) ∧ convert (2048, 5120) (-4500) 4500 3950#12 = none := by
  decide +kernel
/-- With the bellows defaults 205 gives 0 kPa and 180 is invalid (section 1.2). -/
theorem test_bellows_conversion : convert (205, 555) 0 1000 205#12 = some 0 ∧
    convert (205, 555) 0 1000 180#12 = none := by decide +kernel
/-- The speed of five buckets of 24 pulses (section 1.6). -/
theorem test_worked_speed : Buckets.speed ⟨0, 1248, 1248, 1248, 1248, 1248⟩ = 6240 ∧
    Buckets.speed (Buckets.close ⟨1300, 1248, 1248, 1248, 1248, 1248⟩) = 6292 := by decide +kernel
/-- Two pushes from one increment (section 2.7). -/
theorem test_two_pushes : (PathMemory.forward (some 7) 2000 ⟨[], 999, 5, 0, false⟩) =
    ⟨[⟨7, some 7⟩, ⟨6, some 7⟩], 999, 7, 0, false⟩ := by decide +kernel
/-- The lookup for A3 (section 2.7). -/
theorem test_worked_lookup : (pathOf (List.replicate 97 0 ++ [1200, 1400]) 350 99).lookup 9800 = some 1330 ∧
    (pathOf (List.replicate 97 0 ++ [-500, -737]) 350 99).lookup 9800 = some (-654) ∧
    (pathOf (List.replicate 97 0 ++ [1200]) 350 98).lookup 9800 = none := by decide +kernel
/-- Pulses 6, 25 and 64 of the reversal past the tail (section 2.7). -/
theorem test_worked_reversal : (pathOf [0, 0, 0] 40 47).backward 52 = (pathOf [0, 0] 988 46, 0) ∧
    (pathOf [0, 0] 52 46).backward 52 = (pathOf [0, 0] 0 46, 0) ∧
    (pathOf [] 24 44).backward 52 = ({ pathOf [] 0 44 with underrun := true }, 28) := by decide +kernel

/-- A3 following the path at city speed (section 3.11). -/
def cityA3 : Hub :=
  { loaded with
    path := pathOf (List.replicate 97 0 ++ [1200, 1400]) 350 99
    sensing := { loaded.sensing with
      standstill := .no, speed := 4000, joints := ⟨⟨-300, .ok, 0, 0, true⟩, Pair.atReset⟩ }
    steering := { Steering.atReset with
      timer := .running 100
      axles := ⟨⟨true, some .follow, none, some (-1200), true, some (-1190), .stopped, none, none, none⟩, .atReset⟩ } }
theorem test_worked_follow : (run .steeringTimerExpiry cityA3).axleSteer .a3 =
      ⟨true, some .follow, none, some (-1250), true, some (-1190), .stopped, some 1330, some (-1279), some 1024⟩ ∧
    ((run .steeringTimerExpiry cityA3).link.actuators.get .a3).image = ⟨true, -1250⟩ := by decide +kernel
/-- A4 in the fade band (section 3.11). -/
theorem test_worked_fade : ((run .steeringTimerExpiry
    { loaded with
      path := pathOf (List.replicate 178 0 ++ [400, 300]) 350 180
      sensing := { loaded.sensing with
        standstill := .no, speed := 12500, joints := ⟨Pair.atReset, ⟨-150, .ok, 0, 0, true⟩⟩ }
      steering := { Steering.atReset with
        timer := .running 100
        axles := ⟨.atReset, ⟨true, some .follow, none, some (-140), true, some (-140), .stopped, none, none, none⟩⟩ } }
      ).axleSteer .a4) =
    ⟨true, some .follow, none, some (-168), true, some (-140), .stopped, some 335, some (-336), some 512⟩ := by
  decide +kernel

/-- Pulses taken between the two lookups move A4's and not A3's, and the path itself waits for them (R29). -/
theorem test_taken_between :
    let h := { cityA3 with steering := { cityA3.steering with axles := ⟨cityA3.axleSteer .a3, cityA3.axleSteer .a3⟩ } }
    (nextBetween [.wheelPulse .left .forward, .fetchSteer (req []), .wheelPulse .left .reverse, .haltOn (req []),
        .wheelPulse .left .forward] 9).filterMap pulseDirection = [.forward, .reverse] ∧
    (h.pathAfter (List.replicate 13 .forward)).r = 26 ∧
    (h.steeringPeriod ⟨List.replicate 13 .forward, 0⟩).path = h.path ∧
    (h.steeringPeriod ⟨List.replicate 13 .forward, 0⟩).axleSteer .a3 = (h.steeringPeriod ⟨[], 0⟩).axleSteer .a3 ∧
    ((h.steeringPeriod ⟨List.replicate 200 .reverse, 0⟩).axleSteer .a4).mode = some .short := by decide +kernel

/-- A copy between the two axles' work shows A3 after the period, A4 and the count before; the next is whole (R54). -/
theorem test_copy_between :
    let h := { cityA3 with steering := { cityA3.steering with axles := ⟨cityA3.axleSteer .a3, cityA3.axleSteer .a3⟩ } }
    let after := h.steeringPeriod ⟨[], 1⟩
    let first := run (.fetchSteer (req [])) after
    let second := run (.fetchSteer (req [])) first
    h.copiesSteer (.fetchSteer (req [])) = true ∧ after.axleSteer .a4 ≠ h.axleSteer .a4 ∧
    (first.port .s).pending.payload =
      be2 0 ++ (after.axleSteer .a3).bytes ++ (h.axleSteer .a4).bytes ∧
    (second.port .s).pending.payload =
      be2 1 ++ (after.axleSteer .a3).bytes ++ (after.axleSteer .a4).bytes := by decide +kernel

/-- J2 in its third period under traction (section 4.10). -/
def foldingJ2 : Hub :=
  { loaded with
    sensing := { loaded.sensing with
      standstill := .no, speed := 3000, joints := ⟨Pair.atReset, ⟨-2530, .ok, 0, 0, true⟩⟩ }
    joints := { JointUnit.atReset with
      timer := .running 100
      joints := ⟨.atReset, { JointHold.atReset with state := .watch, phi := -2500, phiPrev := some (-2500) }⟩ }
    brake := { Brake.atReset with drive := .traction } }
theorem test_worked_fold : let t := run .jointTimerExpiry foldingJ2
    (t.joints.joints.j2.state, t.joints.joints.j2.omega, t.joints.joints.j2.damping, t.joints.requests.a4) =
      (.stretch, -3000, 12, 120) ∧ t.joints.torqueCut = true ∧ t.link.lines.torque = true ∧
    t.events.queues.m = [⟨.jointState, 2, 1, 0, 0, 2⟩] := by decide +kernel
/-- J2 at period 33: the hold reaches 300 ms, and 2,280 lies below 2,300 (section 4.10). -/
def unfoldingJ2 : Hub :=
  { foldingJ2 with
    sensing := { foldingJ2.sensing with joints := ⟨Pair.atReset, ⟨-2280, .ok, 0, 0, true⟩⟩ }
    joints := { foldingJ2.joints with
      joints := ⟨.atReset, ⟨.stretch, -2290, some (-2290), 1000, false, .running 290, 2, 4, 8, 12, 120⟩⟩ } }
theorem test_worked_release : let t := run .jointTimerExpiry unfoldingJ2
    (t.joints.joints.j2.state, t.joints.joints.j2.hold, t.joints.joints.j2.damping, t.joints.requests.a4) =
      (.free, .stopped, 8, 0) := by decide +kernel

/-! ## Brakes, levelling, kneel, doors -/

/-- A3 under service braking and stretch (section 5.6). -/
def brakingA3 : Hub :=
  { loaded with
    sensing := { loaded.sensing with
      standstill := .no
      bellows := loaded.sensing.bellows.set .c5 ⟨420, false, 0, 0⟩ |>.set .c6 ⟨436, false, 0, 0⟩ }
    joints := { JointUnit.atReset with requests := ⟨120, 120⟩ }
    brake := { Brake.atReset with
      decel := 2500, age := .running 0, status := .fresh, lastSeq := some 41, lastPort := some .m, timer := .running 50 } }
theorem test_worked_braking : let a := (run .brakeTimerExpiry brakingA3).axleBrake .a3
    (a.load, a.service, a.stretch, a.command) = (9860, 410, 120, 530) := by decide +kernel
/-- A lost demand at 300 ms (section 5.11). -/
def losingA3 : Hub := { brakingA3 with brake := { brakingA3.brake with age := .running 295, status := .holding } }
theorem test_lost_demand : let t := run .brakeTimerExpiry losingA3
    (t.brake.status, (t.axleBrake .a3).mode, (t.axleBrake .a3).service) = (.stale, .backup, 0) ∧
    t.events.queues.m = [⟨.demandStale, 0, 1, 0, 0, 41⟩] := by decide +kernel
theorem test_halt_on : (run (.haltOn (req [])) loaded).brake.halt = .applying ∧
    answer (.haltOn (req [])) { loaded with sensing := { loaded.sensing with speed := 834 } } =
      reply .refused 0x20#8 [12#8] := by decide +kernel
theorem test_halt_off : (run (.haltOff (req [])) (halted .applying)).brake.halt = .released ∧
    answer (.haltOff (req [])) { halted .applied with kneel := { Kneel.atReset with state := .knelt } } =
      reply .refused 0x21#8 [2#8] := by decide +kernel

/-- C7 in its hundredth period beyond the band on the road (section 6.3). -/
def sinkingC7 : Hub :=
  { loaded with
    sensing := { loaded.sensing with
      standstill := .no, rounds := 1, heights := loaded.sensing.heights.set .c7 ⟨-14, false, 0, 0⟩ }
    brake := { Brake.atReset with decel := 300 }
    level := { Levelling.atReset with
      timer := .running 500
      circuits := Levelling.atReset.circuits.set .c7
        { CircuitLevel.atReset with ring := List.replicate 8 (-14), count := 99, direction := .low } } }
theorem test_worked_sinking : let t := run .levellingTimerExpiry sinkingC7
    (t.circuit .c7).action = .fillWait ∧ t.level.queue = [⟨.c7, 2⟩] := by decide +kernel
theorem test_levelling_inhibited :
    ((run .levellingTimerExpiry { sinkingC7 with brake := { Brake.atReset with decel := 1800 } }).circuit .c7).action =
      .hold := by decide +kernel
/-- The order KNEEL and its checks (R111). -/
theorem test_kneel : ((run (.kneel (req [])) (halted .applied)).circuit .c2).target = -70 ∧
    answer (.kneel (req [])) (halted .applying) = reply .refused 0x2A#8 [3#8] := by decide +kernel
theorem test_raise : (run (.raise (req []))
    { halted .applied with kneel := { Kneel.atReset with state := .knelt } }).kneel.state = .raising := by decide +kernel
/-- RELEASE of D1 under an APPLIED halt brake, and an empty mask (R127). -/
theorem test_release : ((run (.release (req [1#8])) (halted .applied)).link.lines.release.get .d1) = true ∧
    answer (.release (req [0#8])) (halted .applied) = reply .refused 0x28#8 [10#8] := by decide +kernel
theorem test_withdraw : ((run (.withdraw (req [1#8]))
    (doored .d1 (fun x => { x with release := .waiting, mark := true }) loaded)).door .d1).release = .withdrawn := by
  decide +kernel
/-- A door that opens at standstill applies the halt brake (R134). -/
theorem test_door_opens : (run (.debounceTimerExpiry .d1 .lock)
    (doored .d1 (fun x => { x with raw := ⟨true, false, false⟩, timers := ⟨.stopped, .running 200, .stopped⟩ }) loaded)
    ).brake.halt = .applying := by decide +kernel
theorem test_door_input : ((run (.doorInputChange .d2 .handle true) loaded).door .d2).timers.handle = .running 0 := by
  decide +kernel
/-- Standstill enters TRUE after a quiet second (R15). -/
theorem test_quiet : (run .quietTimerExpiry { loaded with
    sensing := { loaded.sensing with standstill := .unsettled, quiet := .running 10000 } }).sensing.standstill = .yes := by
  decide +kernel
/-- The 500th tenth leaves standstill (R16). -/
theorem test_pulse : let h := { loaded with sensing := { loaded.sensing with distance := 448 } }
    (run (.wheelPulse .left .forward) h).sensing.standstill = .no ∧
    (run (.wheelPulse .left .reverse) h).sensing.travel = -52#32 := by decide +kernel
/-- A speed expiry at 6,240 mm/s (section 1.6). -/
theorem test_speed_expiry : (run (.speedTimerExpiry .reverse) { loaded with
    sensing := { loaded.sensing with buckets := ⟨1248, 1248, 1248, 1248, 1248, 0⟩, speedTimer := .running 200 } }
    ).sensing.speed = 6240 := by decide +kernel
/-- A scan round publishes the worked conversion 1,380 (section 1.2). -/
theorem test_scan_round : (run (.scanRound ⟨⟨2600#12, 2600#12⟩, .fill ⟨2048#12, 2048#12⟩, .fill 2048#12, .fill 205#12,
    205#12, .fill 205#12⟩) { loaded with sensing := { loaded.sensing with scanTimer := .running 20 } }
    ).sensing.steer = ⟨1380, .ok, 0, 0, true⟩ := by decide +kernel

/-! ## Link, store, access, events -/

/-- A third mismatching refresh in a row brings chain B to FAULT (R141). -/
theorem test_chain_fault : let h := { loaded with link := { Link.atReset with
      modulators := .fill ⟨⟨.backup, 0⟩, some ⟨.backup, 0⟩, some ⟨.backup, 0⟩, none, false, none, false⟩
      chainB := ⟨false, 2, 0, 0, true⟩ } }
    (run (.chainRefreshComplete (.b (.fill none))) h).link.chainB.fault = true ∧
    (run (.chainRefreshComplete (.b (.fill (some ⟨⟨.backup, 0⟩, true⟩)))) h).link.chainB = ⟨false, 0, 0, 0, false⟩ := by
  decide +kernel
theorem test_refresh : ((run .refreshTimerExpiry { loaded with link := { Link.atReset with timer := .running 20 } }
    ).link.dampers.get .j1).inFlight = some 15 := by decide +kernel

/-- Sector 6 as step 3 of the procedure of section 12.4 leaves it. -/
def doorSector : Sector := ⟨[(0, .written 31), (1, .written 0), (2, .written 1), (3, .written 1)], .empty, false, false⟩
/-- The closing mark of the procedure: check value 33, count 4 (section 12.4). -/
theorem test_worked_close : checkSum doorSector = 33 ∧ ((run (.storeCloseCompletion false)
    { storing (.close .s6) 20 false with store := { (storing (.close .s6) 20 false).store with
      sectors := loaded.store.sectors.set .s6 doorSector } }).sector .s6).mark = .written 33 4 := by decide +kernel
/-- A sector of written slots with its closing mark in place. -/
def closed (slots : List (Nat × SlotContent)) : Sector :=
  let x : Sector := ⟨slots, .empty, false, false⟩
  { x with mark := .written (checkSum x) (writtenValues x).length }
/-- The sector so closed is VALID; unclosed it is DEFAULTED; with a TORN slot it is TORN (section 12.4). -/
theorem test_worked_load : (loadSector .s6 { doorSector with mark := .written 33 4 }).2 = .valid ∧
    (loadSector .s6 doorSector).2 = .defaulted ∧
    (loadSector .s6 { doorSector with slots := (4, .torn) :: doorSector.slots }).2 = .torn := by decide +kernel
/-- A clear is taken, repeated, and blocks a write (section 10.10). -/
theorem test_worked_clear : let h := run (.storeClear (req [2#8]) false) loaded
    (h.port .s).slot = .running ⟨.clear .s2, 0x07#8, [2#8]⟩ ∧ (h.sector .s2).clearing = true ∧
    answer (.storeClear (req [2#8]) false) h = reply .retry 0x39#8 [] ∧
    (((run (.storeWrite ⟨⟨.s, 8#8, [2#8, 0#8, 0#8, 1#8], 0⟩, true⟩) h).port .s).pending = ⟨.slotBusy, 0x3A#8, 8#8, []⟩) := by
  decide +kernel
/-- A read of another sector suspends the clear (section 10.10). -/
theorem test_worked_suspension : (run (.storeRead ⟨⟨.b, 10#8, [3#8, 4#8], 0⟩, false⟩)
    { storing (.clear .s2) 250 false with access := { loaded.access with map := .fill 31#5 } }).store.read =
    some ⟨.read .s3 4, .b, 0, false⟩ := by decide +kernel
theorem test_store_read : answer (.storeRead (order [2#8, 4#8])) (slotted (.done ⟨.read .s2 4, 0x07#8, [2#8, 4#8]⟩
    (.done [0#8, 0#8, 0#8]))) = reply .done 0x38#8 [0#8, 0#8, 0#8] := by decide +kernel
theorem test_store_write : slotContent ((run (.storeWrite (order [6#8, 30#8, 0x12#8, 0x34#8])) loaded).sector .s6).slots 30 =
    some .torn ∧ slotContent ((run (.storeWriteCompletion false) (storing (.write .s6 30 0x1234#16) 10 false)).sector
      .s6).slots 30 = some (.written 0x1234#16) := by decide +kernel
theorem test_store_close : answer (.storeClose (order [8#8])) loaded = reply .refused 0x3B#8 [10#8] ∧
    ((run (.storeClose (order [6#8])) (sectored .s6 { doorSector with lock := true })).port .s).slot =
      .done ⟨.close .s6, 0x07#8, [6#8]⟩ (.refused .sectorLocked []) := by decide +kernel
theorem test_store_lock : ((run (.storeLockCompletion true) (storing (.lock .s1) 10 false)).sector .s1).lock = true ∧
    ((run (.storeLock (order [1#8])) loaded).store.running) = some ⟨.lock .s1, .s, 0, false⟩ := by decide +kernel
theorem test_blank_test : ((run (.blankTestCompletion true) (storing (.blank .s1) 30 false)).port .s).slot =
    .done ⟨.blank .s1, 0x07#8, []⟩ (.done [1#8]) ∧
    ((run (.blankTest (order [1#8])) loaded).store.running) = some ⟨.blank .s1, .s, 0, false⟩ := by decide +kernel
theorem test_clear_completes : ((run (.storeClearCompletion true) { storing (.clear .s6) 800 true with
    store := { (storing (.clear .s6) 800 true).store with
      sectors := loaded.store.sectors.set .s6 { doorSector with clearing := true, lock := true } } }).sector .s6) =
    .erased := by decide +kernel
theorem test_apply : answer (.apply (order [])) loaded = reply .refused 0x3E#8 [3#8] ∧
    (run (.applyCompletion true) { storing .apply 20 false with brake := { Brake.atReset with halt := .applied } }
      ).store.loads = 1 := by decide +kernel
theorem test_read_completes : ((run (.storeReadCompletion true) (storing (.read .s6 31) 1 false)).port .s).slot =
    .done ⟨.read .s6 31, 0x07#8, []⟩ (.done [0#8, 0#8, 0#8, 0#8]) := by decide +kernel
theorem test_abandon : ((run (.abandon (req []) 0#8) (storing (.clear .s2) 250 false)).port .s).slot = .empty := by
  decide +kernel
theorem test_map_write : (run (.mapWrite (req [0#8, 31#8])) loaded).access.map.m = 31#5 ∧
    answer (.mapWrite (req [0#8, 32#8])) loaded = reply .refused 0x30#8 [10#8] := by decide +kernel
theorem test_map_lock : let h := run (.mapLock (req [])) loaded
    answer (.routeWrite (req [1#8, 7#8])) h = reply .locked 0x32#8 [] := by decide +kernel
theorem test_route_write : (run (.routeWrite (req [15#8, 7#8])) loaded).events.routing.movePermit = 7#3 := by
  decide +kernel
theorem test_take : let e : EventEntry := ⟨.path, 0, 2, 1, 2, 52⟩
    answer (.take (req [8#8]) 0#8) { loaded with
      events := ⟨loaded.events.queues.set .s [e], .fill true, builtInRouting⟩ } =
      reply .done 0#8 ([1#8, 11#8, 0#8, 2#8] ++ wordBytes 1 ++ wordBytes 2 ++ halfBytes 52) ∧
    answer (.take (req [9#8]) 0#8) loaded = reply .refused 0#8 [10#8] := by decide +kernel
theorem test_post : ((run (.postDriveDemand (req [41#8, 0x09#8, 0xC4#8, 1#8])) loaded).port .s).posted =
    some ⟨41#8, 2500#16, 1#8⟩ := by decide +kernel
theorem test_clear_path_flag : (run (.clearPathFlag (req []))
    { loaded with path := { PathMemory.atReset with underrun := true } }).path.underrun = false := by decide +kernel
theorem test_hub_reset : (run (.hubReset (req [])) loaded).clock.loaded = false ∧
    answer (.hubReset (req [])) { loaded with sensing := Sensing.atReset } = reply .refused 0x33#8 [1#8] := by
  decide +kernel
theorem test_resets : (run .rstLine loaded).access.owed = false ∧ (run .powerOnReset loaded).access.owed = true := by
  decide +kernel
theorem test_load : let t := run (.activeSetLoad ⟨.fill ⟨true, true, false⟩, false⟩) loading
    t.clock.loaded = true ∧ t.doors.permit = true ∧ (t.axleBrake .a1).load = 7000 := by decide +kernel

/-! ## Records -/

/-- The lengths the record tables give: MOTION (R18), PATH (R30), KNEEL of eight circuits in scope (R120). -/
theorem test_fetch_motion : (answer (.fetchMotion (req [])) loaded).payload.take 12 =
    [0#8, 0#8, 0#8, 0#8, 0#8, 0#8, 0#8, 1#8, 0#8, 0#8, 0#8, 0#8] := by decide +kernel
theorem test_fetch_path : answer (.fetchPath (req [])) { loaded with path := pathOf [5, 6] 9 3 } = reply .done 0x02#8
    ([0#8, 2#8, 0#8, 9#8] ++ wordBytes 3 ++ wordBytes 2 ++ [0#8, 0#8, 0#8, 1#8, 0#8, 5#8]) := by decide +kernel
theorem test_fetch_path_window : answer (.fetchPathWindow (req [1#8])) { loaded with path := pathOf [5, -6] 9 3 } =
    reply .done 0x03#8 ([1#8, 0#8, 2#8, 0#8, 9#8] ++ wordBytes 2 ++ [1#8, 1#8, 0xFF#8, 0xFA#8]) := by decide +kernel
theorem test_fetch_steer : ((answer (.fetchSteer (req [])) loaded).payload.take 3) = [0#8, 0#8, 0#8] := by decide +kernel
theorem test_fetch_joints : ((answer (.fetchJoints (req [])) loaded).payload.reverse.take 2) = [1#8, 0#8] := by
  decide +kernel
theorem test_fetch_brake : ((answer (.fetchBrake (req [])) loaded).payload.take 3) = [0#8, 0#8, 0#8] := by decide +kernel
theorem test_fetch_level : ((answer (.fetchLevel (req [])) loaded).payload.take 4) = [0#8, 0#8, 0#8, 0#8] := by
  decide +kernel
theorem test_fetch_kneel : ((answer (.fetchKneel (req [])) loaded).payload.take 1) = [0#8] := by decide +kernel
theorem test_fetch_doors : ((answer (.fetchDoors (req [])) loaded).payload.take 3) = [0#8, 0#8, 31#8] := by decide +kernel
theorem test_fetch_link : ((answer (.fetchLink (req [])) loaded).payload.take 3) = [0#8, 0#8, 1#8] := by decide +kernel
/-- The record shows a clear's progress as of its last update, not as it is (R171). -/
theorem test_fetch_store_status : (answer (.fetchStoreStatus (req []) true) loaded).payload.length = 12 + 8 * 7 ∧
    ((answer (.fetchStoreStatus (req []) true) (storing (.clear .s2) 250 false)).payload.drop 6).take 4 =
      [1#8, 0#8, 0#8, 1#8] := by decide +kernel
theorem test_fetch_port : ((answer (.fetchPort (req [])) loaded).payload.take 4) = [2#8, 31#8, 0#8, 0#8] := by
  decide +kernel
/-- Item 193 is sector 6's slot 1 (R171). -/
theorem test_fetch_active_item : answer (.fetchActiveItem (req [193#8])) loaded =
    reply .done 0x0D#8 [193#8, 0#8, 0#8, 1#8] := by decide +kernel
theorem test_fetch_access : ((answer (.fetchAccess (req [])) loaded).payload.take 5) = [17#8, 18#8, 31#8, 0#8, 1#8] := by
  decide +kernel

/-! ## The queue -/

theorem test_step_takes_front : step ⟨loaded, [.haltOn (req []), .rstLine]⟩ =
    exec (.haltOn (req [])) ⟨loaded, [.rstLine]⟩ := rfl
/-- The opcode table gives no row any bits (log entry 20). -/
theorem test_no_table_word : decodeTableWord 8 0x20 = none ∧ (State.reset.withFetchWord 8 0x20) = State.reset := by
  decide +kernel


/-! ## Witnesses

For every statement with hypotheses, a concrete state and operands that meet them, clause by clause, at the ends of the
ranges the clauses name. -/

/-- Every command is answered with a next state. -/
theorem answered_next (c : Instr) (s : State) : ∃ t, exec c s = .next t := ⟨_, exec_eq c s⟩

/-- The loaded part with Port S's buffer OCCUPIED. -/
def posted : Hub :=
  { loaded with ports := loaded.ports.set .s { loaded.port .s with posted := some ⟨41#8, 2500#16, 1#8⟩ } }
/-- The loaded part with its map locked. -/
def locked : Hub := { loaded with access := { loaded.access with lock := true } }
/-- The loaded part with every timer just started. -/
def started : Hub :=
  { loaded with
    clock := { loaded.clock with load := .running 0 }
    sensing := { loaded.sensing with scanTimer := .running 0, speedTimer := .running 0, quiet := .running 0 }
    steering := { Steering.atReset with timer := .running 0 }
    joints := { JointUnit.atReset with timer := .running 0 }
    brake := { Brake.atReset with timer := .running 0 }
    level := { Levelling.atReset with timer := .running 0 }
    doors := { loaded.doors with
      doors := .fill { DoorHold.atReset with timers := ⟨.running 0, .running 0, .running 0⟩ } } }
/-- A part one tenth short of every expiry. -/
def nearlyDue : Hub :=
  { started with
    clock := { loaded.clock with load := .running 19 }
    sensing := { loaded.sensing with
      scanTimer := .running 19, speedTimer := .running 199, quiet := .running 9999 }
    steering := { Steering.atReset with timer := .running 99 }
    joints := { JointUnit.atReset with timer := .running 99 }
    brake := { Brake.atReset with timer := .running 49 }
    level := { Levelling.atReset with timer := .running 499 }
    link := { Link.atReset with timer := .running 19 }
    doors := { loaded.doors with
      doors := .fill { DoorHold.atReset with timers := ⟨.running 199, .running 199, .running 199⟩ } } }

theorem witness_StepTakesFrontCommand :
    (⟨loaded, [.rstLine, .haltOn (req [])]⟩ : State).pending = .rstLine :: [.haltOn (req [])] := rfl
theorem witness_IdleStepsKeepTime_timers : (on started).pending = [] ∧ started.clock.sub = 0 ∧
    started.clock.load = .running 0 ∧ started.sensing.scanTimer = .running 0 ∧
    started.sensing.speedTimer = .running 0 ∧ started.sensing.quiet = .running 0 ∧
    started.steering.timer = .running 0 ∧ started.joints.timer = .running 0 ∧ started.brake.timer = .running 0 ∧
    started.level.timer = .running 0 ∧ started.link.timer = .running 0 ∧
    (∀ d ∈ Door.all, ∀ i ∈ [DoorInput.closed, .lock, .handle], (started.door d).timers.get i = .running 0) := by
  decide +kernel
theorem witness_IdleStepsKeepTime_notDue : nearlyDue.clock.load.due loadTime = false ∧
    nearlyDue.sensing.scanTimer.due scanPeriod = false ∧ nearlyDue.sensing.speedTimer.due speedPeriod = false ∧
    nearlyDue.sensing.quiet.due quietTime = false ∧ nearlyDue.steering.timer.due steeringPeriod = false ∧
    nearlyDue.joints.timer.due jointPeriod = false ∧ nearlyDue.brake.timer.due brakePeriod = false ∧
    nearlyDue.level.timer.due levellingPeriod = false ∧ nearlyDue.link.timer.due refreshPeriod = false ∧
    ((nearlyDue.door .d5).timers.get .handle).due debounceTime = false ∧
    nearlyDue.chainBusy (.j (.fill none)) = false ∧ Hub.atPowerOn.clock.loaded = false ∧
    levelOf (loaded.door .d1).raw .closed = true ∧ (Instr.frameError .m []).wf = false ∧
    codedCommand (req []) false .order (0x3E#8).toNat ≠ none := by decide +kernel
theorem witness_IdleStepsKeepTime_store : loaded.store.due = none ∧
    (∀ op ∈ [StoreOp.read .s6 30, .write .s6 30 1, .close .s6, .lock .s6, .blank .s6, .clear .s6, .apply],
      (storing op 0 false).store.read = none ∧ (storing op 0 false).store.running = some ⟨op, .s, 0, false⟩) ∧
    ({ (storing (.clear .s2) 250 false).store with read := some ⟨.read .s3 31, .b, 0, false⟩ } : Store).read =
      some ⟨.read .s3 31, .b, 0, false⟩ ∧
    (storing (.read .s1 31) 1 false).store.due = some ⟨.read .s1 31, .s, 1, false⟩ ∧
    (StoreOp.read .s1 31).code ≠ 0x39#8 ∧ (storing (.clear .s1) 799 false).store.due = none := by decide +kernel
theorem witness_ResetState : resetsPart loaded .powerOnReset = true ∧ resetsPart loaded .rstLine = true ∧
    resetsPart loaded (.hubReset (req [])) = true := by decide +kernel
theorem witness_ResetUnits : resetsPart (halted .applied) .powerOnReset = true ∧
    resetsPart (halted .applied) (.hubReset (req [])) = true := by decide +kernel
theorem witness_ResetKeepsStoreAndAccess : resetsPart locked .rstLine = true ∧ Instr.rstLine ≠ .powerOnReset ∧
    resetsPart locked (.hubReset (req [])) = true ∧ (req []).port = .s ∧ Port.s ≠ .m ∧
    resetsPart locked .powerOnReset = true ∧
    cityA3.admits .s .supervision = true ∧ cityA3.sensing.standstill ≠ .yes := by decide +kernel
theorem witness_LoadInstallsActiveSet : loading.clock.load.due loadTime = true ∧ loading.access.owed = true := by
  decide +kernel
/-- Sector 7 closed with Port S's class set 8, at the load after a power-on reset and at that after the RST line. -/
theorem witness_LoadInstallsActiveSet_sector7 :
    let store := { Store.asDelivered with sectors := Store.asDelivered.sectors.set .s7 (closed [(2, .written 8)]) }
    let again := { loading with store := { store with active := loaded.store.active }, access := { loaded.access with owed := false } }
    let load := run (.activeSetLoad ⟨.fill ⟨true, true, false⟩, false⟩)
    again.clock.load.due loadTime = true ∧ again.access.owed = false ∧
    (load { loading with store := store }).store.active.s7[2]? = some ⟨8, .stored⟩ ∧
    (load { loading with store := store }).access.map.s = 8#5 ∧
    (load again).store.active.s7[2]? = some ⟨31, .default⟩ ∧ (load again).store.statuses.s7 = .valid ∧
    (load again).access = again.access := by decide +kernel
/-- A torn sector, an unclosed one, and a closed one with a WRITTEN and an EMPTY home slot. -/
theorem witness_SectorsJudgedAtLoad : ({ doorSector with mark := .torn } : Sector).isTorn = true ∧
    doorSector.isTorn = false ∧ doorSector.matches = false ∧
    ({ doorSector with mark := .written 33 4 } : Sector).isTorn = false ∧
    ({ doorSector with mark := .written 33 4 } : Sector).matches = true ∧
    (itemSpecs .s6)[3]? = some ⟨1, 0, 1⟩ ∧ slotContent doorSector.slots 3 = some (.written 1) ∧
    ((loadSector .s6 { doorSector with mark := .written 33 4 }).1[3]?).map Item.source = some .stored ∧
    (itemSpecs .s5)[13]? = some ⟨70, 40, 100⟩ ∧ slotContent doorSector.slots 13 = none := by decide +kernel
/-- A sector of the store's form, with its check value, its count and its torn slots. -/
theorem witness_SectorsJudgedAtLoad_form :
    let x := closed [(0, .written 0xFFFF), (30, .written 3)]
    let y : Sector := ⟨[(0, .written 1), (5, .torn)], .written 1 1, false, false⟩
    x.wf = true ∧ x.mark = .written 2 2 ∧ x.matches = true ∧ x.isTorn = false ∧ y.wf = true ∧ y.isTorn = true ∧
    ({ x with clearing := true } : Sector).isTorn = true ∧ ({ x with mark := .written 2 1 } : Sector).matches = false := by
  decide +kernel
/-- Values at, below and above the ends of a range, and cross-item checks that just hold and just fail. -/
theorem witness_SectorsJudgedAtLoad_values :
    (∀ x ∈ [closed [(0, .written 20)], closed [(0, .written 19)], closed [(0, .written 2000)], closed [(0, .written 2001)],
        closed [(13, .written 13889)], closed [(14, .written 11112)]], x.isTorn = false ∧ x.matches = true) ∧
    (loadSector .s0 (closed [(0, .written 20)])).1[0]? = some ⟨20, .stored⟩ ∧
    (loadSector .s0 (closed [(0, .written 19)])).1[0]? = some ⟨20, .corrected⟩ ∧
    (loadSector .s0 (closed [(0, .written 2001)])).1[0]? = some ⟨2000, .corrected⟩ ∧
    (loadSector .s0 (closed [(13, .written 13889)])).1[13]? = some ⟨11111, .corrected⟩ ∧
    (loadSector .s0 (closed [(14, .written 11112)])).1[14]? = some ⟨11112, .stored⟩ ∧
    (loadSector .s4 (closed [(0, .written 4500)])).1[0]? = some ⟨2500, .corrected⟩ ∧
    (loadSector .s4 (closed [(0, .written 4499)])).1[0]? = some ⟨4499, .stored⟩ := by decide +kernel

theorem witness_FrameOfRequestReadsBack :
    let i := Instr.storeClear ⟨.s, 0xFF#8, List.replicate 60 0xFF#8, 2⟩ true
    i.wf = true ∧ (frameOf i).isSome = true ∧ ∀ d, i.depot? = some d → d = true :=
  ⟨by decide +kernel, by decide +kernel, fun _ h => (Option.some.inj h).symm⟩
theorem witness_FrameErrors : ([0x06#8, 0#8, 0#8, 0#8, 0#8] : List Byte) ≠ [] ∧
    readFrame [0x06#8, 0#8, 0#8, 0#8, 0#8] = none := by decide +kernel
theorem witness_NopUnknownAndDataOut : (Instr.unknownObject (req []) .fetch 0x00#8).wf = true ∧
    loaded.clock.loaded = true ∧ (4 : Nat) < 5 := by decide +kernel
theorem witness_RequestsTurnedAway : (Instr.haltOn (req [])).wf = true ∧
    (Instr.haltOn (req [])).frameParts = some (req [], 3, 0x20#8) ∧ Hub.atPowerOn.clock.loaded = false ∧
    (let q : DelayedOrder := ⟨⟨.m, 1#8, [1#8], 0⟩, true⟩
     (Instr.storeLock q).frameParts = some (q.toRequest, 3, 0x3C#8) ∧ classOf (.storeLock q) = some .calibration ∧
     loaded.holds .m .calibration = false ∧ (loaded.port .m).slot.repeats 0x3C#8 1#8 = false) ∧
    waitsForPost (.fetchMotion (req [])) = true ∧ classOf (.fetchMotion (req [])) = some .status ∧
    posted.admits .s .status = true ∧ (posted.port .s).posted ≠ none ∧
    waitsForPost (.postDriveDemand (req [])) = true ∧ posted.admits .s .demand = true := by decide +kernel

theorem witness_FetchCopiesItsRecord :
    (let h := { loaded with steering := { loaded.steering with midway := some ⟨2, .atReset, 7⟩ } }
     h.admits .s .status = true ∧ (h.port .s).posted = none ∧
     ((run (.fetchSteer (req [])) h).port .s).pending.payload.take 2 = [0#8, 7#8] ∧
     (run (.fetchSteer (req [])) h).steering.midway = some ⟨1, .atReset, 7⟩) ∧
    loaded.admits .m .status = true ∧ loaded.admits .b .status = true ∧
    loaded.admits .s .status = true ∧ ∀ p ∈ Port.all, (loaded.port p).posted = none := by decide +kernel
theorem pathOf_two_inv (a b : Int) (count : Word) : (pathOf [a, b] 999 count).Inv where
  depth := by simp [pathOf]
  r := by simp [pathOf]
  index i x h := by
    match i, h with
    | 0, h => simp [pathOf] at h ⊢; rw [← h]
    | 1, h => simp [pathOf] at h ⊢; rw [← h]
    | i + 2, h => simp [pathOf] at h
  absent := by simp [pathOf]
theorem witness_PathRecordsCopied :
    ({ loaded with path := pathOf [5, -6] 999 3 } : Hub).path.Inv ∧ loaded.admits .s .status = true ∧
    (req []).payload.length ≠ 1 ∧ (req [1#8]).payload = [1#8] ∧ 0 < min 16 (2 - (1#8).toNat) :=
  ⟨pathOf_two_inv _ _ _, by decide +kernel⟩
/-- Item 0, item 242 (sector 7's slot 18), and byte 255, which names no item. -/
theorem witness_StoreRecordsCopied : (req [0#8]).payload = [BitVec.ofNat 8 (32 * SectorId.s0.num + 0)] ∧
    (loaded.store.active.get .s0)[0]? = some ⟨52, .default⟩ ∧
    (req [242#8]).payload = [BitVec.ofNat 8 (32 * SectorId.s7.num + 18)] ∧
    (loaded.store.active.get .s7)[18]? = some ⟨7, .default⟩ ∧ (req [1#8, 2#8]).payload.length ≠ 1 ∧
    (∀ k ∈ SectorId.all, ∀ slot ∈ List.range 32, (req [255#8]).payload = [BitVec.ofNat 8 (32 * k.num + slot)] →
      (loaded.store.active.get k)[slot]? = none) ∧
    loaded.store.running = none ∧ loaded.store.read = none ∧
    (∀ op ∈ [StoreOp.read .s6 31, .write .s6 30 1, .close .s6, .lock .s6, .blank .s6, .clear .s6, .apply],
      (storing op 0 true).store.read.or (storing op 0 true).store.running = some ⟨op, .s, 0, true⟩) := by decide +kernel
/-- A sector's fields: 29 slots EMPTY, 2 WRITTEN and 1 TORN, closed, not locked, clear in progress, DEFAULTED. -/
theorem witness_StoreRecordsCopied_sectors :
    let x : Sector := ⟨[(0, .written 1), (5, .torn)], .written 1 1, false, true⟩
    let store := { loaded.store with sectors := loaded.store.sectors.set .s2 x }
    x.wf = true ∧ (∀ k ∈ SectorId.all, (loaded.sector k).wf = true) ∧
    store.sectorBytes .s2 = [29#8, 2#8, 1#8, 1#8, 0#8, 1#8, 1#8] := by decide +kernel
/-- A command that does not update the record: a pulse. -/
theorem witness_StoreRecordsCopied_update :
    ((storing (.clear .s6) 800 true).store.due.isSome = true ∧ completesStore (.wheelPulse .left .forward) = false) ∧
    (∃ t, exec (.wheelPulse .left .forward) (on loaded) = .next t) ∧
    (∀ inputs, Instr.wheelPulse .left .forward ≠ .activeSetLoad inputs) ∧
    classOf (.wheelPulse .left .forward) ≠ some .calibration ∧ loaded.store.due = none ∧
    Instr.wheelPulse .left .forward ≠ .powerOnReset :=
  ⟨by decide +kernel, answered_next _ _, fun _ h => (by cases h), by decide +kernel⟩

theorem witness_PostPlacesTheDemand : loaded.admits .s .demand = true ∧ (loaded.port .s).posted = none ∧
    (req [1#8, 2#8, 3#8, 4#8]).payload = [1#8, 2#8, 3#8, 4#8] ∧ (req [1#8, 2#8, 3#8]).payload.length ≠ 4 := by
  decide +kernel
theorem witness_ClearPathFlagClearsTheFlag :
    exec (.wheelPulse .left .reverse) (on loaded) = .next (on (run (.wheelPulse .left .reverse) loaded)) ∧
    loaded.admits .s .demand = true ∧ loaded.clock.loaded = true ∧ (loaded.path.backward loaded.wp).2 ≠ 0 ∧
    (loaded.events.routing.get .path).getLsbD (Port.s).num = true := ⟨exec_eq _ _, by decide +kernel⟩
theorem witness_MapAndRouteWrites : loaded.admits .s .supervision = true ∧ loaded.access.lock = false ∧
    locked.admits .s .supervision = true ∧ locked.access.lock = true ∧
    (req [2#8, 31#8]).payload = [BitVec.ofNat 8 (Port.s).num, 31#8] ∧ (31#8).toNat ≤ 31 ∧
    (∀ p ∈ Port.all, ∀ n ∈ List.range 32, (req [3#8, 31#8]).payload ≠ [BitVec.ofNat 8 p.num, BitVec.ofNat 8 n]) ∧
    (req [15#8, 7#8]).payload = [BitVec.ofNat 8 (EventKind.movePermit).num, 7#8] ∧ (7#8).toNat ≤ 7 ∧
    (∀ k ∈ EventKind.all, ∀ n ∈ List.range 8, (req [16#8, 7#8]).payload ≠ [BitVec.ofNat 8 k.num, BitVec.ofNat 8 n]) := by
  decide +kernel
theorem witness_LockedMapStands : exec .rstLine (on locked) = .next (on (run .rstLine locked)) ∧
    locked.access.lock = true ∧ locked.access.owed = false ∧ Instr.rstLine ≠ .powerOnReset ∧
    locked.admits .s .supervision = true := ⟨exec_eq _ _, by decide +kernel⟩
theorem witness_TakeRemovesTheOldest : loaded.clock.loaded = true ∧ 1 ≤ (1#8).toNat ∧ (8#8).toNat ≤ 8 ∧
    (req [1#8]).payload = [1#8] ∧ (0#8).toNat = 0 ∧ 8 < (9#8).toNat := by decide +kernel
/-- A first raise, a second one, and a kind that Port B's queue does not take. -/
theorem witness_RaiseCoalesces :
    let u := loaded.events
    let v := u.raise 5 .haltState 0 1
    (u.routing.get .haltState).getLsbD (Port.m).num = true ∧
    (∀ e ∈ u.queues.get .m, ¬(e.kind = .haltState ∧ e.subject = 0)) ∧
    v.queues.get .m = [] ++ ⟨.haltState, 0, 1, 5, 5, 1⟩ :: [] ∧ (u.routing.get .path).getLsbD (Port.b).num = false := by
  decide +kernel
theorem witness_AbandonEmptiesTheSlot : (storing (.clear .s2) 250 false).clock.loaded = true := by decide +kernel

/-- The loaded part with every class on every port. -/
def opened (h : Hub) : Hub := { h with access := { h.access with map := .fill 31#5 } }
theorem witness_DelayedOrderIsPlaced :
    storeOrder (.storeLock (order [1#8])) = some (req [1#8], .lock .s1) ∧
    loaded.admits .s .calibration = true ∧ (loaded.port .s).slot = .empty ∧ loaded.store.running = none ∧
    (let h := opened (storing (.clear .s2) 250 false)
     let q : Request := ⟨.b, 10#8, [3#8, 31#8], 0⟩
     storeOrder (.storeRead ⟨q, true⟩) = some (q, .read .s3 31) ∧ h.admits .b .calibration = true ∧
     (h.port .b).slot = .empty ∧ h.store.running = some ⟨.clear .s2, .s, 250, false⟩ ∧ h.store.read = none ∧
     SectorId.s2 ≠ .s3 ∧ storeOrder (.storeClose ⟨⟨.b, 10#8, [3#8], 0⟩, true⟩) = some (⟨.b, 10#8, [3#8], 0⟩, .close .s3)) ∧
    storeOrder (.apply (order [])) = some (req [], .apply) ∧ (halted .applied).sensing.standstill = .yes ∧
    (halted .applied).brake.halt = .applied ∧ (halted .applied).kneel.state = .ride := by decide +kernel
theorem witness_RepetitionCollectsTheOutcome :
    let rq : HeldRequest := ⟨.read .s2 4, 0x07#8, [2#8, 4#8]⟩
    let i := Instr.storeRead (order [9#8])
    i.frameParts = some (req [9#8], 3, 0x38#8) ∧ classOf i = some .calibration ∧ loaded.clock.loaded = true ∧
    ((slotted (.waiting rq)).port .s).slot = .waiting rq ∧ ((slotted (.running rq)).port .s).slot = .running rq ∧
    ((slotted (.done rq (.done []))).port .s).slot = .done rq (.done []) ∧ rq.op.code = 0x38#8 ∧ rq.tag = (req []).tag ∧
    (slotted (.waiting rq)).holds .s .calibration = true ∧
    ((slotted (.waiting rq)).port .s).slot.held? = some rq ∧
    storeOrder (.blankTest (order [7#8])) = some (req [7#8], .blank .s7) ∧ rq.op.code ≠ 0x3D#8 := by decide +kernel
theorem witness_DelayedOrderRefusedAtItsTake :
    let i := Instr.storeRead (order [7#8, 32#8])
    i.frameParts = some (req [7#8, 32#8], 3, 0x38#8) ∧ classOf i = some .calibration ∧ storeOrder i = none ∧
    loaded.admits .s .calibration = true ∧ (loaded.port .s).slot.repeats 0x38#8 0x07#8 = false ∧
    (Instr.apply (order [])).frameParts = some (req [], 3, 0x3E#8) ∧ cityA3.sensing.standstill ≠ .yes ∧
    loaded.sensing.standstill = .yes ∧ loaded.brake.halt ≠ .applied ∧
    (let h := { halted .applied with kneel := { Kneel.atReset with state := .knelt } }
     h.sensing.standstill = .yes ∧ h.brake.halt = .applied ∧ h.kneel.state ≠ .ride) := by decide +kernel
/-- The bounds of a payload: its length, sector 7 and 8, slot 31 and 32 of a read, 30 and 31 of a write, and its bytes. -/
theorem witness_DelayedOrderRefusedAtItsTake_bounds :
    (∀ k ∈ SectorId.all, k.num ≤ 7) ∧
    storeOrder (.storeRead (order [7#8, 31#8])) = some (req [7#8, 31#8], .read .s7 31) ∧
    storeOrder (.storeRead (order [7#8, 32#8])) = none ∧ storeOrder (.storeRead (order [8#8, 31#8])) = none ∧
    storeOrder (.storeRead (order [7#8])) = none ∧
    storeOrder (.storeWrite (order [7#8, 30#8, 1#8, 2#8])) = some (req [7#8, 30#8, 1#8, 2#8], .write .s7 30 0x0102#16) ∧
    storeOrder (.storeWrite (order [7#8, 31#8, 1#8, 2#8])) = none ∧
    storeOrder (.storeWrite (order [7#8, 30#8, 1#8])) = none ∧
    (∀ i ∈ [Instr.storeClear (req [8#8]) true, .storeClose (order [8#8]), .storeLock (order []), .blankTest (order [0#8, 0#8])],
      storeOrder i = none) ∧
    storeOrder (.storeClear (req [7#8]) true) = some (req [7#8], .clear .s7) := by decide +kernel
/-- Every operation at the moment it is due, and a port that has abandoned its own. -/
theorem witness_StoreOperationsComplete :
    (∀ op ∈ [StoreOp.read .s6 30, .write .s6 30 1, .close .s6, .lock .s6, .blank .s6, .clear .s6, .apply],
      (storing op op.duration false).store.read = none ∧
      (storing op op.duration false).store.running = some ⟨op, .s, op.duration, false⟩ ∧
      op.duration ≤ (⟨op, .s, op.duration, false⟩ : RunningOp).elapsed ∧
      ((storing op op.duration false).port .s).slot = .running ⟨op, 0x07#8, []⟩) ∧
    (storing .apply 20 false).brake.halt ≠ .applied ∧ (loaded.port .s).slot = .empty := by decide +kernel
theorem witness_ArbiterTakesByPriority :
    let rq : HeldRequest := ⟨.lock .s1, 1#8, [1#8]⟩
    let h := slotted (.waiting rq)
    h.store.running = none ∧ (h.port .s).slot = .waiting rq ∧ h.startRefusal rq.op = none ∧
    (∀ p' ∈ Port.all, ¬storePriority p' < storePriority .s) ∧
    (∀ p ∈ Port.all, (loaded.port p).slot = .empty) := by decide +kernel

/-- Port B's read of sector 3 in a suspension of Port S's clear, with a read of Port M waiting. -/
def suspended : Hub :=
  let h := storing (.clear .s2) 250 false
  { h with
    store := { h.store with read := some ⟨.read .s3 31, .b, 1, false⟩ }
    ports := (h.ports.set .b { h.port .b with slot := .running ⟨.read .s3 31, 10#8, [3#8, 31#8]⟩ }).set .m
      { h.port .m with slot := .waiting ⟨.read .s4 0, 11#8, [4#8, 0#8]⟩ } }
theorem witness_SuspendedReadCompletes : suspended.store.read = some ⟨.read .s3 31, .b, 1, false⟩ ∧
    suspended.store.running = some ⟨.clear .s2, .s, 250, false⟩ ∧
    (StoreOp.read .s3 31).duration ≤ 1 ∧ (suspended.port .b).slot = .running ⟨.read .s3 31, 10#8, [3#8, 31#8]⟩ ∧
    (suspended.port .m).slot = .waiting ⟨.read .s4 0, 11#8, [4#8, 0#8]⟩ ∧ SectorId.s4 ≠ .s2 ∧
    (suspended.port .s).slot = .running ⟨.clear .s2, 0x07#8, []⟩ := by decide +kernel
theorem witness_ApplyInstalls : let h := { storing .apply 20 false with brake := { Brake.atReset with halt := .applied } }
    h.store.read = none ∧ h.store.running = some ⟨.apply, .s, 20, false⟩ ∧
    (h.port .s).slot = .running ⟨.apply, 0x07#8, []⟩ ∧ h.sensing.standstill = .yes ∧ h.brake.halt = .applied ∧
    h.kneel.state = .ride ∧
    (let abandoned := { h with ports := h.ports.set .s .atReset }
     (abandoned.port .s).slot = .empty ∧ ((run (.applyCompletion false) abandoned).port .s).slot = .empty ∧
     (run (.applyCompletion false) abandoned).store.loads = h.store.loads + 1) := by decide +kernel
/-- A clear that started with the DEPOT line active, on its locked sector. -/
def clearing : Hub :=
  let h := storing (.clear .s6) 800 true
  { h with store := { h.store with sectors := h.store.sectors.set .s6 { doorSector with clearing := true, lock := true } } }
theorem witness_SectorsKeptAndLocked :
    exec (.storeClearCompletion true) (on clearing) = .next (on (run (.storeClearCompletion true) clearing)) ∧
    (clearing.sector .s6).lock = true ∧ ((run (.storeClearCompletion true) clearing).sector .s6).lock = false ∧
    classOf (.haltOn (req [])) ≠ some .calibration ∧ loaded.store.due = none ∧ clearing.store.due.isSome = true ∧
    completesStore (.haltOn (req [])) = false := ⟨exec_eq _ _, by decide +kernel⟩

theorem witness_ConversionsAndPlausibility : (-4500 : Int) ≤ 4500 ∧
    convert (2048, 5120) (-4500) 4500 204#12 = none ∧ convert (2048, 5120) (-4500) 4500 3891#12 = none ∧
    convert (2048, 5120) (-4500) 4500 205#12 = some (-4500) ∧ (0 : Int) ≤ 0 ∧ Pair.atReset.state ≠ .fault ∧
    Pair.atReset.unusable + 1 < 3 ∧ 3 ≤ ({ Pair.atReset with unusable := 2 } : Pair).unusable + 1 ∧
    ({ Pair.atReset with state := .fault, good := 49 } : Pair).state = .fault ∧
    ({ Pair.atReset with state := .fault } : Pair).good = 0 ∧ (List.replicate 49 (7 : Int)).length = 49 ∧
    Single.atReset.fault = false ∧ 3 ≤ ({ Single.atReset with invalid := 2 } : Single).invalid + 1 ∧
    ({ Single.atReset with fault := true, good := 49 } : Single).fault = true ∧
    ({ Single.atReset with fault := true } : Single).good = 0 := by decide +kernel
theorem witness_ConversionsAndPlausibility_interrupting (b : Bool) :
    (∀ v, Conversion.single 7 b ≠ .agree v) ∧ ∀ v, Conversion.unusable ≠ .agree v := ⟨nofun, nofun⟩

/-- Results that are valid on every entry but C3's height. -/
def heightLost : ScanResults :=
  ⟨⟨2600#12, 2600#12⟩, .fill ⟨2048#12, 2048#12⟩, PerCircuit.set (.fill 2048#12) .c3 204#12, .fill 205#12, 3890#12,
    .fill 205#12⟩
/-- The part at a due scan round whose invalid height of C3 is the third in a row. -/
def losingHeight : Hub :=
  { loaded with
    sensing := { loaded.sensing with
      scanTimer := .running 20, heights := loaded.sensing.heights.set .c3 ⟨0, false, 2, 0⟩ } }
/-- Levelling at rest has the form of `Levelling.Inv`. -/
theorem resting_inv (u : Levelling) (hs : ∀ i ∈ FillSlot.all, u.slots.get i = none) (hq : u.queue = [])
    (ha : ∀ c ∈ Circuit.all, (u.circuits.get c).action ≠ .fill ∧ (u.circuits.get c).action ≠ .fillWait)
    (hc : ∀ c ∈ Circuit.all, (u.circuits.get c).causes.any = true → (u.circuits.get c).action = .excluded) : u.Inv := by
  have hs' : ∀ i, u.slots.get i = none := fun i => hs i (by cases i <;> decide)
  have ha' := fun c => ha c (by cases c <;> decide)
  have hc' := fun c => hc c (by cases c <;> decide)
  exact {
    held := fun i x h => by simp [hs'] at h
    filling := fun c h => absurd h (ha' c).1
    oneSlot := fun i j x y h => by simp [hs'] at h
    queued := by simp [hq]
    waiting := fun c h => absurd h (ha' c).2
    oneEntry := by simp [hq]
    ordered := by simp [hq]
    cutFree := fun _ => hs'
    served := fun _ => .inl hq
    excluded := hc' }
theorem losingHeight_inv : losingHeight.level.Inv :=
  resting_inv _ (by decide +kernel) rfl (by decide +kernel) (by decide +kernel)
theorem witness_ScanRoundPublishes : losingHeight.level.Inv ∧ losingHeight.sensing.scanTimer.due scanPeriod = true ∧
    (losingHeight.sensing.heights.get .c3).fault = false ∧
    ((run (.scanRound heightLost) losingHeight).sensing.heights.get .c3).fault = true :=
  ⟨losingHeight_inv, by decide +kernel⟩
/-- The part at a due scan round with its reservoir entry and cut as given, the fill slots empty. -/
def breathing (cut : Bool) (cause : CutCause) (reservoir : Single) : Hub :=
  { loaded with
    sensing := { loaded.sensing with scanTimer := .running 20, reservoir := reservoir }
    level := { Levelling.atReset with cut := cut, cutCause := cause } }
/-- A round of valid results whose reservoir result is as given: 3,890 gives 1,299 kPa, 1,985 gives 627, 1,907 gives
600 and 1,906 gives 599 (R4, R5). -/
def reservoirRound (raw : Raw) : ScanResults := { heightLost with heights := .fill 2048#12, reservoir := raw }
/-- Each way of the air cut, with what it leaves: begins at 599 kPa and at a FAULT, stays lifted at 600; lifts at 1,299
and not at 627; SENSOR at a FAULT; LOW_PRESSURE after START, and after a FAULT that ends. -/
theorem witness_SensorFaultsAndAirCut :
    let cutAfter (cut : Bool) (cause : CutCause) (x : Single) (raw : Raw) : Bool × CutCause × Nat :=
      let t := run (.scanRound (reservoirRound raw)) (breathing cut cause x)
      (t.level.cut, t.level.cutCause, (t.events.ofKind .s .airLow).length)
    (breathing true .start .atReset).level.Inv ∧ (breathing false .start .atReset).level.Inv ∧
    (breathing true .start .atReset).sensing.scanTimer.due scanPeriod = true ∧
    cutAfter false .start .atReset 1906#12 = (true, .lowPressure, 1) ∧
    cutAfter false .start .atReset 1907#12 = (false, .start, 0) ∧
    cutAfter false .start ⟨900, false, 2, 0⟩ 204#12 = (true, .sensor, 1) ∧
    cutAfter true .start .atReset 3890#12 = (false, .start, 0) ∧
    cutAfter true .lowPressure .atReset 1985#12 = (true, .lowPressure, 0) ∧
    cutAfter true .start ⟨900, false, 2, 0⟩ 100#12 = (true, .sensor, 1) ∧
    cutAfter true .start .atReset 1985#12 = (true, .lowPressure, 1) ∧
    cutAfter true .sensor ⟨0, true, 0, 49⟩ 1985#12 = (true, .lowPressure, 0) :=
  ⟨resting_inv _ (by decide +kernel) rfl (by decide +kernel) (by decide +kernel),
    resting_inv _ (by decide +kernel) rfl (by decide +kernel) (by decide +kernel), by decide +kernel⟩
/-- The events of the three kinds of sensor fault: a pair SINGLE with its second entry invalid, a pair in FAULT, a height
in FAULT; and a height entry back from FAULT. -/
theorem witness_SensorFaultsAndAirCut_events :
    let h := { losingHeight with
      sensing := { losingHeight.sensing with
        joints := ⟨.atReset, ⟨0, .ok, 2, 0, true⟩⟩
        heights := losingHeight.sensing.heights.set .c4 ⟨0, true, 0, 49⟩ } }
    let t := run (.scanRound { heightLost with
      steer := ⟨2600#12, 0#12⟩, joints := ⟨⟨2048#12, 2048#12⟩, ⟨0#12, 0#12⟩⟩ }) h
    (t.events.ofKind .m .sensorFault).map (fun e => (e.subject, e.value)) = [(1, 1#16), (3, 4#16), (4, 8#16)] ∧
    (h.sensing.heights.get .c4).fault = true ∧ (t.sensing.heights.get .c4).fault = false := by decide +kernel
/-- Below the 500th tenth, at it, at standstill FALSE, and from UNSETTLED, with a circuit's activity to judge. -/
theorem witness_WheelPulseCounted :
    let at' (n : Nat) : Sensing := { loaded.sensing with distance := n }
    loaded.clock.loaded = true ∧ (at' 447).distance + loaded.wp < 500 ∧ 500 ≤ (at' 448).distance + loaded.wp ∧
    (at' 448).standstill = .yes ∧ cityA3.sensing.standstill = .no ∧
    (let h := { loaded with
       sensing := { at' 448 with standstill := .unsettled }
       brake := { loaded.brake with axles := .fill { loaded.axleBrake .a1 with activity := .on } } }
     let t := run (.wheelPulse .left .forward) h
     t.sensing.standstill = .no ∧ (t.axleBrake .a2).activity = .after 500 ∧ t.kneel = h.kneel ∧
     (t.events.ofKind .s .standstill).map (fun e => (e.subject, e.value)) = [(0, 2#16)]) := by decide +kernel
theorem witness_TravelAndDirection :
    exec (.wheelPulse .right .reverse) (on loaded) = .next (on (run (.wheelPulse .right .reverse) loaded)) := exec_eq _ _
/-- Standstill at a due quiet expiry, at the 500th tenth, and at a reset. -/
def quieting : Hub := { cityA3 with sensing := { cityA3.sensing with quiet := .running 10000 } }
def leaving : Hub := { loaded with sensing := { loaded.sensing with distance := 448 } }
theorem witness_StandstillChanges :
    (exec .quietTimerExpiry (on quieting) = .next (on (run .quietTimerExpiry quieting)) ∧
      (run .quietTimerExpiry quieting).sensing.standstill ≠ quieting.sensing.standstill) ∧
    (exec (.wheelPulse .left .forward) (on leaving) = .next (on (run (.wheelPulse .left .forward) leaving)) ∧
      (run (.wheelPulse .left .forward) leaving).sensing.standstill ≠ leaving.sensing.standstill) ∧
    (exec .rstLine (on loaded) = .next (on (run .rstLine loaded)) ∧
      (run .rstLine loaded).sensing.standstill ≠ loaded.sensing.standstill) ∧
    (∀ q code, Instr.quietTimerExpiry ≠ .take q code) ∧ resetsPart quieting .quietTimerExpiry = false :=
  ⟨⟨exec_eq _ _, by decide +kernel⟩, ⟨exec_eq _ _, by decide +kernel⟩, ⟨exec_eq _ _, by decide +kernel⟩,
    nofun, by decide +kernel⟩
/-- A handle that waits at speed, at v_emerg exactly and above it; an open door, and a release WAITING under an APPLIED
halt brake, at a change to standstill. -/
def rolling (sum : Nat) : Hub :=
  { loaded with
    sensing := { loaded.sensing with
      standstill := .no, speedTimer := .running 200, quiet := .running 10000, buckets := ⟨sum, 0, 0, 0, 0, 0⟩ }
    doors := { loaded.doors with doors := loaded.doors.doors.set .d1 { loaded.door .d1 with atSpeed := true } } }
def opening (x : HaltState) : Hub :=
  let h := { rolling 0 with brake := { Brake.atReset with halt := x } }
  (doored .d2 (fun y => { y with release := .waiting, position := .opened }) h)
theorem witness_SpeedAndQuietExpiries : (rolling 833).sensing.speedTimer.due speedPeriod = true ∧
    min 25000 833 ≤ (rolling 833).vEmerg ∧ (rolling 834).vEmerg < min 25000 834 ∧
    ((rolling 833).door .d1).atSpeed = true ∧ ((rolling 833).door .d2).atSpeed = false ∧
    (∀ d ∈ Door.all, (loaded.door d).atSpeed = false) ∧
    (opening .applied).sensing.quiet.due quietTime = true ∧ (opening .applied).sensing.standstill ≠ .yes ∧
    (opening .applied).brake.halt = .applied ∧ ((opening .applied).door .d2).release = .waiting ∧
    (opening .released).doorsLocked = false ∧ (rolling 0).doorsLocked = true ∧ (opening .applied).brake.halt ≠ .released ∧
    ({ loaded.sensing with quiet := .running 10000 } : Sensing).standstill = .yes := by decide +kernel
theorem witness_TravelMovesThePath : (pathOf [5, -6] 999 3).Inv ∧
    (pathOf [5, -6] 999 3).samples.length + ((pathOf [5, -6] 999 3).r + 2000) / 1000 ≤ 256 ∧
    (2999 - (pathOf [5, -6] 999 3).r + 999) / 1000 ≤ (pathOf [5, -6] 999 3).samples.length ∧
    (pathOf [5, -6] 999 3).samples.length < (3000 - (pathOf [5, -6] 999 3).r + 999) / 1000 :=
  ⟨pathOf_two_inv _ _ _, by decide +kernel⟩
theorem witness_LagLookup : (pathOf [5, -6] 999 3).r ≤ 999 ∧ (1000 : Int) ≤ 1000 ∧
    (let p := pathOf (List.replicate 9 0 ++ [5, -6]) 999 11
     p.samples[9]? = some ⟨2, some 5⟩ ∧ p.samples[10]? = some ⟨1, some (-6)⟩ ∧
     ((10 * 1000 - (p.r : Int)) / 1000).toNat = 9) := by decide +kernel

/-- A part with A3 as given at a due steering expiry. -/
def steered (a : AxleSteer) : Hub := { cityA3 with steering := { cityA3.steering with axles := ⟨a, .atReset⟩ } }
/-- A3 initialised, with a setpoint, a measured angle and a tracking time. -/
def axle (setpoint measured : Int) (tracking : Count) : AxleSteer :=
  ⟨true, some .follow, none, some setpoint, true, some measured, tracking, none, none, none⟩
theorem witness_SteeringPeriod : cityA3.steering.timer.due steeringPeriod = true ∧
    ((steered { axle 0 0 .stopped with mode := some .failed }).axleSteer .a3).mode = some .failed ∧
    (AxleSteer.atReset.mode ≠ some .failed ∧ AxleSteer.atReset.initialised = false ∧ AxleSteer.atReset.measured = none) ∧
    ({ AxleSteer.atReset with measured := some (-2500) } : AxleSteer).measured = some (-2500) ∧
    (300 < ((axle 0 301 (.running 490)).setpoint.getD 0 - (axle 0 301 (.running 490)).measured.getD 0).natAbs ∧
      (axle 0 301 (.running 490)).tracking = .running 490) ∧
    ¬300 < ((axle 0 300 (.running 490)).setpoint.getD 0 - (axle 0 300 (.running 490)).measured.getD 0).natAbs ∧
    (axle 0 301 (.running 489)).tracking = .running 489 := by decide +kernel
def failedA3 : Hub := steered { axle 0 0 .stopped with mode := some .failed, cause := some .device, enable := false }
theorem witness_SetpointMovesAndFailedStays :
    exec .steeringTimerExpiry (on cityA3) = .next (on (run .steeringTimerExpiry cityA3)) ∧
    exec (.applyCompletion false) (on failedA3) = .next (on (run (.applyCompletion false) failedA3)) ∧
    resetsPart cityA3 .steeringTimerExpiry = false ∧ 0 ≤ cityA3.rateMax .a3 ∧
    (cityA3.axleSteer .a3).initialised = true ∧ (cityA3.axleSteer .a3).setpoint = some (-1200) ∧
    (∀ depot, Instr.steeringTimerExpiry ≠ .applyCompletion depot) ∧
    resetsPart failedA3 (.applyCompletion false) = false ∧ (failedA3.axleSteer .a3).mode = some .failed :=
  ⟨exec_eq _ _, exec_eq _ _, by decide +kernel⟩
/-- A part at a due joint expiry with J1 as given and its pair's angle. -/
def jointed (x : JointHold) (angle : Int) : Hub :=
  { foldingJ2 with
    sensing := { foldingJ2.sensing with joints := ⟨⟨angle, .ok, 0, 0, true⟩, Pair.atReset⟩, speed := 1500 }
    joints := { foldingJ2.joints with joints := ⟨x, .atReset⟩ } }
/-- The states and angles at the bounds of R57 to R60: 2,500 and 2,300; 4,800 and 4,500; a hold of 290 and of 289. -/
theorem witness_JointPeriod : foldingJ2.joints.timer.due jointPeriod = true ∧
    ({ Pair.atReset with state := .fault } : Pair).state = .fault ∧
    ({ JointHold.atReset with state := .sensorLost } : JointHold).state = .sensorLost ∧
    (∀ angle ∈ [(2499 : Int), 2500, 2300, 2299, 4799, 4800, 4500, 4499, -4800],
      ∀ x ∈ [{ JointHold.atReset with state := .watch, phiPrev := some (angle - 20) },
        { JointHold.atReset with state := .limit }, { JointHold.atReset with state := .stretch, hold := .running 290 }],
      ((jointed x angle).sensing.joints.get .j1).state ≠ .fault ∧ ((jointed x angle).joints.joints.get .j1).state = x.state ∧
      (jointed x angle).phiWarn = 2500 ∧ (jointed x angle).phiLimit = 4800) ∧
    (let h := jointed { JointHold.atReset with state := .watch, phiPrev := some 2480 } 2500
     ((run .jointTimerExpiry h).joints.joints.get .j1).growing = true ∧ h.vStretch ≤ (h.sensing.speed : Int) ∧
     ((run .jointTimerExpiry h).joints.joints.get .j1).state = .stretch) ∧
    (let h := jointed { JointHold.atReset with state := .stretch, hold := .running 290 } 2299
     ((run .jointTimerExpiry h).joints.joints.get .j1).growing = false ∧
     ((run .jointTimerExpiry h).joints.joints.get .j1).state = .free) := by decide +kernel

/-- Freezes that end at this period and that do not, an axle in BACKUP, a HOLDING demand. -/
theorem witness_BrakePeriodCommands : brakingA3.brake.timer.due brakePeriod = true ∧
    (run .brakeTimerExpiry brakingA3).brake.status = .fresh ∧
    ((run .brakeTimerExpiry brakingA3).axleBrake .a3).mode = .electronic ∧
    (let h := { losingA3 with brake := { losingA3.brake with age := .running 100, status := .fresh } }
     (run .brakeTimerExpiry h).brake.status = .holding ∧ ((run .brakeTimerExpiry h).axleBrake .a3).mode = .electronic) ∧
    ((run .brakeTimerExpiry losingA3).axleBrake .a3).mode = .backup ∧
    (let h := { brakingA3 with brake := { brakingA3.brake with kneelFreeze := .after 6 } }
     ((run .brakeTimerExpiry h).axleBrake .a3).frozen = true) ∧
    (let h := { brakingA3 with brake := { brakingA3.brake with kneelFreeze := .after 5 } }
     ((run .brakeTimerExpiry h).axleBrake .a3).frozen = false) ∧
    (let h := { brakingA3 with brake := { brakingA3.brake with halt := .applied } }
     (run .brakeTimerExpiry h).brake.halt ≠ .released ∧ h.haltAxle .a3 = true) ∧
    (run .brakeTimerExpiry brakingA3).brake.drive = brakingA3.brake.drive ∧
    (let h := { brakingA3 with ports := posted.ports, joints := foldingJ2.joints }
     h.brake.timer.due brakePeriod = true ∧ (run .brakeTimerExpiry h).brake.drive ≠ h.brake.drive ∧
     h.link.lines.torque = h.joints.torqueCut) ∧
    brakingA3.brake.halt ≠ .applying := by decide +kernel
/-- The part at a due brake expiry in APPLYING, with every brake pressure as given. -/
def applying (pressure : Int) (n : Nat) : Hub :=
  { loaded with
    sensing := { loaded.sensing with brakes := .fill ⟨pressure, false, 0, 0⟩ }
    brake := { Brake.atReset with halt := .applying, applying := .running n, timer := .running 50 } }
/-- A demand taken and none posted; the demand just before, at and after 300 ms; every halt axle confirmed, and the first
one not confirmed just before and at 1,500 ms. -/
theorem witness_BrakePeriodDemandAndHalt :
    (let h := { posted with brake := { Brake.atReset with timer := .running 50, age := .running 295 } }
     h.brake.timer.due brakePeriod = true ∧ (h.port .s).posted = some ⟨41#8, 2500#16, 1#8⟩ ∧
     ∀ p' ∈ Port.all, ¬storePriority p' < storePriority .s) ∧
    brakingA3.brake.timer.due brakePeriod = true ∧ (∀ p ∈ Port.all, (brakingA3.port p).posted = none) ∧
    Brake.atReset.age = .stopped ∧ losingA3.brake.age = .running 295 ∧ losingA3.brake.lastSeq = some 41 ∧
    (∀ n ∈ [294, 295, 300], (run .brakeTimerExpiry { losingA3 with brake := { losingA3.brake with age := .running n } }
      ).brake.age = .running (if n = 300 then 300 else n + 5)) ∧
    (applying 250 0).brake.timer.due brakePeriod = true ∧ (applying 250 0).brake.halt = .applying ∧
    (∀ k ∈ Axle.all, ((applying 250 0).sensing.brakes.get k).fault = false ∧
      (applying 250 0).phaltMin ≤ ((applying 250 0).sensing.brakes.get k).value) ∧
    (applying 249 1495).brake.applying = .running 1495 ∧ (applying 249 1494).brake.applying = .running 1494 ∧
    (applying 249 1495).brake.haltFault = false ∧ (applying 249 1495).haltAxle .a2 = true ∧
    ¬(applying 249 1495).phaltMin ≤ ((applying 249 1495).sensing.brakes.get .a2).value ∧
    (∀ k' ∈ Axle.all, k'.num < (Axle.a2).num → (applying 249 1495).haltAxle k' = false) ∧
    ((run .brakeTimerExpiry (applying 249 1495)).events.ofKind .m .haltFault).map EventEntry.value = [2#16] ∧
    (run .brakeTimerExpiry (applying 249 1494)).events.ofKind .m .haltFault = [] ∧
    brakingA3.brake.halt ≠ .applying ∧ (applying 250 0).sensing.standstill = .yes := by decide +kernel
theorem witness_HaltOrders : loaded.admits .s .demand = true ∧ loaded.brake.halt = .released ∧
    ({ loaded with sensing := { loaded.sensing with speed := 834 } } : Hub).vEmerg < 834 ∧ 833 ≤ loaded.vEmerg ∧
    (halted .applying).admits .s .demand = true ∧ (halted .applying).brake.halt ≠ .released ∧
    (∀ d ∈ Door.all, ((halted .applying).door d).position = .closedLocked ∧
      ((halted .applying).door d).debounced.handle = false ∧ ((halted .applying).door d).release = .withdrawn) ∧
    (halted .applying).kneel.state = .ride ∧
    ((doored .d5 (fun x => { x with release := .waiting }) (halted .applied)).door .d5).release ≠ .withdrawn := by
  decide +kernel
/-- The three ways: by an order, by a confirmation, by an order again. -/
theorem witness_HaltStateChanges :
    (exec (.haltOn (req [])) (on loaded) = .next (on (run (.haltOn (req [])) loaded)) ∧
      (run (.haltOn (req [])) loaded).brake.halt ≠ loaded.brake.halt) ∧
    (exec .brakeTimerExpiry (on (applying 250 0)) = .next (on (run .brakeTimerExpiry (applying 250 0))) ∧
      (run .brakeTimerExpiry (applying 250 0)).brake.halt ≠ (applying 250 0).brake.halt) ∧
    (exec (.haltOff (req [])) (on (halted .applied)) = .next (on (run (.haltOff (req [])) (halted .applied))) ∧
      (run (.haltOff (req [])) (halted .applied)).brake.halt ≠ (halted .applied).brake.halt) :=
  ⟨⟨exec_eq _ _, by decide +kernel⟩, ⟨exec_eq _ _, by decide +kernel⟩, ⟨exec_eq _ _, by decide +kernel⟩⟩

/-- The entry of the freezes: a KNEEL, a completed RAISE, an axle that becomes active and one that ceases to be. -/
theorem witness_BrakePeriodCommands_freeze :
    let active (h : Hub) (k : Axle) : Bool := h.axleActive k
    (∀ k ∈ Axle.all, ((halted .applied).axleBrake k).activity = .off ∧ active (halted .applied) k = false) ∧
    (run (.kneel (req [])) (halted .applied)).brake.kneelFreeze = .on ∧
    (let h := { loaded with
       sensing := { loaded.sensing with rounds := 1 }, kneel := { Kneel.atReset with state := .raising }
       level := { Levelling.atReset with timer := .running 500 } }
     (run .levellingTimerExpiry h).brake.kneelFreeze = .after 2000) ∧
    (let h (height : Int) (action : Action) (activity : Freeze) : Hub := { loaded with
       sensing := { loaded.sensing with rounds := 1, heights := loaded.sensing.heights.set .c2 ⟨height, false, 0, 0⟩ }
       brake := { Brake.atReset with
         axles := Brake.atReset.axles.set .a1 { AxleBrake.atReset with activity := activity } }
       level := { Levelling.atReset with
         timer := .running 500
         circuits := Levelling.atReset.circuits.set .c2 { CircuitLevel.atReset with action := action } } }
     active (h 13 .hold .off) .a1 = false ∧
     ((run .levellingTimerExpiry (h 13 .hold .off)).axleBrake .a1).activity = .on ∧
     active (h 6 .vent .on) .a1 = true ∧
     ((run .levellingTimerExpiry (h 6 .vent .on)).axleBrake .a1).activity = .after 500) := by decide +kernel

/-- A part at a due levelling expiry at standstill, C2 at a height as given, in the action given. -/
def levelled (height : Int) (action : Action) : Hub :=
  { loaded with
    sensing := { loaded.sensing with rounds := 1, heights := loaded.sensing.heights.set .c2 ⟨height, false, 0, 0⟩ }
    level := { Levelling.atReset with
      timer := .running 500
      circuits := Levelling.atReset.circuits.set .c2 { CircuitLevel.atReset with action := action } } }
/-- The same in FILL, holding slot F1. -/
def filling (height : Int) : Hub :=
  let h := levelled height .fill
  { h with level := { h.level with cut := false, slots := ⟨some ⟨.c2, 0, 1, 2⟩, none, none⟩ } }
theorem filling_inv (height : Int) : (filling height).level.Inv where
  held i x h := by
    cases i
    · have : (⟨.c2, 0, 1, 2⟩ : HeldSlot) = x := Option.some.inj h
      subst this; rfl
    · exact nomatch h
    · exact nomatch h
  filling c h := by
    cases c
    case c2 => exact ⟨.f1, _, rfl, rfl⟩
    all_goals exact nomatch h
  oneSlot i j x y hi hj _ :=
    match i, j, hi, hj with
    | .f1, .f1, _, _ => rfl
    | .f2, _, hi, _ => nomatch hi
    | .f3, _, hi, _ => nomatch hi
    | .f1, .f2, _, hj => nomatch hj
    | .f1, .f3, _, hj => nomatch hj
  queued e h := nomatch h
  waiting c h := by cases c <;> exact nomatch h
  oneEntry := List.Pairwise.nil
  ordered := List.Pairwise.nil
  cutFree h := nomatch h
  served _ := .inl rfl
  excluded c h := by cases c <;> exact nomatch h
/-- The bounds of ride band 12: 12 and 13, -12 and -13 in HOLD; -6 and -7 in FILL; 6 and 7 in VENT. -/
theorem witness_LevellingPeriod :
    (levelled 13 .hold).level.Inv ∧ (levelled 6 .vent).level.Inv ∧ (filling (-6)).level.Inv ∧
    (∀ height ∈ [(12 : Int), 13, -12, -13], ∀ c ∈ [levelled height .hold],
      c.level.timer.due levellingPeriod = true ∧ c.scopeSide = true ∧ c.kneel.state = .ride ∧
      c.sensing.standstill = .yes ∧ (c.circuit .c2).reason = .none ∧ (c.circuit .c2).source = .ride ∧ c.dbRide = 12 ∧
      ((run .levellingTimerExpiry c).circuit .c2).error = some height) ∧
    (filling (-6)).level.timer.due levellingPeriod = true ∧ ((filling (-6)).circuit .c2).action = .fill ∧
    ((run .levellingTimerExpiry (filling (-6))).circuit .c2).error = some (-6) ∧
    ((run .levellingTimerExpiry (filling (-6))).circuit .c2).action = .hold ∧
    ((run .levellingTimerExpiry (filling (-7))).circuit .c2).action = .fill ∧
    ((run .levellingTimerExpiry (levelled 6 .vent)).circuit .c2).action = .hold ∧
    ((run .levellingTimerExpiry (levelled 7 .vent)).circuit .c2).action = .vent :=
  ⟨resting_inv _ (by decide +kernel) rfl (by decide +kernel) (by decide +kernel),
    resting_inv _ (by decide +kernel) rfl (by decide +kernel) (by decide +kernel), filling_inv _, by decide +kernel⟩
/-- Levelling that passes these checks has the form of `Levelling.Inv`. -/
theorem checked_inv (u : Levelling)
    (hs : ∀ i ∈ FillSlot.all, ∀ x ∈ (u.slots.get i).toList, (u.circuits.get x.circuit).action = .fill ∧
      ∀ j ∈ FillSlot.all, ∀ y ∈ (u.slots.get j).toList, x.circuit = y.circuit → i = j)
    (hc : ∀ c ∈ Circuit.all,
      ((u.circuits.get c).action = .fill → ∃ i ∈ FillSlot.all, ∃ x ∈ (u.slots.get i).toList, x.circuit = c) ∧
      ((u.circuits.get c).action = .fillWait → ∃ e ∈ u.queue, e.circuit = c) ∧
      ((u.circuits.get c).causes.any = true → (u.circuits.get c).action = .excluded))
    (hq : (∀ e ∈ u.queue, (u.circuits.get e.circuit).action = .fillWait) ∧
      u.queue.Pairwise (fun a b => a.circuit ≠ b.circuit) ∧ u.queue.Pairwise fun a b => a.cls ≤ b.cls)
    (hg : (u.cut = true → ∀ i ∈ FillSlot.all, u.slots.get i = none) ∧
      (u.cut = false → u.queue = [] ∨ ∀ i ∈ FillSlot.all, u.slots.get i ≠ none)) : u.Inv := by
  have slot (i : FillSlot) : i ∈ FillSlot.all := by cases i <;> decide
  have circuit (c : Circuit) : c ∈ Circuit.all := by cases c <;> decide
  exact {
    held := fun i x h => (hs i (slot i) x (by simp [h])).1
    filling := fun c h => by
      obtain ⟨i, -, x, hx, rfl⟩ := (hc c (circuit c)).1 h
      exact ⟨i, x, by simpa using hx, rfl⟩
    oneSlot := fun i j x y hx hy => (hs i (slot i) x (by simp [hx])).2 j (slot j) y (by simp [hy])
    queued := hq.1
    waiting := fun c h => (hc c (circuit c)).2.1 h
    oneEntry := hq.2.1
    ordered := hq.2.2
    cutFree := fun h i => hg.1 h i (slot i)
    served := fun h => (hg.2 h).imp_right fun k i => k i (slot i)
    excluded := fun c h => (hc c (circuit c)).2.2 h }
/-- C2, C4 and C6 fill at the given hold time and C7 waits behind them, all at an error as given. -/
def crowded (time : Nat) (error : Int) : Hub :=
  let acts (a : Action) : CircuitLevel := { CircuitLevel.atReset with action := a }
  { loaded with
    sensing := { loaded.sensing with rounds := 1, distance := 490, heights := .fill ⟨error, false, 0, 0⟩ }
    level := { Levelling.atReset with
      timer := .running 500, cut := false, grants := 4, queue := [⟨.c7, 1⟩]
      slots := ⟨some ⟨.c2, time, 1, 1⟩, some ⟨.c4, time, 2, 1⟩, some ⟨.c6, time, 3, 1⟩⟩
      circuits := ((((PerCircuit.fill .atReset).set .c2 (acts .fill)).set .c4 (acts .fill)).set .c6 (acts .fill)).set .c7
        (acts .fillWait) } }
/-- The queue and slots after a period: a wait that ends; stops that hand their slots on; full slots that stay; slots at
20,000 ms, which go to C7, C2 and C4 ahead of C6 and of the circuits that start. -/
theorem witness_LevellingPeriod_queue :
    (crowded 0 (-6)).level.Inv ∧ (crowded 0 (-7)).level.Inv ∧ (crowded 19950 (-13)).level.Inv ∧
    (let u := (run .levellingTimerExpiry (crowded 0 (-6))).level
     u.queue = [] ∧ u.slots = ⟨none, none, none⟩ ∧ (u.circuits.get .c7).action = .hold) ∧
    (let u := (run .levellingTimerExpiry (crowded 0 (-7))).level
     u.queue = [⟨.c7, 1⟩] ∧ u.slots = ⟨some ⟨.c2, 50, 1, 1⟩, some ⟨.c4, 50, 2, 1⟩, some ⟨.c6, 50, 3, 1⟩⟩) ∧
    (let u := (run .levellingTimerExpiry (crowded 19950 (-13))).level
     u.slots = ⟨some ⟨.c7, 0, 4, 1⟩, some ⟨.c2, 0, 5, 1⟩, some ⟨.c4, 0, 6, 1⟩⟩ ∧ u.grants = 7 ∧
     u.queue = [⟨.c6, 1⟩, ⟨.c1, 1⟩, ⟨.c3, 1⟩, ⟨.c5, 1⟩, ⟨.c8, 1⟩]) := by
  refine ⟨?_, ?_, ?_, by decide +kernel⟩ <;> apply checked_inv <;> decide +kernel
/-- A kneel that completes: every circuit in scope within the kneel band 8; and the RAISE source at the entry into RIDE. -/
theorem witness_LevellingPeriod_kneel :
    let h := { levelled 8 .hold with kneel := { Kneel.atReset with state := .lowering } }
    h.level.timer.due levellingPeriod = true ∧ h.kneel.state = .lowering ∧ h.dbKneel = 8 ∧
    (run .levellingTimerExpiry h).kneel.state = .knelt ∧
    (run .levellingTimerExpiry { levelled 9 .hold with kneel := h.kneel }).kneel.state = .lowering ∧
    (run .levellingTimerExpiry { levelled 12 .hold with kneel := { h.kneel with state := .raising } }).kneel.state = .ride ∧
    (let raising (height : Int) := run .levellingTimerExpiry { levelled height .hold with
       kneel := { h.kneel with state := .raising }
       level := { (levelled height .hold).level with circuits := .fill { CircuitLevel.atReset with source := .raise } } }
     ((raising 12).circuit .c2).source = .ride ∧ ((raising 13).circuit .c2).source = .raise) := by decide +kernel
/-- The part with C2 as given and its neighbours 40 mm higher or lower, a kneel lowering. -/
def kneeling (middle : Int) (x : CircuitLevel) : Hub :=
  let h := levelled 0 .hold
  { h with
    kneel := { Kneel.atReset with state := .lowering }
    sensing := { h.sensing with
      heights := (h.sensing.heights.set .c4 ⟨0, false, 0, 0⟩).set .c6 ⟨middle, false, 0, 0⟩ }
    level := { h.level with circuits := h.level.circuits.set .c2 x } }
/-- A road circuit with a count of deviations to one side. -/
def drifting (count : Nat) (decel : Nat) : Hub :=
  { sinkingC7 with
    brake := { Brake.atReset with decel := decel }
    level := { sinkingC7.level with
      circuits := sinkingC7.level.circuits.set .c7 { sinkingC7.circuit .c7 with count := count } } }
/-- C2's slot at its last period, in the mismatch hold of a kneel that lowers, at a gap as given. -/
def lastPeriod (middle : Int) : Hub :=
  let h := kneeling middle { CircuitLevel.atReset with action := .fill }
  { h with
    sensing := { h.sensing with heights := h.sensing.heights.set .c2 ⟨-40, false, 0, 0⟩ }
    level := { h.level with cut := false, slots := ⟨some ⟨.c2, 19950, 0, 0⟩, none, none⟩ } }
/-- A slot at 19,950 ms in a mismatch hold: full where the hold does not pause its circuit, and else no SLOW_FILL. -/
theorem witness_LevellingHolds_slowFill :
    (lastPeriod (-60)).level.Inv ∧ (lastPeriod (-61)).level.Inv ∧ (lastPeriod (-60)).scopeSide = true ∧
    (let report (middle : Int) :=
       let t := run .levellingTimerExpiry (lastPeriod middle)
       ((t.events.ofKind .s .slowFill).map EventEntry.subject, (t.circuit .c2).reason)
     report (-60) = ([2], .none) ∧ report (-61) = ([], .mismatchFill)) := by
  refine ⟨?_, ?_, by decide +kernel⟩ <;> apply checked_inv <;> decide +kernel
/-- Starts while a kneel of scope SIDE lowers: a door-side circuit in line, one whose pause ends at a gap of 40 mm and not
at 41, and a circuit of the other side. -/
theorem witness_LevellingHolds_sideKneel :
    (let h := { levelled 13 .hold with kneel := { Kneel.atReset with state := .lowering } }
     h.scopeSide = true ∧ h.onDoorSide .c2 = true ∧ h.onDoorSide .c1 = false ∧
     ((run .levellingTimerExpiry h).circuit .c2).action = .vent ∧
     (let other := { h with sensing := { h.sensing with heights := .fill ⟨13, false, 0, 0⟩ } }
      ((run .levellingTimerExpiry other).circuit .c1).action = .vent)) ∧
    (let after (middle : Int) := (run .levellingTimerExpiry
       (kneeling middle { CircuitLevel.atReset with target := -13, reason := .mismatchVent })).circuit .c2
     (after 40).action = .vent ∧ (after 40).reason = .none ∧ (after 41).action = .hold ∧
     (after 41).reason = .mismatchVent) := by decide +kernel
/-- A return from EXCLUDED; a pause at a gap of 41 mm and none at 40; counts 98 and 99, and the inhibition just above 1,000
mm/s²; a slot at 19,900 and at 19,950 ms. -/
theorem witness_LevellingHolds :
    (levelled 0 .excluded).level.Inv ∧ (kneeling 41 { CircuitLevel.atReset with action := .vent }).level.Inv ∧
    (drifting 99 1000).level.Inv ∧ (filling (-7)).level.Inv ∧
    (levelled 0 .excluded).level.timer.due levellingPeriod = true ∧
    ((levelled 0 .excluded).circuit .c2).causes.any = false ∧
    ((run .levellingTimerExpiry (levelled 0 .excluded)).circuit .c2).action = .hold ∧
    (let x := { CircuitLevel.atReset with action := .vent }
     let reason (middle : Int) := ((run .levellingTimerExpiry (kneeling middle x)).circuit .c2).reason
     reason 41 = .mismatchVent ∧ reason 40 = .none ∧ (kneeling 41 x).hmis = 40 ∧
     (kneeling 41 x).onDoorSide .c2 = true ∧ (kneeling 41 x).scopeSide = true) ∧
    (let x := { CircuitLevel.atReset with reason := .mismatchFill }
     ((run .levellingTimerExpiry (kneeling (-41) x)).circuit .c2).reason = .mismatchFill ∧
     ((run .levellingTimerExpiry (kneeling (-40) x)).circuit .c2).reason = .none) ∧
    (let after (count decel : Nat) := (run .levellingTimerExpiry (drifting count decel)).circuit .c7
     (after 98 1000).count = 99 ∧ (after 98 1000).action = .hold ∧ (after 99 1000).count = 0 ∧
     (after 99 1000).action = .fillWait ∧ (after 99 1001).action = .hold) ∧
    (let held (time : Nat) := { filling (-7) with
       level := { (filling (-7)).level with slots := ⟨some ⟨.c2, time, 1, 2⟩, none, none⟩ } }
     ((run .levellingTimerExpiry (held 19900)).level.slots.get .f1) = some ⟨.c2, 19950, 1, 2⟩ ∧
     (run .levellingTimerExpiry (held 19900)).events.ofKind .s .slowFill = [] ∧
     ((run .levellingTimerExpiry (held 19950)).events.ofKind .s .slowFill).map EventEntry.subject = [2]) :=
  ⟨resting_inv _ (by decide +kernel) rfl (by decide +kernel) (by decide +kernel),
    resting_inv _ (by decide +kernel) rfl (by decide +kernel) (by decide +kernel),
    resting_inv _ (by decide +kernel) rfl (by decide +kernel) (by decide +kernel), filling_inv _, by decide +kernel⟩
/-- The part with C4 EXCLUDED under an APPLIED halt brake. -/
def excluding : Hub :=
  let h := halted .applied
  { h with level := { h.level with circuits := h.level.circuits.set .c4 { CircuitLevel.atReset with action := .excluded } } }
/-- The part of `crowded` with a kneel as given. -/
def lowering (state : KneelState) : Hub := { crowded 0 (-7) with kneel := { Kneel.atReset with state := state } }
/-- A kneel stopped by the pulse that ends standstill: the circuits in scope, their slots, and the grant to C7; and one
stopped by a valve of C4 that fails: C4 out, the others held. -/
theorem witness_KneelAndRaiseOrders_stop :
    (lowering .lowering).level.Inv ∧ (lowering .raising).level.Inv ∧
    (∀ c ∈ [Circuit.c2, .c4, .c6, .c8], (lowering .lowering).inScope c = true) ∧
    (let h := run (.wheelPulse .left .forward) (lowering .lowering)
     h.kneel = { Kneel.atReset with
      state := .stopped, cause := some .standstill, circuit := none, before := some .lowering } ∧
     h.sensing.standstill = .no ∧ h.level.slots = ⟨some ⟨.c7, 0, 4, 1⟩, none, none⟩ ∧ h.level.queue = [] ∧
     ∀ c ∈ [Circuit.c2, .c4, .c6, .c8], (h.circuit c).action = .hold ∧ (h.circuit c).reason = .kneelStopped) ∧
    (let link := { loaded.link with
       chainL := { ChainHold.atReset with busy := true }
       valves := .fill ⟨.hold, some .hold, some .hold, none, false, none, false⟩ }
     let answers : PerCircuit (Option (DeviceAnswer ValveCmd Bool)) :=
       PerCircuit.set (.fill (some ⟨.hold, true⟩)) .c4 (some ⟨.hold, false⟩)
     let h := run (.chainRefreshComplete (.l answers)) { lowering .raising with link := link }
     h.kneel = { Kneel.atReset with
      state := .stopped, cause := some .exclusion, circuit := some .c4, before := some .raising } ∧
     (h.circuit .c4).action = .excluded ∧ (h.circuit .c2).action = .hold ∧
     (h.circuit .c2).reason = .kneelStopped ∧ h.level.slots = ⟨some ⟨.c7, 0, 4, 1⟩, none, none⟩) := by
  refine ⟨?_, ?_, by decide +kernel⟩ <;> apply checked_inv <;> decide +kernel
theorem witness_KneelAndRaiseOrders : loaded.admits .s .passenger = true ∧ loaded.sensing.standstill = .yes ∧
    loaded.kneel.state ≠ .lowering ∧ loaded.kneel.state ≠ .knelt ∧ loaded.brake.halt ≠ .applied ∧
    cityA3.sensing.standstill ≠ .yes ∧ excluding.inScope .c4 = true ∧ (excluding.circuit .c4).action = .excluded ∧
    (∀ c' ∈ Circuit.all, excluding.inScope c' = true → (excluding.circuit c').action = .excluded → 4 ≤ c'.num) ∧
    (halted .applied).admits .s .passenger = true ∧ (halted .applied).brake.halt = .applied ∧
    (∀ c ∈ Circuit.all, ((halted .applied).circuit c).action ≠ .excluded) ∧
    ({ Kneel.atReset with state := .stopped } : Kneel).state ≠ .ride ∧ Kneel.atReset.state = .ride := by decide +kernel
theorem witness_ReleaseAndWithdrawOrders : loaded.admits .s .passenger = true ∧
    (req [0#8]).payload = [0#8] ∧ (0#8).toNat = 0 ∧ 31 < (32#8).toNat ∧ 1 ≤ (1#8).toNat ∧ (31#8).toNat ≤ 31 ∧
    loaded.sensing.standstill = .yes ∧ cityA3.sensing.standstill ≠ .yes ∧ (1#8).getLsbD (Door.d1.num - 1) = true ∧
    (loaded.door .d1).enabled = true ∧
    ((doored .d1 (fun x => { x with enabled := false }) loaded).door .d1).enabled = false ∧
    (∀ d ∈ Door.all, loaded.link.lines.release.get d = ((loaded.door d).release == .granted)) ∧
    loaded.autoRaiseOn = true ∧ loaded.kneel.state ≠ .lowering ∧ loaded.kneel.state ≠ .knelt := by decide +kernel
/-- A WITHDRAW that makes the door condition true while knelt. -/
theorem witness_ReleaseAndWithdrawOrders_autoRaise :
    let h := doored .d1 (fun x => { x with release := .waiting })
      { halted .applied with kneel := { Kneel.atReset with state := .knelt } }
    let t := run (.withdraw (req [1#8])) h
    h.autoRaiseOn = true ∧ h.kneel.state = .knelt ∧ h.doors.condition = false ∧
    h.doors.condition = (h.doorsLocked && h.releasesWithdrawn) ∧ t.doors.condition = true ∧ t.kneel.state = .raising ∧
    (t.circuit .c2).source = .raise ∧ (t.circuit .c2).target = h.trim .c2 ∧ h.inScope .c1 = false ∧
    (t.circuit .c1).source = .ride := by decide +kernel
/-- A raw level that differs, due debounce timers of each input, and a handle at v_emerg and above. -/
def inputs (raw : DoorLevels) (speed : Nat) : Hub :=
  doored .d3 (fun x => { x with raw := raw, timers := ⟨.running 200, .running 200, .running 200⟩ })
    { loaded with sensing := { loaded.sensing with speed := speed } }
theorem witness_DoorInputs : loaded.clock.loaded = true ∧ levelOf (loaded.door .d3).raw .handle ≠ true ∧
    (∀ i ∈ [DoorInput.closed, .lock, .handle],
      (((inputs ⟨false, false, true⟩ 833).door .d3).timers.get i).due debounceTime = true ∧
      levelOf ((inputs ⟨false, false, true⟩ 833).door .d3).debounced i ≠
        levelOf ((inputs ⟨false, false, true⟩ 833).door .d3).raw i ∧
      levelOf ((inputs ⟨true, true, false⟩ 833).door .d3).debounced i =
        levelOf ((inputs ⟨true, true, false⟩ 833).door .d3).raw i) ∧
    ((inputs ⟨false, false, true⟩ 833).door .d3).enabled = true ∧
    (inputs ⟨false, false, true⟩ 833).sensing.speed ≤ (inputs ⟨false, false, true⟩ 833).vEmerg ∧
    (inputs ⟨false, false, true⟩ 834).vEmerg < (inputs ⟨false, false, true⟩ 834).sensing.speed ∧
    positionOf (withLevel ⟨true, true, false⟩ .lock false) ≠ .closedLocked ∧
    ((inputs ⟨false, false, true⟩ 833).door .d3).position = .closedLocked := by decide +kernel
/-- The four rows of R124's table, each at the expiry that brings it. -/
theorem witness_DoorInputs_positions :
    let position (closed lock : Bool) := ((run (.debounceTimerExpiry .d3 .lock)
      (doored .d3 (fun x => { x with
          debounced := ⟨closed, !lock, false⟩, raw := ⟨closed, lock, false⟩, timers := x.timers.set .lock (.running 200) })
        loaded)).door .d3).position
    position true true = .closedLocked ∧ position true false = .closed ∧ position false false = .opened ∧
    position false true = .switchFault := by decide +kernel
/-- A lock that closes the last door while the body lowers. -/
theorem witness_DoorInputs_autoRaise :
    let h := doored .d1 (fun x => { x with
        position := .closed, debounced := ⟨true, false, false⟩, raw := ⟨true, true, false⟩
        timers := x.timers.set .lock (.running 200) })
      { loaded with kneel := { Kneel.atReset with state := .lowering } }
    let t := run (.debounceTimerExpiry .d1 .lock) h
    h.autoRaiseOn = true ∧ ((h.door .d1).timers.get .lock).due debounceTime = true ∧
    levelOf (h.door .d1).debounced .lock ≠ levelOf (h.door .d1).raw .lock ∧ h.doors.condition = false ∧
    h.doors.condition = (h.doorsLocked && h.releasesWithdrawn) ∧ t.doors.condition = true ∧ t.kneel.state = .raising ∧
    (t.circuit .c2).source = .raise ∧ (t.circuit .c2).target = h.trim .c2 ∧ (t.circuit .c1).source = .ride := by
  decide +kernel
/-- A disabled door, a door unit with every door locked but the one that changes, and a command that changes a release. -/
theorem witness_DoorInputs_events :
    (∃ t, exec (.withdraw (req [1#8])) (on loaded) = .next t) ∧
    (∀ inputs, Instr.withdraw (req [1#8]) ≠ .activeSetLoad inputs) ∧ (∀ q code, Instr.withdraw (req [1#8]) ≠ .take q code) ∧
    resetsPart loaded (.withdraw (req [1#8])) = false ∧
    (let h := doored .d3 (fun x => { x with enabled := false }) (inputs ⟨false, false, true⟩ 833)
     (h.door .d3).enabled = false ∧ ((h.door .d3).timers.get .lock).due debounceTime = true ∧
     levelOf (h.door .d3).debounced .lock ≠ levelOf (h.door .d3).raw .lock ∧
     levelOf (h.door .d3).debounced .handle ≠ levelOf (h.door .d3).raw .handle) ∧
    (let t := run (.debounceTimerExpiry .d3 .lock) (inputs ⟨false, false, true⟩ 833)
     (t.events.ofKind .s .doorState).map (fun e => (e.subject, e.value)) = [(3, 1#16)] ∧ t.brake.halt = .applying ∧
     t.doors.changes = 1) := ⟨answered_next _ _, fun _ h => (by cases h), fun _ _ h => (by cases h),
    by decide +kernel⟩

/-- The part with a refresh of every chain in progress, the devices' last commands sent. -/
def refreshing (b s l j : ChainHold) : Hub :=
  { loaded with
    link := { Link.atReset with
      timer := .running 20
      valves := .fill ⟨.hold, some .hold, some .hold, none, false, none, false⟩
      modulators := .fill ⟨⟨.backup, 0⟩, some ⟨.backup, 0⟩, some ⟨.backup, 0⟩, none, false, none, false⟩
      actuators := .fill ⟨⟨false, 0⟩, some ⟨false, 0⟩, some ⟨false, 0⟩, none, false, none, false⟩
      dampers := .fill ⟨15, some 15, some 15, none, false, none, false⟩
      chainB := b, chainS := s, chainL := l, chainJ := j } }
/-- Chain B at its third mismatch, S at its fiftieth clean refresh, L at its forty-ninth, J at its second mismatch; a chain
not yet judged. -/
theorem witness_RefreshAndCompletion :
    let h := refreshing ⟨false, 2, 0, 0, true⟩ ⟨true, 0, 49, 1, true⟩ ⟨true, 0, 48, 1, true⟩ ⟨false, 1, 0, 0, true⟩
    h.link.timer.due refreshPeriod = true ∧ h.link.chainB.busy = true ∧ h.link.chainL.busy = true ∧
    h.link.chainS.busy = true ∧ h.link.chainJ.busy = true ∧
    (∀ k ∈ Axle.all, (h.link.modulators.get k).lastSent ≠ none) ∧ h.link.chainB.fault = false ∧
    3 ≤ h.link.chainB.mismatches + 1 ∧ h.link.chainS.fault = true ∧ 50 ≤ h.link.chainS.cleans + 1 ∧
    (run (.chainRefreshComplete (.b (.fill (some ⟨⟨.backup, 0⟩, true⟩)))) h).link.chainB.mismatches = 0 ∧
    (run (.chainRefreshComplete (.b (.fill none))) h).link.chainB = ⟨true, 0, 0, 1, false⟩ ∧
    (run (.chainRefreshComplete (.s (.fill (some ⟨⟨false, 0⟩, 0#16⟩)))) h).link.chainS = ⟨false, 0, 0, 1, false⟩ ∧
    (run (.chainRefreshComplete (.l (.fill (some ⟨.hold, true⟩)))) h).link.chainL = ⟨true, 0, 49, 1, false⟩ ∧
    (run (.chainRefreshComplete (.l (.fill none))) h).link.chainL = ⟨true, 0, 0, 1, false⟩ ∧
    (run (.chainRefreshComplete (.j (.fill none))) h).link.chainJ = ⟨false, 2, 0, 0, false⟩ ∧
    (loaded.link.modulators.get .a1).lastSent = none := by decide +kernel
/-- Chain L, S and J at their third mismatch; a valve and an actuator whose fault flag comes up. -/
def failing : Hub :=
  refreshing .atReset ⟨false, 2, 0, 0, true⟩ ⟨false, 2, 0, 0, true⟩ ⟨false, 2, 0, 0, true⟩
theorem witness_ChainFaultsReachTheirOwners : failing.level.Inv ∧ failing.link.chainL.busy = true ∧
    (failing.link.valves.get .c8).fault = false ∧ failing.link.chainL.fault = false ∧
    (run (.chainRefreshComplete (.l (.fill none))) failing).link.chainL.fault = true ∧
    ((run (.chainRefreshComplete (.l (.fill (some ⟨.hold, false⟩)))) failing).link.valves.get .c8).fault = true ∧
    failing.link.chainS.busy = true ∧ (failing.link.actuators.get .a3).lastSent = some ⟨false, 0⟩ ∧
    (2500#16 : Half).toInt = 2500 ∧ (63036#16 : Half).toInt = -2500 ∧
    (run (.chainRefreshComplete (.s (.fill none))) failing).link.chainS.fault = true ∧
    ((run (.chainRefreshComplete (.s (.fill (some ⟨⟨false, 0⟩, 0x8000#16⟩)))) failing).link.actuators.get .a4).fault =
      true ∧ failing.link.chainJ.busy = true ∧
    (let causes (word : Option Half) := ((run (.chainRefreshComplete (.s (.fill (word.map fun w => ⟨⟨false, 0⟩, w⟩))))
       failing).axleSteer .a4).cause
     causes none = some .chain ∧ causes (some 0x8000#16) = some .device ∧ causes (some 0#16) = none) ∧
    (let faulty := { failing with
       link := { failing.link with valves := .fill ⟨.hold, some .hold, some .hold, none, false, some false, true⟩ }
       level := { failing.level with
        circuits := .fill { CircuitLevel.atReset with action := .excluded, causes := ⟨true, true, false⟩ } } }
     ((run (.chainRefreshComplete (.l (.fill (some ⟨.hold, true⟩)))) faulty).circuit .c3).causes = ⟨true, false, false⟩ ∧
     ((run (.chainRefreshComplete (.l (.fill none))) faulty).circuit .c3).causes = ⟨true, true, true⟩) :=
  ⟨resting_inv _ (by decide +kernel) rfl (by decide +kernel) (by decide +kernel), by decide +kernel⟩
/-! ## The invariants' premises -/

/-- The loaded part with its doors' condition and move permit as they are at standstill. -/
def ready : Hub :=
  { loaded with
    path := pathOf [5, -6] 999 3
    doors := { loaded.doors with condition := true, permit := true }
    link := { loaded.link with lines := { loaded.link.lines with permit := true } } }
/-- The part of `ready` with a HALT ON waiting. -/
def waiting : State := ⟨ready, [.haltOn (req [])]⟩
theorem waiting_steps : ∃ t, step waiting = .next t := ⟨_, exec_eq (.haltOn (req [])) (on ready)⟩

theorem witness_PathMemoryKeepsItsForm : waiting.hub.path.Inv ∧ ∃ t, step waiting = .next t :=
  ⟨pathOf_two_inv _ _ _, waiting_steps⟩
theorem witness_EventQueuesKeepTheirForm : waiting.hub.events.Inv ∧ ∃ t, step waiting = .next t :=
  ⟨⟨fun p => by cases p <;> rfl, fun p => by cases p <;> exact List.Pairwise.nil,
    fun p e h => by cases p <;> exact nomatch h⟩, waiting_steps⟩
theorem witness_SlotsAndQueueAgree :
    (on (filling (-7))).hub.level.Inv ∧ waiting.hub.level.Inv ∧ waiting.hub.ValvesShown ∧ ∃ t, step waiting = .next t :=
  ⟨filling_inv _, resting_inv _ (by decide +kernel) rfl (by decide +kernel) (by decide +kernel),
    fun c => by cases c <;> rfl, waiting_steps⟩
theorem ready_doors (d : Door) : ready.door d = ⟨⟨true, true, false⟩, ⟨true, true, false⟩,
    ⟨.stopped, .stopped, .stopped⟩, .closedLocked, true, .withdrawn, false, false⟩ := by cases d <;> rfl
theorem witness_DoorInterlocksHold : waiting.hub.DoorInv ∧ ∃ t, step waiting = .next t := by
  refine ⟨?_, waiting_steps⟩
  exact {
    lines := fun d => by cases d <;> decide +kernel
    permitLine := rfl
    granted := fun d h => by rw [show waiting.hub = ready from rfl, ready_doors] at h; exact nomatch h
    disabled := fun d h => by rw [show waiting.hub = ready from rfl, ready_doors] at h; exact nomatch h
    permit := fun _ => by decide +kernel
    condition := fun _ => by decide +kernel
    position := fun _ d => by cases d <;> decide +kernel
    open_halt := fun _ h => absurd h (by decide +kernel)
    kneeling := fun h => absurd (show waiting.hub.kneel.state = .ride from rfl) h
    load := fun _ => rfl
    before := fun h => nomatch h }
/-- What HALT ON raises in the part of `waiting`, whose move permit is active, and KNEEL under an APPLIED halt brake. -/
theorem witness_HaltStateChanges_events : waiting.hub.DoorInv ∧ resetsPart ready (.haltOn (req [])) = false ∧
    (let h := run (.haltOn (req [])) ready
     h.brake.halt = .applying ∧ ready.doors.permit = true ∧ h.doors.permit = false ∧
     (h.events.queues.get .s).map (fun e => (e.kind, e.value)) = [(.haltState, 1), (.movePermit, 0)]) ∧
    (let h := run (.kneel (req [])) (halted .applied)
     h.kneel.state = .lowering ∧ (h.events.queues.get .s).map (fun e => (e.kind, e.value)) = [(.kneelState, 1)]) :=
  ⟨witness_DoorInterlocksHold.1, by decide +kernel⟩
theorem witness_SetpointsStayBounded : waiting.hub.SteerInv ∧ ∃ t, step waiting = .next t := by
  refine ⟨?_, waiting_steps⟩
  exact {
    limits := fun t => by cases t <;> decide +kernel
    bounded := fun t x h => by cases t <;> exact nomatch h
    held := fun t => by cases t <;> rfl
    enabled := fun t => by cases t <;> decide +kernel
    failed := fun t => by cases t <;> decide +kernel
    shown := fun t => by cases t <;> rfl
    before := fun h => nomatch h
    load := fun _ => rfl }
theorem witness_StoreKeepsItsForm : waiting.hub.StoreInv ∧ ∃ t, step waiting = .next t := by
  refine ⟨?_, waiting_steps⟩
  exact {
    wf := fun k => by cases k <;> decide +kernel
    writable := fun p k slot v h => by cases p <;> exact nomatch h
    waits := fun p rq h => by cases p <;> exact nomatch h
    suspended := fun r h => nomatch h
    started := fun r h => nomatch h }

end Sys2Proof.Tests
end

section
/-! PROOFS. The path memory's statements: the PATH and PATH WINDOW records (R30, R31), CLEAR PATH FLAG against the
underrun (R26), and the lag lookup (R27, R28). -/

namespace Sys2Proof.Machine

/-! ## The PATH and PATH WINDOW records -/

/-- The tail's index is the push count less (depth - 1); the push count itself at depth 0 (R30). -/
theorem PathMemory.tailIndex_eq {p : PathMemory} (hp : p.Inv) :
    p.tailIndex = if p.samples = [] then p.pushCount else p.pushCount - BitVec.ofNat 32 (p.samples.length - 1) := by
  unfold PathMemory.tailIndex
  split
  · next x hx =>
    have hne : p.samples ≠ [] := by rintro h; simp [h] at hx
    rw [if_neg hne, hp.index _ x (by rw [← List.getLast?_eq_getElem?, hx])]
  · next hx => simp [List.getLast?_eq_none_iff.mp hx]

theorem noYes_eq (b : Bool) : noYes b = [if b then 1#8 else 0#8] := by cases b <;> rfl

@[simp] theorem optInt_none : optInt none = [0#8, 0#8, 0#8] := rfl
@[simp] theorem optInt_some (x : Int) : optInt (some x) = 1#8 :: be2 x := rfl
@[simp] theorem length_optInt (x : Option Int) : (optInt x).length = 3 := by cases x <;> rfl

theorem be1_natCast (n : Nat) : be1 n = [BitVec.ofNat 8 n] := by simp [be1]
theorem be1_toNat (b : Byte) : be1 b.toNat = [b] := by simp [be1_natCast]

/-- In a concatenation of pieces of one length, the piece of each element stands at its own multiple of that length. -/
theorem take_drop_flatMap {α β : Type} {g : α → List β} {n : Nat} (hg : ∀ a, (g a).length = n) {l : List α} {i : Nat}
    {a : α} (ha : l[i]? = some a) : ((l.flatMap g).drop (n * i)).take n = g a := by
  induction l generalizing i with
  | nil => simp at ha
  | cons x xs ih =>
    cases i with
    | zero =>
      obtain rfl : x = a := by simpa using ha
      simp [← hg x]
    | succ i =>
      rw [List.flatMap_cons, Nat.mul_succ, Nat.add_comm, ← List.drop_drop, List.drop_left' (hg x)]
      exact ih (by simpa using ha)

/-- The samples of the window at an offset (R31). -/
def PathMemory.window (o : Nat) (p : PathMemory) : List Sample := (p.samples.drop o).take 16

@[simp] theorem PathMemory.length_window (o : Nat) (p : PathMemory) :
    (p.window o).length = min 16 (p.samples.length - o) := by simp [PathMemory.window]

theorem PathMemory.window_getElem? {o i : Nat} {p : PathMemory} (hi : i < (p.window o).length) :
    (p.window o)[i]? = p.samples[o + i]? := by
  rw [PathMemory.length_window] at hi
  simp [PathMemory.window, show i < 16 by omega]

/-- The index of a window's first sample; the push count where the window is empty (R31). -/
def PathMemory.firstIndex (o : Nat) (p : PathMemory) : Word :=
  ((p.window o).head?.map Sample.index).getD p.pushCount

theorem PathMemory.firstIndex_eq {p : PathMemory} (hp : p.Inv) (o : Nat) :
    p.firstIndex o =
      if min 16 (p.samples.length - o) = 0 then p.pushCount else p.pushCount - BitVec.ofNat 32 o := by
  have hlen := p.length_window o
  unfold PathMemory.firstIndex
  cases hw : p.window o with
  | nil => rw [if_pos (by simpa [hw] using hlen.symm)]; rfl
  | cons x xs =>
    have hx : p.samples[o]? = some x := by
      have := PathMemory.window_getElem? (o := o) (i := 0) (p := p) (by simp [hw])
      simpa [hw] using this.symm
    rw [if_neg (by simp [← hlen, hw]), ← hp.index o x hx]
    rfl

/-- The PATH WINDOW record up to its count, before the samples' fields (R31). -/
def PathMemory.windowHead (o : Byte) (p : PathMemory) : List Byte :=
  o :: be2 p.samples.length ++ be2 p.r ++ wordBytes (p.firstIndex o.toNat)
    ++ [BitVec.ofNat 8 (min 16 (p.samples.length - o.toNat))]

@[simp] theorem PathMemory.length_windowHead (o : Byte) (p : PathMemory) : (p.windowHead o).length = 10 := rfl

theorem Hub.pathWindowRecord_eq (h : Hub) (o : Byte) :
    h.pathWindowRecord o.toNat = h.path.windowHead o ++ (h.path.window o.toNat).flatMap fun x => optInt x.angle := by
  have hfirst : h.pathWindowRecord o.toNat = be1 o.toNat ++ be2 h.path.samples.length ++ be2 h.path.r
      ++ wordBytes (h.path.firstIndex o.toNat) ++ be1 (h.path.window o.toNat).length
      ++ (h.path.window o.toNat).flatMap fun x => optInt x.angle := by
    simp only [Hub.pathWindowRecord, PathMemory.firstIndex, PathMemory.window]
    cases (h.path.samples.drop o.toNat).take 16 <;> rfl
  rw [hfirst, be1_toNat, be1_natCast, PathMemory.length_window]
  rfl

theorem Hub.length_pathWindowRecord (h : Hub) (o : Byte) :
    (h.pathWindowRecord o.toNat).length = 10 + 3 * min 16 (h.path.samples.length - o.toNat) := by
  rw [Hub.pathWindowRecord_eq, List.length_append, PathMemory.length_windowHead, ← h.path.length_window,
    List.length_flatMap]
  simp [Nat.mul_comm]

theorem Hub.take_pathWindowRecord (h : Hub) (o : Byte) : (h.pathWindowRecord o.toNat).take 10 = h.path.windowHead o := by
  rw [Hub.pathWindowRecord_eq, List.take_left' (PathMemory.length_windowHead _ _)]

/-- The fields of the window's sample number `i` in the record (R31). -/
theorem Hub.take_drop_pathWindowRecord {h : Hub} {o : Byte} {i : Nat} {x : Sample}
    (hx : (h.path.window o.toNat)[i]? = some x) :
    ((h.pathWindowRecord o.toNat).drop (10 + 3 * i)).take 3 = optInt x.angle := by
  rw [Hub.pathWindowRecord_eq, ← List.drop_drop, List.drop_left' (PathMemory.length_windowHead _ _)]
  exact take_drop_flatMap (fun x : Sample => length_optInt x.angle) hx

/-- A FETCH that is taken and whose service answers `a` and changes nothing (R151, R165). -/
theorem Hub.fetch_answers {q : Request} {code : Byte} {f : Service} {a : Answer} {h : Hub}
    (ha : h.admits q.port .status = true) (hp : (h.port q.port).posted = none)
    (hf : f (h.judged q) = (h.judged q, a)) : h.fetch q code f = h.answered q code a := by
  rw [Hub.fetch_taken q code f ha hp, hf, Hub.judged_reply]

theorem servePathWindow_of_length_ne {payload : List Byte} (hl : payload.length ≠ 1) (h : Hub) :
    servePathWindow payload h = (h, .refused .range []) := by
  rcases payload with _ | ⟨b, _ | ⟨c, cs⟩⟩
  · rfl
  · exact absurd rfl hl
  · rfl

theorem servePathWindow_singleton (o : Byte) (h : Hub) :
    servePathWindow [o] h = (h, .done (h.pathWindowRecord o.toNat)) := rfl

@[simp] theorem Hub.judged_pathWindowRecord (q : Request) (o : Nat) (h : Hub) :
    (h.judged q).pathWindowRecord o = h.pathWindowRecord o := by simp [Hub.pathWindowRecord]

/-- Settles O13: the PATH record field by field, and the PATH WINDOW record as its first ten bytes and three bytes a
sample. -/
theorem pathRecordsCopied : Obligations.PathRecordsCopied := by
  refine ⟨fun h hinv => ?_, fun s q hinv ha hp => ⟨fun hlen => ?_, fun o ho => ?_⟩⟩
  · simp only [Hub.pathRecord, PathMemory.tailIndex_eq hinv, hinv.absent, noYes_eq]
    refine (List.append_right_inj _).mpr ?_
    rcases h.path.samples with _ | ⟨⟨_, _ | _⟩, _⟩ <;> rfl
  · rw [exec_eq, Hub.after, Hub.fetch_answers ha hp (servePathWindow_of_length_ne hlen _)]
  · refine ⟨s.hub.pathWindowRecord o.toNat, ?_, Hub.length_pathWindowRecord _ o, ?_, fun i hi => ?_⟩
    · rw [exec_eq, Hub.after, Hub.fetch_answers ha hp (by rw [ho, servePathWindow_singleton]),
        Hub.judged_pathWindowRecord]
    · rw [Hub.take_pathWindowRecord, PathMemory.windowHead, PathMemory.firstIndex_eq hinv]
    · rw [← PathMemory.length_window] at hi
      obtain ⟨x, hx⟩ : ∃ x, (s.hub.path.window o.toNat)[i]? = some x := ⟨_, List.getElem?_eq_getElem hi⟩
      refine ⟨x, by rw [← hx, PathMemory.window_getElem? hi], ?_⟩
      rw [Hub.take_drop_pathWindowRecord hx]
      cases x.angle <;> rfl

/-! ## CLEAR PATH FLAG and the underrun -/

/-- What a raise leaves of the entries of another kind (R162). -/
theorem placeEvent_filter_of_ne {k kind : EventKind} (hk : k ≠ kind) (now : Word) (sb : Nat) (v : Half)
    (l : List EventEntry) :
    (placeEvent now kind sb v l).filter (·.kind == k) = l.filter (·.kind == k) := by
  induction l with
  | nil => simp [placeEvent, hk.symm]
  | cons x xs ih =>
    simp only [placeEvent]
    split
    · next hx => simp [hx.1, hk.symm]
    · simp only [List.filter_cons, ih]

/-- A raised event's entry is in the queue, at the present millisecond and with its value (R162). -/
theorem exists_mem_placeEvent (now : Word) (kind : EventKind) (sb : Nat) (v : Half) (l : List EventEntry) :
    ∃ e ∈ placeEvent now kind sb v l, e.kind = kind ∧ e.subject = sb ∧ e.last = now ∧ e.value = v := by
  induction l with
  | nil => simp [placeEvent]
  | cons x xs ih =>
    simp only [placeEvent]
    split
    · next hx => exact ⟨_, List.mem_cons_self, hx.1, hx.2, rfl, rfl⟩
    · obtain ⟨e, he, hprops⟩ := ih
      exact ⟨e, List.mem_cons_of_mem _ he, hprops⟩

theorem inPortSet_eq_getLsbD (set : PortSet) (p : Port) : inPortSet set p = set.getLsbD p.num := by cases p <;> rfl

theorem Hub.raise_ofKind_of_ne {k kind : EventKind} (hk : k ≠ kind) (sb : Nat) (v : Int) (h : Hub) (p : Port) :
    (h.raise kind sb v).events.ofKind p k = h.events.ofKind p k := by
  simp only [EventUnit.ofKind, Hub.raise, Hub.onEvents_events, EventUnit.raise, PerPort.get_tab]
  split
  · exact placeEvent_filter_of_ne hk _ _ _ _
  · rfl

/-- A raise reaches the queue of each port of the kind's port set (R162, R164). -/
theorem Hub.exists_mem_raise_ofKind {h : Hub} {kind : EventKind} {p : Port}
    (hp : (h.events.routing.get kind).getLsbD p.num = true) (sb : Nat) (v : Int) :
    ∃ e ∈ (h.raise kind sb v).events.ofKind p kind,
      e.subject = sb ∧ e.last = h.clock.ms ∧ e.value = BitVec.ofInt 16 v := by
  obtain ⟨e, he, hk, hprops⟩ := exists_mem_placeEvent h.clock.ms kind sb (BitVec.ofInt 16 v) (h.events.queues.get p)
  refine ⟨e, ?_, hprops⟩
  simp only [EventUnit.ofKind, Hub.raise, Hub.onEvents_events, EventUnit.raise, PerPort.get_tab,
    inPortSet_eq_getLsbD, hp, if_true, List.mem_filter]
  exact ⟨he, by simp [hk]⟩

/-! A loss of standstill raises STANDSTILL, KNEEL_STATE, DOOR_RELEASE and MOVE_PERMIT (R17, R116, R130, R136): the
entries of every other kind stay, through each operation it goes through. -/

section
variable {k : EventKind} (hp : k ≠ .movePermit) (hn : k ≠ .kneelState) (hr : k ≠ .doorRelease)

include hp in
theorem Hub.judgePermit_ofKind_of_ne (h : Hub) (p : Port) :
    h.judgePermit.events.ofKind p k = h.events.ofKind p k := by
  unfold Hub.judgePermit
  split
  · rfl
  · simp [Hub.raise_ofKind_of_ne hp]

include hp hn

theorem Hub.setKneel_ofKind_of_ne (new : KneelState) (h : Hub) (p : Port) :
    (h.setKneel new).events.ofKind p k = h.events.ofKind p k := by
  simp [Hub.setKneel, Hub.judgePermit_ofKind_of_ne hp, Hub.raise_ofKind_of_ne hn]

theorem Hub.stopKneel_ofKind_of_ne (cause : StopCause) (c : Option Circuit) (h : Hub) (p : Port) :
    (h.stopKneel cause c).events.ofKind p k = h.events.ofKind p k := by
  unfold Hub.stopKneel
  split <;> simp [Hub.setKneel_ofKind_of_ne hp hn]

theorem Hub.autoRaise_ofKind_of_ne (h : Hub) (p : Port) :
    h.autoRaise.events.ofKind p k = h.events.ofKind p k := by
  unfold Hub.autoRaise
  split <;> simp [Hub.setKneel_ofKind_of_ne hp hn]

theorem Hub.judgeCondition_ofKind_of_ne (h : Hub) (p : Port) :
    h.judgeCondition.events.ofKind p k = h.events.ofKind p k := by
  simp only [Hub.judgeCondition]
  split
  · rfl
  · split <;> simp [Hub.autoRaise_ofKind_of_ne hp hn]

include hr

theorem Hub.setRelease_ofKind_of_ne (d : Door) (new : Release) (h : Hub) (p : Port) :
    (h.setRelease d new).events.ofKind p k = h.events.ofKind p k := by
  unfold Hub.setRelease
  split
  · rfl
  · simp [Hub.judgePermit_ofKind_of_ne hp, Hub.judgeCondition_ofKind_of_ne hp hn, Hub.raiseRelease,
      Hub.raise_ofKind_of_ne hr]

theorem Hub.withdrawByMotion_ofKind_of_ne (h : Hub) (d : Door) (p : Port) :
    (h.withdrawByMotion d).events.ofKind p k = h.events.ofKind p k := by
  unfold Hub.withdrawByMotion
  (repeat' split) <;> simp [Hub.setRelease_ofKind_of_ne hp hn hr]

theorem Hub.leaveStandstill_ofKind_of_ne (hs : k ≠ .standstill) (h : Hub) (p : Port) :
    h.leaveStandstill.events.ofKind p k = h.events.ofKind p k := by
  have hdoors : ∀ h : Hub, (Door.all.foldl Hub.withdrawByMotion h).events.ofKind p k = h.events.ofKind p k :=
    foldl_keeps (fun h : Hub => h.events.ofKind p k) _
      (fun h d => Hub.withdrawByMotion_ofKind_of_ne hp hn hr h d p) _
  simp only [Hub.leaveStandstill, Hub.judgeActivities_frame]
  split <;> simp [hdoors, Hub.stopKneel_ofKind_of_ne hp hn, Hub.raise_ofKind_of_ne hs]

end

/-- A reverse increment that discards tenths sets the underrun flag, whatever it was (R25, R26). -/
theorem PathMemory.backward_underrun {p : PathMemory} {w : Nat} (hu : (p.backward w).2 ≠ 0) :
    (p.backward w).1.underrun = true := by
  simp only [PathMemory.backward] at hu ⊢
  split at hu
  · next hneg => rw [if_pos hneg]
  · exact absurd rfl hu

/-- A reverse increment that underruns takes the path memory back and raises PATH (R24, R25). -/
theorem Hub.pathIncrement_underrun {h : Hub} {w : Nat} (hu : (h.path.backward w).2 ≠ 0) :
    h.pathIncrement .reverse w =
      (h.onPath fun _ => (h.path.backward w).1).raise .path 0 (h.path.backward w).2 := by
  simp [Hub.pathIncrement, hu]

/-- The part at the moment a counted pulse hands its increment to the path memory (R11, R12). -/
def Hub.odometry (dir : Direction) (h : Hub) : Hub :=
  (h.onPins fun u => { u with dir := dir }).onSensing (·.countPulse dir h.wp)

@[simp] theorem Hub.odometry_frame (dir : Direction) (h : Hub) :
    (h.odometry dir).clock = h.clock ∧ (h.odometry dir).path = h.path ∧ (h.odometry dir).events = h.events := by
  simp [Hub.odometry]

/-- What a loss of standstill keeps, a pulse leaves as its increment of the path memory made it. -/
theorem Hub.wheelPulse_keeps {γ : Type} (π : Hub → γ) (hπ : ∀ h : Hub, π h.leaveStandstill = π h) (dir : Direction)
    (h : Hub) : π (h.wheelPulse dir) = π ((h.odometry dir).pathIncrement dir h.wp) := by
  simp only [Hub.wheelPulse]
  split
  · exact hπ _
  · rfl

theorem Hub.wheelPulse_path (dir : Direction) (h : Hub) :
    (h.wheelPulse dir).path = ((h.odometry dir).pathIncrement dir h.wp).path :=
  Hub.wheelPulse_keeps Hub.path (by simp) dir h

/-- The PATH entries a pulse leaves are those of its increment: a loss of standstill raises none. -/
theorem Hub.wheelPulse_ofKind_path (dir : Direction) (h : Hub) (p : Port) :
    (h.wheelPulse dir).events.ofKind p .path = ((h.odometry dir).pathIncrement dir h.wp).events.ofKind p .path :=
  Hub.wheelPulse_keeps (fun h => h.events.ofKind p .path)
    (fun h => h.leaveStandstill_ofKind_of_ne (k := .path) nofun nofun nofun nofun p) dir h

/-- A reverse pulse that underruns sets the flag, whatever it was (R25, R26). -/
theorem Hub.wheelPulse_sets_underrun {h : Hub} (hu : (h.path.backward h.wp).2 ≠ 0) :
    (h.wheelPulse .reverse).path.underrun = true := by
  rw [Hub.wheelPulse_path, Hub.pathIncrement_underrun (by simpa using hu)]
  simpa using PathMemory.backward_underrun hu

/-- A reverse pulse that underruns leaves its PATH entry, with the tenths discarded, in the queues it is routed to (R25,
R162). -/
theorem Hub.wheelPulse_raises_path {h : Hub} (hu : (h.path.backward h.wp).2 ≠ 0) {p : Port}
    (hp : (h.events.routing.get .path).getLsbD p.num = true) :
    ∃ e ∈ (h.wheelPulse .reverse).events.ofKind p .path,
      e.subject = 0 ∧ e.last = h.clock.ms ∧ e.value = BitVec.ofNat 16 (h.path.backward h.wp).2 := by
  rw [Hub.wheelPulse_ofKind_path, Hub.pathIncrement_underrun (by simpa using hu)]
  simpa using Hub.exists_mem_raise_ofKind (h := (h.odometry .reverse).onPath fun _ => (h.path.backward h.wp).1)
    (kind := .path) (by simpa using hp) 0 ((h.path.backward h.wp).2 : Int)

/-- CLEAR PATH FLAG, taken: its answer, and the flag clear (R26, R151). -/
theorem Hub.after_clearPathFlag_taken {h : Hub} {q : Request} (between : Between) (ha : h.admits q.port .demand = true) :
    h.after between (.clearPathFlag q) =
      { h.answered q 0x22#8 (.done []) with path := { h.path with underrun := false } } := by
  rw [Hub.after, Hub.order_taken q _ _ _ ha]
  exact congrArg (Hub.onPath fun u => { u with underrun := false }) (Hub.judged_reply q 0x22#8 (.done []) h)

/-- Settles O16: the order's answer is that of an order that is taken, and the pulse's flag and event are those of its
increment of the path memory. -/
theorem clearPathFlagClearsTheFlag : Obligations.ClearPathFlagClearsTheFlag := by
  refine ⟨fun s q ha => ?_, fun s t input hexec hl hu => ?_⟩
  · rw [exec_eq, Hub.after_clearPathFlag_taken _ ha]
  · have ht : t.hub = s.hub.wheelPulse .reverse := by
      rw [exec_eq] at hexec
      injection hexec with hexec
      simp [← hexec, Hub.after, hl]
    rw [ht]
    refine ⟨Hub.wheelPulse_sets_underrun hu, fun p hp => ?_⟩
    obtain ⟨e, he, hprops⟩ := Hub.wheelPulse_raises_path hu hp
    obtain ⟨hmem, hkind⟩ := List.mem_filter.mp he
    exact ⟨e, hmem, beq_iff_eq.mp hkind, hprops⟩

/-! ## The lag lookup -/

/-- What a lookup answers, from the two samples at its lag (R27, R28). -/
def interpolated (f : Int) : Option Sample → Option Sample → Option Int
  | some ⟨_, some a⟩, some ⟨_, some b⟩ => some (a + quot ((b - a) * f) 1000)
  | _, _ => none

/-- The distance back is never negative at a lag of 1,000 mm or more, so the model's place and fraction are those of the
exact distance (R27). -/
theorem PathMemory.lookup_eq_interpolated {p : PathMemory} {lag : Int} (hr : p.r ≤ 999) (hl : 1000 ≤ lag) :
    p.lookup lag = interpolated ((10 * lag - p.r) % 1000) p.samples[((10 * lag - p.r) / 1000).toNat]?
      p.samples[((10 * lag - p.r) / 1000).toNat + 1]? := by
  have hi : p.back lag / 1000 = ((10 * lag - p.r) / 1000).toNat := by unfold PathMemory.back; omega
  have hf : ((p.back lag % 1000 : Nat) : Int) = (10 * lag - p.r) % 1000 := by unfold PathMemory.back; omega
  simp only [PathMemory.lookup, hi, hf]
  rcases p.samples[((10 * lag - p.r) / 1000).toNat]? with _ | ⟨_, _ | a⟩ <;>
    rcases p.samples[((10 * lag - p.r) / 1000).toNat + 1]? with _ | ⟨_, _ | b⟩ <;> rfl

/-- An interpolation is formed exactly where both samples are held and carry angles (R28). -/
theorem interpolated_ne_none_iff {f : Int} {x y : Option Sample} :
    interpolated f x y ≠ none ↔ (∃ s a, x = some s ∧ s.angle = some a) ∧ ∃ s b, y = some s ∧ s.angle = some b := by
  rcases x with _ | ⟨_, _ | a⟩ <;> rcases y with _ | ⟨_, _ | b⟩ <;> simp [interpolated]

/-- A fraction of at most 1,000 thousandths, truncated toward zero, lies between 0 and the whole. -/
theorem tdiv_thousandths_between {d f : Int} (h0 : 0 ≤ f) (h1 : f ≤ 1000) :
    min 0 d ≤ (d * f).tdiv 1000 ∧ (d * f).tdiv 1000 ≤ max 0 d := by
  obtain hd | hd := le_total 0 d
  · have hu : d * f ≤ d * 1000 := Int.mul_le_mul_of_nonneg_left h1 hd
    have hl : 0 ≤ d * f := Int.mul_nonneg hd h0
    rw [Int.tdiv_eq_ediv_of_nonneg hl]
    omega
  · have hu : d * 1000 ≤ d * f := Int.mul_le_mul_of_nonpos_left hd h1
    have hl : d * f ≤ 0 := Int.mul_nonpos_of_nonpos_of_nonneg hd h0
    rw [show d * f = -(-(d * f)) by omega, Int.neg_tdiv, Int.tdiv_eq_ediv_of_nonneg (by omega)]
    omega

/-- Settles O39, from the two samples that the exact distance back names. -/
theorem lagLookup : Obligations.LagLookup := by
  intro p lag hr hl back i f
  have hlook : p.lookup lag = interpolated f p.samples[i]? p.samples[i + 1]? :=
    PathMemory.lookup_eq_interpolated hr hl
  refine ⟨?_, fun x y a b hx hy ha hb => ?_⟩
  · rw [hlook, interpolated_ne_none_iff]
    refine ⟨fun ⟨hx, hy⟩ => ⟨?_, hx, hy⟩, fun ⟨_, hx, hy⟩ => ⟨hx, hy⟩⟩
    obtain ⟨y, -, hy, -⟩ := hy
    have := (List.getElem?_eq_some_iff.mp hy).1
    omega
  · obtain ⟨_, _⟩ := x
    obtain ⟨_, _⟩ := y
    subst ha hb
    have hbetween := tdiv_thousandths_between (d := b - a) (f := f) (by omega) (by omega)
    refine ⟨_, by rw [hlook, hx, hy]; rfl, rfl, by omega, by omega, fun hf => ?_⟩
    simp [hf]

end Sys2Proof.Machine
end

section
/-! PROOFS. The master ports' statement of broken frames: what FRAME_ERROR answers and which frames it answers (R148,
R149). -/

namespace Sys2Proof.Machine

/-! ## The layout of a frame -/

/-- A frame that passes R149: its kind is one of the six, its length is at most 60, its check byte matches, and what
follows is padding (R148). -/
theorem readFrame_eq_some_iff {bytes : List Byte} {f : Frame} :
    readFrame bytes = some f ↔
      f.kind ≤ 5 ∧ f.payload.length ≤ 60 ∧
        ∃ padding, padding.length = f.pad ∧ bytes = f.head ++ crc8 f.head :: padding := by
  constructor
  · intro h
    unfold readFrame at h
    split at h
    · next kind code tag n rest =>
      split_ifs at h with hkind hlen
      split at h
      · contradiction
      · next check padding hdrop =>
        split_ifs at h with hcheck
        obtain rfl := Option.some.inj h
        have hshort : n.toNat ≤ rest.length := by
          have hlength := congrArg List.length hdrop
          rw [List.length_drop, List.length_cons] at hlength
          omega
        have hrest : rest = rest.take n.toNat ++ check :: padding := by rw [← hdrop, List.take_append_drop]
        refine ⟨Nat.le_of_not_lt hkind, (List.length_take_le ..).trans (Nat.le_of_not_lt hlen), padding, rfl, ?_⟩
        simp [Frame.head, hshort, ← hcheck, ← hrest]
    · contradiction
  · obtain ⟨kind, code, tag, payload, pad⟩ := f
    rintro ⟨hkind, hlen, padding, rfl, rfl⟩
    dsimp only at hkind hlen
    have hk : kind % 256 = kind := by omega
    have hn : payload.length % 256 = payload.length := by omega
    simp [readFrame, Frame.head, hk, hn, hkind, hlen]

/-! ## The answer to a frame that fails R149 -/

/-- Two updates of one port are one update. -/
theorem Hub.onPort_onPort (p : Port) (f g : PortUnit → PortUnit) (h : Hub) :
    (h.onPort p f).onPort p g = h.onPort p fun u => g (f u) := by
  cases p <;> rfl

/-- Only data out and the frame's own port change (R149, R150). -/
theorem Hub.frameError_eq (p : Port) (bytes : List Byte) (h : Hub) :
    h.frameError p bytes = { h with
      pins := { h.pins with dataOut := h.pins.dataOut.set p ((h.port p).pending.shiftOut bytes.length) }
      ports := h.ports.set p { h.port p with
        pending := ⟨.frameError, bytes[1]?.getD 0, bytes[2]?.getD 0, []⟩
        frames := (h.port p).frames + 1
        errors := (h.port p).errors + 1 } } := by
  simp only [Hub.frameError, Hub.clockFrame, Hub.reply, Hub.onPort_onPort]
  rfl

/-- A FRAME_ERROR command whose bytes are a frame that fails R149 is counted and answered. -/
theorem exec_frameError {bytes : List Byte} (s : State) (p : Port) (hb : bytes ≠ []) (hr : readFrame bytes = none) :
    exec (.frameError p bytes) s = .next { s with hub := s.hub.frameError p bytes } := by
  simp [exec_eq, Hub.after, hb, hr]

/-- Settles O9, from the layout that `readFrame` accepts and the part after a FRAME_ERROR. -/
theorem frameErrors : Obligations.FrameErrors := by
  refine ⟨fun bytes => ?_, fun s p bytes hb hr => by rw [exec_frameError s p hb hr, Hub.frameError_eq]⟩
  rw [Option.eq_none_iff_forall_ne_some, ← not_exists, not_iff_not]
  constructor
  · rintro ⟨f, hf⟩
    obtain ⟨hkind, hlen, padding, -, rfl⟩ := readFrame_eq_some_iff.mp hf
    have hk : (BitVec.ofNat 8 f.kind).toNat = f.kind := Nat.mod_eq_of_lt (by omega)
    exact ⟨_, f.code, f.tag, f.payload, padding, hk.trans_le hkind, hlen, rfl⟩
  · rintro ⟨kind, code, tag, payload, padding, hkind, hlen, rfl⟩
    refine ⟨⟨kind.toNat, code, tag, payload, padding.length⟩,
      readFrame_eq_some_iff.mpr ⟨hkind, hlen, padding, rfl, ?_⟩⟩
    simp [Frame.head]

end Sys2Proof.Machine
end

section
/-! PROOFS. The step on a waiting command, what a frame preserves, HUB RESET, and the path memory's form (log entry 4,
R20, R151, R158). -/

namespace Sys2Proof.Machine

/-- Settles O1: the equation of `step` at a queue with a front command. -/
theorem stepTakesFrontCommand : Obligations.StepTakesFrontCommand := by
  rintro ⟨hub, pending⟩ c rest rfl
  rfl

/-! ## What a frame preserves

A property that speaks of nothing of the pins, and of the port units' delayed slots at most, survives a frame whose
service preserves it; the service is reached after the load alone (R151, step 3). -/

section Preserved
variable {P : Hub → Prop} (hp : ∀ p (g : PortUnit → PortUnit) h, (∀ u, (g u).slot = u.slot) → P h → P (Hub.onPort p g h))
  (hd : ∀ g h, P h → P (Hub.onPins g h))
include hp hd

theorem Hub.exchange_preserves (q : Request) (code : Byte) {f : Service} (hf : ∀ h, P h → P (f h).1) {h : Hub} (h0 : P h) :
    P (h.exchange q code f) := by
  have hclock : P (h.clockFrame q.port (clockedBytes q)) := hp q.port _ _ (fun _ => rfl) (hd _ h h0)
  simp only [Hub.exchange, Hub.reply]
  exact hp _ _ _ (fun _ => rfl) (hf _ hclock)

theorem Hub.exchangeLoaded_preserves (q : Request) (code : Byte) {f : Service}
    (hf : ∀ h, h.clock.loaded = true → P h → P (f h).1) {h : Hub} (h0 : P h) : P (h.exchange q code (whenLoaded f)) := by
  refine Hub.exchange_preserves hp hd q code (fun h hh => ?_) h0
  unfold whenLoaded
  split
  · next hl => exact hf h hl hh
  · exact hh

theorem Hub.order_preserves (q : Request) (code : Byte) (c : AccessClass) {f : Service}
    (hf : ∀ h, h.clock.loaded = true → P h → P (f h).1) {h : Hub} (h0 : P h) : P (h.order q code c f) := by
  refine Hub.exchangeLoaded_preserves hp hd q code (fun h hl hh => ?_) h0
  unfold whenAllowed
  split
  · exact hf h hl hh
  · exact hp q.port (fun u => { u with denied := u.denied + 1 }) h (fun _ => rfl) hh

theorem Hub.fetch_preserves (q : Request) (code : Byte) {f : Service} (hf : ∀ h, P h → P (f h).1) {h : Hub} (h0 : P h) :
    P (h.fetch q code f) := by
  refine Hub.order_preserves hp hd q code .status (fun h _ hh => ?_) h0
  unfold whenUnposted
  split
  · exact hh
  · exact hf h hh

theorem Hub.delayedOrder_preserves (he : ∀ p h, P h → P (Hub.setSlot p .empty h)) (q : Request) (code : Byte)
    {judge : Hub → Except Reason StoreOp}
    (hf : ∀ h op, judge h = .ok op → P h → P (serveDelayed q op h).1) {h : Hub} (h0 : P h) :
    P (h.delayedOrder q code judge) := by
  refine Hub.exchangeLoaded_preserves hp hd q code (fun h _ hh => ?_) h0
  split
  · unfold serveRepetition
    split
    · exact he q.port h hh
    all_goals exact hh
  · unfold whenAllowed
    split
    · dsimp only
      split
      · next hop => exact hf h _ hop hh
      · exact hh
    · exact hp q.port (fun u => { u with denied := u.denied + 1 }) h (fun _ => rfl) hh

end Preserved

/-! ## HUB RESET -/

theorem serveHubReset_standing {h : Hub} (hs : h.standing = true) : serveHubReset h = (h, .done []) := by
  simp [serveHubReset, hs]

theorem serveHubReset_moving {h : Hub} (hs : h.standing = false) :
    serveHubReset h = (h, .refused .notStandstill []) := by
  simp [serveHubReset, hs]

@[simp] theorem Hub.judged_standing (q : Request) (h : Hub) : (h.judged q).standing = h.standing := by
  simp [Hub.standing]

/-- The answered port's pending reply is the answer (R150). -/
@[simp] theorem Hub.answered_port (q : Request) (code : Byte) (a : Answer) (h : Hub) :
    (h.answered q code a).port q.port = { h.port q.port with
      pending := ⟨a.status, code, q.tag, a.payload⟩, frames := (h.port q.port).frames + 1 } := by
  simp [Hub.answered, Hub.port]

/-- A HUB RESET that is taken is answered, and the reset replaces the answer (R158). -/
theorem Hub.hubReset_taken {h : Hub} {q : Request} (ht : h.takesReset q = true) :
    h.hubReset q = (h.answered q 0x33#8 (.done [])).warmReset (h.cutBut q.port) := by
  obtain ⟨ha, hs⟩ : h.admits q.port .supervision = true ∧ h.standing = true := by
    simpa [Hub.takesReset] using ht
  have hanswer : h.order q 0x33#8 .supervision serveHubReset = h.answered q 0x33#8 (.done []) := by
    rw [Hub.order_taken q _ _ _ ha, serveHubReset_standing (by simpa using hs), Hub.judged_reply]
  simp only [Hub.hubReset, hanswer, Hub.answered_port]
  rfl

/-- A HUB RESET that is not taken is an order that its port is denied, or that is refused (R151, R158). -/
theorem Hub.hubReset_refused {h : Hub} {q : Request} (ht : h.takesReset q = false) :
    h.hubReset q = h.order q 0x33#8 .supervision serveHubReset := by
  unfold Hub.hubReset
  refine if_neg ?_
  by_cases hl : h.clock.loaded = true
  · by_cases hh : h.holds q.port .supervision = true
    · have hs : h.standing = false := by simpa [Hub.takesReset, Hub.admits, hl, hh] using ht
      rw [Hub.order_taken q _ _ _ (by simp [Hub.admits, hl, hh]), serveHubReset_moving (by simpa using hs),
        Hub.judged_reply, Hub.answered_port]
      exact nofun
    · rw [Hub.order, Hub.exchange_denied q _ _ _ hl (by simpa using hh), Hub.port_onPort, if_pos rfl, Hub.answered_port]
      exact nofun
  · rw [Hub.order, Hub.exchange_starting q _ _ (by simpa using hl), Hub.answered_port]
    exact nofun

/-- What HUB RESET preserves: the frame's part does, and so does the reset. -/
theorem Hub.hubReset_preserves {P : Hub → Prop}
    (hp : ∀ p (g : PortUnit → PortUnit) h, (∀ u, (g u).slot = u.slot) → P h → P (Hub.onPort p g h))
    (hd : ∀ g h, P h → P (Hub.onPins g h)) (hw : ∀ cut h, P h → P (Hub.warmReset cut h)) (q : Request) {h : Hub}
    (h0 : P h) : P (h.hubReset q) := by
  have horder : P (h.order q 0x33#8 .supervision serveHubReset) := by
    refine Hub.order_preserves hp hd q _ _ (fun h _ hh => ?_) h0
    unfold serveHubReset
    split <;> exact hh
  simp only [Hub.hubReset]
  split
  · exact hw _ _ horder
  · exact horder

/-! ## The path memory's form -/

theorem Hub.wheelPulse_path_inv (dir : Direction) {h : Hub} (hp : h.path.Inv) : (h.wheelPulse dir).path.Inv := by
  rw [Hub.wheelPulse_path]
  exact Hub.pathIncrement_inv dir _ (by simpa using hp)

/-- The underrun flag is no part of the form (R20, R26). -/
theorem PathMemory.Inv.setUnderrun {p : PathMemory} (hp : p.Inv) (b : Bool) :
    PathMemory.Inv { p with underrun := b } :=
  ⟨hp.depth, hp.r, hp.index, hp.absent⟩

theorem Hub.after_path_inv (w : Between) (c : Instr) {h : Hub} (hp : h.path.Inv) : (h.after w c).path.Inv := by
  cases c
  case powerOnReset | rstLine => exact PathMemory.atReset_inv
  case wheelPulse i dir =>
    simp only [Hub.after]
    split
    · exact Hub.wheelPulse_path_inv dir hp
    · exact hp
  case clearPathFlag q =>
    exact Hub.order_preserves (P := fun h => h.path.Inv) (by simp +contextual) (by simp) q _ _
      (fun h _ hh => PathMemory.Inv.setUnderrun hh false) hp
  case hubReset q =>
    exact Hub.hubReset_preserves (P := fun h => h.path.Inv) (by simp +contextual) (by simp)
      (fun _ _ _ => PathMemory.atReset_inv) q hp
  all_goals simpa using hp

/-- Settles O55: only resets, pulses and CLEAR PATH FLAG touch the path memory. -/
theorem pathMemoryKeepsItsForm : Obligations.PathMemoryKeepsItsForm :=
  fun _ _ hp hstep => step_induction (P := fun h => h.path.Inv) (fun _ w c => Hub.after_path_inv w c) (fun _ hh => hh)
    hp hstep

end Sys2Proof.Machine
end

section
/-! PROOFS. The calibration store's form under every step: the sectors in their one form, the running operation's mark,
the waiting and suspended requests in order (R153, R155, R166, R167). -/

namespace Sys2Proof.Machine

/-! ## Rules of the store's operations -/

@[simp] theorem Hub.port_setSlot (p p' : Port) (x : DelayedSlot) (h : Hub) :
    (h.setSlot p x).port p' = if p' = p then { h.port p with slot := x } else h.port p' := by
  simp [Hub.setSlot]

@[simp] theorem Hub.updateRecord_store (h : Hub) :
    h.updateRecord.store = { h.store with shown := ⟨h.pins.depot, h.store.progress⟩ } := rfl

@[simp] theorem Hub.onStore_port (g : Store → Store) (h : Hub) (p : Port) : (h.onStore g).port p = h.port p := rfl
@[simp] theorem Hub.updateRecord_port (h : Hub) (p : Port) : h.updateRecord.port p = h.port p := rfl
@[simp] theorem Hub.readDepot_port (depot : Bool) (h : Hub) (p : Port) : (h.readDepot depot).port p = h.port p := rfl
@[simp] theorem Hub.readDepot_store (depot : Bool) (h : Hub) : (h.readDepot depot).store = h.store := rfl
@[simp] theorem Hub.beginWork_port (op : StoreOp) (h : Hub) (p : Port) : (h.beginWork op).port p = h.port p := by
  simp [Hub.port]
@[simp] theorem Hub.finishWork_port (r : RunningOp) (h : Hub) (p : Port) : (h.finishWork r).1.port p = h.port p := by
  simp [Hub.port]

/-- The work at an operation's start touches the sectors alone (R166, R167). -/
theorem Hub.beginWork_store (op : StoreOp) (h : Hub) :
    (h.beginWork op).store = { h.store with sectors := (h.beginWork op).store.sectors } := by
  cases op <;> rfl

@[simp] theorem Hub.beginWork_read (op : StoreOp) (h : Hub) : (h.beginWork op).store.read = h.store.read := by
  rw [Hub.beginWork_store]

/-- The work at an operation's end leaves what runs in the store. -/
theorem Hub.finishWork_running (r : RunningOp) (h : Hub) :
    (h.finishWork r).1.store.running = h.store.running ∧ (h.finishWork r).1.store.read = h.store.read := by
  unfold Hub.finishWork
  split
  case h_7 => split <;> simp [Hub.installApply, Hub.installLoad]
  all_goals exact ⟨rfl, rfl⟩

/-- An outcome goes to one delayed slot at most; what the slot holds stays the same request (R153). -/
theorem Hub.deliver_cases (r : RunningOp) (a : Answer) (h : Hub) :
    h.deliver r a = h ∨ ∃ rq, (h.port r.port).slot = .running rq ∧ rq.op = r.op ∧
      h.deliver r a = h.setSlot r.port (.done rq a) := by
  unfold Hub.deliver
  split
  · next rq hrq =>
    split
    · next hop => exact .inr ⟨rq, hrq, hop, rfl⟩
    · exact .inl rfl
  all_goals exact .inl rfl

@[simp] theorem Hub.deliver_store (r : RunningOp) (a : Answer) (h : Hub) : (h.deliver r a).store = h.store := by
  obtain he | ⟨rq, -, -, he⟩ := h.deliver_cases r a <;> simp [he]

/-- The two branches of a start: refused, or begun (R166; log entry 23). -/
theorem Hub.startOp_refused {p : Port} {rq : HeldRequest} {h : Hub} {r : Reason} (hr : h.startRefusal rq.op = some r) :
    h.startOp p rq = (h.setSlot p (.done rq (.refused r []))).updateRecord := by
  simp [Hub.startOp, hr]

theorem Hub.startOp_begun {p : Port} {rq : HeldRequest} {h : Hub} (hr : h.startRefusal rq.op = none) :
    h.startOp p rq =
      (((h.beginWork rq.op).onStore fun u => { u with running := some ⟨rq.op, p, 0, h.clearsLock rq.op⟩ }).setSlot p
        (.running rq)).updateRecord := by
  simp [Hub.startOp, hr]

/-- An operation that begins leaves its mark on its sector (R166, R167). -/
theorem Hub.beginWork_started {op : StoreOp} (ho : op.writable) (h : Hub) : (h.beginWork op).store.started op := by
  cases op with
  | write k slot v => exact ⟨ho, by simp [Hub.beginWork]⟩
  | close k | clear k => simp [Hub.beginWork, Store.started]
  | read | lock | blank | apply => trivial

/-! ## The form, with some ports' waiting requests not yet looked at -/

/-- The store's form, but that the ports of `todo` may have waiting requests though the store is free (R155). -/
structure Hub.StoreForm (todo : List Port) (h : Hub) : Prop where
  wf        : h.sectorsWf
  writable  : ∀ p rq, (h.port p).slot.held? = some rq → rq.op.writable
  waits     : ∀ p rq, (h.port p).slot = .waiting rq → h.store.running.isSome = true ∨ p ∈ todo
  suspended : ∀ r, h.store.read = some r → ∃ c, h.store.running = some c ∧ suspends c.op r.op = true
  started   : ∀ r, h.store.running = some r → h.store.started r.op

theorem HeldRequest.writable_iff {x : DelayedSlot} :
    (∀ k slot v, x.held?.map HeldRequest.op = some (.write k slot v) → slot ≤ 30) ↔
      ∀ rq, x.held? = some rq → rq.op.writable := by
  cases x.held? with
  | none => simp
  | some rq =>
    obtain ⟨op, tag, payload⟩ := rq
    cases op <;> simp [StoreOp.writable]

theorem Hub.storeInv_iff {h : Hub} : h.StoreInv ↔ h.StoreForm [] := by
  constructor
  · rintro ⟨hwf, hwritable, hwaits, hsuspended, hstarted⟩
    exact ⟨hwf, fun p => HeldRequest.writable_iff.mp (hwritable p), fun p rq hp => .inl (hwaits p rq hp), hsuspended,
      hstarted⟩
  · rintro ⟨hwf, hwritable, hwaits, hsuspended, hstarted⟩
    exact ⟨hwf, fun p => HeldRequest.writable_iff.mpr (hwritable p), fun p rq hp => by simpa using hwaits p rq hp,
      hsuspended, hstarted⟩

/-- A running operation writes a slot that is one. -/
theorem Hub.StoreForm.running_writable {todo : List Port} {h : Hub} (hf : h.StoreForm todo) {r : RunningOp}
    (hr : h.store.running = some r) : r.op.writable := by
  have := hf.started r hr
  cases hop : r.op with
  | write k slot v => rw [hop] at this; exact this.1
  | read | lock | blank | apply | close | clear => trivial

/-- The form speaks of the sectors, of what runs, and of the delayed slots. -/
theorem Hub.StoreForm.congr {todo : List Port} {h h' : Hub} (hf : h.StoreForm todo)
    (hsectors : h'.store.sectors = h.store.sectors) (hrunning : h'.store.running = h.store.running)
    (hread : h'.store.read = h.store.read) (hslot : ∀ p, (h'.port p).slot = (h.port p).slot) : h'.StoreForm todo where
  wf k := by simpa [Hub.sector, hsectors] using hf.wf k
  writable p rq := by rw [hslot]; exact hf.writable p rq
  waits p rq := by rw [hslot, hrunning]; exact hf.waits p rq
  suspended r := by rw [hread, hrunning]; exact hf.suspended r
  started r hr := by
    have := hf.started r (hrunning ▸ hr)
    unfold Store.started at this ⊢
    rwa [hsectors]

/-- A delayed slot set to a request that writes a slot that is one, and that waits only while an operation runs. -/
theorem Hub.StoreForm.setSlot {todo todo' : List Port} {h : Hub} (hf : h.StoreForm todo) {p : Port} {x : DelayedSlot}
    (hx : ∀ rq, x.held? = some rq → rq.op.writable) (hw : ∀ rq, x = .waiting rq → h.store.running.isSome = true)
    (ht : ∀ p', p' ∈ todo → p' = p ∨ p' ∈ todo') : (h.setSlot p x).StoreForm todo' where
  wf k := by simpa [Hub.sector] using hf.wf k
  writable p' rq := by
    rw [Hub.port_setSlot]
    split
    · exact hx rq
    · exact hf.writable p' rq
  waits p' rq := by
    rw [Hub.port_setSlot]
    split
    · exact fun h => .inl (by simpa using hw rq h)
    · next hne =>
      intro hslot
      exact (hf.waits p' rq hslot).imp (by simp) fun hp => (ht p' hp).resolve_left hne
  suspended r hr := by simpa using hf.suspended r (by simpa using hr)
  started r hr := by simpa using hf.started r (by simpa using hr)

theorem Hub.StoreForm.updateRecord {todo : List Port} {h : Hub} (hf : h.StoreForm todo) : h.updateRecord.StoreForm todo :=
  hf.congr rfl rfl rfl fun _ => rfl

theorem Hub.StoreForm.deliver {todo : List Port} {h : Hub} (hf : h.StoreForm todo) (r : RunningOp) (a : Answer) :
    (h.deliver r a).StoreForm todo := by
  obtain he | ⟨rq, hrq, -, he⟩ := h.deliver_cases r a
  · rwa [he]
  · rw [he]
    exact hf.setSlot (fun rq' h => hf.writable r.port rq' (by rw [hrq]; exact h)) (fun _ => by simp) fun _ => .inr

/-- A start in a free store keeps the form, and settles the port's own waiting request. -/
theorem Hub.StoreForm.startOp {p : Port} {todo : List Port} {h : Hub} (hf : h.StoreForm (p :: todo))
    (hfree : h.store.running = none) {rq : HeldRequest} (hrq : rq.op.writable) : (h.startOp p rq).StoreForm todo := by
  cases hr : h.startRefusal rq.op with
  | some r =>
    rw [Hub.startOp_refused hr]
    exact (hf.setSlot (by rintro _ ⟨⟩; exact hrq) (fun _ => by simp) (by simp)).updateRecord
  | none =>
    rw [Hub.startOp_begun hr]
    have hread : h.store.read = none := by
      cases hread : h.store.read with
      | none => rfl
      | some r => obtain ⟨c, hc, -⟩ := hf.suspended r hread; simp [hfree] at hc
    refine (Hub.StoreForm.setSlot (todo := p :: todo) ⟨?_, ?_, ?_, ?_, ?_⟩ (by rintro _ ⟨⟩; exact hrq)
      (fun _ => by simp) (by simp)).updateRecord
    · exact Hub.beginWork_wf hf.wf hrq
    · simpa using hf.writable
    · exact fun _ _ _ => .inl rfl
    · simp [hread]
    · rintro _ ⟨⟩
      exact Hub.beginWork_started hrq h

theorem Hub.StoreForm.takeWaiting {p : Port} {todo : List Port} {h : Hub} (hf : h.StoreForm (p :: todo)) :
    (h.takeWaiting p).StoreForm todo := by
  unfold Hub.takeWaiting
  split
  · next rq hfree hslot => exact hf.startOp hfree (hf.writable p rq (by rw [hslot]; rfl))
  · next hnot =>
    refine ⟨hf.wf, hf.writable, fun p' rq hslot => ?_, hf.suspended, hf.started⟩
    cases hfree : h.store.running with
    | some r => exact .inl rfl
    | none =>
      have hp : p' ≠ p := by rintro rfl; exact hnot rq hfree hslot
      exact .inr ((List.mem_cons.mp ((hf.waits p' rq hslot).resolve_left (by simp [hfree]))).resolve_left hp)

/-- The free store looks at every port's waiting request (R155). -/
theorem Hub.StoreForm.takeNext {h : Hub} (hf : h.StoreForm portOrder) : h.takeNext.StoreForm [] :=
  hf.takeWaiting.takeWaiting.takeWaiting

/-! ## Completions -/

/-- The store is free once the operation's work is done: every port may wait (R155). -/
theorem Hub.StoreForm.freed {h : Hub} (hf : h.StoreForm []) {r : RunningOp} (hr : h.store.running = some r)
    (hread : h.store.read = none) :
    ((h.finishWork r).1.onStore fun u => { u with running := none }).StoreForm portOrder where
  wf := Hub.finishWork_wf hf.wf (hf.running_writable hr)
  writable := by simpa using hf.writable
  waits p _ _ := .inr (by cases p <;> decide)
  suspended x hx := by simp [Hub.finishWork_running, hread] at hx
  started x hx := by simp at hx

/-- The completion of the running operation, with no read in a suspension beside it (R153, R155). -/
theorem Hub.StoreForm.completeOp {h : Hub} (hf : h.StoreForm []) {r : RunningOp} (hr : h.store.running = some r)
    (hread : h.store.read = none) : (h.completeOp r).StoreForm [] :=
  ((hf.freed hr hread).deliver r (h.finishWork r).2).updateRecord.takeNext

/-- A read begins in a suspension of the running clear (R155). -/
theorem Hub.StoreForm.startSuspended {h : Hub} (hf : h.StoreForm []) {c : RunningOp} (hc : h.store.running = some c)
    {rq : HeldRequest} (hs : suspends c.op rq.op = true) (hrq : rq.op.writable) (p : Port) :
    (h.startSuspended p rq).StoreForm [] := by
  have hbegun : (h.onStore fun u => { u with read := some ⟨rq.op, p, 0, false⟩ }).StoreForm [] :=
    ⟨hf.wf, hf.writable, hf.waits, by rintro _ ⟨⟩; exact ⟨c, hc, hs⟩, hf.started⟩
  exact (hbegun.setSlot (x := .running rq) (todo' := []) (by rintro _ ⟨⟩; exact hrq) (fun _ => by simp)
    (by simp)).updateRecord

/-- The port that `waitingRead` answers waits with a read that suspends the clear (R155). -/
theorem Hub.waitingRead_spec {h : Hub} {clear : StoreOp} {p : Port} {rq : HeldRequest}
    (hw : h.waitingRead clear = some (p, rq)) : (h.port p).slot = .waiting rq ∧ suspends clear rq.op = true := by
  obtain ⟨p', -, hp'⟩ := List.exists_of_findSome?_eq_some hw
  split at hp'
  · next rq' hslot =>
    split at hp'
    · next hs =>
      obtain ⟨rfl, rfl⟩ := Prod.mk.inj (Option.some.inj hp')
      exact ⟨hslot, hs⟩
    · contradiction
  all_goals contradiction

/-- The completion of a read that runs in a suspension (R155). -/
theorem Hub.StoreForm.completeSuspended {h : Hub} (hf : h.StoreForm []) {r : RunningOp} (hread : h.store.read = some r) :
    (h.completeSuspended r).StoreForm [] := by
  obtain ⟨c, hc, -⟩ := hf.suspended r hread
  have hended : (h.onStore fun u => { u with read := none }).StoreForm [] :=
    ⟨hf.wf, hf.writable, hf.waits, fun _ hx => by simp at hx, hf.started⟩
  have hdelivered := (hended.deliver r (h.finishWork r).2).updateRecord
  simp only [Hub.completeSuspended, hc]
  split
  · next p rq hw =>
    obtain ⟨hslot, hs⟩ := Hub.waitingRead_spec hw
    exact hdelivered.startSuspended (by simpa using hc) hs (hdelivered.writable p rq (by rw [hslot]; rfl)) p
  · exact hdelivered

/-- The operation that is due is the read of a suspension, or the running one where there is no such read. -/
theorem Store.due_cases {u : Store} {r : RunningOp} (hd : u.due = some r) :
    u.read = some r ∨ (u.read = none ∧ u.running = some r) := by
  unfold Store.due at hd
  split at hd
  · next x hx =>
    split at hd
    · rw [hx]; exact .inl hd
    · contradiction
  · next hx =>
    split at hd
    · next y hy =>
      split at hd
      · rw [hy]; exact .inr ⟨hx, hd⟩
      · contradiction
    · contradiction

theorem Hub.StoreForm.storeCompletion {h : Hub} (hf : h.StoreForm []) (code : Byte) (depot : Bool) :
    (h.storeCompletion code depot).StoreForm [] := by
  have hpins : (h.readDepot depot).StoreForm [] := hf.congr rfl rfl rfl fun _ => rfl
  unfold Hub.storeCompletion
  split
  · next r hdue =>
    split
    · obtain hr | ⟨hread, hr⟩ := Store.due_cases hdue
      · simpa [hr] using hpins.completeSuspended hr
      · simpa [hread] using hpins.completeOp hr hread
    · exact hf
  · exact hf

/-! ## Orders -/

theorem Hub.StoreForm.placeDelayed {h : Hub} (hf : h.StoreForm []) {rq : HeldRequest} (hrq : rq.op.writable) (p : Port) :
    (h.placeDelayed p rq).StoreForm [] := by
  unfold Hub.placeDelayed
  split
  · next hfree =>
    exact Hub.StoreForm.startOp ⟨hf.wf, hf.writable, fun p rq h => .inl (by simpa using hf.waits p rq h), hf.suspended,
      hf.started⟩ hfree hrq
  · next r hr =>
    split
    · next hs => exact hf.startSuspended hr hs.1 hrq p
    · exact hf.setSlot (by rintro _ ⟨⟩; exact hrq) (fun _ _ => by simp [hr]) (by simp)

theorem Hub.StoreForm.onPort {todo : List Port} (p : Port) (g : PortUnit → PortUnit) (h : Hub)
    (hg : ∀ u, (g u).slot = u.slot) (hf : h.StoreForm todo) : (h.onPort p g).StoreForm todo := by
  refine hf.congr rfl rfl rfl fun p' => ?_
  rw [Hub.port_onPort]
  split
  · next he => rw [hg, he]
  · rfl

theorem Hub.StoreForm.onPins {todo : List Port} {h : Hub} (g : Pins → Pins) (hf : h.StoreForm todo) :
    (h.onPins g).StoreForm todo := hf.congr rfl rfl rfl fun _ => rfl

theorem Hub.StoreForm.emptied {h : Hub} (p : Port) (hf : h.StoreForm []) : (h.setSlot p .empty).StoreForm [] :=
  hf.setSlot nofun (fun _ => by simp) (by simp)

theorem Hub.StoreForm.delayedOrder {h : Hub} (hf : h.StoreForm []) (q : Request) (code : Byte)
    {judge : Hub → Except Reason StoreOp} (hj : ∀ h op, judge h = .ok op → op.writable) :
    (h.delayedOrder q code judge).StoreForm [] := by
  refine Hub.delayedOrder_preserves Hub.StoreForm.onPort (fun _ _ => .onPins _) (fun _ _ => .emptied _) q code
    (fun h op hop hh => ?_) hf
  unfold serveDelayed
  split
  · exact hh.placeDelayed (hj h op hop) q.port
  all_goals exact hh

theorem orRange_eq_ok {x : Option StoreOp} {h : Hub} {op : StoreOp} : orRange x h = .ok op ↔ x = some op := by
  cases x <;> simp [orRange]

/-- STORE WRITE names a slot 0 to 30 (R166). -/
theorem writeOperand_writable {payload : List Byte} {op : StoreOp} (hw : writeOperand payload = some op) :
    op.writable := by
  unfold writeOperand at hw
  split at hw
  · obtain ⟨k, -, hk⟩ := Option.bind_eq_some_iff.mp hw
    split at hk
    · next hle => obtain rfl := Option.some.inj hk; exact hle
    · contradiction
  · contradiction

theorem readOperand_writable {payload : List Byte} {op : StoreOp} (hr : readOperand payload = some op) :
    op.writable := by
  unfold readOperand at hr
  split at hr
  · obtain ⟨k, -, hk⟩ := Option.bind_eq_some_iff.mp hr
    split at hk
    · obtain rfl := Option.some.inj hk; trivial
    · contradiction
  · contradiction

/-- The orders whose operand is a sector alone write no slot. -/
theorem sectorOperand_writable {f : SectorId → StoreOp} (hf : ∀ k, (f k).writable) {payload : List Byte} {op : StoreOp}
    (ho : (sectorOperand payload).map f = some op) : op.writable := by
  obtain ⟨k, -, rfl⟩ := Option.map_eq_some_iff.mp ho
  exact hf k

theorem Hub.StoreForm.sectorOrder {h : Hub} (hf : h.StoreForm []) (depot : Bool) (q : Request) (code : Byte)
    {f : SectorId → StoreOp} (hw : ∀ k, (f k).writable) :
    ((h.readDepot depot).delayedOrder q code (orRange ((sectorOperand q.payload).map f))).StoreForm [] :=
  (hf.onPins _).delayedOrder q code fun _ _ ho => sectorOperand_writable hw (orRange_eq_ok.mp ho)

theorem applyOperand_writable {h : Hub} {op : StoreOp} (ha : applyOperand h = .ok op) : op.writable := by
  unfold applyOperand at ha
  split at ha
  · contradiction
  · obtain rfl := Except.ok.inj ha; trivial

/-! ## Resets, the load and the tick -/

/-- A reset cuts off what runs and empties the delayed slots (R160, R168). -/
theorem Hub.StoreForm.reset {h h' : Hub} (hf : h.StoreForm []) (hsectors : h'.store.sectors = h.store.sectors)
    (hrunning : h'.store.running = none) (hread : h'.store.read = none) (hslot : ∀ p, (h'.port p).slot = .empty) :
    h'.StoreForm [] where
  wf k := by simpa [Hub.sector, hsectors] using hf.wf k
  writable p rq := by simp [hslot, DelayedSlot.held?]
  waits p rq := by simp [hslot]
  suspended r := by simp [hread]
  started r := by simp [hrunning]

theorem Hub.StoreForm.completeLoad {h : Hub} (hf : h.StoreForm []) (levels : PerDoor DoorLevels) :
    (h.completeLoad levels).StoreForm [] := by
  have hstore : ∀ g : Hub, (g.completeLoad levels).store.sectors = g.store.sectors ∧
      (g.completeLoad levels).store.running = g.store.running ∧ (g.completeLoad levels).store.read = g.store.read := by
    intro g
    simp only [Hub.completeLoad, Hub.sampleDoors_frame, Hub.formRideTargets_frame, Hub.startLoads_frame,
      Hub.startTimers_frame, Hub.formAccess_frame, Hub.updateRecord_store, Hub.installReset, Hub.installLoad]
    split <;> exact ⟨rfl, rfl, rfl⟩
  exact hf.congr (hstore h).1 (hstore h).2.1 (hstore h).2.2 fun p => by simp [Hub.port]

theorem Store.tick_started (u : Store) (op : StoreOp) : u.tick.started op ↔ u.started op := by
  unfold Store.tick
  split <;> rfl

theorem Hub.StoreForm.tick {h : Hub} (hf : h.StoreForm []) : h.tick.StoreForm [] := by
  have hsectors : h.tick.store.sectors = h.store.sectors := by
    simp only [Hub.tick, Store.tick]; split <;> rfl
  refine ⟨fun k => by simpa [Hub.sector, hsectors] using hf.wf k, hf.writable, fun p rq hp => ?_, fun r hr => ?_,
    fun r hr => ?_⟩
  · have := hf.waits p rq hp
    simp only [Hub.tick, Store.tick]
    split <;> simpa using this
  · simp only [Hub.tick, Store.tick] at hr ⊢
    split at hr
    · next x hx =>
      obtain rfl := Option.some.inj hr
      obtain ⟨c, hc, hs⟩ := hf.suspended x hx
      exact ⟨c, hc, hs⟩
    · next hx => simp [hx] at hr
  · rw [show h.tick.store = h.store.tick from rfl, Store.tick_started]
    simp only [Hub.tick, Store.tick] at hr
    split at hr
    · exact hf.started r hr
    · obtain ⟨x, hx, rfl⟩ := Option.map_eq_some_iff.mp hr
      exact hf.started x hx

/-! ## Every command -/

/-- The delayed slots are those of an earlier part. -/
def Hub.SlotsAs (h g : Hub) : Prop := ∀ p, (g.port p).slot = (h.port p).slot

theorem Hub.SlotsAs.onPort {h : Hub} (p : Port) (f : PortUnit → PortUnit) (g : Hub) (hf : ∀ u, (f u).slot = u.slot)
    (hg : h.SlotsAs g) : h.SlotsAs (g.onPort p f) := by
  intro p'
  rw [Hub.port_onPort]
  split
  · next he => rw [hf, he, hg]
  · exact hg p'

theorem Hub.SlotsAs.of_ports {h g : Hub} (hp : g.ports = h.ports) : h.SlotsAs g := fun p => by simp [Hub.port, hp]

theorem Hub.exchange_slotsAs (q : Request) (code : Byte) {f : Service} (hf : ∀ g : Hub, g.SlotsAs (f g).1) (h : Hub) :
    h.SlotsAs (h.exchange q code f) :=
  Hub.exchange_preserves (P := h.SlotsAs) Hub.SlotsAs.onPort (fun _ _ hg => hg) q code
    (fun g hg p => (hf g p).trans (hg p)) fun _ => rfl

theorem Hub.order_slotsAs (q : Request) (code : Byte) (c : AccessClass) {f : Service} (hf : ∀ g, (f g).1.ports = g.ports)
    (h : Hub) : h.SlotsAs (h.order q code c f) :=
  Hub.order_preserves (P := h.SlotsAs) Hub.SlotsAs.onPort (fun _ _ hg => hg) q code c
    (fun g _ hg p => (Hub.SlotsAs.of_ports (hf g) p).trans (hg p)) fun _ => rfl

theorem Hub.fetch_slotsAs (q : Request) (code : Byte) {f : Service} (hf : ∀ g, (f g).1.ports = g.ports) (h : Hub) :
    h.SlotsAs (h.fetch q code f) :=
  Hub.fetch_preserves (P := h.SlotsAs) Hub.SlotsAs.onPort (fun _ _ hg => hg) q code
    (fun g hg p => (Hub.SlotsAs.of_ports (hf g) p).trans (hg p)) fun _ => rfl

theorem Hub.post_slotsAs (q : Request) (h : Hub) : h.SlotsAs (h.post q) := by
  refine Hub.order_preserves (P := h.SlotsAs) Hub.SlotsAs.onPort (fun _ _ hg => hg) q _ .demand (fun g _ hg => ?_)
    fun _ => rfl
  unfold whenUnposted servePost
  split
  · exact hg
  · split
    · exact hg
    · exact hg.onPort _ _ _ fun _ => rfl

@[simp] theorem serveSteer_ports (h : Hub) : (serveSteer h).1.ports = h.ports := by
  unfold serveSteer; split <;> rfl

@[simp] theorem servePathWindow_hub (payload : List Byte) (h : Hub) : (servePathWindow payload h).1 = h := by
  unfold servePathWindow; split <;> rfl

@[simp] theorem serveActiveItem_hub (payload : List Byte) (h : Hub) : (serveActiveItem payload h).1 = h := by
  unfold serveActiveItem; (repeat' split) <;> rfl

@[simp] theorem copying_hub (record : Hub → List Byte) (h : Hub) : (copying record h).1 = h := rfl

/-- A brake period empties the posted buffers and touches nothing else of the port units (R71). -/
theorem Hub.brakePeriod_slotsAs (h : Hub) : h.SlotsAs h.brakePeriod := by
  intro p
  have hports : h.brakePeriod.ports = h.takeDemands.ports := by simp [Hub.brakePeriod]
  simp only [Hub.port, hports, Hub.takeDemands]
  split
  · simp
  · split <;> simp

/-- The commands that touch the store or a delayed slot: the resets, the load, the delayed orders, ABANDON and the
completions (chapter 12, R153, R154). -/
def touchesStore : Instr → Bool
  | .powerOnReset | .rstLine | .activeSetLoad _ | .hubReset _ | .abandon _ _ => true
  | c => classOf c == some .calibration || completesStore c

theorem Hub.after_store_of_untouched {c : Instr} (hc : touchesStore c = false) (w : Between) (h : Hub) :
    (h.after w c).store = h.store := by
  cases c <;> first | exact Bool.noConfusion hc | simp

theorem Hub.after_slotsAs_of_untouched {c : Instr} (hc : touchesStore c = false) (w : Between) (h : Hub) :
    h.SlotsAs (h.after w c) := by
  cases c
  case fetchMotion | fetchPath | fetchPathWindow | fetchSteer | fetchJoints | fetchBrake | fetchLevel | fetchKneel
      | fetchDoors | fetchLink | fetchPort | fetchActiveItem | fetchAccess => exact Hub.fetch_slotsAs _ _ (by simp) h
  case fetchStoreStatus q depot => exact Hub.fetch_slotsAs q _ (fun _ => rfl) (h.readDepot depot)
  case haltOn | haltOff | clearPathFlag | release | withdraw | kneel | raise | mapWrite | mapLock | routeWrite =>
    exact Hub.order_slotsAs _ _ _ (by simp) h
  case postDriveDemand q => exact Hub.post_slotsAs q h
  case nop q code => exact Hub.exchange_slotsAs q code (fun _ _ => rfl) h
  case take q code =>
    refine Hub.exchange_slotsAs q code (fun g => .of_ports ?_) h
    exact whenLoaded_keeps Hub.ports (fun g => by simp) g
  case unknownObject q kind code =>
    simp only [Hub.after]
    split
    · exact Hub.exchange_slotsAs q code (fun g => .of_ports (whenLoaded_keeps Hub.ports (fun _ => rfl) g)) h
    · exact fun _ => rfl
  case frameError p bytes =>
    simp only [Hub.after]
    split
    · intro p'
      by_cases hp : p' = p <;> simp [Hub.frameError_eq, Hub.port, hp]
    · exact fun _ => rfl
  case brakeTimerExpiry =>
    simp only [Hub.after]
    split
    · exact h.brakePeriod_slotsAs
    · exact fun _ => rfl
  all_goals first | exact Bool.noConfusion hc | exact .of_ports (by simp)

theorem Hub.StoreForm.powerOn {h : Hub} (hf : h.StoreForm []) : h.powerOn.StoreForm [] :=
  hf.reset rfl rfl rfl fun p => by cases p <;> rfl

theorem Hub.StoreForm.warmReset {h : Hub} (cut : Port → Option CutFrame) (hf : h.StoreForm []) :
    (h.warmReset cut).StoreForm [] :=
  hf.reset rfl rfl rfl fun p => by cases p <;> rfl

theorem Hub.StoreForm.hubReset {h : Hub} (hf : h.StoreForm []) (q : Request) : (h.hubReset q).StoreForm [] :=
  Hub.hubReset_preserves Hub.StoreForm.onPort (fun _ _ => .onPins _) (fun cut _ => .warmReset cut) q hf

theorem Hub.StoreForm.activeSetLoad {h : Hub} (hf : h.StoreForm []) (w : Between) (x : LoadInputs) :
    (h.after w (.activeSetLoad x)).StoreForm [] := by
  simp only [Hub.after]
  split
  · exact Hub.StoreForm.completeLoad (hf.onPins _) _
  · exact hf

theorem Hub.StoreForm.after {h : Hub} (hf : h.StoreForm []) (w : Between) (c : Instr) : (h.after w c).StoreForm [] := by
  by_cases hc : touchesStore c = false
  · have hstore := Hub.after_store_of_untouched hc w h
    exact hf.congr (by rw [hstore]) (by rw [hstore]) (by rw [hstore]) (Hub.after_slotsAs_of_untouched hc w h)
  cases c
  case powerOnReset => exact hf.powerOn
  case rstLine => exact hf.warmReset _
  case activeSetLoad x => exact hf.activeSetLoad w x
  case hubReset q => exact hf.hubReset q
  case storeRead q =>
    exact (hf.onPins _).delayedOrder q.toRequest _ fun _ _ ho => readOperand_writable (orRange_eq_ok.mp ho)
  case storeWrite q =>
    exact (hf.onPins _).delayedOrder q.toRequest _ fun _ _ ho => writeOperand_writable (orRange_eq_ok.mp ho)
  case storeClear q depot => exact hf.sectorOrder depot q _ (f := .clear) fun _ => trivial
  case storeClose q => exact hf.sectorOrder q.depot q.toRequest _ (f := .close) fun _ => trivial
  case storeLock q => exact hf.sectorOrder q.depot q.toRequest _ (f := .lock) fun _ => trivial
  case blankTest q => exact hf.sectorOrder q.depot q.toRequest _ (f := .blank) fun _ => trivial
  case apply q => exact (hf.onPins _).delayedOrder q.toRequest _ fun _ _ ho => applyOperand_writable ho
  case abandon q code =>
    exact Hub.exchangeLoaded_preserves Hub.StoreForm.onPort (fun _ _ => .onPins _) q code
      (fun h _ hh => Hub.StoreForm.emptied q.port hh) hf
  case storeReadCompletion | storeWriteCompletion | storeCloseCompletion | storeLockCompletion | blankTestCompletion
      | storeClearCompletion | applyCompletion => exact hf.storeCompletion _ _
  all_goals exact absurd rfl hc

/-- Settles O60: every command and the tick keep the store's form. -/
theorem storeKeepsItsForm : Obligations.StoreKeepsItsForm := fun _ _ hs hstep =>
  Hub.storeInv_iff.mpr <| step_induction (P := Hub.StoreForm []) (fun _ w c hf => hf.after w c) (fun _ hf => hf.tick)
    (Hub.storeInv_iff.mp hs) hstep

end Sys2Proof.Machine
end

section
/-! PROOFS. What each operation raises: the kinds of events, each about a subject of its kind, with the routing table kept
(R161 to R164). -/

namespace Sys2Proof.Machine

/-! ## Raises in a row -/

/-- An event as a unit raises it: its kind, its subject and its value (R162). -/
abbrev Raised := EventKind × Nat × Int

/-- Events raised one after the other in one step (R162). -/
def EventUnit.raiseAll (now : Word) (raised : List Raised) (u : EventUnit) : EventUnit :=
  raised.foldl (fun u x => u.raise now x.1 x.2.1 (BitVec.ofInt 16 x.2.2)) u

theorem EventUnit.raiseAll_append (now : Word) (xs ys : List Raised) (u : EventUnit) :
    u.raiseAll now (xs ++ ys) = (u.raiseAll now xs).raiseAll now ys := by
  simp [EventUnit.raiseAll]

@[simp] theorem EventUnit.raise_routing (now : Word) (k : EventKind) (sb : Nat) (v : Half) (u : EventUnit) :
    (u.raise now k sb v).routing = u.routing := rfl

@[simp] theorem EventUnit.raiseAll_routing (now : Word) (xs : List Raised) (u : EventUnit) :
    (u.raiseAll now xs).routing = u.routing := by
  induction xs generalizing u with
  | nil => rfl
  | cons x xs ih => exact ih _

/-- Raises about subjects of their kinds keep the queues' form (R161 to R163). -/
theorem EventUnit.raiseAll_inv (now : Word) {xs : List Raised} (hx : ∀ x ∈ xs, x.2.1 ∈ subjectsOf x.1) {u : EventUnit}
    (hu : u.Inv) : (u.raiseAll now xs).Inv := by
  induction xs generalizing u with
  | nil => exact hu
  | cons x xs ih =>
    exact ih (fun y hy => hx y (List.mem_cons_of_mem _ hy)) (EventUnit.raise_inv now _ _ _ (hx x List.mem_cons_self) hu)

/-- A raise of one kind leaves what the queues hold of another (R162). -/
theorem EventUnit.raise_ofKind_of_ne {k kind : EventKind} (hk : k ≠ kind) (now : Word) (sb : Nat) (v : Half) (u : EventUnit)
    (p : Port) : (u.raise now kind sb v).ofKind p k = u.ofKind p k := by
  simp only [EventUnit.ofKind, EventUnit.raise, PerPort.get_tab]
  split
  · exact placeEvent_filter_of_ne hk _ _ _ _
  · rfl

/-- What a raise leaves of a kind's entries depends on that kind's entries alone (R162). -/
theorem placeEvent_filter_same (kind : EventKind) (now : Word) (sb : Nat) (v : Half) (l : List EventEntry) :
    (placeEvent now kind sb v l).filter (·.kind == kind) = placeEvent now kind sb v (l.filter (·.kind == kind)) := by
  induction l with
  | nil => simp [placeEvent]
  | cons x xs ih =>
    simp only [placeEvent, List.filter_cons]
    by_cases hk : x.kind = kind
    · by_cases hs : x.subject = sb
      · simp [placeEvent, hk, hs]
      · simp [placeEvent, hk, hs, ih]
    · simp [hk, ih]

theorem EventUnit.raise_ofKind_congr {u u' : EventUnit} {k : EventKind} {p : Port} (hr : u'.routing = u.routing)
    (ho : u'.ofKind p k = u.ofKind p k) (now : Word) (kind : EventKind) (sb : Nat) (v : Half) :
    (u'.raise now kind sb v).ofKind p k = (u.raise now kind sb v).ofKind p k := by
  by_cases hk : k = kind
  · subst hk
    simp only [EventUnit.ofKind, EventUnit.raise, PerPort.get_tab, hr] at ho ⊢
    split
    · rw [placeEvent_filter_same, placeEvent_filter_same, ho]
    · exact ho
  · rw [EventUnit.raise_ofKind_of_ne hk, EventUnit.raise_ofKind_of_ne hk, ho]

theorem EventUnit.raiseAll_ofKind_congr {u u' : EventUnit} {k : EventKind} {p : Port} (hr : u'.routing = u.routing)
    (ho : u'.ofKind p k = u.ofKind p k) (now : Word) (xs : List Raised) :
    (u'.raiseAll now xs).ofKind p k = (u.raiseAll now xs).ofKind p k := by
  induction xs generalizing u u' with
  | nil => exact ho
  | cons x xs ih => exact ih (by simpa using hr) (EventUnit.raise_ofKind_congr hr ho now _ _ _)

/-- Raises of other kinds leave what the queues hold of a kind (R162). -/
theorem EventUnit.raiseAll_ofKind_of_ne {k : EventKind} {xs : List Raised} (hx : ∀ x ∈ xs, x.1 ≠ k) (now : Word)
    (u : EventUnit) (p : Port) : (u.raiseAll now xs).ofKind p k = u.ofKind p k := by
  induction xs generalizing u with
  | nil => rfl
  | cons x xs ih =>
    exact (ih (fun y hy => hx y (List.mem_cons_of_mem _ hy)) _).trans
      (EventUnit.raise_ofKind_of_ne (hx x List.mem_cons_self).symm now _ _ u p)

/-! ## What an operation raises -/

/-- Between two moments of one step the part raises events of the given kinds alone, each about a subject of its kind
(R161, R162). -/
def Hub.Emits (kinds : List EventKind) (h h' : Hub) : Prop :=
  h'.clock.ms = h.clock.ms ∧ ∃ raised : List Raised, (∀ x ∈ raised, x.1 ∈ kinds ∧ x.2.1 ∈ subjectsOf x.1) ∧
    h'.events = h.events.raiseAll h.clock.ms raised

namespace Hub.Emits
variable {kinds kinds' : List EventKind} {h h' h'' : Hub}

/-- Nothing is raised. -/
theorem silent (hc : h'.clock = h.clock) (he : h'.events = h.events) : Hub.Emits kinds h h' :=
  ⟨by rw [hc], [], by simp, he⟩

theorem refl (h : Hub) : Hub.Emits kinds h h := silent rfl rfl

theorem trans (h1 : Hub.Emits kinds h h') (h2 : Hub.Emits kinds h' h'') : Hub.Emits kinds h h'' := by
  obtain ⟨hc, xs, hx, he⟩ := h1
  obtain ⟨hc', ys, hy, he'⟩ := h2
  refine ⟨hc'.trans hc, xs ++ ys, fun z hz => (List.mem_append.mp hz).elim (hx z) (hy z), ?_⟩
  rw [EventUnit.raiseAll_append, he', he, hc]

theorem mono (h1 : Hub.Emits kinds h h') (hk : ∀ k ∈ kinds, k ∈ kinds') : Hub.Emits kinds' h h' := by
  obtain ⟨hc, xs, hx, he⟩ := h1
  exact ⟨hc, xs, fun x hm => ⟨hk _ (hx x hm).1, (hx x hm).2⟩, he⟩

/-- One event is raised, on the way from `h` to `h'` by a last step that touches neither the clock nor the queues. -/
theorem raise (kind : EventKind) (sb : Nat) (v : Int) (hk : kind ∈ kinds) (hs : sb ∈ subjectsOf kind) (h : Hub) :
    Hub.Emits kinds h (h.raise kind sb v) :=
  ⟨by simp, [(kind, sb, v)], by simp [hk, hs], rfl⟩

theorem foldl {α : Type} {f : Hub → α → Hub} (hf : ∀ h a, Hub.Emits kinds h (f h a)) (l : List α) (h : Hub) :
    Hub.Emits kinds h (l.foldl f h) := by
  induction l generalizing h with
  | nil => exact refl h
  | cons a l ih => exact (hf h a).trans (ih _)

/-- The routing table stands (R164). -/
theorem routing (h1 : Hub.Emits kinds h h') : h'.events.routing = h.events.routing := by
  obtain ⟨-, xs, -, he⟩ := h1
  rw [he, EventUnit.raiseAll_routing]

/-- The queues' form is kept (R161 to R163). -/
theorem inv (h1 : Hub.Emits kinds h h') (hi : h.events.Inv) : h'.events.Inv := by
  obtain ⟨-, xs, hx, he⟩ := h1
  rw [he]
  exact EventUnit.raiseAll_inv _ (fun x hm => (hx x hm).2) hi

/-- Nothing is raised of any other kind. -/
theorem ofKind (h1 : Hub.Emits kinds h h') {k : EventKind} (hk : k ∉ kinds) (p : Port) :
    h'.events.ofKind p k = h.events.ofKind p k := by
  obtain ⟨-, xs, hx, he⟩ := h1
  rw [he]
  exact EventUnit.raiseAll_ofKind_of_ne (fun x hm heq => hk (by rw [← heq]; exact (hx x hm).1)) _ _ p

end Hub.Emits

theorem Door.num_mem (d : Door) : d.num ∈ [1, 2, 3, 4, 5] := by cases d <;> decide
theorem Circuit.num_mem (c : Circuit) : c.num ∈ [1, 2, 3, 4, 5, 6, 7, 8] := by cases c <;> decide
theorem Joint.num_mem (j : Joint) : j.num ∈ [1, 2] := by cases j <;> decide

/-! ## The shared operations -/

theorem Hub.judgePermit_emits (h : Hub) : h.Emits [.movePermit] h.judgePermit := by
  unfold Hub.judgePermit
  split
  · exact .refl h
  · exact .trans (.silent (by simp) (by simp)) (.raise .movePermit 0 _ (by decide) (by decide) _)

theorem Hub.judgeActivities_emits (h : Hub) : h.Emits [] h.judgeActivities := .silent (by simp) (by simp)

/-- The kinds that a change of the kneel state can bring (R117, R118). -/
abbrev kneelKinds : List EventKind := [.kneelState, .movePermit]

theorem Hub.setKneel_emits (new : KneelState) (h : Hub) : h.Emits kneelKinds (h.setKneel new) := by
  have hraise := Hub.Emits.raise (kinds := kneelKinds) .kneelState 0 new.num (by decide) (by decide)
    (h.onKneel fun u => if new = .stopped then { u with state := new }
      else { u with state := new, cause := none, circuit := none, before := none })
  unfold Hub.setKneel
  exact (((Hub.Emits.silent (by simp) (by simp)).trans hraise).trans (.silent (by simp) (by simp))).trans
    ((Hub.judgePermit_emits _).mono (by decide))

theorem Hub.stopKneel_emits (cause : StopCause) (c : Option Circuit) (h : Hub) :
    h.Emits kneelKinds (h.stopKneel cause c) := by
  unfold Hub.stopKneel
  split
  case h_4 | h_5 => exact .refl h
  all_goals exact .trans (.silent (by simp) (by simp)) (Hub.setKneel_emits _ _)

theorem Hub.autoRaise_emits (h : Hub) : h.Emits kneelKinds h.autoRaise := by
  unfold Hub.autoRaise
  split
  · exact .trans (.silent (by simp) (by simp)) (Hub.setKneel_emits _ _)
  · exact .refl h

theorem Hub.exclude_emits (cs : List Circuit) (add : Causes → Causes) (h : Hub) :
    h.Emits kneelKinds (h.exclude cs add) := by
  have hstop : ∀ (g : Hub) (c : Circuit),
      g.Emits kneelKinds (if g.inScope c then g.stopKneel .exclusion (some c) else g) := by
    intro g c
    split
    · exact Hub.stopKneel_emits _ _ g
    · exact .refl g
  unfold Hub.exclude
  extract_lets newly marked out handed
  have hout : h.Emits kneelKinds out :=
    .silent (by simp [out, marked, foldl_keeps Hub.clock]) (by simp [out, marked, foldl_keeps Hub.events])
  have hhanded : out.Emits kneelKinds handed := .foldl hstop newly out
  exact (hout.trans hhanded).trans (.silent (by simp) (by simp))

theorem Hub.clearCause_emits (cs : List Circuit) (drop : Causes → Causes) (h : Hub) : h.Emits [] (h.clearCause cs drop) :=
  .silent (by simp) (by simp)

theorem Hub.judgeCondition_emits (h : Hub) : h.Emits kneelKinds h.judgeCondition := by
  simp only [Hub.judgeCondition]
  split
  · exact .refl h
  · split
    · exact .trans (.silent (by simp) (by simp)) (Hub.autoRaise_emits _)
    · exact .silent (by simp) (by simp)

/-- The kinds that a change of a release can bring (R126, R135). -/
abbrev releaseKinds : List EventKind := [.doorRelease, .kneelState, .movePermit]

theorem Hub.raiseRelease_emits (d : Door) (h : Hub) : h.Emits releaseKinds (h.raiseRelease d) :=
  .raise .doorRelease d.num _ (by decide) (Door.num_mem d) h

theorem Hub.setRelease_emits (d : Door) (new : Release) (h : Hub) : h.Emits releaseKinds (h.setRelease d new) := by
  unfold Hub.setRelease
  split
  · exact .refl h
  · exact (((Hub.Emits.silent (by simp) (by simp)).trans (Hub.raiseRelease_emits d _)).trans
      ((Hub.judgeCondition_emits _).mono (by decide))).trans ((Hub.judgePermit_emits _).mono (by decide))

theorem Hub.grantWaiting_emits (h : Hub) : h.Emits releaseKinds h.grantWaiting := by
  refine .foldl (fun g d => ?_) _ h
  split
  · exact Hub.setRelease_emits d _ g
  · exact .refl g

theorem Hub.withdrawByMotion_emits (h : Hub) (d : Door) : h.Emits releaseKinds (h.withdrawByMotion d) := by
  unfold Hub.withdrawByMotion
  (repeat' split) <;> first | exact .refl h | exact Hub.setRelease_emits d _ h

/-- The kinds that a change of the halt state can bring (R86, R129). -/
abbrev haltKinds : List EventKind := [.haltState, .doorRelease, .kneelState, .movePermit]

theorem Hub.setHalt_emits (new : HaltState) (h : Hub) : h.Emits haltKinds (h.setHalt new) := by
  unfold Hub.setHalt
  extract_lets changed
  have hchanged : h.Emits haltKinds changed :=
    .trans (.silent (h' := h.onBrake _) rfl rfl) (.raise .haltState 0 new.num (by decide) (by decide) _)
  refine Hub.Emits.trans ?_ ((Hub.judgePermit_emits _).mono (by decide))
  split
  · exact hchanged.trans ((Hub.grantWaiting_emits _).mono (by decide))
  · exact hchanged

theorem Hub.requestApply_emits (h : Hub) : h.Emits haltKinds h.requestApply := by
  unfold Hub.requestApply
  split
  · exact Hub.setHalt_emits _ h
  · exact .refl h

theorem Hub.judgeAutoHalt_emits (h : Hub) : h.Emits haltKinds h.judgeAutoHalt := by
  unfold Hub.judgeAutoHalt
  split
  · exact Hub.requestApply_emits h
  · exact .refl h

/-- The kinds that a change of standstill can bring (R17). -/
abbrev standstillKinds : List EventKind := [.standstill, .haltState, .doorRelease, .kneelState, .movePermit]

theorem Hub.enterStandstill_emits (h : Hub) : h.Emits standstillKinds h.enterStandstill := by
  unfold Hub.enterStandstill
  extract_lets changed granted
  have hchanged : h.Emits standstillKinds changed :=
    .trans (.silent (h' := h.onSensing _) rfl rfl) (.raise .standstill 0 1 (by decide) (by decide) _)
  have hgranted : changed.Emits standstillKinds granted := by
    simp only [granted]
    split
    · exact (Hub.grantWaiting_emits _).mono (by decide)
    · exact .refl _
  exact ((hchanged.trans hgranted).trans ((Hub.judgeAutoHalt_emits _).mono (by decide))).trans
    ((Hub.judgeActivities_emits _).mono nofun)

theorem Hub.leaveStandstill_emits (h : Hub) :
    h.Emits [.standstill, .doorRelease, .kneelState, .movePermit] h.leaveStandstill := by
  unfold Hub.leaveStandstill
  extract_lets changed
  have hchanged : h.Emits [.standstill, .doorRelease, .kneelState, .movePermit] changed :=
    .trans (.silent (h' := h.onSensing _) rfl rfl) (.raise .standstill 0 2 (by decide) (by decide) _)
  refine (hchanged.trans ?_).trans ((Hub.judgeActivities_emits _).mono nofun)
  split
  · exact .trans ((Hub.stopKneel_emits _ _ _).mono (by decide))
      (.foldl (fun g d => (Hub.withdrawByMotion_emits g d).mono (by decide)) _ _)
  · exact .refl _

/-! ## The sensing unit's commands -/

theorem Hub.raisePairFault_emits {subject : Nat} (hs : subject ∈ [1, 2, 3, 4, 5, 6, 7]) (entry : Nat) (c : Conversion)
    (old new : Pair) (h : Hub) : h.Emits [.sensorFault] (h.raisePairFault subject entry c old new) := by
  unfold Hub.raisePairFault
  (repeat' split) <;> first | exact .refl h | exact .raise .sensorFault subject _ (by decide) hs h

theorem Hub.raiseSingleFault_emits {subject : Nat} (hs : subject ∈ [1, 2, 3, 4, 5, 6, 7]) (entry : Nat)
    (old new : Single) (h : Hub) : h.Emits [.sensorFault] (h.raiseSingleFault subject entry old new) := by
  unfold Hub.raiseSingleFault
  split
  · exact .raise .sensorFault subject _ (by decide) hs h
  · exact .refl h

theorem Hub.raiseRoundFaults_emits (before : Hub) (raw : ScanResults) (h : Hub) :
    h.Emits [.sensorFault] (Hub.raiseRoundFaults before raw h) := by
  unfold Hub.raiseRoundFaults
  extract_lets old new steer pairs heights bellows reservoir
  have hsteer : h.Emits [.sensorFault] steer := Hub.raisePairFault_emits (by decide) ..
  have hpairs : steer.Emits [.sensorFault] pairs :=
    .foldl (fun _ j => Hub.raisePairFault_emits (by cases j <;> decide) ..) _ _
  have hheights : pairs.Emits [.sensorFault] heights := .foldl (fun _ _ => Hub.raiseSingleFault_emits (by decide) ..) _ _
  have hbellows : heights.Emits [.sensorFault] bellows :=
    .foldl (fun _ _ => Hub.raiseSingleFault_emits (by decide) ..) _ _
  have hreservoir : bellows.Emits [.sensorFault] reservoir := Hub.raiseSingleFault_emits (by decide) ..
  exact ((((hsteer.trans hpairs).trans hheights).trans hbellows).trans hreservoir).trans
    (.foldl (fun _ _ => Hub.raiseSingleFault_emits (by decide) ..) _ _)

theorem Hub.beginCut_emits (cause : CutCause) (h : Hub) : h.Emits [.airLow] (h.beginCut cause) := by
  unfold Hub.beginCut
  extract_lets cut
  have hback : h.Emits [.airLow] ((h.level.latestFirst.foldl Hub.backToQueue cut).writeValves) :=
    .silent (by simp [cut, foldl_keeps Hub.clock]) (by simp [cut, foldl_keeps Hub.events])
  exact hback.trans (.raise .airLow 0 cause.eventValue (by decide) (by decide) _)

theorem Hub.judgeReservoir_emits (old : Single) (h : Hub) : h.Emits [.airLow] (h.judgeReservoir old) := by
  have hraise : ∀ (g : Levelling → Levelling) (v : Int), h.Emits [.airLow] ((h.onLevel g).raise .airLow 0 v) := fun g v =>
    .trans (.silent (h' := h.onLevel g) rfl rfl) (.raise .airLow 0 v (by decide) (by decide) _)
  unfold Hub.judgeReservoir
  extract_lets new
  (repeat' split) <;>
    first
      | exact .refl h
      | exact hraise _ _
      | exact Hub.beginCut_emits _ h
      | exact .silent (by simp) (by simp)

/-- The kinds a scan round can raise (R10, R99, R103). -/
theorem Hub.scanRound_emits (raw : ScanResults) (h : Hub) :
    h.Emits [.sensorFault, .airLow, .kneelState, .movePermit] (h.scanRound raw) := by
  unfold Hub.scanRound
  extract_lets old published new raised lost found levelled
  have hraised : h.Emits [.sensorFault, .airLow, .kneelState, .movePermit] raised :=
    .trans (.silent (h' := published) rfl rfl) ((Hub.raiseRoundFaults_emits h raw published).mono (by decide))
  have hlevelled : raised.Emits [.sensorFault, .airLow, .kneelState, .movePermit] levelled :=
    ((Hub.exclude_emits lost (fun x => { x with height := true }) raised).mono (by decide)).trans (.silent (by simp [levelled]) (by simp [levelled]))
  split
  · exact (hraised.trans hlevelled).trans ((Hub.judgeReservoir_emits _ _).mono (by decide))
  · exact hraised.trans hlevelled

theorem Hub.pathIncrement_emits (dir : Direction) (w : Nat) (h : Hub) : h.Emits [.path] (h.pathIncrement dir w) := by
  cases dir with
  | forward => exact .silent rfl rfl
  | reverse =>
    simp only [Hub.pathIncrement]
    split
    · exact .silent rfl rfl
    · exact .trans (.silent (h' := h.onPath _) rfl rfl) (.raise .path 0 _ (by decide) (by decide) _)

/-- The kinds a pulse can raise (R17, R25, R116, R130). -/
theorem Hub.wheelPulse_emits (dir : Direction) (h : Hub) :
    h.Emits [.path, .standstill, .doorRelease, .kneelState, .movePermit] (h.wheelPulse dir) := by
  unfold Hub.wheelPulse
  extract_lets counted
  have hcounted : h.Emits [.path, .standstill, .doorRelease, .kneelState, .movePermit] counted :=
    .trans (.silent (h' := h.odometry dir) rfl rfl) ((Hub.pathIncrement_emits dir h.wp _).mono (by decide))
  split
  · exact hcounted.trans ((Hub.leaveStandstill_emits _).mono (by decide))
  · exact hcounted

theorem Hub.quietExpiry_emits (h : Hub) : h.Emits standstillKinds h.quietExpiry := by
  unfold Hub.quietExpiry
  extract_lets quiet
  split
  · exact .silent rfl rfl
  · exact .trans (.silent (h' := quiet) rfl rfl) (Hub.enterStandstill_emits _)

/-! ## The joint, brake and levelling periods -/

theorem Hub.jointWork_emits (h : Hub) (j : Joint) : h.Emits [.jointState] (h.jointWork j) := by
  unfold Hub.jointWork
  extract_lets old new written
  split
  · exact .silent rfl rfl
  · exact .trans (.silent (h' := written) rfl rfl) (.raise .jointState j.num _ (by decide) (Joint.num_mem j) _)

theorem Hub.jointPeriod_emits (h : Hub) : h.Emits [.jointState] h.jointPeriod := by
  unfold Hub.jointPeriod
  extract_lets judged
  have hjudged : h.Emits [.jointState] judged := (Hub.jointWork_emits _ _).trans (Hub.jointWork_emits _ _)
  exact hjudged.trans (.silent (by simp) (by simp))

theorem Hub.ageDemand_emits (h : Hub) : h.Emits [.demandStale] h.ageDemand := by
  unfold Hub.ageDemand
  extract_lets age aged
  split
  · exact .trans (.silent (h' := aged) rfl rfl) (.raise .demandStale 0 _ (by decide) (by decide) _)
  · exact .silent rfl rfl

theorem Hub.takeDemands_emits (h : Hub) : h.Emits [.demandStale] h.takeDemands := by
  unfold Hub.takeDemands
  split
  · exact Hub.ageDemand_emits h
  · extract_lets emptied taken
    split
    · exact .silent rfl rfl
    · exact .silent (by simp [taken, emptied]) (by simp [taken, emptied])

theorem Hub.confirmHalt_emits (h : Hub) : h.Emits (.haltFault :: haltKinds) h.confirmHalt := by
  unfold Hub.confirmHalt
  split
  · split
    · exact (Hub.setHalt_emits _ h).mono (by decide)
    · extract_lets time timed
      split
      · exact .trans (.silent (h' := timed.onBrake _) rfl rfl) (.raise .haltFault 0 _ (by decide) (by decide) _)
      · exact .silent rfl rfl
  · exact .refl h

/-- The kinds a brake period can raise (R73, R84, R86). -/
theorem Hub.brakePeriod_emits (h : Hub) : h.Emits (.demandStale :: .haltFault :: haltKinds) h.brakePeriod := by
  unfold Hub.brakePeriod
  have htake := (Hub.takeDemands_emits h).mono (kinds' := .demandStale :: .haltFault :: haltKinds) (by decide)
  have hload : h.takeDemands.Emits (.demandStale :: .haltFault :: haltKinds) h.takeDemands.setModes.runLoads.formService :=
    .silent (by simp) (by simp)
  exact ((htake.trans hload).trans ((Hub.confirmHalt_emits _).mono (by decide))).trans (.silent (by simp) (by simp))

theorem Hub.slowFill_emits (i : FillSlot) (x : HeldSlot) (h : Hub) : h.Emits [.slowFill] (h.slowFill i x) :=
  .trans (.silent (by simp) (by simp)) (.raise .slowFill _ _ (by decide) (Circuit.num_mem _) _)

theorem Hub.advanceSlot_emits (h : Hub) (i : FillSlot) : h.Emits [.slowFill] (h.advanceSlot i) := by
  unfold Hub.advanceSlot
  (repeat' split) <;> first | exact .silent rfl rfl | exact Hub.slowFill_emits i _ h

theorem Hub.levellingStops_emits (h : Hub) : h.Emits [.slowFill] h.levellingStops := by
  unfold Hub.levellingStops
  extract_lets exited paused stopped
  have hstopped : h.Emits [.slowFill] stopped :=
    .silent (by simp [stopped, paused, exited, foldl_keeps Hub.clock])
      (by simp [stopped, paused, exited, foldl_keeps Hub.events])
  exact hstopped.trans (.foldl Hub.advanceSlot_emits _ _)

theorem Hub.judgeCompletion_emits (h : Hub) : h.Emits kneelKinds h.judgeCompletion := by
  unfold Hub.judgeCompletion
  (repeat' split) <;>
    first
      | exact .refl h
      | exact .trans (.silent (h' := h.onKneel _) rfl rfl) (Hub.setKneel_emits _ _)

/-- The kinds a levelling period can raise (R98, R113, R114). -/
theorem Hub.levellingPeriod_emits (h : Hub) : h.Emits (.slowFill :: kneelKinds) h.levellingPeriod := by
  unfold Hub.levellingPeriod
  extract_lets stopped granted
  have hstopped : h.Emits (.slowFill :: kneelKinds) stopped := (Hub.levellingStops_emits h).mono (by decide)
  have hgranted : stopped.Emits (.slowFill :: kneelKinds) granted.writeValves.handErrors :=
    .silent (by simp [granted, foldl_keeps Hub.clock]) (by simp [granted, foldl_keeps Hub.events])
  have hjudged := (hstopped.trans hgranted).trans
    ((Hub.judgeCompletion_emits _).mono (kinds' := .slowFill :: kneelKinds) (by decide))
  exact hjudged.trans (.silent (Hub.onLevel_clock _ _) (Hub.onLevel_events _ _))

/-! ## The door unit -/

theorem Hub.positionChange_emits (d : Door) (h : Hub) : h.Emits (.doorState :: haltKinds) (h.positionChange d) := by
  unfold Hub.positionChange
  extract_lets now changed
  have hchanged : h.Emits (.doorState :: haltKinds) changed :=
    .trans (.silent (h' := (h.onDoor d _).onDoors _) rfl rfl)
      (.raise .doorState d.num _ (by decide) (Door.num_mem d) _)
  split
  · exact .refl h
  · split
    · exact ((hchanged.trans ((Hub.judgeAutoHalt_emits _).mono (by decide))).trans
        ((Hub.judgeCondition_emits _).mono (by decide))).trans ((Hub.judgePermit_emits _).mono (by decide))
    · exact hchanged

theorem Hub.handleActs_emits (d : Door) (h : Hub) : h.Emits (.doorEmergency :: haltKinds) (h.handleActs d) := by
  unfold Hub.handleActs
  extract_lets fresh asked moved
  have hasked : h.Emits (.doorEmergency :: haltKinds) asked :=
    .trans (.silent (h' := h.onDoor d _) rfl rfl) ((Hub.requestApply_emits _).mono (by decide))
  have hmoved : asked.Emits (.doorEmergency :: haltKinds) moved := by
    simp only [moved]
    (repeat' split) <;>
      first
        | exact .refl _
        | exact (Hub.setRelease_emits _ _ _).mono (by decide)
        | exact (Hub.raiseRelease_emits _ _).mono (by decide)
  exact (hasked.trans hmoved).trans (.raise .doorEmergency d.num 1 (by decide) (Door.num_mem d) _)

theorem Hub.handleChange_emits (d : Door) (h : Hub) : h.Emits (.doorEmergency :: haltKinds) (h.handleChange d) := by
  have hraise : ∀ (g : DoorHold → DoorHold) (v : Int),
      h.Emits (.doorEmergency :: haltKinds) ((h.onDoor d g).raise .doorEmergency d.num v) := fun g v =>
    .trans (.silent (h' := h.onDoor d g) rfl rfl) (.raise .doorEmergency d.num v (by decide) (Door.num_mem d) _)
  unfold Hub.handleChange
  split
  · refine Hub.Emits.trans ?_ ((Hub.judgePermit_emits _).mono (by decide))
    split
    · unfold Hub.handleActive
      split
      · exact Hub.handleActs_emits d h
      · exact hraise _ _
    · exact hraise _ _
  · exact .refl h

/-- The kinds an expiry of a debounce timer can raise (R124, R131 to R134). -/
theorem Hub.debounceExpiry_emits (d : Door) (i : DoorInput) (h : Hub) :
    h.Emits (.doorState :: .doorEmergency :: haltKinds) (h.debounceExpiry d i) := by
  unfold Hub.debounceExpiry
  extract_lets stopped raw taken
  have htaken : h.Emits (.doorState :: .doorEmergency :: haltKinds) taken := .silent rfl rfl
  split
  · exact .silent rfl rfl
  · cases i with
    | closed | lock => exact htaken.trans ((Hub.positionChange_emits d _).mono (by decide))
    | handle => exact htaken.trans ((Hub.handleChange_emits d _).mono (by decide))

theorem Hub.judgeAtSpeed_emits (h : Hub) (d : Door) : h.Emits (.doorEmergency :: haltKinds) (h.judgeAtSpeed d) := by
  unfold Hub.judgeAtSpeed
  split
  · exact .trans (.silent (h' := h.onDoor d _) rfl rfl) (Hub.handleActs_emits d _)
  · exact .refl h

theorem Hub.speedExpiry_emits (dir : Direction) (h : Hub) : h.Emits (.doorEmergency :: haltKinds) (h.speedExpiry dir) :=
  .trans (.silent (h' := (h.onPins _).onSensing _) rfl rfl) (.foldl Hub.judgeAtSpeed_emits _ _)

theorem Hub.releaseDoor_emits (mask : DoorMask) (h : Hub) (d : Door) : h.Emits releaseKinds (h.releaseDoor mask d) := by
  unfold Hub.releaseDoor
  split
  · exact Hub.setRelease_emits _ _ _
  · exact .refl h

theorem Hub.withdrawDoor_emits (mask : DoorMask) (h : Hub) (d : Door) :
    h.Emits releaseKinds (h.withdrawDoor mask d) := by
  unfold Hub.withdrawDoor
  split
  · exact .trans (.silent (h' := h.onDoor d _) rfl rfl) (Hub.setRelease_emits _ _ _)
  · exact .refl h

theorem Hub.installEnables_emits (h : Hub) : h.Emits releaseKinds h.installEnables := by
  unfold Hub.installEnables
  extract_lets disabled masked
  have hdisabled : masked.Emits releaseKinds (disabled.foldl Hub.disableDoor masked) :=
    .foldl (fun g d => .trans (.silent (h' := g.onDoor d _) rfl rfl) (Hub.setRelease_emits _ _ _)) _ _
  exact (((Hub.Emits.silent (h' := masked) rfl rfl).trans hdisabled).trans
    ((Hub.judgeCondition_emits _).mono (by decide))).trans ((Hub.judgePermit_emits _).mono (by decide))

theorem Hub.sampleDoors_emits (levels : PerDoor DoorLevels) (h : Hub) : h.Emits [.movePermit] (h.sampleDoors levels) := by
  unfold Hub.sampleDoors
  exact .trans (.silent rfl rfl) (Hub.judgePermit_emits _)

/-! ## The link -/

/-- A hand-over raises CHAIN_FAULT and what its owner's action raises (R143, R144). -/
theorem Hub.handFault_emits {kinds : List EventKind} (hk : .chainFault ∈ kinds) {chain : Nat} (hc : chain ∈ [1, 2, 3, 4])
    (value : Nat) {set clear : Hub → Hub} (hset : ∀ g : Hub, g.Emits kinds (set g))
    (hclear : ∀ g : Hub, g.Emits kinds (clear g)) (old new : Bool) (h : Hub) :
    h.Emits kinds (h.handFault chain value set clear old new) := by
  unfold Hub.handFault
  split
  · exact (Hub.Emits.raise .chainFault chain value hk hc h).trans (hset _)
  · exact hclear h
  · exact .refl h

theorem Hub.completeL_emits (answers : PerCircuit (Option (DeviceAnswer ValveCmd Bool))) (h : Hub) :
    h.Emits (.chainFault :: kneelKinds) (h.completeL answers) := by
  have hfault := fun cs add drop value old new => Hub.handFault_emits (kinds := .chainFault :: kneelKinds) (by decide)
    (chain := 1) (by decide) value (fun g => (Hub.exclude_emits cs add g).mono (by decide))
    (fun g => (Hub.clearCause_emits cs drop g).mono nofun) old new
  unfold Hub.completeL
  extract_lets old judged new clean chain updated flags
  have hflags : updated.Emits (.chainFault :: kneelKinds) flags := .foldl (fun g _ => hfault _ _ _ _ _ _ g) _ _
  exact ((Hub.Emits.silent (h' := updated) rfl rfl).trans hflags).trans (hfault _ _ _ _ _ _ _)

theorem Hub.completeB_emits (answers : PerAxle (Option (DeviceAnswer ModCmd Bool))) (h : Hub) :
    h.Emits [.chainFault] (h.completeB answers) := by
  have hfault := fun value old new => Hub.handFault_emits (kinds := [.chainFault]) (by decide)
    (chain := 2) (by decide) value (set := id) (clear := id) .refl .refl old new
  unfold Hub.completeB
  extract_lets old judged new clean chain updated flags
  have hflags : updated.Emits [.chainFault] flags := .foldl (fun g _ => hfault _ _ _ g) _ _
  exact ((Hub.Emits.silent (h' := updated) rfl rfl).trans hflags).trans (hfault _ _ _ _)

theorem Hub.completeS_emits (answers : PerTrailing (Option (DeviceAnswer SteerCmd Half))) (h : Hub) :
    h.Emits [.chainFault] (h.completeS answers) := by
  have hfault := fun cause value old new => Hub.handFault_emits (kinds := [.chainFault]) (by decide)
    (chain := 3) (by decide) value (set := Hub.failBoth cause) (clear := id) (fun g => .silent (by simp) (by simp)) .refl
    old new
  unfold Hub.completeS
  extract_lets old judged new clean chain updated measured flags
  have hmeasured : h.Emits [.chainFault] measured :=
    .silent (by simp [measured, updated, foldl_keeps Hub.clock]) (by simp [measured, updated, foldl_keeps Hub.events])
  have hflags : measured.Emits [.chainFault] flags := .foldl (fun g _ => hfault _ _ _ _ g) _ _
  exact (hmeasured.trans hflags).trans (hfault _ _ _ _ _)

theorem Hub.completeJ_emits (answers : PerJoint (Option (DeviceAnswer Nat Bool))) (h : Hub) :
    h.Emits [.chainFault] (h.completeJ answers) := by
  have hfault := fun value old new => Hub.handFault_emits (kinds := [.chainFault]) (by decide)
    (chain := 4) (by decide) value (set := id) (clear := id) .refl .refl old new
  unfold Hub.completeJ
  extract_lets old judged new clean chain updated flags
  have hflags : updated.Emits [.chainFault] flags := .foldl (fun g _ => hfault _ _ _ g) _ _
  exact ((Hub.Emits.silent (h' := updated) rfl rfl).trans hflags).trans (hfault _ _ _ _)

theorem Hub.chainComplete_emits (answers : ChainAnswers) (h : Hub) :
    h.Emits (.chainFault :: kneelKinds) (h.chainComplete answers) := by
  cases answers with
  | l a => exact Hub.completeL_emits a h
  | b a => exact (Hub.completeB_emits a h).mono (by decide)
  | s a => exact (Hub.completeS_emits a h).mono (by decide)
  | j a => exact (Hub.completeJ_emits a h).mono (by decide)

/-! ## Orders and completions -/

theorem serveHaltOn_emits (h : Hub) : h.Emits haltKinds (serveHaltOn h).1 := by
  unfold serveHaltOn
  (repeat' split) <;> first | exact .refl h | exact Hub.setHalt_emits _ h

theorem serveHaltOff_emits (h : Hub) : h.Emits haltKinds (serveHaltOff h).1 := by
  unfold serveHaltOff
  (repeat' split) <;> first | exact .refl h | exact Hub.setHalt_emits _ h

theorem Hub.writeAndSetKneel_emits (source : TargetSource) (new : KneelState) (h : Hub) :
    h.Emits kneelKinds ((h.writeTargets source).setKneel new) :=
  .trans (.silent (by simp) (by simp)) (Hub.setKneel_emits _ _)

theorem serveKneel_emits (h : Hub) : h.Emits kneelKinds (serveKneel h).1 := by
  unfold serveKneel
  (repeat' split) <;> first | exact .refl h | exact Hub.writeAndSetKneel_emits _ _ h

theorem serveRaise_emits (h : Hub) : h.Emits kneelKinds (serveRaise h).1 := by
  unfold serveRaise
  split <;> first | exact .refl h | exact Hub.writeAndSetKneel_emits _ _ h

theorem serveRelease_emits (payload : List Byte) (h : Hub) : h.Emits haltKinds (serveRelease payload h).1 := by
  unfold serveRelease
  (repeat' split) <;>
    first
      | exact .refl h
      | exact .trans (.foldl (fun g d => (Hub.releaseDoor_emits _ g d).mono (by decide)) _ h) (Hub.requestApply_emits _)

theorem serveWithdraw_emits (payload : List Byte) (h : Hub) : h.Emits releaseKinds (serveWithdraw payload h).1 := by
  unfold serveWithdraw
  split
  · exact .refl h
  · exact .foldl (fun g d => Hub.withdrawDoor_emits _ g d) _ h

theorem Hub.installApply_emits (h : Hub) : h.Emits releaseKinds h.installApply := by
  unfold Hub.installApply
  exact .trans (.silent (by simp) (by simp)) (Hub.installEnables_emits _)

theorem Hub.finishWork_emits (r : RunningOp) (h : Hub) : h.Emits releaseKinds (h.finishWork r).1 := by
  unfold Hub.finishWork
  split
  case h_7 =>
    split
    · exact Hub.installApply_emits h
    · exact .refl h
  all_goals exact .silent rfl rfl

theorem Hub.storeCompletion_emits (code : Byte) (depot : Bool) (h : Hub) :
    h.Emits releaseKinds (h.storeCompletion code depot) := by
  unfold Hub.storeCompletion
  split
  · next r _ =>
    split
    · extract_lets pins
      split
      · exact .silent (by simp [pins]) (by simp [pins])
      · unfold Hub.completeOp
        extract_lets finished
        exact ((Hub.Emits.silent (h' := pins) rfl rfl).trans (Hub.finishWork_emits r pins)).trans
          (.silent (by simp [finished]) (by simp [finished]))
    · exact .refl h
  · exact .refl h

/-! ## Every command -/

/-- The fields of the form are those of the queues and attention lines, not of the routing table (R162, R163). -/
theorem EventUnit.Inv.setRouting {u : EventUnit} (hu : u.Inv) (routing : PerKind PortSet) :
    EventUnit.Inv { u with routing := routing } :=
  ⟨hu.attention, hu.distinct, hu.entries⟩

/-- Empty queues are in form (R165). -/
theorem EventUnit.atReset_inv (routing : PerKind PortSet) : (EventUnit.atReset routing).Inv := by
  refine ⟨fun p => ?_, fun p => ?_, fun p e he => ?_⟩ <;> simp [EventUnit.atReset] at *

/-- The commands whose work on the event unit is more than raises: the resets, the load after one, ROUTE WRITE and TAKE
(R162 to R165). -/
def beyondRaises : Instr → Bool
  | .powerOnReset | .rstLine | .activeSetLoad _ | .hubReset _ | .routeWrite _ | .take _ _ => true
  | _ => false

/-- What a frame's service raises, the frame raises. -/
theorem Hub.order_emits {kinds : List EventKind} {f : Service} (hf : ∀ g : Hub, g.Emits kinds (f g).1) (q : Request)
    (code : Byte) (c : AccessClass) (h : Hub) : h.Emits kinds (h.order q code c f) :=
  Hub.order_preserves (P := h.Emits kinds) (fun _ _ _ _ hg => hg.trans (.silent rfl rfl))
    (fun _ _ hg => hg.trans (.silent rfl rfl)) q code c (fun g _ hg => hg.trans (hf g)) (.refl h)

/-- What a command raises, the resets, the load after one, ROUTE WRITE and TAKE apart (R161, R162). -/
theorem Hub.after_emits {c : Instr} (hc : beyondRaises c = false) (w : Between) (h : Hub) :
    h.Emits EventKind.all (h.after w c) := by
  have hall : ∀ {kinds : List EventKind} {g : Hub}, h.Emits kinds g → h.Emits EventKind.all g :=
    fun hg => hg.mono fun k _ => k.mem_all
  have hif : ∀ {kinds : List EventKind} {g : Hub} (b : Prop) [Decidable b], h.Emits kinds g →
      h.Emits EventKind.all (if b then g else h) := by
    intro kinds g b _ hg
    split
    · exact hall hg
    · exact .refl h
  cases c
  case scanRound raw => exact hif _ (Hub.scanRound_emits raw h)
  case wheelPulse i dir => exact hif _ (Hub.wheelPulse_emits dir h)
  case speedTimerExpiry dir => exact hif _ (Hub.speedExpiry_emits dir h)
  case quietTimerExpiry => exact hif _ (Hub.quietExpiry_emits h)
  case jointTimerExpiry => exact hif _ (Hub.jointPeriod_emits h)
  case brakeTimerExpiry => exact hif _ (Hub.brakePeriod_emits h)
  case levellingTimerExpiry => exact hif _ (Hub.levellingPeriod_emits h)
  case chainRefreshComplete answers => exact hif _ (Hub.chainComplete_emits answers h)
  case debounceTimerExpiry d i => exact hif _ (Hub.debounceExpiry_emits d i h)
  case haltOn q => exact hall (Hub.order_emits serveHaltOn_emits q _ _ h)
  case haltOff q => exact hall (Hub.order_emits serveHaltOff_emits q _ _ h)
  case release q => exact hall (Hub.order_emits (serveRelease_emits _) q _ _ h)
  case withdraw q => exact hall (Hub.order_emits (serveWithdraw_emits _) q _ _ h)
  case kneel q => exact hall (Hub.order_emits serveKneel_emits q _ _ h)
  case raise q => exact hall (Hub.order_emits serveRaise_emits q _ _ h)
  case storeReadCompletion | storeWriteCompletion | storeCloseCompletion | storeLockCompletion | blankTestCompletion
      | storeClearCompletion | applyCompletion => exact hall (Hub.storeCompletion_emits _ _ h)
  all_goals first | exact Bool.noConfusion hc | exact .silent (by simp) (by simp)

theorem Hub.completeLoad_events_inv {h : Hub} (levels : PerDoor DoorLevels) (he : h.events.Inv) :
    (h.completeLoad levels).events.Inv := by
  unfold Hub.completeLoad
  extract_lets loaded
  refine (Hub.sampleDoors_emits levels _).inv ?_
  have hloaded : loaded.events.Inv := by simpa [loaded] using he
  simp only [Hub.formRideTargets_frame, Hub.startLoads_frame, Hub.startTimers_frame, Hub.formAccess]
  split
  · exact hloaded.setRouting _
  · exact hloaded

theorem Hub.after_events_inv (w : Between) (c : Instr) {h : Hub} (he : h.events.Inv) : (h.after w c).events.Inv := by
  by_cases hc : beyondRaises c = false
  · exact (Hub.after_emits hc w h).inv he
  cases c
  case powerOnReset | rstLine => exact EventUnit.atReset_inv _
  case activeSetLoad x =>
    simp only [Hub.after]
    split
    · exact Hub.completeLoad_events_inv _ he
    · exact he
  case hubReset q =>
    exact Hub.hubReset_preserves (P := fun h => h.events.Inv) (by simp +contextual) (by simp)
      (fun _ _ _ => EventUnit.atReset_inv _) q he
  case routeWrite q =>
    refine Hub.order_preserves (P := fun h => h.events.Inv) (by simp +contextual) (by simp) q _ _ (fun g _ hg => ?_) he
    unfold serveRouteWrite
    (repeat' split) <;> first | exact hg | exact hg.setRouting _
  case take q code =>
    refine Hub.exchangeLoaded_preserves (P := fun h => h.events.Inv) (by simp +contextual) (by simp) q _
      (fun g _ hg => ?_) he
    unfold serveTake
    split
    · exact hg
    · exact EventUnit.removeOldest_inv _ _ hg
  all_goals exact absurd rfl hc

/-- The entries of a queue in form lie among the kinds with their subjects, 44 in all (R161, R162). -/
theorem EventUnit.Inv.length_le {u : EventUnit} (hu : u.Inv) (p : Port) : (u.queues.get p).length ≤ 44 := by
  have hnodup : ((u.queues.get p).map fun e => (e.kind, e.subject)).Nodup :=
    List.pairwise_map.mpr ((hu.distinct p).imp fun hne heq => hne (Prod.mk.inj heq))
  have hsub : ((u.queues.get p).map fun e => (e.kind, e.subject)) ⊆
      EventKind.all.flatMap fun k => (subjectsOf k).map fun sb => (k, sb) := by
    intro x hx
    obtain ⟨e, he, rfl⟩ := List.mem_map.mp hx
    exact List.mem_flatMap.mpr ⟨e.kind, EventKind.mem_all _, List.mem_map.mpr ⟨_, (hu.entries p e he).2.2, rfl⟩⟩
  have hcount : (EventKind.all.flatMap fun k => (subjectsOf k).map fun sb => (k, sb)).length = 44 := by decide
  simpa [hcount] using (hnodup.subperm hsub).length_le

/-- Settles O56: resets empty the queues, TAKE drops entries, and every other command raises about subjects of their
kinds. -/
theorem eventQueuesKeepTheirForm : Obligations.EventQueuesKeepTheirForm :=
  ⟨fun _ _ he hstep => step_induction (P := fun h => h.events.Inv) (fun _ w c => Hub.after_events_inv w c)
    (fun _ hh => hh) he hstep, fun _ hu p => hu.length_le p⟩

end Sys2Proof.Machine
end

section
/-! PROOFS. The requests of the port and event units: how a request is turned away or answered, the POST, the access map and
its lock, the routing table, TAKE, ABANDON, and a raise at a queue (R150 to R157, R162 to R164). -/

namespace Sys2Proof.Machine

/-! ## A request's answer, in the state after it -/

/-- Where the part after a command is known, so is the next state. -/
theorem exec_of_after {i : Instr} {s : State} {g : Hub} (h : s.hub.after s.between i = g) :
    exec i s = .next { s with hub := g } := by rw [exec_eq, h]

@[simp] theorem readPins_clock (i : Instr) (h : Hub) : (readPins i h).clock = h.clock := by
  unfold readPins; split <;> rfl
@[simp] theorem readPins_holds (i : Instr) (h : Hub) (p : Port) (c : AccessClass) :
    (readPins i h).holds p c = h.holds p c := by
  unfold readPins; split <;> rfl
@[simp] theorem readPins_port (i : Instr) (h : Hub) (p : Port) : (readPins i h).port p = h.port p := by
  unfold readPins; split <;> rfl
@[simp] theorem readPins_store (i : Instr) (h : Hub) : (readPins i h).store = h.store := by
  unfold readPins; split <;> rfl
@[simp] theorem readPins_admits (i : Instr) (h : Hub) (p : Port) (c : AccessClass) :
    (readPins i h).admits p c = h.admits p c := by simp [Hub.admits]
@[simp] theorem readPins_applyRefusal (i : Instr) (h : Hub) : (readPins i h).applyRefusal = h.applyRefusal := by
  unfold readPins; split <;> rfl

/-- A HUB RESET that is turned away before its standstill is looked at is an order (R151, R158). -/
theorem Hub.hubReset_of_not_admitted {h : Hub} {q : Request} (ha : h.admits q.port .supervision = false) :
    h.hubReset q = h.order q 0x33#8 .supervision serveHubReset :=
  Hub.hubReset_refused (by simp [Hub.takesReset, ha])

/-- Before the load every request but NOP is a frame whose service the load turns away (R151, step 3). -/
theorem Hub.after_request_unloaded {i : Instr} {q : Request} {kind : Nat} {code : Byte} (hwf : i.wf = true)
    (hi : i.frameParts = some (q, kind, code)) (hk : kind ≠ 0) {h : Hub} (hl : h.clock.loaded = false) (w : Between) :
    ∃ f, h.after w i = (readPins i h).exchange q code (whenLoaded f) := by
  cases i <;> simp only [Instr.frameParts, Option.some.injEq, Prod.mk.injEq, reduceCtorEq] at hi <;>
    obtain ⟨rfl, rfl, rfl⟩ := hi
  case nop => exact absurd rfl hk
  case hubReset q => exact ⟨_, Hub.hubReset_of_not_admitted (by simp [Hub.admits, hl])⟩
  case unknownObject q kind code =>
    have hcode : (codedCommand q false kind code.toNat).isNone = true := by
      simp only [Instr.wf, Bool.and_eq_true] at hwf; exact hwf.2
    exact ⟨_, by rw [Hub.after, if_pos hcode]; rfl⟩
  all_goals exact ⟨_, rfl⟩

/-- A request that needs a class is a frame whose service the class turns away; a delayed order's repetition comes
before that (R151, steps 5 and 6). -/
theorem Hub.after_request_class {i : Instr} {q : Request} {kind : Nat} {code : Byte} {c : AccessClass}
    (hi : i.frameParts = some (q, kind, code)) (hc : classOf i = some c) {h : Hub} (hl : h.clock.loaded = true)
    (hh : h.holds q.port c = false) (hr : c = .calibration → (h.port q.port).slot.repeats code q.tag = false)
    (w : Between) : ∃ f, h.after w i = (readPins i h).exchange q code (whenLoaded (whenAllowed q.port c f)) := by
  cases i <;> simp only [Instr.frameParts, Option.some.injEq, Prod.mk.injEq, reduceCtorEq] at hi <;>
    obtain ⟨rfl, rfl, rfl⟩ := hi <;> simp only [classOf, Option.some.injEq, reduceCtorEq] at hc <;> subst hc
  case hubReset q => exact ⟨_, Hub.hubReset_of_not_admitted (by simp [Hub.admits, hh])⟩
  case storeRead | storeClear | storeWrite | storeClose | storeLock | blankTest | apply =>
    exact ⟨_, Hub.delayedOrder_new _ _ _ hl (hr rfl)⟩
  all_goals exact ⟨_, rfl⟩

/-- A FETCH or POST is a frame whose service an OCCUPIED buffer turns away (R151, step 7). -/
theorem Hub.after_request_posted {i : Instr} {q : Request} {kind : Nat} {code : Byte} {c : AccessClass}
    (hi : i.frameParts = some (q, kind, code)) (hw : waitsForPost i = true) (hc : classOf i = some c) (h : Hub)
    (w : Between) :
    ∃ f, h.after w i = (readPins i h).exchange q code (whenLoaded (whenAllowed q.port c (whenUnposted q.port f))) := by
  cases i <;> simp only [Instr.frameParts, Option.some.injEq, Prod.mk.injEq, reduceCtorEq] at hi <;>
    obtain ⟨rfl, rfl, rfl⟩ := hi <;> simp only [classOf, Option.some.injEq, reduceCtorEq] at hc <;> subst hc <;>
    first | exact Bool.noConfusion hw | exact ⟨_, rfl⟩

/-- Settles O11: the three steps of R151 that turn a request away, each on the frame it comes to. -/
theorem requestsTurnedAway : Obligations.RequestsTurnedAway := by
  refine ⟨fun s i q kind code hwf hi hk hl => ?_, fun s i q kind code c hi hc hl hh hr => ?_,
    fun s i q kind code c hi hw hc ha hp => ?_⟩
  · obtain ⟨f, hf⟩ := Hub.after_request_unloaded hwf hi hk hl s.between
    exact exec_of_after (hf.trans (Hub.exchange_starting q code f (by simpa using hl)))
  · obtain ⟨f, hf⟩ := Hub.after_request_class hi hc hl hh hr s.between
    exact exec_of_after (hf.trans (Hub.exchange_denied q code c f (by simpa using hl) (by simpa using hh)))
  · obtain ⟨f, hf⟩ := Hub.after_request_posted hi hw hc s.hub s.between
    exact exec_of_after (hf.trans (Hub.exchange_retry q code c f (by simpa using ha) (by simpa using hp)))

/-! ## NOP, UNKNOWN_OBJECT and the bytes on data out -/

theorem Reply.bytes_eq (r : Reply) : r.bytes =
    BitVec.ofNat 8 r.status.num :: r.code :: r.tag :: BitVec.ofNat 8 r.payload.length :: r.payload
      ++ [crc8 (BitVec.ofNat 8 r.status.num :: r.code :: r.tag :: BitVec.ofNat 8 r.payload.length :: r.payload)] := by
  simp [Reply.bytes, Reply.head, be1_natCast]

theorem Reply.length_bytes (r : Reply) : r.bytes.length = r.payload.length + 5 := by simp [Reply.bytes_eq]

@[simp] theorem Reply.length_shiftOut (r : Reply) (n : Nat) : (r.shiftOut n).length = n := by simp [Reply.shiftOut]

/-- The reply's bytes come first, then 0x00 (R150). -/
theorem Reply.shiftOut_getElem? (r : Reply) {n i : Nat} (hi : i < n) :
    (r.shiftOut n)[i]? = some (if i < r.payload.length + 5 then r.bytes[i]?.getD 0 else 0x00#8) := by
  rw [Reply.shiftOut, List.getElem?_take_of_lt hi]
  split
  · next hlt =>
    rw [← r.length_bytes] at hlt
    rw [List.getElem?_append_left hlt, List.getElem?_eq_getElem hlt]
    rfl
  · next hge =>
    rw [← r.length_bytes] at hge
    rw [List.getElem?_append_right (Nat.le_of_not_lt hge), List.getElem?_replicate_of_lt (by omega)]

/-- Settles O10: both requests change nothing but their port, and a reply's bytes are those of R150. -/
theorem nopUnknownAndDataOut : Obligations.NopUnknownAndDataOut := by
  refine ⟨⟨fun s q code => ?_, fun s q kind code hwf hl => ?_⟩, fun r n =>
    ⟨r.length_shiftOut n, fun i hi => r.shiftOut_getElem? hi, r.length_bytes, r.bytes_eq⟩⟩
  · exact exec_of_after (Hub.exchange_answers q code s.hub rfl)
  · have hcode : (codedCommand q false kind code.toNat).isNone = true := by
      simp only [Instr.wf, Bool.and_eq_true] at hwf; exact hwf.2
    refine exec_of_after ?_
    rw [Hub.after, if_pos hcode, Hub.exchange_answers q code s.hub (whenLoaded_loaded (by simpa using hl))]

/-! ## The services that answer and change one unit -/

/-- An order that is taken, whose service answers `a` and updates something of the judged part (R151, step 8). -/
theorem Hub.order_of_service {q : Request} {code : Byte} {c : AccessClass} {f : Service} {h : Hub} {a : Answer}
    (ha : h.admits q.port c = true) (hf : f (h.judged q) = (h.judged q, a)) : h.order q code c f = h.answered q code a := by
  rw [Hub.order_taken q code c f ha, hf, Hub.judged_reply]

/-- Settles O15: the payload's form decides between TAKEN and RANGE. -/
theorem postPlacesTheDemand : Obligations.PostPlacesTheDemand := by
  intro s q ha hp
  have hpost : ∀ f, s.hub.exchange q 0x10#8 (whenLoaded (whenAllowed q.port .demand (whenUnposted q.port f))) =
      (f (s.hub.judged q)).1.reply q.port 0x10#8 q.tag (f (s.hub.judged q)).2 := fun f => by
    rw [Hub.exchange_eq, whenLoaded_loaded (by simpa using Hub.admits_loaded ha),
      whenAllowed_held (by simpa using Hub.admits_holds ha), whenUnposted_empty (by simpa using hp)]
  refine ⟨fun seq hi lo drive hq => ?_, fun hlen => ?_⟩
  · refine exec_of_after ((hpost _).trans ?_)
    simp only [servePost, hq, demandOf, Hub.reply, ← Hub.judged_reply]
    cases q.port <;> rfl
  · refine exec_of_after ((hpost _).trans ?_)
    have hnone : demandOf q.payload = none := by
      unfold demandOf
      split
      · next hq => rw [hq] at hlen; exact absurd rfl hlen
      · rfl
    simp only [servePost, hnone, Hub.judged_reply]

/-- Settles O21: the service empties the slot and answers DONE. -/
theorem abandonEmptiesTheSlot : Obligations.AbandonEmptiesTheSlot := by
  intro s q code hl
  refine exec_of_after ?_
  rw [Hub.after, Hub.exchange_eq, whenLoaded_loaded (by simpa using hl)]
  simp only [serveAbandon, Hub.setSlot, Hub.reply, ← Hub.judged_reply]
  cases q.port <;> rfl

/-! ## MAP WRITE, ROUTE WRITE and MAP LOCK -/

theorem Port.toNat_num (p : Port) : (BitVec.ofNat 8 p.num).toNat = p.num := by cases p <;> rfl
theorem EventKind.toNat_num (k : EventKind) : (BitVec.ofNat 8 k.num).toNat = k.num := by cases k <;> rfl

theorem Port.num_of_ofNum? {n : Nat} {p : Port} (h : Port.ofNum? n = some p) : p.num = n := by
  unfold Port.ofNum? at h
  split at h <;> first | contradiction | (obtain rfl := Option.some.inj h; rfl)

theorem EventKind.num_of_ofNum? {n : Nat} {k : EventKind} (h : EventKind.ofNum? n = some k) : k.num = n := by
  unfold EventKind.ofNum? at h
  split at h <;> first | contradiction | (obtain rfl := Option.some.inj h; rfl)

theorem mapOperand_some {p : Port} {set : Byte} (hs : set.toNat ≤ 31) :
    mapOperand [BitVec.ofNat 8 p.num, set] = some (p, set.setWidth 5) := by
  simp [mapOperand, -BitVec.toNat_ofNat, Port.toNat_num, hs]

theorem mapOperand_none {payload : List Byte}
    (hp : ∀ (p : Port) (set : Byte), set.toNat ≤ 31 → payload ≠ [BitVec.ofNat 8 p.num, set]) :
    mapOperand payload = none := by
  unfold mapOperand
  split
  · next port set =>
    split
    · next p hport =>
      refine if_neg fun hs => hp p set hs ?_
      rw [Port.num_of_ofNum? hport, BitVec.ofNat_toNat, BitVec.setWidth_eq]
    · rfl
  · rfl

theorem routeOperand_some {k : EventKind} {set : Byte} (hs : set.toNat ≤ 7) :
    routeOperand [BitVec.ofNat 8 k.num, set] = some (k, set.setWidth 3) := by
  simp [routeOperand, -BitVec.toNat_ofNat, EventKind.toNat_num, hs]

theorem routeOperand_none {payload : List Byte}
    (hp : ∀ (k : EventKind) (set : Byte), set.toNat ≤ 7 → payload ≠ [BitVec.ofNat 8 k.num, set]) :
    routeOperand payload = none := by
  unfold routeOperand
  split
  · next kind set =>
    split
    · next k hkind =>
      refine if_neg fun hs => hp k set hs ?_
      rw [EventKind.num_of_ofNum? hkind, BitVec.ofNat_toNat, BitVec.setWidth_eq]
    · rfl
  · rfl

theorem exec_mapWrite_locked {s : State} {q : Request} (ha : s.hub.admits q.port .supervision = true)
    (hl : s.hub.access.lock = true) :
    exec (.mapWrite q) s = .next { s with hub := s.hub.answered q 0x30#8 (.plain .locked) } :=
  exec_of_after (Hub.order_of_service ha (by simp [serveMapWrite, hl]))

theorem exec_routeWrite_locked {s : State} {q : Request} (ha : s.hub.admits q.port .supervision = true)
    (hl : s.hub.access.lock = true) :
    exec (.routeWrite q) s = .next { s with hub := s.hub.answered q 0x32#8 (.plain .locked) } :=
  exec_of_after (Hub.order_of_service ha (by simp [serveRouteWrite, hl]))

/-- An update of the access unit commutes with the answer (R151, step 8). -/
theorem Hub.reply_onAccess (q : Request) (code : Byte) (a : Answer) (g : Access → Access) (h : Hub) :
    ((h.judged q).onAccess g).reply q.port code q.tag a = { h.answered q code a with access := g h.access } :=
  congrArg (Hub.onAccess g) (Hub.judged_reply q code a h)

theorem Hub.reply_onEvents (q : Request) (code : Byte) (a : Answer) (g : EventUnit → EventUnit) (h : Hub) :
    ((h.judged q).onEvents g).reply q.port code q.tag a = { h.answered q code a with events := g h.events } :=
  congrArg (Hub.onEvents g) (Hub.judged_reply q code a h)

/-- Settles O17: LOCKED, then the payload's form, then the set replaced. -/
theorem mapAndRouteWrites : Obligations.MapAndRouteWrites := by
  intro s q ha
  refine ⟨fun hl => ⟨exec_mapWrite_locked ha hl, exec_routeWrite_locked ha hl⟩, fun hl =>
    ⟨fun p set hq hs => ?_, fun hq => ?_, fun k set hq hs => ?_, fun hq => ?_⟩⟩
  · have hserve : serveMapWrite q.payload (s.hub.judged q) =
        ((s.hub.judged q).onAccess fun u => { u with map := u.map.set p (set.setWidth 5) }, .done []) := by
      simp [serveMapWrite, hl, hq, mapOperand_some hs]
    exact exec_of_after ((Hub.order_taken q _ _ _ ha).trans (by rw [hserve, Hub.reply_onAccess]))
  · exact exec_of_after (Hub.order_of_service ha (by simp [serveMapWrite, hl, mapOperand_none hq]))
  · have hserve : serveRouteWrite q.payload (s.hub.judged q) =
        ((s.hub.judged q).onEvents fun u => { u with routing := u.routing.set k (set.setWidth 3) }, .done []) := by
      simp [serveRouteWrite, hl, hq, routeOperand_some hs]
    exact exec_of_after ((Hub.order_taken q _ _ _ ha).trans (by rw [hserve, Hub.reply_onEvents]))
  · exact exec_of_after (Hub.order_of_service ha (by simp [serveRouteWrite, hl, routeOperand_none hq]))

/-! ## The lock -/

/-- The map is owed until the load that forms it, and is locked only once it is formed (R156, R157; log entry 7). -/
def Hub.MapFormed (h : Hub) : Prop :=
  (h.clock.loaded = true → h.access.owed = false) ∧ (h.access.lock = true → h.access.owed = false)

/-- The map, its lock and the routing table of `h` stand in `g` where the map is locked (R157). -/
def Hub.LockStands (h g : Hub) : Prop :=
  h.access.lock = true → g.access = h.access ∧ g.events.routing = h.events.routing

/-- The map is formed in `g`, and what was locked in `h` stands there. -/
def Hub.KeepsMap (h g : Hub) : Prop := g.MapFormed ∧ h.LockStands g

/-- A command that touches neither the load nor the access map. -/
theorem Hub.MapFormed.keeps {h g : Hub} (hm : h.MapFormed) (hl : g.clock.loaded = h.clock.loaded)
    (ha : g.access = h.access) (he : h.access.lock = true → g.events.routing = h.events.routing) : h.KeepsMap g :=
  ⟨by unfold Hub.MapFormed; rw [hl, ha]; exact hm, fun hlock => ⟨ha, he hlock⟩⟩

theorem Hub.MapFormed.keeps_warmReset {h : Hub} (hm : h.MapFormed) (cut : Port → Option CutFrame) :
    h.KeepsMap (h.warmReset cut) :=
  ⟨⟨nofun, hm.2⟩, fun _ => ⟨rfl, rfl⟩⟩

/-- The load forms what a power-on reset left owed, and keeps the rest (R156, R164). -/
theorem Hub.MapFormed.keeps_completeLoad {h : Hub} (hm : h.MapFormed) (levels : PerDoor DoorLevels) :
    h.KeepsMap (h.completeLoad levels) := by
  unfold Hub.completeLoad
  extract_lets loaded
  have hloaded : loaded.access = h.access := by simp [loaded]
  have haccess : ((loaded.formAccess.startTimers.startLoads.formRideTargets).sampleDoors levels).access =
      loaded.formAccess.access := by simp
  have hrouting : ((loaded.formAccess.startTimers.startLoads.formRideTargets).sampleDoors levels).events.routing =
      loaded.formAccess.events.routing := by
    rw [(Hub.sampleDoors_emits levels _).routing]; simp
  by_cases ho : h.access.owed = true
  · have hformed : loaded.formAccess.access = loaded.formedAccess := by simp [Hub.formAccess, hloaded, ho]
    have howed : loaded.formedAccess.owed = false := by unfold Hub.formedAccess; split <;> rfl
    exact ⟨⟨fun _ => by rw [haccess, hformed, howed], fun _ => by rw [haccess, hformed, howed]⟩,
      fun hlock => absurd (hm.2 hlock) (by simp [ho])⟩
  · have hkept : loaded.formAccess = loaded := by simp [Hub.formAccess, hloaded, ho]
    have howed : h.access.owed = false := by simpa using ho
    have haccess' := (haccess.trans (congrArg Hub.access hkept)).trans hloaded
    have hrouting' := hrouting.trans (congrArg (fun g => g.events.routing) hkept)
    refine ⟨⟨fun _ => by rw [haccess', howed], fun _ => by rw [haccess', howed]⟩, fun _ => ⟨haccess', ?_⟩⟩
    exact hrouting'.trans (by simp [loaded])

/-- The orders that write the access unit or the routing table find the lock (R156, R157, R164). -/
theorem Hub.MapFormed.keeps_order {h : Hub} (hm : h.MapFormed) {f : Service}
    (hf : ∀ g : Hub, g.clock.loaded = true → h.KeepsMap g → h.KeepsMap (f g).1) (q : Request) (code : Byte)
    (c : AccessClass) : h.KeepsMap (h.order q code c f) :=
  Hub.order_preserves (P := h.KeepsMap) (fun _ _ _ _ hg => hg) (fun _ _ hg => hg) q code c hf
    (hm.keeps rfl rfl fun _ => rfl)

theorem Hub.KeepsMap.mapWrite {h g : Hub} (hg : h.KeepsMap g) (payload : List Byte) :
    h.KeepsMap (serveMapWrite payload g).1 := by
  obtain ⟨⟨hloaded, hformed⟩, hstands⟩ := hg
  unfold serveMapWrite
  split
  · exact ⟨⟨hloaded, hformed⟩, hstands⟩
  · next hunlocked =>
    split
    · exact ⟨⟨hloaded, hformed⟩, hstands⟩
    · refine ⟨⟨hloaded, fun hlock => absurd hlock hunlocked⟩, fun hlock => absurd ?_ hunlocked⟩
      rw [(hstands hlock).1, hlock]

theorem Hub.KeepsMap.mapLock {h g : Hub} (hl : g.clock.loaded = true) (hg : h.KeepsMap g) :
    h.KeepsMap (serveMapLock g).1 := by
  obtain ⟨⟨hloaded, hformed⟩, hstands⟩ := hg
  refine ⟨⟨hloaded, fun _ => hloaded hl⟩, fun hlock => ?_⟩
  obtain ⟨haccess, hrouting⟩ := hstands hlock
  refine ⟨?_, hrouting⟩
  rw [← haccess]
  simp [serveMapLock, haccess, ← hlock]

theorem Hub.KeepsMap.routeWrite {h g : Hub} (hg : h.KeepsMap g) (payload : List Byte) :
    h.KeepsMap (serveRouteWrite payload g).1 := by
  obtain ⟨hformed, hstands⟩ := hg
  unfold serveRouteWrite
  split
  · exact ⟨hformed, hstands⟩
  · next hunlocked =>
    split
    · exact ⟨hformed, hstands⟩
    · refine ⟨hformed, fun hlock => absurd ?_ hunlocked⟩
      rw [(hstands hlock).1, hlock]

theorem Hub.take_routing (q : Request) (code : Byte) (h : Hub) :
    (h.exchange q code (whenLoaded (serveTake q.port q.payload))).events.routing = h.events.routing := by
  refine exchange_keeps (fun h => h.events.routing) q code h (whenLoaded_keeps _ fun g => ?_) (by simp) (by simp)
  unfold serveTake
  split <;> rfl

/-- The map, its lock and the routing table under every command but a power-on reset (R156 to R158, R164). -/
theorem Hub.MapFormed.after {h : Hub} (hm : h.MapFormed) (w : Between) {c : Instr} (hc : c ≠ .powerOnReset) :
    h.KeepsMap (h.after w c) := by
  by_cases hb : beyondRaises c = false
  · have hrouting := (Hub.after_emits hb w h).routing
    cases c
    case mapWrite q => exact hm.keeps_order (fun _ _ hg => hg.mapWrite _) q _ _
    case mapLock q => exact hm.keeps_order (fun _ hl hg => hg.mapLock hl) q _ _
    all_goals first | exact Bool.noConfusion hb | exact hm.keeps (by simp) (by simp) fun _ => hrouting
  cases c
  case rstLine => exact hm.keeps_warmReset _
  case activeSetLoad x =>
    simp only [Hub.after]
    split
    · exact Hub.MapFormed.keeps_completeLoad (h := h.readDepot x.depot) hm _
    · exact hm.keeps rfl rfl fun _ => rfl
  case hubReset q =>
    refine Hub.hubReset_preserves (P := h.KeepsMap) (fun _ _ _ _ hg => hg) (fun _ _ hg => hg) (fun cut g hg => ?_) q
      (hm.keeps rfl rfl fun _ => rfl)
    obtain ⟨hformed, hstands⟩ := hg
    exact ⟨(hformed.keeps_warmReset cut).1, hstands⟩
  case routeWrite q => exact hm.keeps_order (fun _ _ hg => hg.routeWrite _) q _ _
  case take q code => exact hm.keeps (by simp) (by simp) fun _ => Hub.take_routing q code h
  all_goals first | exact absurd rfl hc | exact absurd rfl hb

/-- Settles O18: MAP LOCK sets the lock, every command but a power-on reset keeps what is locked, and both writes are
answered LOCKED. -/
theorem lockedMapStands : Obligations.LockedMapStands := by
  refine ⟨fun s q ha => ?_, fun s t c hexec hloaded hlock => ?_, fun s q ha hl =>
    ⟨exec_mapWrite_locked ha hl, exec_routeWrite_locked ha hl⟩⟩
  · exact exec_of_after ((Hub.order_taken q _ _ _ ha).trans (Hub.reply_onAccess q _ _ _ _))
  · rw [exec_eq] at hexec
    injection hexec with hexec
    subst hexec
    by_cases hc : c = .powerOnReset
    · subst hc
      exact ⟨⟨nofun, nofun⟩, fun _ h => absurd rfl h, fun _ => ⟨rfl, rfl⟩⟩
    · obtain ⟨hformed, hstands⟩ := Hub.MapFormed.after ⟨hloaded, hlock⟩ s.between hc
      exact ⟨hformed, fun hl _ => hstands hl, fun h => absurd h hc⟩

/-! ## TAKE and a raise at a queue -/

theorem takeOperand_some {n : Byte} (h1 : 1 ≤ n.toNat) (h8 : n.toNat ≤ 8) : takeOperand [n] = some n.toNat :=
  if_pos ⟨h1, h8⟩

theorem takeOperand_none {payload : List Byte} (hp : ∀ n : Byte, payload = [n] → n.toNat = 0 ∨ 8 < n.toNat) :
    takeOperand payload = none := by
  unfold takeOperand
  split
  · next n =>
    have := hp n rfl
    exact if_neg (by omega)
  · rfl

theorem EventEntry.bytes_eq (e : EventEntry) : e.bytes =
    [BitVec.ofNat 8 e.kind.num, BitVec.ofNat 8 e.subject, BitVec.ofNat 8 e.count] ++ wordBytes e.first
      ++ wordBytes e.last ++ halfBytes e.value := by
  simp [EventEntry.bytes, be1_natCast]

/-- Settles O19: the oldest entries go into the answer, and the others stay. -/
theorem takeRemovesTheOldest : Obligations.TakeRemovesTheOldest := by
  intro s q code hl
  refine ⟨fun n hq h1 h8 => ?_, fun hq => ?_⟩
  · intro queue
    refine exec_of_after ?_
    rw [Hub.after, Hub.exchange_eq, whenLoaded_loaded (by simpa using hl)]
    have hattention : (!(queue.drop n.toNat).isEmpty) = decide (n.toNat < queue.length) := by
      rw [Bool.eq_iff_iff]; simp
    simp only [serveTake, hq, takeOperand_some h1 h8, Hub.judged_events]
    rw [Hub.reply_onEvents, be1_natCast, List.length_take, funext EventEntry.bytes_eq, EventUnit.removeOldest, hattention]
    rfl
  · refine exec_of_after (Hub.exchange_answers q code s.hub ?_)
    rw [whenLoaded_loaded (by simpa using hl)]
    simp only [serveTake, takeOperand_none hq]

theorem placeEvent_new {now : Word} {kind : EventKind} {sb : Nat} {v : Half} {l : List EventEntry}
    (hl : ∀ e ∈ l, ¬(e.kind = kind ∧ e.subject = sb)) : placeEvent now kind sb v l = l ++ [⟨kind, sb, 1, now, now, v⟩] := by
  induction l with
  | nil => rfl
  | cons x xs ih =>
    rw [placeEvent, if_neg (hl x List.mem_cons_self), ih fun e he => hl e (List.mem_cons_of_mem _ he)]
    rfl

theorem placeEvent_old {now : Word} {kind : EventKind} {sb : Nat} {v : Half} {xs ys : List EventEntry} {e : EventEntry}
    (hk : e.kind = kind) (hs : e.subject = sb) (hx : ∀ x ∈ xs, ¬(x.kind = kind ∧ x.subject = sb)) :
    placeEvent now kind sb v (xs ++ e :: ys) = xs ++ ⟨kind, sb, min 255 (e.count + 1), e.first, now, v⟩ :: ys := by
  induction xs with
  | nil => subst hk hs; simp [placeEvent]
  | cons x xs ih =>
    rw [List.cons_append, placeEvent, if_neg (hx x List.mem_cons_self), ih fun y hy => hx y (List.mem_cons_of_mem _ hy)]
    rfl

/-- Settles O20: what a raise does at a queue that it reaches is `placeEvent`, and it touches no other. -/
theorem raiseCoalesces : Obligations.RaiseCoalesces := by
  intro u now kind subject value p before after reached
  have hafter : after = if reached then placeEvent now kind subject value before else before := by
    simp only [after, EventUnit.raise, PerPort.get_tab, inPortSet_eq_getLsbD]
    rfl
  have hattention : (u.raise now kind subject value).attention.get p = (reached || u.attention.get p) := by
    simp only [EventUnit.raise, PerPort.get_tab, inPortSet_eq_getLsbD]
    rfl
  refine ⟨fun hr => ?_, fun hr => ?_, fun hr hnew => ?_, fun hr xs e ys hb hk hs hx => ?_⟩
  · simp [hafter, hattention, hr]
  · simp [hattention, hr]
  · rw [hafter, if_pos hr, placeEvent_new hnew]
  · rw [hafter, if_pos hr, hb, placeEvent_old hk hs hx]

end Sys2Proof.Machine
end

section
/-! PROOFS. The delayed orders and the store's operations: taken, placed, started, completed and taken up by the arbiter
(R153 to R155, R166, R167). -/

namespace Sys2Proof.Machine

/-! ## A delayed order as a command -/

/-- What the take of a delayed order judges (R166, R170). -/
def takeJudge : Instr → Hub → Except Reason StoreOp
  | .apply _ => applyOperand
  | i => orRange ((storeOrder i).map Prod.snd)

theorem Hub.after_delayed {i : Instr} {q : Request} {code : Byte} (hi : i.frameParts = some (q, 3, code))
    (hc : classOf i = some .calibration) (w : Between) (h : Hub) :
    h.after w i = (readPins i h).delayedOrder q code (takeJudge i) := by
  cases i <;> simp only [Instr.frameParts, Option.some.injEq, Prod.mk.injEq, reduceCtorEq] at hi <;>
    obtain ⟨rfl, -, rfl⟩ := hi <;> simp only [classOf, Option.some.injEq, reduceCtorEq] at hc <;>
    simp [Hub.after, takeJudge, storeOrder, readPins, Instr.depot?, Hub.readDepot, Hub.onPins, Function.comp_def]

/-- The order that asks for an operation is a delayed order with that operation's code (section 10.3). -/
theorem storeOrder_spec {i : Instr} {q : Request} {op : StoreOp} (hi : storeOrder i = some (q, op)) :
    i.frameParts = some (q, 3, op.code) ∧ classOf i = some .calibration := by
  cases i <;> simp only [storeOrder, reduceCtorEq] at hi
  case apply q => obtain ⟨rfl, rfl⟩ := Prod.mk.inj (Option.some.inj hi); exact ⟨rfl, rfl⟩
  case storeRead q =>
    obtain ⟨x, hx, hi⟩ := Option.map_eq_some_iff.mp hi
    obtain ⟨rfl, rfl⟩ := Prod.mk.inj hi
    unfold readOperand at hx
    split at hx
    · obtain ⟨k, -, hk⟩ := Option.bind_eq_some_iff.mp hx
      split at hk
      · obtain rfl := Option.some.inj hk; exact ⟨rfl, rfl⟩
      · contradiction
    · contradiction
  case storeWrite q =>
    obtain ⟨x, hx, hi⟩ := Option.map_eq_some_iff.mp hi
    obtain ⟨rfl, rfl⟩ := Prod.mk.inj hi
    unfold writeOperand at hx
    split at hx
    · obtain ⟨k, -, hk⟩ := Option.bind_eq_some_iff.mp hx
      split at hk
      · obtain rfl := Option.some.inj hk; exact ⟨rfl, rfl⟩
      · contradiction
    · contradiction
  all_goals
    obtain ⟨x, -, hi⟩ := Option.map_eq_some_iff.mp hi
    obtain ⟨rfl, rfl⟩ := Prod.mk.inj hi
    exact ⟨rfl, rfl⟩

/-- The conditions of an APPLY, all three (R170). -/
theorem Hub.applyRefusal_eq_none {h : Hub} :
    h.applyRefusal = none ↔ h.sensing.standstill = .yes ∧ h.brake.halt = .applied ∧ h.kneel.state = .ride := by
  unfold Hub.applyRefusal Hub.standing
  split <;> [skip; split <;> [skip; split]] <;> simp_all

@[simp] theorem Hub.judged_applyRefusal (q : Request) (h : Hub) : (h.judged q).applyRefusal = h.applyRefusal := rfl

/-- The take of an order that is in range lets its operation through, an APPLY under its conditions (R166, R170). -/
theorem takeJudge_ok {i : Instr} {q : Request} {op : StoreOp} (hi : storeOrder i = some (q, op)) {h : Hub}
    (ha : op = .apply → h.applyRefusal = none) : takeJudge i h = .ok op := by
  cases i
  case apply q =>
    obtain ⟨rfl, rfl⟩ := Prod.mk.inj (Option.some.inj hi)
    simp [takeJudge, applyOperand, ha rfl]
  all_goals simp [takeJudge, orRange, hi]

/-- A delayed order past its class: placed, or refused at its take (R153). -/
def takeDelayed (q : Request) (taken : Except Reason StoreOp) : Service := fun h =>
  match taken with
  | .ok op => serveDelayed q op h
  | .error r => (h, .refused r [])

/-- The service of a delayed order that is no repetition, past its class (R151, R153). -/
theorem Hub.delayedOrder_judged {q : Request} {code : Byte} {judge : Hub → Except Reason StoreOp} {h : Hub}
    (ha : h.admits q.port .calibration = true) (hr : (h.port q.port).slot.repeats code q.tag = false) :
    h.delayedOrder q code judge =
      (takeDelayed q (judge (h.judged q)) (h.judged q)).1.reply q.port code q.tag
        (takeDelayed q (judge (h.judged q)) (h.judged q)).2 := by
  rw [Hub.delayedOrder_new q code judge (Hub.admits_loaded ha) hr, Hub.exchange_eq,
    whenLoaded_loaded (by simpa using Hub.admits_loaded ha), whenAllowed_held (by simpa using Hub.admits_holds ha)]
  rfl

/-- A new order whose operation its take lets through comes to its slot (R153, R166, R170). -/
theorem Hub.after_newOrder {s : State} {i : Instr} {q : Request} {op : StoreOp} (hi : storeOrder i = some (q, op))
    (ha : s.hub.admits q.port .calibration = true) (hr : (s.hub.port q.port).slot.repeats op.code q.tag = false)
    (happly : op = .apply →
      s.hub.sensing.standstill = .yes ∧ s.hub.brake.halt = .applied ∧ s.hub.kneel.state = .ride) (w : Between) :
    s.hub.after w i = (serveDelayed q op ((readPins i s.hub).judged q)).1.reply q.port op.code q.tag
      (serveDelayed q op ((readPins i s.hub).judged q)).2 := by
  obtain ⟨hframe, hclass⟩ := storeOrder_spec hi
  have hjudge : takeJudge i ((readPins i s.hub).judged q) = .ok op :=
    takeJudge_ok hi fun h => by simpa using Hub.applyRefusal_eq_none.mpr (happly h)
  rw [Hub.after_delayed hframe hclass, Hub.delayedOrder_judged (by simpa using ha) (by simpa using hr), hjudge]
  rfl

/-- A refusal at the take (R153). -/
theorem Hub.delayedOrder_refused {q : Request} {code : Byte} {judge : Hub → Except Reason StoreOp} {h : Hub} {r : Reason}
    (ha : h.admits q.port .calibration = true) (hr : (h.port q.port).slot.repeats code q.tag = false)
    (hj : judge (h.judged q) = .error r) : h.delayedOrder q code judge = h.answered q code (.refused r []) := by
  rw [Hub.delayedOrder_judged ha hr, hj, takeDelayed, Hub.judged_reply]

/-! ## Repetitions and SLOT_BUSY -/

theorem serveRepetition_done {p : Port} {h : Hub} {rq : HeldRequest} {outcome : Answer}
    (hs : (h.port p).slot = .done rq outcome) : serveRepetition p h = (h.setSlot p .empty, outcome) := by
  simp [serveRepetition, hs]

theorem serveRepetition_unfinished {p : Port} {h : Hub} {rq : HeldRequest}
    (hs : (h.port p).slot = .waiting rq ∨ (h.port p).slot = .running rq) :
    serveRepetition p h = (h, .plain .retry) := by
  obtain hs | hs := hs <;> simp [serveRepetition, hs]

theorem serveDelayed_busy {q : Request} {op : StoreOp} {h : Hub} {rq : HeldRequest}
    (hs : (h.port q.port).slot.held? = some rq) : serveDelayed q op h = (h, .plain .slotBusy) := by
  unfold serveDelayed
  split
  · next he => rw [he] at hs; contradiction
  all_goals rfl

theorem serveDelayed_empty {q : Request} {op : StoreOp} {h : Hub} (hs : (h.port q.port).slot = .empty) :
    serveDelayed q op h = (h.placeDelayed q.port ⟨op, q.tag, q.payload⟩, .plain .retry) := by
  simp [serveDelayed, hs]

/-- A slot's update commutes with the answer (R151, step 8). -/
theorem Hub.reply_setSlot (q : Request) (code : Byte) (a : Answer) (x : DelayedSlot) (h : Hub) :
    (h.setSlot q.port x).reply q.port code q.tag a =
      (h.reply q.port code q.tag a).onPort q.port fun u => { u with slot := x } := by
  simp only [Hub.setSlot, Hub.reply, Hub.onPort_onPort]

theorem DelayedSlot.repeats_iff {x : DelayedSlot} {code tag : Byte} :
    x.repeats code tag = true ↔ ∃ rq, x.held? = some rq ∧ rq.op.code = code ∧ rq.tag = tag := by
  unfold DelayedSlot.repeats
  split
  · next rq hrq => simp [hrq]
  · next hrq => simp [hrq]

/-- Settles O24: the held request's code and tag decide whether the order is its repetition. -/
theorem repetitionCollectsTheOutcome : Obligations.RepetitionCollectsTheOutcome := by
  intro s i q code hi hc hl
  have hafter := Hub.after_delayed hi hc s.between s.hub
  have hport := readPins_port i s.hub q.port
  have hrepeat : ∀ rq, (s.hub.port q.port).slot.held? = some rq → rq.op.code = code → rq.tag = q.tag →
      s.hub.after s.between i = (serveRepetition q.port ((readPins i s.hub).judged q)).1.reply q.port code q.tag
        (serveRepetition q.port ((readPins i s.hub).judged q)).2 := fun rq hrq hcode htag => by
    rw [hafter]
    exact Hub.delayedOrder_repeats q code _ (by simpa using hl)
      (by rw [hport]; exact DelayedSlot.repeats_iff.mpr ⟨rq, hrq, hcode, htag⟩)
  refine ⟨fun rq hslot hcode htag => ?_, fun rq outcome hslot hcode htag => ?_,
    fun rq op hslot hne hh horder happly => ?_⟩
  · refine exec_of_after ((hrepeat rq (by obtain h | h := hslot <;> rw [h] <;> rfl) hcode htag).trans ?_)
    rw [serveRepetition_unfinished (rq := rq) (by simpa using hslot), Hub.judged_reply]
  · refine exec_of_after ((hrepeat rq (by rw [hslot]; rfl) hcode htag).trans ?_)
    rw [serveRepetition_done (rq := rq) (outcome := outcome) (by simpa using hslot), Hub.reply_setSlot, Hub.judged_reply]
  · have hnew : (s.hub.port q.port).slot.repeats code q.tag = false := by
      rw [Bool.eq_false_iff]
      intro hr
      obtain ⟨rq', hrq', hcode, htag⟩ := DelayedSlot.repeats_iff.mp hr
      obtain rfl : rq = rq' := Option.some.inj (hslot.symm.trans hrq')
      exact hne ⟨hcode, htag⟩
    have ha : s.hub.admits q.port .calibration = true := by simp [Hub.admits, hl, hh]
    obtain rfl : op.code = code := by
      have hparts := (storeOrder_spec horder).1.symm.trans hi
      simpa using hparts
    refine exec_of_after ((Hub.after_newOrder horder ha hnew happly s.between).trans ?_)
    rw [serveDelayed_busy (rq := rq) (by simpa using hslot), Hub.judged_reply]

/-! ## Starts and the placing of a new order -/

/-- Settles O23: the refusal judged at the start decides, and the work at the start is the operation's. -/
theorem storeOperationsStart : Obligations.StoreOperationsStart := by
  intro h p ⟨op, tag, payload⟩
  cases op with
  | write k slot v =>
    simp only [Hub.startOp, Hub.startRefusal]
    split_ifs <;> first | rfl | simp_all
  | close k =>
    simp only [Hub.startOp, Hub.startRefusal]
    split_ifs <;> rfl
  | clear k =>
    simp only [Hub.startOp, Hub.startRefusal]
    split_ifs with hlock
    · rfl
    · have hclears : h.clearsLock (.clear k) = (h.sector k).lock := by
        cases hx : (h.sector k).lock <;> simp_all [Hub.clearsLock]
      simp only [hclears]
      rfl
  | read | lock | blank | apply => rfl

/-- The answer goes to the port's pending reply alone, so that the store's start comes before it or after (R151). -/
theorem Hub.reply_startOp (q : Request) (code : Byte) (a : Answer) (rq : HeldRequest) (h : Hub) :
    (h.startOp q.port rq).reply q.port code q.tag a = (h.reply q.port code q.tag a).startOp q.port rq := by
  have hrefusal : (h.reply q.port code q.tag a).startRefusal rq.op = h.startRefusal rq.op := by cases rq.op <;> rfl
  cases hr : h.startRefusal rq.op with
  | some r =>
    rw [Hub.startOp_refused hr, Hub.startOp_refused (hrefusal.trans hr)]
    cases q.port <;> rfl
  | none =>
    rw [Hub.startOp_begun hr, Hub.startOp_begun (hrefusal.trans hr)]
    cases rq.op <;> cases q.port <;> rfl

theorem suspends_iff {clear op : StoreOp} :
    suspends clear op = true ↔ ∃ k k' slot, clear = .clear k ∧ op = .read k' slot ∧ k ≠ k' := by
  unfold suspends
  split <;> simp_all

theorem Hub.placeDelayed_suspending {p : Port} {rq : HeldRequest} {h : Hub} {r : RunningOp}
    (hr : h.store.running = some r) (hs : suspends r.op rq.op = true) (hread : h.store.read = none) :
    h.placeDelayed p rq = h.startSuspended p rq := by
  simp [Hub.placeDelayed, hr, hs, hread]

/-- The record of a suspension shows the clear's progress (R171). -/
theorem Hub.startSuspended_eq {p : Port} {rq : HeldRequest} {h : Hub} {r : RunningOp} {k : SectorId}
    (hr : h.store.running = some r) (hk : r.op = .clear k) :
    h.startSuspended p rq =
      (h.onStore fun u => { u with read := some ⟨rq.op, p, 0, false⟩, shown := ⟨h.pins.depot, r.elapsed / 10⟩ }).onPort p
        fun u => { u with slot := .running rq } := by
  obtain ⟨op, port, elapsed, lock⟩ := r
  obtain rfl : op = .clear k := hk
  simp only [Hub.startSuspended, Hub.updateRecord, Store.progress, Hub.onStore, Hub.setSlot, Hub.onPort, Hub.onPorts, hr]

theorem Hub.placeDelayed_waiting {p : Port} {rq : HeldRequest} {h : Hub} {r : RunningOp}
    (hr : h.store.running = some r) (hw : suspends r.op rq.op = false ∨ h.store.read ≠ none) :
    h.placeDelayed p rq = h.setSlot p (.waiting rq) := by
  have : ¬(suspends r.op rq.op = true ∧ h.store.read = none) := by rintro ⟨hs, hread⟩; simp_all
  simp [Hub.placeDelayed, hr, this]

/-- Settles O22: the placing of the order at its EMPTY slot, seen from the answered frame. -/
theorem delayedOrderIsPlaced : Obligations.DelayedOrderIsPlaced := by
  intro s i q op hi ha hslot happly judged rq
  have hafter : s.hub.after s.between i =
      (((readPins i s.hub).judged q).placeDelayed q.port rq).reply q.port op.code q.tag (.plain .retry) := by
    rw [Hub.after_newOrder hi ha (by simp [hslot, DelayedSlot.repeats, DelayedSlot.held?]) happly,
      serveDelayed_empty (by simpa using hslot)]
  have hjudged : judged = ((readPins i s.hub).judged q).reply q.port op.code q.tag (.plain .retry) :=
    (Hub.judged_reply ..).symm
  refine ⟨fun hfree => ?_, fun r k slot hr hread hop hclear => ?_, fun r hr hwait => ?_⟩
  · refine exec_of_after (hafter.trans ?_)
    simp only [Hub.placeDelayed, Hub.judged_store, readPins_store, hfree]
    rw [Hub.reply_startOp, hjudged]
  · obtain ⟨k', hk', hne⟩ := hclear
    have hsuspends : suspends r.op op = true := suspends_iff.mpr ⟨k', k, slot, hk', hop, hne⟩
    refine exec_of_after (hafter.trans ?_)
    rw [hjudged, Hub.placeDelayed_suspending (r := r) (by simpa using hr) hsuspends (by simpa using hread)]
    rw [Hub.startSuspended_eq (r := r) (k := k') (by simpa using hr) hk']
    cases q.port <;> rfl
  · refine exec_of_after (hafter.trans ?_)
    rw [hjudged, Hub.placeDelayed_waiting (r := r) (by simpa using hr)]
    · exact Hub.reply_setSlot ..
    · obtain hread | hkind := hwait
      · exact .inr (by simpa using hread)
      · refine .inl (Bool.eq_false_iff.mpr fun hs => ?_)
        obtain ⟨k', k, slot, hclear, hread, hne⟩ := suspends_iff.mp hs
        exact hne (hkind k slot k' hread hclear)

/-! ## A delayed order refused at its take (R153, R166, R170) -/

theorem SectorId.num_of_ofNum? {n : Nat} {k : SectorId} (h : SectorId.ofNum? n = some k) : k.num = n := by
  unfold SectorId.ofNum? at h
  split at h <;> simp_all <;> subst h <;> rfl

theorem SectorId.exists_ofNum? {n : Nat} : (∃ k, SectorId.ofNum? n = some k) ↔ n ≤ 7 := by
  unfold SectorId.ofNum?
  split <;> simp_all
  omega

/-- A sector's operand is one byte of at most 7 (R166). -/
theorem sectorOperand_of_range {payload : List Byte} (h : ∃ k : Byte, payload = [k] ∧ k.toNat ≤ 7) :
    ∃ k, sectorOperand payload = some k ∧ payload = [BitVec.ofNat 8 k.num] := by
  obtain ⟨b, rfl, hb⟩ := h
  obtain ⟨k, hk⟩ := SectorId.exists_ofNum?.mpr hb
  exact ⟨k, hk, by rw [SectorId.num_of_ofNum? hk, BitVec.ofNat_toNat, BitVec.setWidth_eq]⟩

theorem sectorOperand_out_of_range {payload : List Byte} (h : ¬∃ k : Byte, payload = [k] ∧ k.toNat ≤ 7) :
    sectorOperand payload = none := by
  unfold sectorOperand
  split
  · next b =>
    cases hk : SectorId.ofNum? b.toNat with
    | none => rfl
    | some k => exact absurd ⟨b, rfl, SectorId.exists_ofNum?.mp ⟨k, hk⟩⟩ h
  · rfl

theorem readOperand_of_range {payload : List Byte}
    (h : ∃ k slot : Byte, payload = [k, slot] ∧ k.toNat ≤ 7 ∧ slot.toNat ≤ 31) :
    ∃ k slot, readOperand payload = some (.read k slot) ∧
      payload = [BitVec.ofNat 8 k.num, BitVec.ofNat 8 slot] ∧ slot ≤ 31 := by
  obtain ⟨b, slot, rfl, hb, hslot⟩ := h
  obtain ⟨k, hk⟩ := SectorId.exists_ofNum?.mpr hb
  refine ⟨k, slot.toNat, by simp [readOperand, hk, hslot], ?_, hslot⟩
  rw [SectorId.num_of_ofNum? hk]
  simp only [BitVec.ofNat_toNat, BitVec.setWidth_eq]

theorem readOperand_out_of_range {payload : List Byte}
    (h : ¬∃ k slot : Byte, payload = [k, slot] ∧ k.toNat ≤ 7 ∧ slot.toNat ≤ 31) : readOperand payload = none := by
  unfold readOperand
  split
  · next b slot =>
    cases hk : SectorId.ofNum? b.toNat with
    | none => rfl
    | some k => exact if_neg fun hslot => h ⟨b, slot, rfl, SectorId.exists_ofNum?.mp ⟨k, hk⟩, hslot⟩
  · rfl

theorem halfBytes_halfOf (hi lo : Byte) : halfBytes (halfOf hi lo) = [hi, lo] := by
  simp only [halfBytes, halfOf, List.cons.injEq, and_true]
  exact ⟨BitVec.extractLsb'_append_eq_left, BitVec.extractLsb'_append_eq_right⟩

theorem writeOperand_of_range {payload : List Byte}
    (h : ∃ k slot hi lo : Byte, payload = [k, slot, hi, lo] ∧ k.toNat ≤ 7 ∧ slot.toNat ≤ 30) :
    ∃ k slot value, writeOperand payload = some (.write k slot value) ∧
      payload = BitVec.ofNat 8 k.num :: BitVec.ofNat 8 slot :: halfBytes value ∧ slot ≤ 30 := by
  obtain ⟨b, slot, hi, lo, rfl, hb, hslot⟩ := h
  obtain ⟨k, hk⟩ := SectorId.exists_ofNum?.mpr hb
  refine ⟨k, slot.toNat, halfOf hi lo, by simp [writeOperand, hk, hslot], ?_, hslot⟩
  rw [SectorId.num_of_ofNum? hk, halfBytes_halfOf]
  simp only [BitVec.ofNat_toNat, BitVec.setWidth_eq]

theorem writeOperand_out_of_range {payload : List Byte}
    (h : ¬∃ k slot hi lo : Byte, payload = [k, slot, hi, lo] ∧ k.toNat ≤ 7 ∧ slot.toNat ≤ 30) :
    writeOperand payload = none := by
  unfold writeOperand
  split
  · next b slot hi lo =>
    cases hk : SectorId.ofNum? b.toNat with
    | none => rfl
    | some k => exact if_neg fun hslot => h ⟨b, slot, hi, lo, rfl, SectorId.exists_ofNum?.mp ⟨k, hk⟩, hslot⟩
  · rfl

/-- An order whose payload gives no operation is refused RANGE (R166). -/
theorem takeJudge_none {i : Instr} (hi : storeOrder i = none) (h : Hub) : takeJudge i h = .error .range := by
  cases i
  case apply => simp [storeOrder] at hi
  all_goals simp [takeJudge, orRange, hi]

theorem applyOperand_refused {h : Hub} {r : Reason} (hr : h.applyRefusal = some r) : applyOperand h = .error r := by
  simp [applyOperand, hr]

/-- Settles O25: the operand's form decides for every order but APPLY, and the first failing condition for APPLY. -/
theorem delayedOrderRefusedAtItsTake : Obligations.DelayedOrderRefusedAtItsTake := by
  intro s i q code hi hc ha hr ranged sectorRanged
  have hrefused : ∀ r, (∀ h : Hub, h.applyRefusal = s.hub.applyRefusal → takeJudge i h = .error r) →
      exec i s = .next { s with hub := (readPins i s.hub).answered q code (.refused r []) } := fun r hj =>
    exec_of_after <| (Hub.after_delayed hi hc ..).trans <|
      Hub.delayedOrder_refused (by simpa using ha) (by simpa using hr) (hj _ (by simp))
  have hrange : storeOrder i = none →
      exec i s = .next { s with hub := (readPins i s.hub).answered q code (.refused .range []) } := fun hn =>
    hrefused .range fun h _ => takeJudge_none hn h
  refine ⟨?_, hrange, fun depot hdepot => ?_⟩
  · cases i <;> simp only [Instr.frameParts, Option.some.injEq, Prod.mk.injEq, reduceCtorEq] at hi <;>
      obtain ⟨rfl, -, rfl⟩ := hi <;> simp only [classOf, Option.some.injEq, reduceCtorEq] at hc
    case apply => rfl
    case storeRead q =>
      refine ⟨fun hn => hrange (by simp [storeOrder, readOperand_out_of_range hn]), fun hp => ?_⟩
      obtain ⟨k, slot, hop, hpayload, hslot⟩ := readOperand_of_range hp
      exact ⟨_, by simp [storeOrder, hop], k, slot, hpayload, hslot, rfl⟩
    case storeWrite q =>
      refine ⟨fun hn => hrange (by simp [storeOrder, writeOperand_out_of_range hn]), fun hp => ?_⟩
      obtain ⟨k, slot, value, hop, hpayload, hslot⟩ := writeOperand_of_range hp
      exact ⟨_, by simp [storeOrder, hop], k, slot, value, hpayload, hslot, rfl⟩
    all_goals
      refine ⟨fun hn => hrange (by simp [storeOrder, sectorOperand_out_of_range hn]), fun hp => ?_⟩
      obtain ⟨k, hop, hpayload⟩ := sectorOperand_of_range hp
      exact ⟨_, by simp [storeOrder, hop], k, hpayload, rfl⟩
  · subst hdepot
    refine ⟨fun hs => ?_, fun hs hb => ?_, fun hs hb hk => ?_⟩ <;>
      refine hrefused _ fun h hh => applyOperand_refused (hh.trans ?_) <;>
      simp [Hub.applyRefusal, Hub.standing, *]

end Sys2Proof.Machine
end

section
/-! PROOFS. The store's completions and its arbiter (R153, R155, R166, R167). -/

namespace Sys2Proof.Machine

/-! ## Completions -/

/-- The delivery looks at the slots alone and writes one of them, whatever the store's record shows. -/
theorem Hub.deliver_updateRecord (r : RunningOp) (a : Answer) (h : Hub) :
    (h.deliver r a).updateRecord = h.updateRecord.deliver r a := by
  simp only [Hub.deliver, Hub.updateRecord_port]
  split
  · split <;> rfl
  all_goals rfl

/-- The completion of the running operation, with the store's record brought up to date before the delivery (R171). -/
theorem Hub.completeOp_eq (r : RunningOp) (h : Hub) :
    h.completeOp r = (((h.finishWork r).1.onStore fun u =>
      { u with running := none, shown := ⟨(h.finishWork r).1.pins.depot, 0⟩ }).deliver r (h.finishWork r).2).takeNext :=
  congrArg Hub.takeNext (Hub.deliver_updateRecord ..)

theorem Hub.storeCompletion_due {h : Hub} {r : RunningOp} {code : Byte} (depot : Bool) (hread : h.store.read = none)
    (hr : h.store.running = some r) (hd : r.op.duration ≤ r.elapsed) (hcode : r.op.code = code) :
    h.storeCompletion code depot = (h.readDepot depot).completeOp r := by
  have hdue : h.store.due = some r := by simp [Store.due, hread, hr, hd]
  simp [Hub.storeCompletion, hdue, hcode, hread]

theorem Sector.isBlank_iff (x : Sector) :
    x.isBlank = true ↔ x.slots = [] ∧ x.mark = .empty ∧ x.clearing = false := by
  simp [Sector.isBlank, and_assoc]

theorem be1_isBlank (x : Sector) : be1 (if x.isBlank then 1 else 0) =
    [if x.slots = [] ∧ x.mark = .empty ∧ x.clearing = false then 1#8 else 0#8] := by
  simp only [x.isBlank_iff]
  split <;> rfl

/-- A read's outcome (R166). -/
theorem readOutcome_slot {x : Sector} {slot : Nat} (hs : slot ≤ 30) : readOutcome x slot =
    match slotContent x.slots slot with
    | none => [0#8, 0#8, 0#8]
    | some (.written v) => 1#8 :: halfBytes v
    | some .torn => [2#8, 0#8, 0#8] := by
  rw [readOutcome, if_neg (by omega)]
  split <;> simp [slotStateNum, be1, be2, halfBytes, *]

theorem readOutcome_mark (x : Sector) : readOutcome x 31 =
    match x.mark with
    | .empty => [0#8, 0#8, 0#8, 0#8]
    | .written sum count => 1#8 :: halfBytes sum ++ [BitVec.ofNat 8 count]
    | .torn => [2#8, 0#8, 0#8, 0#8] := by
  rw [readOutcome, if_pos rfl]
  split <;> simp [be1, be2, halfBytes, *]

theorem Hub.deliver_running {h : Hub} {r : RunningOp} {rq : HeldRequest} (a : Answer)
    (hs : (h.port r.port).slot = .running rq) (ho : rq.op = r.op) :
    h.deliver r a = h.setSlot r.port (.done rq a) := by
  simp [Hub.deliver, hs, ho]

theorem Hub.deliver_discarded {h : Hub} {r : RunningOp} (a : Answer)
    (hs : ∀ rq, (h.port r.port).slot = .running rq → rq.op ≠ r.op) : h.deliver r a = h := by
  obtain he | ⟨rq, hrq, ho, -⟩ := h.deliver_cases r a
  · exact he
  · exact absurd ho (hs rq hrq)

/-- Settles O26: what `Hub.finishWork` does for each operation, then the delivery and the next request. -/
theorem storeOperationsComplete : Obligations.StoreOperationsComplete := by
  refine ⟨?_, fun h r a => ⟨fun rq => Hub.deliver_running a, Hub.deliver_discarded a⟩,
    fun x slot => ⟨readOutcome_slot, readOutcome_mark x⟩⟩
  intro s r depot hread hr hd finish
  have hcomplete : ∀ g : Hub, ((s.hub.readDepot depot).completeOp r) = g → 
      s.hub.storeCompletion r.op.code depot = g := fun g hg =>
    (Hub.storeCompletion_due depot hread hr hd rfl).trans hg
  obtain ⟨op, port, elapsed, lock⟩ := r
  simp only [Hub.completeOp_eq] at hcomplete
  cases op with
  | read k slot => exact exec_of_after (hcomplete _ rfl)
  | write k slot v => exact exec_of_after (hcomplete _ rfl)
  | close k => exact exec_of_after (hcomplete _ (by simp only [Hub.finishWork, be1_natCast]; rfl))
  | lock k => exact exec_of_after (hcomplete _ rfl)
  | blank k =>
    refine exec_of_after (hcomplete _ ?_)
    simp only [Hub.finishWork, be1_isBlank]
    rfl
  | clear k => exact exec_of_after (hcomplete _ rfl)
  | apply =>
    intro hfails
    have hrefused : (s.hub.readDepot depot).applyRefusal.isNone = false := by
      rw [Bool.eq_false_iff, ne_eq, Option.isNone_iff_eq_none, Hub.applyRefusal_eq_none]
      exact hfails
    refine exec_of_after (hcomplete _ ?_)
    simp only [Hub.finishWork, hrefused]
    rfl

/-! ## The arbiter (R155) -/

theorem Hub.takeWaiting_busy {h : Hub} (hr : h.store.running ≠ none) (p : Port) : h.takeWaiting p = h := by
  unfold Hub.takeWaiting
  split
  · next hfree _ => exact absurd hfree hr
  · rfl

theorem Hub.takeWaiting_idle {h : Hub} {p : Port} (hs : ∀ rq, (h.port p).slot ≠ .waiting rq) : h.takeWaiting p = h := by
  unfold Hub.takeWaiting
  split
  · next rq _ hslot => exact absurd hslot (hs rq)
  · rfl

theorem Hub.takeWaiting_free {h : Hub} {p : Port} {rq : HeldRequest} (hr : h.store.running = none)
    (hs : (h.port p).slot = .waiting rq) : h.takeWaiting p = h.startOp p rq := by
  simp [Hub.takeWaiting, hr, hs]

theorem Hub.foldl_takeWaiting_busy {h : Hub} (hr : h.store.running ≠ none) (l : List Port) :
    l.foldl Hub.takeWaiting h = h := by
  induction l with
  | nil => rfl
  | cons p l ih => rw [List.foldl_cons, Hub.takeWaiting_busy hr, ih]

/-- A start concerns its own port's slot alone. -/
theorem Hub.startOp_port_of_ne {p p' : Port} (hne : p' ≠ p) (rq : HeldRequest) (h : Hub) :
    (h.startOp p rq).port p' = h.port p' := by
  cases hr : h.startRefusal rq.op with
  | some r => simp [Hub.startOp_refused hr, hne]
  | none => simp [Hub.startOp_begun hr, hne]

/-- The free store passed over the ports of a list: each waiting request of theirs is refused, and nothing runs. -/
structure Hub.PassedOver (l : List Port) (h g : Hub) : Prop where
  free : g.store.running = none
  refusal : ∀ op, g.startRefusal op = h.startRefusal op
  other : ∀ p, p ∉ l → g.port p = h.port p
  idle : ∀ p, p ∈ l → (∀ rq, (h.port p).slot ≠ .waiting rq) → g.port p = h.port p
  refused : ∀ p, p ∈ l → ∀ rq, (h.port p).slot = .waiting rq → ∃ reason, (g.port p).slot = .done rq (.refused reason [])

theorem Hub.takeWaiting_passedOver {h : Hub} {p : Port} (hfree : h.store.running = none)
    (hr : ∀ rq, (h.port p).slot = .waiting rq → h.startRefusal rq.op ≠ none) : h.PassedOver [p] (h.takeWaiting p) := by
  by_cases hs : ∃ rq, (h.port p).slot = .waiting rq
  · obtain ⟨rq, hs⟩ := hs
    obtain ⟨reason, hreason⟩ := Option.ne_none_iff_exists'.mp (hr rq hs)
    rw [Hub.takeWaiting_free hfree hs, Hub.startOp_refused hreason]
    exact {
      free := by simpa using hfree
      refusal := fun op => by cases op <;> rfl
      other := fun p' hp' => by simp [show p' ≠ p by simpa using hp']
      idle := fun p' hp' hidle => absurd hs (by obtain rfl := List.mem_singleton.mp hp'; exact hidle rq)
      refused := fun p' hp' rq' hrq' => by
        obtain rfl := List.mem_singleton.mp hp'
        obtain rfl : rq = rq' := by simpa using hs.symm.trans hrq'
        exact ⟨reason, by simp⟩ }
  · rw [Hub.takeWaiting_idle fun rq hrq => hs ⟨rq, hrq⟩]
    exact ⟨hfree, fun _ => rfl, fun _ _ => rfl, fun _ _ _ => rfl, fun p' hp' rq hrq =>
      absurd ⟨rq, by obtain rfl := List.mem_singleton.mp hp'; exact hrq⟩ hs⟩

theorem Hub.PassedOver.cons {p : Port} {l : List Port} {h g k : Hub} (hp : h.PassedOver [p] g) (hl : g.PassedOver l k)
    (hn : p ∉ l) : h.PassedOver (p :: l) k where
  free := hl.free
  refusal op := (hl.refusal op).trans (hp.refusal op)
  other p' hp' := by
    obtain ⟨hne, hl'⟩ : p' ≠ p ∧ p' ∉ l := by simpa using hp'
    exact (hl.other p' hl').trans (hp.other p' (by simpa using hne))
  idle p' hp' hidle := by
    by_cases hpp : p' = p
    · subst hpp; exact (hl.other _ hn).trans (hp.idle _ (by simp) hidle)
    · have hport := hp.other p' (by simpa using hpp)
      exact (hl.idle p' (List.mem_of_ne_of_mem hpp hp') (by rwa [hport])).trans hport
  refused p' hp' rq hrq := by
    by_cases hpp : p' = p
    · subst hpp; rw [hl.other _ hn]; exact hp.refused _ (by simp) rq hrq
    · exact hl.refused p' (List.mem_of_ne_of_mem hpp hp') rq (by rwa [hp.other p' (by simpa using hpp)])

theorem Hub.foldl_takeWaiting_passedOver {l : List Port} (hn : l.Nodup) {h : Hub} (hfree : h.store.running = none)
    (hr : ∀ p ∈ l, ∀ rq, (h.port p).slot = .waiting rq → h.startRefusal rq.op ≠ none) :
    h.PassedOver l (l.foldl Hub.takeWaiting h) := by
  induction l generalizing h with
  | nil => exact ⟨hfree, fun _ => rfl, fun _ _ => rfl, nofun, nofun⟩
  | cons p l ih =>
    obtain ⟨hp, hl⟩ := List.nodup_cons.mp hn
    have hfirst := Hub.takeWaiting_passedOver hfree (hr p (by simp))
    refine hfirst.cons (ih hl hfirst.free fun p' hp' rq hrq => ?_) hp
    rw [hfirst.other p' (by rintro hmem; obtain rfl := List.mem_singleton.mp hmem; exact hp hp')] at hrq
    rw [hfirst.refusal]
    exact hr p' (by simp [hp']) rq hrq

/-- The ports before and after one in the order S, B, M. -/
theorem portOrder_split (p : Port) : ∃ before after, portOrder = before ++ p :: after ∧
    ∀ p', p' ∈ before ↔ storePriority p' < storePriority p := by
  cases p with
  | s => exact ⟨[], [.b, .m], rfl, fun p' => by cases p' <;> decide⟩
  | b => exact ⟨[.s], [.m], rfl, fun p' => by cases p' <;> decide⟩
  | m => exact ⟨[.s, .b], [], rfl, fun p' => by cases p' <;> decide⟩

theorem portOrder_nodup : portOrder.Nodup := by decide

/-- Settles O27: the store passes over the ports before the first acceptable request, starts that one, and stops. -/
theorem arbiterTakesByPriority : Obligations.ArbiterTakesByPriority := by
  refine fun h hfree => ⟨fun hidle => ?_, fun p rq hslot hstarts hbefore => ?_⟩
  · have hone : ∀ p, h.takeWaiting p = h := fun p => Hub.takeWaiting_idle (hidle p)
    simp [Hub.takeNext, portOrder, hone]
  · obtain ⟨before, after, horder, hmem⟩ := portOrder_split p
    have hnodup : (before ++ p :: after).Nodup := horder ▸ portOrder_nodup
    have hpassed : h.PassedOver before (before.foldl Hub.takeWaiting h) :=
      Hub.foldl_takeWaiting_passedOver (List.nodup_append.mp hnodup).1 hfree fun p' hp' rq' hrq' =>
        hbefore p' rq' ((hmem p').mp hp') hrq'
    set g := before.foldl Hub.takeWaiting h with hg
    have hport : g.port p = h.port p := hpassed.other p (by simp [hmem])
    have hbegun := Hub.startOp_begun (p := p) (rq := rq) (h := g) (by rw [hpassed.refusal]; exact hstarts)
    have hnext : h.takeNext = g.startOp p rq := by
      rw [Hub.takeNext, horder, List.foldl_append, List.foldl_cons, ← hg,
        Hub.takeWaiting_free hpassed.free (by rw [hport]; exact hslot)]
      exact Hub.foldl_takeWaiting_busy (by simp [hbegun]) _
    have hother : ∀ p', storePriority p' ≠ storePriority p → h.takeNext.port p' = g.port p' := fun p' hp' => by
      rw [hnext, Hub.startOp_port_of_ne fun heq => hp' (by rw [heq])]
    refine ⟨by simp [hnext, hbegun], by simp [hnext, hbegun], fun p' hp' => ?_, fun p' hp' hidle => ?_,
      fun p' rq' hp' hrq' => ?_⟩
    · rw [hother p' hp'.ne', hpassed.other p' (by rw [hmem]; exact hp'.not_gt)]
    · rw [hother p' hp'.ne, hpassed.idle p' ((hmem p').mpr hp') hidle]
    · rw [hother p' hp'.ne]
      exact hpassed.refused p' ((hmem p').mpr hp') rq' hrq'

/-! ## The completion of a read in a suspension (R155) -/

/-- The first of the waiting reads in the order S, B, M. -/
theorem Hub.waitingRead_first {h : Hub} {clear : StoreOp} {p : Port} {rq : HeldRequest}
    (hp : (h.port p).slot = .waiting rq) (hs : suspends clear rq.op = true)
    (hfirst : ∀ p' rq', storePriority p' < storePriority p → (h.port p').slot = .waiting rq' →
      suspends clear rq'.op = false) : h.waitingRead clear = some (p, rq) := by
  obtain ⟨before, after, horder, hmem⟩ := portOrder_split p
  rw [Hub.waitingRead, horder, List.findSome?_append, List.findSome?_eq_none_iff.mpr fun p' hp' => ?_, Option.none_or,
    List.findSome?_cons_of_isSome]
  · simp [hp, hs]
  · simp [hp, hs]
  · split
    · next rq' hrq' => simp [hfirst p' rq' ((hmem p').mp hp') hrq']
    all_goals rfl

/-- A delivery takes nothing from the waiting requests. -/
theorem Hub.deliver_waiting {r : RunningOp} {a : Answer} {h : Hub} {p : Port} {rq : HeldRequest} :
    ((h.deliver r a).port p).slot = .waiting rq ↔ (h.port p).slot = .waiting rq := by
  obtain he | ⟨rq', hrun, -, he⟩ := h.deliver_cases r a
  · rw [he]
  · rw [he, Hub.port_setSlot]
    split
    · next heq => subst heq; simp [hrun]
    · rfl

/-- What a read in a suspension leaves before the next one starts. -/
def Hub.readEnded (r : RunningOp) (depot : Bool) (h : Hub) : Hub :=
  (((h.readDepot depot).onStore fun u => { u with read := none }).deliver r
    ((h.readDepot depot).finishWork r).2).updateRecord

theorem Hub.storeCompletion_suspended {h : Hub} {r clear : RunningOp} {code : Byte} (depot : Bool)
    (hread : h.store.read = some r) (hc : h.store.running = some clear) (hd : r.op.duration ≤ r.elapsed)
    (hcode : r.op.code = code) : h.storeCompletion code depot =
      match (h.readEnded r depot).waitingRead clear.op with
      | some (p, rq) => (h.readEnded r depot).startSuspended p rq
      | none => h.readEnded r depot := by
  have hdue : h.store.due = some r := by simp [Store.due, hread, hd]
  simp only [Hub.storeCompletion, hdue, hcode, hread, if_true, Option.isSome_some, Hub.completeSuspended,
    Hub.readDepot_frame, hc]
  rfl

theorem suspends_eq_false {k' : SectorId} {op : StoreOp} (h : ∀ k slot, op = .read k slot → k = k') :
    suspends (.clear k') op = false := by
  refine Bool.eq_false_iff.mpr fun hs => ?_
  obtain ⟨_, k, slot, heq, hop, hne⟩ := suspends_iff.mp hs
  exact hne ((StoreOp.clear.inj heq).symm.trans (h k slot hop).symm)

/-- Settles O28: the read is over, and the next one starts where one waits. -/
theorem suspendedReadCompletes : Obligations.SuspendedReadCompletes := by
  intro s r clear k k' slot depot hread hop hrunning hclear hd
  have hcompletion := Hub.storeCompletion_suspended depot hread hrunning hd (code := 0x38) (by rw [hop]; rfl)
  have hstore : (s.hub.readEnded r depot).store =
      { s.hub.store with read := none, shown := ⟨depot, clear.elapsed / 10⟩ } := by
    obtain ⟨op, port, elapsed, lock⟩ := clear
    obtain rfl : op = .clear k' := hclear
    simp [Hub.readEnded, hrunning, Store.progress, Hub.readDepot]
  have hwaiting : ∀ p rq, ((s.hub.readEnded r depot).port p).slot = .waiting rq ↔ (s.hub.port p).slot = .waiting rq :=
    fun p rq => Hub.deliver_waiting
  have hdelivered : ∀ rq, (s.hub.port r.port).slot = .running rq → rq.op = r.op →
      ((s.hub.readEnded r depot).port r.port).slot = .done rq (.done (readOutcome (s.hub.sector k) slot)) :=
    fun rq hrq ho => by
      have houtcome : ((s.hub.readDepot depot).finishWork r).2 = .done (readOutcome (s.hub.sector k) slot) := by
        simp only [Hub.finishWork, hop]; rfl
      simp only [Hub.readEnded, Hub.updateRecord_port, houtcome]
      rw [Hub.deliver_running _ (rq := rq) (by simpa using hrq) ho]
      simp
  refine ⟨_, exec_of_after hcompletion, rfl, ?_⟩
  dsimp only
  rw [hclear]
  cases hw : (s.hub.readEnded r depot).waitingRead (.clear k') with
  | none =>
    refine ⟨by simp [hstore, hrunning], by simp [hstore], by simp [hstore], hdelivered, fun _ => by simp [hstore],
      fun p rq kr sr hslot hread hne hfirst => ?_⟩
    have hsome := Hub.waitingRead_first (clear := .clear k') ((hwaiting p rq).mpr hslot)
      (suspends_iff.mpr ⟨k', kr, sr, rfl, hread, Ne.symm hne⟩) fun p' rq' hlt hslot' =>
        suspends_eq_false fun kr' sr' h' => hfirst p' rq' kr' sr' hlt ((hwaiting p' rq').mp hslot') h'
    rw [hw] at hsome
    contradiction
  | some next =>
    obtain ⟨p, rq⟩ := next
    obtain ⟨hslot, hs⟩ := Hub.waitingRead_spec hw
    obtain ⟨_, kr, sr, heq, hkr, hne⟩ := suspends_iff.mp hs
    obtain rfl := StoreOp.clear.inj heq
    dsimp only
    rw [Hub.startSuspended_eq (r := clear) (k := k') (by simp [hstore, hrunning]) hclear]
    refine ⟨by simp [hstore, hrunning], by simp [hstore], ?_, fun rq' hrq' ho => ?_, fun hnone => ?_,
      fun p' rq' kr' sr' hslot' hread' hne' hfirst => ?_⟩
    · simp [Hub.readEnded, Hub.readDepot]
    · have hp : r.port ≠ p := by
        rintro rfl
        rw [hwaiting, hrq'] at hslot
        contradiction
      simp [hp, hdelivered rq' hrq' ho]
    · exact absurd (hnone p rq kr sr ((hwaiting p rq).mp hslot) hkr) (Ne.symm hne)
    · have hsome := Hub.waitingRead_first (clear := .clear k') ((hwaiting p' rq').mpr hslot')
        (suspends_iff.mpr ⟨k', kr', sr', rfl, hread', Ne.symm hne'⟩) fun p'' rq'' hlt hslot'' =>
          suspends_eq_false fun kr'' sr'' h'' => hfirst p'' rq'' kr'' sr'' hlt ((hwaiting p'' rq'').mp hslot'') h''
      obtain ⟨rfl, rfl⟩ := Prod.mk.inj (Option.some.inj (hw.symm.trans hsome))
      simp

/-! ## What changes a sector (R166 to R168) -/

theorem Hub.sector_eq_of_store {h g : Hub} (hs : g.store.sectors = h.store.sectors) (k : SectorId) :
    g.sector k = h.sector k := by
  simp [Hub.sector, hs]

/-- The load forms the active set and leaves the sectors (R168, R169). -/
theorem Hub.after_activeSetLoad_sectors (w : Between) (x : LoadInputs) (h : Hub) :
    (h.after w (.activeSetLoad x)).store.sectors = h.store.sectors := by
  simp only [Hub.after]
  split
  · simp only [Hub.completeLoad, Hub.sampleDoors_frame, Hub.formRideTargets_frame, Hub.startLoads_frame,
      Hub.startTimers_frame, Hub.formAccess_frame, Hub.updateRecord_store, Hub.installReset, Hub.installLoad]
    split <;> rfl
  · rfl

theorem Hub.hubReset_sectors (q : Request) (h : Hub) : (h.hubReset q).store.sectors = h.store.sectors :=
  Hub.hubReset_preserves (P := fun g => g.store.sectors = h.store.sectors) (fun _ _ _ _ hg => hg) (fun _ _ hg => hg)
    (fun _ _ hg => hg) q rfl

theorem Hub.storeCompletion_not_due {h : Hub} (hd : h.store.due = none) (code : Byte) (depot : Bool) :
    h.storeCompletion code depot = h := by
  simp [Hub.storeCompletion, hd]

/-- No command but the delayed orders and a completion that is due changes a sector. -/
theorem Hub.after_sectors {c : Instr} {h : Hub} (hc : classOf c ≠ some .calibration)
    (hd : h.store.due = none ∨ completesStore c = false) (w : Between) :
    (h.after w c).store.sectors = h.store.sectors := by
  cases c
  case activeSetLoad x => exact Hub.after_activeSetLoad_sectors w x h
  case hubReset q => exact Hub.hubReset_sectors q h
  case powerOnReset | rstLine => rfl
  case abandon q code =>
    exact Hub.exchangeLoaded_preserves (P := fun g => g.store.sectors = h.store.sectors) (fun _ _ _ _ hg => hg)
      (fun _ _ hg => hg) q code (fun _ _ hg => hg) rfl
  case storeReadCompletion | storeWriteCompletion | storeCloseCompletion | storeLockCompletion | blankTestCompletion
      | storeClearCompletion | applyCompletion =>
    obtain hd | hd := hd
    · exact congrArg (fun g => g.store.sectors) (Hub.storeCompletion_not_due hd _ _)
    · exact Bool.noConfusion hd
  case storeRead | storeClear | storeWrite | storeClose | storeLock | blankTest | apply => exact absurd rfl hc
  all_goals exact congrArg Store.sectors (Hub.after_store_of_untouched rfl w h)

/-- A sector's lock is set. -/
def Hub.LockSet (k : SectorId) (h : Hub) : Prop := (h.sector k).lock = true

theorem Hub.LockSet.onSector {k : SectorId} {h : Hub} (hl : h.LockSet k) {k' : SectorId} {g : Sector → Sector}
    (hg : k = k' → (g (h.sector k')).lock = true) : (h.onSector k' g).LockSet k := by
  unfold Hub.LockSet
  rw [Hub.sector_onSector]
  split
  · next heq => exact hg heq
  · exact hl

theorem Hub.LockSet.congr {k : SectorId} {h g : Hub} (hl : h.LockSet k) (hs : g.store.sectors = h.store.sectors) :
    g.LockSet k := by
  rw [Hub.LockSet, Hub.sector_eq_of_store hs]; exact hl

theorem Hub.LockSet.setSlot {k : SectorId} {h : Hub} (hl : h.LockSet k) (p : Port) (x : DelayedSlot) :
    (h.setSlot p x).LockSet k := hl

theorem Hub.LockSet.deliver {k : SectorId} {h : Hub} (hl : h.LockSet k) (r : RunningOp) (a : Answer) :
    (h.deliver r a).LockSet k := by
  obtain he | ⟨rq, -, -, he⟩ := h.deliver_cases r a <;> rw [he]
  · exact hl
  · exact hl.setSlot _ _

/-- A start marks its sector, and clears no lock (R166, R167). -/
theorem Hub.LockSet.startOp {k : SectorId} {h : Hub} (hl : h.LockSet k) (p : Port) (rq : HeldRequest) :
    (h.startOp p rq).LockSet k := by
  have hbegin : (h.beginWork rq.op).LockSet k := by
    unfold Hub.beginWork
    split
    case h_1 | h_2 | h_3 => exact hl.onSector fun heq => heq ▸ hl
    all_goals exact hl
  cases hr : h.startRefusal rq.op with
  | some r => rw [Hub.startOp_refused hr]; exact hl
  | none => rw [Hub.startOp_begun hr]; exact hbegin

theorem Hub.LockSet.takeNext {k : SectorId} {h : Hub} (hl : h.LockSet k) : h.takeNext.LockSet k := by
  have hone : ∀ {g : Hub}, g.LockSet k → ∀ p, (g.takeWaiting p).LockSet k := fun hg p => by
    unfold Hub.takeWaiting
    split
    · exact hg.startOp _ _
    · exact hg
  exact hone (hone (hone hl _) _) _

/-- The end of an operation that is no clear of the sector under DEPOT leaves its lock (R167). -/
theorem Hub.LockSet.finishWork {k : SectorId} {h : Hub} (hl : h.LockSet k) {r : RunningOp}
    (hr : ¬(r.op = .clear k ∧ r.clearLock = true)) : (h.finishWork r).1.LockSet k := by
  unfold Hub.finishWork
  split
  case h_2 | h_3 => exact hl.onSector fun heq => heq ▸ hl
  case h_4 => exact hl.onSector fun _ => rfl
  case h_6 k' hop =>
    refine hl.onSector fun heq => ?_
    subst heq
    have hkeeps : r.clearLock = false := by
      rw [Bool.eq_false_iff]; exact fun h' => hr ⟨hop, h'⟩
    have hlock : (h.sector k).lock = true := hl
    simp [hkeeps, hlock]
  case h_7 =>
    split
    · exact hl.congr (by simp [Hub.installApply, Hub.installLoad])
    · exact hl
  all_goals exact hl

theorem Hub.LockSet.completeOp {k : SectorId} {h : Hub} (hl : h.LockSet k) {r : RunningOp}
    (hr : ¬(r.op = .clear k ∧ r.clearLock = true)) : (h.completeOp r).LockSet k := by
  rw [Hub.completeOp_eq]
  refine Hub.LockSet.takeNext (Hub.LockSet.deliver ?_ r _)
  exact (hl.finishWork hr).congr (by simp)

theorem Hub.LockSet.completeSuspended {k : SectorId} {h : Hub} (hl : h.LockSet k) (r : RunningOp) :
    (h.completeSuspended r).LockSet k := by
  have hended : (h.onStore fun u => { u with read := none }).LockSet k := hl.congr rfl
  have hdelivered := (hended.deliver r (h.finishWork r).2).congr (g := Hub.updateRecord _) rfl
  unfold Hub.completeSuspended
  split
  · exact hdelivered.takeNext
  · dsimp only
    split
    · exact hdelivered.congr rfl
    · exact hdelivered

theorem Hub.LockSet.storeCompletion {k : SectorId} {h : Hub} (hl : h.LockSet k)
    (hr : ∀ r, h.store.running = some r → ¬(r.op = .clear k ∧ r.clearLock = true)) (code : Byte) (depot : Bool) :
    (h.storeCompletion code depot).LockSet k := by
  unfold Hub.storeCompletion
  split
  · next r hdue =>
    split
    · have hpins : (h.readDepot depot).LockSet k := hl.congr rfl
      obtain hread | ⟨hread, hrun⟩ := Store.due_cases hdue
      · simpa [hread] using hpins.completeSuspended r
      · simpa [hread] using hpins.completeOp (hr r hrun)
    · exact hl
  · exact hl

theorem Hub.LockSet.delayedOrder {k : SectorId} {h : Hub} (hl : h.LockSet k) (q : Request) (code : Byte)
    (judge : Hub → Except Reason StoreOp) : (h.delayedOrder q code judge).LockSet k := by
  refine Hub.delayedOrder_preserves (P := Hub.LockSet k) (fun _ _ _ _ hg => hg) (fun _ _ hg => hg) (fun _ _ hg => hg)
    q code (fun g op _ hg => ?_) hl
  unfold serveDelayed
  split
  · unfold Hub.placeDelayed
    split
    · exact hg.startOp _ _
    · split <;> exact hg
  all_goals exact hg

theorem frameParts_of_calibration {c : Instr} (hc : classOf c = some .calibration) :
    ∃ q code, c.frameParts = some (q, 3, code) := by
  cases c <;> first | exact ⟨_, _, rfl⟩ | simp [classOf] at hc

/-- Settles O30: the orders that start an operation keep the locks, and of the completions a clear alone clears one. -/
theorem sectorsKeptAndLocked : Obligations.SectorsKeptAndLocked := by
  intro s t c k hstep
  have ht : t.hub = s.hub.after s.between c := by
    rw [exec_eq] at hstep
    obtain rfl := Host.Outcome.next.inj hstep
    rfl
  rw [ht]
  refine ⟨fun hl hcleared => ?_, fun hc hd => Hub.sector_eq_of_store (Hub.after_sectors hc hd _) k⟩
  by_contra hnone
  have hkept : (s.hub.after s.between c).LockSet k := by
    have hnot : ∀ r, s.hub.store.running = some r → ¬(r.op = .clear k ∧ r.clearLock = true) :=
      fun r hr hop => hnone ⟨r, hr, hop⟩
    by_cases hclass : classOf c = some .calibration
    · obtain ⟨q, code, hi⟩ := frameParts_of_calibration hclass
      rw [Hub.after_delayed hi hclass]
      exact Hub.LockSet.delayedOrder (Hub.LockSet.congr hl (by simp)) _ _ _
    · by_cases hcompletes : completesStore c = true
      · cases c <;> first | exact Bool.noConfusion hcompletes | exact Hub.LockSet.storeCompletion hl hnot _ _
      · rw [Hub.LockSet, Hub.sector_eq_of_store (Hub.after_sectors hclass (.inr (by simpa using hcompletes)) _)]
        exact hl
  rw [hkept] at hcleared
  contradiction

end Sys2Proof.Machine
end

section
/-! PROOFS. What the shared operations leave of the doors, the kneel unit and the levelling unit, and the installation of
an APPLY (R125, R135, R136, R170). -/

namespace Sys2Proof.Machine

/-! ## The doors under the shared operations -/

/-- The move permit is all that its recomputation writes in the door unit (R136). -/
@[simp] theorem Hub.judgePermit_doors (h : Hub) : h.judgePermit.doors = { h.doors with permit := h.permitHolds } := by
  unfold Hub.judgePermit
  split
  · next heq => rw [← heq]
  · simp

@[simp] theorem Hub.judgePermit_door (h : Hub) (d : Door) : h.judgePermit.door d = h.door d := by simp [Hub.door]

/-- A change of the kneel state reaches the move permit alone in the door unit (R117). -/
@[simp] theorem Hub.setKneel_doors (new : KneelState) (h : Hub) :
    (h.setKneel new).doors.doors = h.doors.doors ∧ (h.setKneel new).doors.condition = h.doors.condition ∧
    (h.setKneel new).doors.changes = h.doors.changes := by
  simp [Hub.setKneel]

@[simp] theorem Hub.setKneel_door (new : KneelState) (h : Hub) (d : Door) : (h.setKneel new).door d = h.door d := by
  simp [Hub.door]

@[simp] theorem Hub.stopKneel_doors (cause : StopCause) (c : Option Circuit) (h : Hub) :
    (h.stopKneel cause c).doors.doors = h.doors.doors ∧ (h.stopKneel cause c).doors.condition = h.doors.condition ∧
    (h.stopKneel cause c).doors.changes = h.doors.changes := by
  unfold Hub.stopKneel
  split <;> simp

@[simp] theorem Hub.stopKneel_door (cause : StopCause) (c : Option Circuit) (h : Hub) (d : Door) :
    (h.stopKneel cause c).door d = h.door d := by
  simp [Hub.door]

@[simp] theorem Hub.autoRaise_doors (h : Hub) :
    h.autoRaise.doors.doors = h.doors.doors ∧ h.autoRaise.doors.condition = h.doors.condition ∧
    h.autoRaise.doors.changes = h.doors.changes := by
  unfold Hub.autoRaise
  split <;> simp

@[simp] theorem Hub.autoRaise_door (h : Hub) (d : Door) : h.autoRaise.door d = h.door d := by simp [Hub.door]

/-- The door condition is recomputed from the doors (R135). -/
@[simp] theorem Hub.judgeCondition_doors (h : Hub) :
    h.judgeCondition.doors.doors = h.doors.doors ∧ h.judgeCondition.doors.changes = h.doors.changes ∧
    h.judgeCondition.doors.condition = (h.doorsLocked && h.releasesWithdrawn) := by
  simp only [Hub.judgeCondition]
  split
  · next heq => simp [heq]
  · split <;> simp

@[simp] theorem Hub.judgeCondition_door (h : Hub) (d : Door) : h.judgeCondition.door d = h.door d := by simp [Hub.door]

/-- A door condition in RIDE hands no auto-raise (R115). -/
theorem Hub.judgeCondition_of_ride {h : Hub} (hk : h.kneel.state = .ride) :
    h.judgeCondition = h.onDoors fun u => { u with condition := h.doorsLocked && h.releasesWithdrawn } := by
  simp only [Hub.judgeCondition]
  split
  · next heq => rw [← heq]; rfl
  · simp [Hub.autoRaise, hk]

/-- Changing a release writes that door's release (R126). -/
@[simp] theorem Hub.setRelease_door (d d' : Door) (new : Release) (h : Hub) :
    (h.setRelease d new).door d' = if d' = d then { h.door d with release := new } else h.door d' := by
  unfold Hub.setRelease
  split
  · next heq => split <;> simp_all [← heq]
  · simp only [Hub.judgePermit_door, Hub.judgeCondition_door]
    simp [Hub.door, PerDoor.get_set]

/-- In RIDE a release's change reaches neither the kneel unit nor the levelling unit (R115). -/
theorem Hub.setRelease_of_ride {h : Hub} (hk : h.kneel.state = .ride) (d : Door) (new : Release) :
    (h.setRelease d new).kneel = h.kneel ∧ (h.setRelease d new).level = h.level := by
  unfold Hub.setRelease
  split
  · exact ⟨rfl, rfl⟩
  · dsimp only
    rw [Hub.judgeCondition_of_ride (by simpa using hk)]
    simp

/-! ## The installation of an APPLY -/

@[simp] theorem Hub.writeSteer_axleSteer (t x : Trailing) (h : Hub) : (h.writeSteer t).axleSteer x = h.axleSteer x := by
  simp [Hub.axleSteer]

/-- The clamp of one axle's setpoint (R52). -/
theorem Hub.clampSteer_axleSteer (t x : Trailing) (h : Hub) :
    (h.clampSteer t).axleSteer x =
      if x = t ∧ (h.axleSteer t).initialised then
        { h.axleSteer t with
          setpoint := (h.axleSteer t).setpoint.map (clampTo (-h.angleMax t) (h.angleMax t)) }
      else h.axleSteer x := by
  by_cases hinit : (h.axleSteer t).initialised = true
  · simp only [Hub.clampSteer, hinit, if_true, and_true]
    rw [Hub.writeSteer_axleSteer, Hub.axleSteer_onAxleSteer]
    simp only [hinit]
  · simp [Hub.clampSteer, hinit]

/-- What the doors take of a new mask leaves, in RIDE, the kneel and levelling units (R125). -/
theorem Hub.installEnables_spec {h : Hub} (hk : h.kneel.state = .ride) :
    h.installEnables.level = h.level ∧ ∀ d, (h.installEnables.door d).enabled = h.maskEnables d := by
  have hfold : ∀ (l : List Door) (g : Hub), g.kneel.state = .ride →
      (l.foldl Hub.disableDoor g).kneel = g.kneel ∧ (l.foldl Hub.disableDoor g).level = g.level ∧
      ∀ d, ((l.foldl Hub.disableDoor g).door d).enabled = (g.door d).enabled := by
    intro l
    induction l with
    | nil => exact fun g _ => ⟨rfl, rfl, fun _ => rfl⟩
    | cons d l ih =>
      intro g hg
      obtain ⟨hkneel, hlevel⟩ := Hub.setRelease_of_ride
        (h := g.onDoor d fun x => { x with mark := false, atSpeed := false }) hg d .withdrawn
      obtain ⟨hk', hl', hd'⟩ := ih (g.disableDoor d) ((congrArg _ hkneel).trans hg)
      refine ⟨hk'.trans hkneel, hl'.trans hlevel, fun d' => (hd' d').trans ?_⟩
      simp only [Hub.disableDoor, Hub.setRelease_door, Hub.door_onDoor]
      split <;> simp_all
  unfold Hub.installEnables
  obtain ⟨hkneel, hlevel, hdoor⟩ := hfold (Door.all.filter fun d => (h.door d).enabled && !h.maskEnables d)
    (h.onDoors fun u => { u with doors := .tab fun d => { u.doors.get d with enabled := h.maskEnables d } }) hk
  refine ⟨?_, fun d => ?_⟩
  · dsimp only
    rw [Hub.judgeCondition_of_ride ((congrArg _ hkneel).trans hk)]
    simpa using hlevel
  · simpa [Hub.door] using hdoor d

/-- An item's value is that of the active set (R169). -/
theorem Hub.item_congr {h g : Hub} (hs : g.store.active = h.store.active) (k : SectorId) (n : Nat) :
    g.item k n = h.item k n := by
  simp [Hub.item, hs]

theorem Hub.angleMax_congr {h g : Hub} (hs : g.store.active = h.store.active) (t : Trailing) :
    g.angleMax t = h.angleMax t := by
  cases t <;> exact Hub.item_congr hs _ _

/-- What an APPLY installs, in every unit (R52, R92, R125, R170). -/
theorem Hub.installApply_spec {h : Hub} (hk : h.kneel.state = .ride) :
    h.installApply.store = h.installLoad.store ∧
    (∀ x, h.installApply.axleSteer x =
      if (h.axleSteer x).initialised then
        { h.axleSteer x with
          setpoint := (h.axleSteer x).setpoint.map (clampTo (-h.installLoad.angleMax x) (h.installLoad.angleMax x)) }
      else h.axleSteer x) ∧
    (∀ c, (h.installApply.circuit c).target =
      if (h.circuit c).source = .ride then h.installLoad.trim c else (h.circuit c).target) ∧
    ∀ d, (h.installApply.door d).enabled = h.installLoad.enableMask.testBit (d.num - 1) := by
  have hclamped : ∀ t, (h.installLoad.clampSteer t).store = h.installLoad.store := fun t => by simp
  obtain ⟨hlevel, hdoor⟩ := Hub.installEnables_spec
    (h := ((h.installLoad.clampSteer .a3).clampSteer .a4).formRideTargets) (by simpa [Hub.installLoad] using hk)
  have hstore : h.installApply.store = h.installLoad.store := by simp [Hub.installApply]
  refine ⟨hstore, fun x => ?_, fun c => ?_, fun d => ?_⟩
  · have hsteer : h.installApply.axleSteer x = ((h.installLoad.clampSteer .a3).clampSteer .a4).axleSteer x := by
      simp [Hub.axleSteer, Hub.installApply]
    have hbefore : ∀ y, h.installLoad.axleSteer y = h.axleSteer y := fun _ => rfl
    have hangle : ∀ y, (h.installLoad.clampSteer .a3).angleMax y = h.installLoad.angleMax y :=
      Hub.angleMax_congr (by rw [hclamped])
    rw [hsteer, Hub.clampSteer_axleSteer, hangle, Hub.clampSteer_axleSteer, Hub.clampSteer_axleSteer]
    cases x <;> simp [hbefore]
  · simp only [Hub.installApply, Hub.circuit, hlevel]
    simp only [Hub.formRideTargets, Hub.onLevel, PerCircuit.get_tab, Hub.clampSteer_frame]
    split <;> simp_all [Hub.installLoad, Hub.trim, Hub.item]
  · refine (hdoor d).trans ?_
    rw [Hub.maskEnables, Hub.enableMask, Hub.enableMask, Hub.item_congr (h := h.installLoad) (by simp)]

/-- A start leaves the active set, and its record shows an operation that has not worked yet (R171). -/
@[simp] theorem Hub.startOp_store (p : Port) (rq : HeldRequest) (h : Hub) :
    (h.startOp p rq).store.active = h.store.active ∧ (h.startOp p rq).store.statuses = h.store.statuses ∧
    (h.startOp p rq).store.loads = h.store.loads := by
  cases hr : h.startRefusal rq.op with
  | some r => simp [Hub.startOp_refused hr]
  | none =>
    rw [Hub.startOp_begun hr]
    cases rq.op <;> simp [Hub.beginWork, Hub.onSector]

theorem Hub.startOp_shown {p : Port} {rq : HeldRequest} {h : Hub} (hfree : h.store.running = none) :
    (h.startOp p rq).store.shown = ⟨h.pins.depot, 0⟩ := by
  cases hr : h.startRefusal rq.op with
  | some r => simp [Hub.startOp_refused hr, Store.progress, hfree]
  | none =>
    rw [Hub.startOp_begun hr]
    cases rq.op <;> simp [Store.progress]

@[simp] theorem Hub.takeWaiting_store (p : Port) (h : Hub) :
    (h.takeWaiting p).store.active = h.store.active ∧ (h.takeWaiting p).store.statuses = h.store.statuses ∧
    (h.takeWaiting p).store.loads = h.store.loads ∧ (h.takeWaiting p).pins = h.pins := by
  unfold Hub.takeWaiting
  split <;> simp

@[simp] theorem Hub.takeNext_store (h : Hub) :
    h.takeNext.store.active = h.store.active ∧ h.takeNext.store.statuses = h.store.statuses ∧
    h.takeNext.store.loads = h.store.loads := by
  simp [Hub.takeNext, portOrder]

theorem Hub.takeNext_shown {h : Hub} (hs : h.store.shown = ⟨h.pins.depot, 0⟩) :
    h.takeNext.store.shown = ⟨h.pins.depot, 0⟩ := by
  have hone : ∀ {g : Hub}, g.store.shown = ⟨g.pins.depot, 0⟩ → ∀ p,
      (g.takeWaiting p).store.shown = ⟨(g.takeWaiting p).pins.depot, 0⟩ := fun {g} hg p => by
    unfold Hub.takeWaiting
    split
    · next hfree _ => simp [Hub.startOp_shown hfree]
    · exact hg
  simpa [Hub.takeNext, portOrder] using hone (hone (hone hs .s) .b) .m

/-- What a waiting request can become while the store takes up requests (R155). -/
def DelayedSlot.Follows (rq : HeldRequest) (x : DelayedSlot) : Prop :=
  x = .waiting rq ∨ x = .running rq ∨ ∃ reason, x = .done rq (.refused reason [])

theorem Hub.startOp_slot (p : Port) (rq : HeldRequest) (h : Hub) : ((h.startOp p rq).port p).slot.Follows rq := by
  cases hr : h.startRefusal rq.op with
  | some r => exact .inr (.inr ⟨r, by simp [Hub.startOp_refused hr]⟩)
  | none => simp [Hub.startOp_begun hr, DelayedSlot.Follows]

theorem Hub.takeWaiting_slot {h : Hub} {p : Port} {rq : HeldRequest} (hf : (h.port p).slot.Follows rq) (p' : Port) :
    ((h.takeWaiting p').port p).slot.Follows rq := by
  unfold Hub.takeWaiting
  split
  · next rq' _ hwaiting =>
    by_cases hp : p = p'
    · subst hp
      obtain rfl : rq' = rq := by
        obtain hf | hf | ⟨reason, hf⟩ := hf <;> rw [hwaiting] at hf <;> simp_all
      exact Hub.startOp_slot ..
    · rwa [Hub.startOp_port_of_ne hp]
  · exact hf

theorem Hub.takeNext_slot {h : Hub} {p : Port} {rq : HeldRequest} (hf : (h.port p).slot.Follows rq) :
    ((h.takeNext).port p).slot.Follows rq :=
  Hub.takeWaiting_slot (Hub.takeWaiting_slot (Hub.takeWaiting_slot hf _) _) _

theorem Hub.takeWaiting_port {h : Hub} {p : Port} (hs : ∀ rq, (h.port p).slot ≠ .waiting rq) (p' : Port) :
    (h.takeWaiting p').port p = h.port p := by
  unfold Hub.takeWaiting
  split
  · next rq _ hwaiting =>
    rw [Hub.startOp_port_of_ne]
    rintro rfl
    exact hs rq hwaiting
  · rfl

/-- A port whose slot does not wait keeps it while the store takes up requests (R155). -/
theorem Hub.takeNext_port {h : Hub} {p : Port} (hs : ∀ rq, (h.port p).slot ≠ .waiting rq) :
    h.takeNext.port p = h.port p := by
  have h1 := Hub.takeWaiting_port hs .s
  have h2 := (Hub.takeWaiting_port (by rwa [h1]) .b).trans h1
  exact (Hub.takeWaiting_port (by rwa [h2]) .m).trans h2

/-- Settles O29: the set is installed, then the outcome delivered and the next request taken up. -/
theorem applyInstalls : Obligations.ApplyInstalls := by
  intro s p e l depot hread hrunning he hstanding happlied hride
  have hallowed : (s.hub.readDepot depot).applyRefusal = none := Hub.applyRefusal_eq_none.mpr ⟨hstanding, happlied, hride⟩
  obtain ⟨a, ha, hfinish⟩ : ∃ a : Answer,
      a = .done (SectorId.all.map fun k => BitVec.ofNat 8 (loadSector k (s.hub.sector k)).2.num) ∧
      (s.hub.readDepot depot).finishWork ⟨.apply, p, e, l⟩ = ((s.hub.readDepot depot).installApply, a) := by
    refine ⟨_, rfl, ?_⟩
    simp only [Hub.finishWork, hallowed, Option.isNone_none, if_true]
    refine congrArg (fun x => (_, Answer.done x)) (List.map_congr_left fun k _ => ?_)
    simp [Hub.installLoad, Hub.sector]
  obtain ⟨hstore, hsteer, htarget, henabled⟩ := Hub.installApply_spec (h := s.hub.readDepot depot) hride
  have hcompletion : s.hub.storeCompletion 0x3E depot = _ :=
    (Hub.storeCompletion_due depot hread hrunning he rfl).trans (Hub.completeOp_eq _ _)
  rw [hfinish] at hcompletion
  set f := (s.hub.readDepot depot).installApply with hf
  set d := (f.onStore fun u => { u with running := none, shown := ⟨f.pins.depot, 0⟩ }).deliver ⟨.apply, p, e, l⟩ a with hd
  have hdstore : d.store = { f.store with running := none, shown := ⟨depot, 0⟩ } := by
    simp [hd, hf, Hub.readDepot]
  have hdport : ∀ p', (f.onStore fun u => { u with running := none, shown := ⟨f.pins.depot, 0⟩ }).port p' = s.hub.port p' :=
    fun p' => by simp [Hub.port, hf]
  have hactive : d.takeNext.store.active = (s.hub.readDepot depot).installLoad.store.active := by
    simp [hdstore, hstore]
  refine ⟨_, exec_of_after hcompletion, rfl, fun k => ⟨?_, ?_⟩, ?_, ?_, fun rq hrq ho => ?_, fun hempty => ?_,
    fun rq hwaiting => ?_, ?_, ?_, fun x => ?_, fun c => ?_, fun x => ?_, ?_, ?_, ?_, ?_⟩ <;> dsimp only
  · rw [hactive]; simp [Hub.installLoad, Hub.sector]
  · simp [hdstore, hstore, Hub.installLoad, Hub.sector]
  · simp [hdstore, hstore, Hub.installLoad]
  · rw [Hub.takeNext_shown] <;> simp [hd, hf, Hub.readDepot]
  · have hdelivered : (d.port p).slot = .done rq a := by
      rw [hd, Hub.deliver_running a (rq := rq) (by rw [hdport]; exact hrq) ho]
      simp
    rw [Hub.takeNext_port (by simp [hdelivered]), hdelivered, ha]
    refine congrArg (fun x => DelayedSlot.done rq (.done x)) (List.map_congr_left fun k _ => ?_)
    cases (loadSector k (s.hub.sector k)).2 <;> rfl
  · have hkept : d.port p = s.hub.port p := by
      rw [hd, Hub.deliver_discarded a (by simp [hdport, hempty]), hdport]
    rw [Hub.takeNext_port (by simp [hkept, hempty]), hkept, hempty]
  · exact Hub.takeNext_slot (.inl (by rw [hd, Hub.deliver_waiting, hdport]; exact hwaiting))
  · simp [hd, hf]
  · simpa [hd] using (Hub.installApply_emits (s.hub.readDepot depot)).routing
  · rw [Hub.angleMax_congr hactive]
    exact Eq.trans (by simp [Hub.axleSteer, hd]) (hsteer x)
  · rw [Hub.trim, Hub.item_congr hactive]
    exact Eq.trans (by simp [Hub.circuit, hd]) (htarget c)
  · rw [Hub.enableMask, Hub.item_congr hactive]
    exact Eq.trans (by simp [Hub.door, hd]) (henabled x)
  all_goals simp [hd, hf]

end Sys2Proof.Machine
end

section
/-! PROOFS. A request's frame read back (R148), and the load of a sector (R166, R169). -/

namespace Sys2Proof.Machine

/-! ## Frames -/

/-- The level of the DEPOT line is no part of what a code names (R151). -/
theorem codedCommand_isNone (q : Request) (d d' : Bool) (kind : CodedKind) (n : Nat) :
    (codedCommand q d kind n).isNone = (codedCommand q d' kind n).isNone := by
  cases kind with
  | fetch => simp only [codedCommand, fetchCommand]; split <;> rfl
  | post => rfl
  | order => simp only [codedCommand, orderCommand]; split <;> rfl

/-- A request row's command is the one that its kind and code name. -/
theorem frameCommand_of_frameParts {i : Instr} {q : Request} {kind : Nat} {code : Byte} {depot : Bool} {bytes : List Byte}
    (hi : i.frameParts = some (q, kind, code)) (hwf : i.wf = true) (hd : ∀ d, i.depot? = some d → d = depot)
    (hb : bytes ≠ []) (hr : readFrame bytes = some ⟨kind, code, q.tag, q.payload, q.pad⟩) :
    frameCommand q.port depot bytes = some i := by
  have hne : bytes.isEmpty = false := by simpa using hb
  simp only [frameCommand, hne, hr]
  cases i <;> simp only [Instr.frameParts, Option.some.injEq, Prod.mk.injEq, reduceCtorEq] at hi <;>
    obtain ⟨rfl, rfl, rfl⟩ := hi
  case unknownObject q kind code =>
    have hnone : codedCommand q depot kind code.toNat = none := by
      simp only [Instr.wf, Bool.and_eq_true] at hwf
      rw [← Option.isNone_iff_eq_none, codedCommand_isNone q depot false]
      exact hwf.2
    cases kind <;> simp [CodedKind.num, judgeCode, hnone]
  case storeRead q | storeWrite q | storeClose q | storeLock q | blankTest q | apply q =>
    rw [← hd q.depot rfl]; rfl
  case storeClear q d | fetchStoreStatus q d => rw [← hd d rfl]; rfl
  all_goals rfl

/-- Every request row but FRAME_ERROR holds a request of at most 60 bytes and a kind of at most 5 (R148). -/
theorem frameParts_fits {i : Instr} {q : Request} {kind : Nat} {code : Byte} (hi : i.frameParts = some (q, kind, code))
    (hwf : i.wf = true) : kind ≤ 5 ∧ q.payload.length ≤ 60 := by
  cases i <;> simp only [Instr.frameParts, Option.some.injEq, Prod.mk.injEq, reduceCtorEq] at hi <;>
    obtain ⟨rfl, rfl, rfl⟩ := hi
  case unknownObject q kind code =>
    simp only [Instr.wf, Bool.and_eq_true] at hwf
    exact ⟨by cases kind <;> decide, by simpa [Request.wf] using hwf.1⟩
  all_goals exact ⟨by decide, by simpa [Instr.wf, Instr.frameParts, Request.wf] using hwf⟩

/-- Settles O8: the frame of a row passes R149 as that row's parts, and its kind and code name the row. -/
theorem frameOfRequestReadsBack : Obligations.FrameOfRequestReadsBack := by
  intro i port bytes depot hwf hframe hd
  cases hparts : i.frameParts with
  | some parts =>
    obtain ⟨q, kind, code⟩ := parts
    obtain ⟨rfl, rfl⟩ : q.port = port ∧ Frame.bytes ⟨kind, code, q.tag, q.payload, q.pad⟩ = bytes := by
      unfold frameOf at hframe
      split at hframe
      · contradiction
      · simpa [hparts] using hframe
    obtain ⟨hkind, hlen⟩ := frameParts_fits hparts hwf
    exact frameCommand_of_frameParts hparts hwf hd (by simp [Frame.bytes, Frame.head])
      (readFrame_eq_some_iff.mpr ⟨hkind, hlen, List.replicate q.pad 0x00#8, by simp, rfl⟩)
  | none =>
    cases i <;> simp only [frameOf, hparts, reduceCtorEq] at hframe
    case frameError p b =>
      obtain ⟨rfl, rfl⟩ := Prod.mk.inj (Option.some.inj hframe)
      simp only [Instr.wf, Bool.and_eq_true, Bool.not_eq_true', Option.isNone_iff_eq_none] at hwf
      obtain ⟨hne, hnone⟩ := hwf
      simp [frameCommand, hne, hnone]

/-! ## The load of a sector -/

theorem length_loadItems (x : Sector) (n : Nat) (specs : List ItemSpec) : (loadItems x n specs).length = specs.length := by
  induction specs generalizing n with
  | nil => rfl
  | cons spec specs ih => simp [loadItems, ih]

/-- Where the cross-item check of a sector fails for its items, and which two items it then restores (R53, R67). -/
def CrossRestores (k : SectorId) (items : List Item) (i : Nat) : Prop :=
  (k = .s0 ∧ itemValue items 14 ≤ itemValue items 13 ∧ (i = 13 ∨ i = 14)) ∨
  (k = .s4 ∧ itemValue items 1 ≤ itemValue items 0 + 300 ∧ (i = 0 ∨ i = 1))

/-- A restored item. -/
theorem crossCheck_restored {k : SectorId} {items : List Item} {i : Nat} {spec : ItemSpec}
    (hlen : items.length = (itemSpecs k).length) (hspec : (itemSpecs k)[i]? = some spec) (hr : CrossRestores k items i) :
    (crossCheck k items)[i]? = some ⟨spec.default, .corrected⟩ := by
  obtain ⟨rfl, hfails, hi⟩ | ⟨rfl, hfails, hi⟩ := hr
  · replace hlen : items.length = 15 := hlen
    rw [crossCheck, if_neg (by omega)]
    obtain rfl | rfl := hi <;> obtain rfl := Option.some.inj hspec <;> simp [restorePair, hlen]
  · replace hlen : items.length = 22 := hlen
    rw [crossCheck, if_neg (by omega)]
    obtain rfl | rfl := hi <;> obtain rfl := Option.some.inj hspec <;> simp [restorePair, hlen]

/-- Every other item. -/
theorem crossCheck_other {k : SectorId} {items : List Item} {i : Nat} (hr : ¬CrossRestores k items i) :
    (crossCheck k items)[i]? = items[i]? := by
  unfold crossCheck
  split
  · split
    · rfl
    · next hfails =>
      have h13 : i ≠ 13 := fun hi => hr (.inl ⟨rfl, by omega, .inl hi⟩)
      have h14 : i ≠ 14 := fun hi => hr (.inl ⟨rfl, by omega, .inr hi⟩)
      simp [restorePair, Ne.symm h13, Ne.symm h14]
  · split
    · rfl
    · next hfails =>
      have h0 : i ≠ 0 := fun hi => hr (.inr ⟨rfl, by omega, .inl hi⟩)
      have h1 : i ≠ 1 := fun hi => hr (.inr ⟨rfl, by omega, .inr hi⟩)
      simp [restorePair, Ne.symm h0, Ne.symm h1]
  · rfl

theorem loadSector_torn {k : SectorId} {x : Sector} (ht : x.isTorn = true) :
    loadSector k x = ((itemSpecs k).map ItemSpec.builtIn, .torn) := by
  simp [loadSector, ht]

theorem loadSector_defaulted {k : SectorId} {x : Sector} (ht : x.isTorn = false) (hm : x.matches = false) :
    loadSector k x = ((itemSpecs k).map ItemSpec.builtIn, .defaulted) := by
  simp [loadSector, ht, hm]

/-- A sector that is used: closed with matching check value and count (R169). -/
theorem loadSector_used {k : SectorId} {x : Sector} (ht : x.isTorn = false) (hm : x.matches = true) :
    loadSector k x = (crossCheck k (loadItems x 0 (itemSpecs k)),
      if (crossCheck k (loadItems x 0 (itemSpecs k))).any fun y => y.source == .corrected then .clamped else .valid) := by
  simp [loadSector, ht, hm]

/-- An item of a used sector: restored, or loaded from its home slot. -/
theorem loadSector_item {k : SectorId} {x : Sector} (ht : x.isTorn = false) (hm : x.matches = true) {i : Nat}
    {spec : ItemSpec} (hs : (itemSpecs k)[i]? = some spec) :
    (CrossRestores k (loadItems x 0 (itemSpecs k)) i → (loadSector k x).1[i]? = some ⟨spec.default, .corrected⟩) ∧
    (¬CrossRestores k (loadItems x 0 (itemSpecs k)) i →
      (loadSector k x).1[i]? = some (loadItem spec (slotContent x.slots i))) := by
  rw [loadSector_used ht hm]
  refine ⟨crossCheck_restored (length_loadItems ..) hs, fun hr => ?_⟩
  rw [crossCheck_other hr, loadItems_get, hs, Option.map_some, Nat.zero_add]

/-- The value loaded from a home slot: below, above or within the item's range (R169). -/
theorem loadItem_eq (spec : ItemSpec) (c : Option SlotContent) : loadItem spec c =
    match c with
    | some (.written v) =>
      if spec.read v < spec.lo then ⟨spec.lo, .corrected⟩
      else if spec.hi < spec.read v then ⟨spec.hi, .corrected⟩
      else ⟨spec.read v, .stored⟩
    | _ => ⟨spec.default, .default⟩ := by
  rcases c with _ | v | _
  case some.written =>
    dsimp only [loadItem, clampTo]
    split_ifs <;> first | rfl | omega
  all_goals rfl

theorem loadedStatus_iff (items : List Item) :
    ((if items.any fun y => y.source == .corrected then SectorStatus.clamped else .valid) = .clamped ↔
      ∃ y ∈ items, y.source = .corrected) ∧
    ((if items.any fun y => y.source == .corrected then SectorStatus.clamped else .valid) = .valid ↔
      ∀ y ∈ items, y.source ≠ .corrected) := by
  constructor <;> split <;> simp_all

/-! ## The slots of a sector in its form (R166) -/

theorem slotContent_mem {l : List (Nat × SlotContent)} {i : Nat} {c : SlotContent} (h : slotContent l i = some c) :
    (i, c) ∈ l := by
  induction l with
  | nil => contradiction
  | cons y ys ih =>
    simp only [slotContent] at h
    split at h
    · next heq =>
      obtain rfl := Option.some.inj h
      simp [← heq]
    · exact List.mem_cons_of_mem _ (ih h)

theorem Sector.mem_slots_iff {x : Sector} (hx : x.wf = true) {i : Nat} {c : SlotContent} :
    slotContent x.slots i = some c ↔ (i, c) ∈ x.slots := by
  refine ⟨slotContent_mem, fun h => ?_⟩
  rw [← Sector.slots_eq hx] at h
  obtain ⟨j, -, hj⟩ := List.mem_filterMap.mp h
  obtain ⟨d, hd, heq⟩ := Option.map_eq_some_iff.mp hj
  obtain ⟨rfl, rfl⟩ := Prod.mk.inj heq
  exact hd

theorem Sector.slot_le {x : Sector} (hx : x.wf = true) {y : Nat × SlotContent} (hy : y ∈ x.slots) : y.1 ≤ 30 := by
  simp only [Sector.wf, Bool.and_eq_true, List.all_eq_true, decide_eq_true_eq] at hx
  exact hx.2 y hy

theorem Sector.isTorn_iff {x : Sector} (hx : x.wf = true) : x.isTorn = true ↔
    x.clearing = true ∨ x.mark = .torn ∨ ∃ i, i ≤ 30 ∧ slotContent x.slots i = some .torn := by
  simp only [Sector.isTorn, Bool.or_eq_true, beq_iff_eq, List.any_eq_true, or_assoc]
  refine or_congr_right (or_congr_right ⟨?_, ?_⟩)
  · rintro ⟨⟨i, c⟩, hmem, rfl⟩
    exact ⟨i, Sector.slot_le hx hmem, (Sector.mem_slots_iff hx).mpr hmem⟩
  · rintro ⟨i, -, hi⟩
    exact ⟨_, (Sector.mem_slots_iff hx).mp hi, rfl⟩

/-- The value of a WRITTEN slot. -/
def writtenAt (x : Sector) (i : Nat) : Option Nat :=
  match slotContent x.slots i with
  | some (.written v) => some v.toNat
  | _ => none

/-- The value of a slot's content, if it is WRITTEN. -/
def SlotContent.value? : SlotContent → Option Nat
  | .written v => some v.toNat
  | .torn => none

theorem writtenAt_eq (x : Sector) (i : Nat) : writtenAt x i = (slotContent x.slots i).bind SlotContent.value? := by
  unfold writtenAt
  rcases slotContent x.slots i with _ | v | _ <;> rfl

/-- The values of the WRITTEN slots, in order (R166). -/
theorem writtenValues_eq {x : Sector} (hx : x.wf = true) :
    (writtenValues x).map BitVec.toNat = (List.range 31).filterMap (writtenAt x) :=
  calc (writtenValues x).map BitVec.toNat
      = x.slots.filterMap (fun y => y.2.value?) := by
        rw [writtenValues, List.map_filterMap]
        refine List.filterMap_congr fun y _ => ?_
        rcases y with ⟨n, v | _⟩ <;> rfl
    _ = ((List.range 31).filterMap fun i => (slotContent x.slots i).map fun c => (i, c)).filterMap
          (fun y => y.2.value?) := by rw [Sector.slots_eq hx]
    _ = _ := by
        rw [List.filterMap_filterMap]
        refine List.filterMap_congr fun i _ => ?_
        rw [writtenAt_eq]
        cases slotContent x.slots i <;> rfl

theorem foldl_add_half (l : List Half) (a : Half) :
    l.foldl (· + ·) a = a + BitVec.ofNat 16 (l.map BitVec.toNat).sum := by
  induction l generalizing a with
  | nil => simp
  | cons v l ih => simp [ih, BitVec.ofNat_add, BitVec.add_assoc]

theorem checkSum_eq {x : Sector} (hx : x.wf = true) :
    checkSum x = BitVec.ofNat 16 ((List.range 31).filterMap (writtenAt x)).sum := by
  rw [checkSum, foldl_add_half, writtenValues_eq hx]
  simp

theorem writtenValues_length {x : Sector} (hx : x.wf = true) :
    (writtenValues x).length = ((List.range 31).filterMap (writtenAt x)).length := by
  rw [← writtenValues_eq hx, List.length_map]

theorem Sector.matches_iff (x : Sector) :
    x.matches = true ↔ x.mark = .written (checkSum x) (writtenValues x).length := by
  unfold Sector.matches
  split
  · next heq => simp [heq]
  · next hnot => exact ⟨nofun, fun h => absurd h (hnot _ _)⟩

/-! ## The cross-item checks hold in every loaded sector (R53, R67) -/

/-- A loaded sector is its defaults, or the checked items of its slots (R169). -/
theorem loadSector_cases (k : SectorId) (x : Sector) :
    (loadSector k x).1 = (itemSpecs k).map ItemSpec.builtIn ∨
    (loadSector k x).1 = crossCheck k (loadItems x 0 (itemSpecs k)) := by
  by_cases ht : x.isTorn = true
  · exact .inl (by rw [loadSector_torn ht])
  · by_cases hm : x.matches = true
    · exact .inr (by rw [loadSector_used (by simpa using ht) hm])
    · exact .inl (by rw [loadSector_defaulted (by simpa using ht) (by simpa using hm)])

theorem crossCheck_speeds {items : List Item} (hlen : items.length = 15) :
    itemValue (crossCheck .s0 items) 13 < itemValue (crossCheck .s0 items) 14 := by
  simp only [crossCheck]
  split
  · assumption
  · simp [itemValue, restorePair, hlen]

theorem crossCheck_angles {items : List Item} (hlen : items.length = 22) :
    itemValue (crossCheck .s4 items) 0 + 300 < itemValue (crossCheck .s4 items) 1 := by
  simp only [crossCheck]
  split
  · assumption
  · simp [itemValue, restorePair, hlen]

/-- Settles O7: the sector's condition, then its items one by one, then the slots of its form. -/
theorem sectorsJudgedAtLoad : Obligations.SectorsJudgedAtLoad := by
  refine ⟨fun k x => ⟨loadSector_torn, loadSector_defaulted, fun ht hm => ?_⟩, fun k x ht hm => ?_, fun x hx => ?_,
    fun x => ?_⟩
  · have hstatus := loadSector_used (k := k) ht hm
    refine ⟨?_, ?_, fun i spec hs => ?_⟩
    · rw [hstatus]; exact (loadedStatus_iff _).1
    · rw [hstatus]; exact (loadedStatus_iff _).2
    · have hrange := itemSpecs_default_in_range k i spec hs
      obtain ⟨hrestored, hloaded⟩ := loadSector_item ht hm hs
      by_cases hr : CrossRestores k (loadItems x 0 (itemSpecs k)) i
      · exact ⟨_, hrestored hr, hrange.1, hrange.2, fun _ => rfl, fun v _ => nofun⟩
      · exact ⟨_, hloaded hr, loadItem_cases spec _ hrange⟩
  · intro item given restored i spec hs
    have hitem : ∀ i spec, (itemSpecs k)[i]? = some spec → loadItem spec (slotContent x.slots i) = item i spec :=
      fun i spec _ => loadItem_eq spec _
    have hgiven : ∀ i, itemValue (loadItems x 0 (itemSpecs k)) i = given i := fun i => by
      simp only [itemValue, given, loadItems_get, Nat.zero_add, Option.map_map]
      cases hspec : (itemSpecs k)[i]? with
      | none => rfl
      | some spec => simp [hitem i spec hspec]
    have hrestores : CrossRestores k (loadItems x 0 (itemSpecs k)) i ↔ restored i := by
      simp only [CrossRestores, hgiven, restored]
    obtain ⟨hrestored, hloaded⟩ := loadSector_item ht hm hs
    exact ⟨fun hr => hrestored (hrestores.mpr hr), fun hr => by rw [hloaded (mt hrestores.mp hr), hitem i spec hs]⟩
  · intro values
    refine ⟨fun i c => Sector.mem_slots_iff hx, Sector.isTorn_iff hx, checkSum_eq hx, writtenValues_length hx, ?_⟩
    rw [Sector.matches_iff, checkSum_eq hx, writtenValues_length hx]
    rfl
  · constructor
    · obtain h | h := loadSector_cases .s0 x <;> rw [h]
      · decide
      · exact crossCheck_speeds (length_loadItems ..)
    · obtain h | h := loadSector_cases .s4 x <;> rw [h]
      · decide
      · exact crossCheck_angles (length_loadItems ..)

end Sys2Proof.Machine
end

section
/-! PROOFS. The records of the calibration store: FETCH ACTIVE ITEM and FETCH STORE STATUS (R171). -/

namespace Sys2Proof.Machine

/-! ## FETCH ACTIVE ITEM -/

theorem SectorId.num_le (k : SectorId) : k.num ≤ 7 := by cases k <;> decide

theorem Hub.itemAt_num (h : Hub) (k : SectorId) {slot : Nat} (hs : slot < 32) :
    h.itemAt (32 * k.num + slot) = (h.store.active.get k)[slot]? := by
  rw [Hub.itemAt, Nat.mul_add_div (by decide), Nat.div_eq_of_lt hs, Nat.add_zero, SectorId.ofNum?_num,
    Nat.mul_add_mod, Nat.mod_eq_of_lt hs]
  rfl

/-- An item number is the sector times 32 plus the slot (R166, R171). -/
theorem Hub.itemAt_eq_some {h : Hub} {n : Nat} {x : Item} (hx : h.itemAt n = some x) :
    ∃ k slot, slot < 32 ∧ n = 32 * SectorId.num k + slot ∧ (h.store.active.get k)[slot]? = some x := by
  obtain ⟨k, hk, hslot⟩ := Option.bind_eq_some_iff.mp hx
  refine ⟨k, n % 32, Nat.mod_lt _ (by decide), ?_, hslot⟩
  rw [SectorId.num_of_ofNum? hk, Nat.div_add_mod]

theorem serveActiveItem_found {b : Byte} {x : Item} {h : Hub} (hx : h.itemAt b.toNat = some x) :
    serveActiveItem [b] h = (h, .done (b :: be2 x.value ++ be1 x.source.num)) := by
  simp [serveActiveItem, oneByte, hx, itemRecord]

theorem serveActiveItem_range {payload : List Byte} {h : Hub}
    (hx : payload.length ≠ 1 ∨ ∀ b, payload = [b] → h.itemAt b.toNat = none) :
    serveActiveItem payload h = (h, .refused .range []) := by
  rcases payload with _ | ⟨b, _ | ⟨c, cs⟩⟩
  · rfl
  · have hnone : h.itemAt b.toNat = none := by simpa using hx
    simp [serveActiveItem, oneByte, hnone]
  · rfl

@[simp] theorem Hub.judged_itemAt (q : Request) (h : Hub) (n : Nat) : (h.judged q).itemAt n = h.itemAt n := by
  simp [Hub.itemAt]

/-! ## The slots of a sector, counted by their states -/

/-- The state of a slot 0 to 31: EMPTY, WRITTEN or TORN (R171). -/
def Sector.stateAt (x : Sector) (i : Nat) : Nat :=
  if i = 31 then
    match x.mark with
    | .empty => 0
    | .written _ _ => 1
    | .torn => 2
  else
    match slotContent x.slots i with
    | none => 0
    | some (.written _) => 1
    | some .torn => 2

theorem Sector.stateAt_le (x : Sector) (i : Nat) : x.stateAt i ≤ 2 := by
  unfold Sector.stateAt
  split <;> split <;> decide

/-- The number of slots 0 to 31 in a state. -/
def Sector.slotsIn (x : Sector) (n : Nat) : Nat := (List.range 32).countP fun i => x.stateAt i == n

theorem countP_three_states {α : Type} {f : α → Nat} (l : List α) (hf : ∀ a, f a ≤ 2) :
    (l.countP fun a => f a == 0) + (l.countP fun a => f a == 1) + (l.countP fun a => f a == 2) = l.length := by
  induction l with
  | nil => rfl
  | cons a l ih =>
    have ha := hf a
    obtain h | h | h : f a = 0 ∨ f a = 1 ∨ f a = 2 := by omega
    all_goals simp [h]; omega

theorem Sector.slotsIn_sum (x : Sector) : x.slotsIn 0 + x.slotsIn 1 + x.slotsIn 2 = 32 :=
  (countP_three_states (List.range 32) x.stateAt_le).trans List.length_range

/-- In a sector of the store's form the list holds each slot 0 to 30 that is not EMPTY once. -/
theorem Sector.countP_slots {x : Sector} (hx : x.wf = true) (p : SlotContent → Bool) :
    (x.slots.countP fun y => p y.2) = (List.range 31).countP fun i => (slotContent x.slots i).any p := by
  conv_lhs => rw [← Sector.slots_eq hx]
  rw [List.countP_filterMap]
  refine List.countP_congr fun i _ => ?_
  cases slotContent x.slots i <;> simp

/-- The slots in a state other than EMPTY: those of the list, and the mark (R171). -/
theorem Sector.slotsIn_eq {x : Sector} (hx : x.wf = true) {n : Nat} (p : SlotContent → Bool)
    (hp : ∀ i, i < 31 → (x.stateAt i == n) = (slotContent x.slots i).any p) :
    x.slotsIn n = (x.slots.countP fun y => p y.2) + if x.stateAt 31 = n then 1 else 0 := by
  rw [Sector.slotsIn, List.range_succ, List.countP_append, Sector.countP_slots hx]
  congr 1
  · exact List.countP_congr fun i hi => by rw [hp i (List.mem_range.mp hi)]
  · simp [List.countP_singleton]

theorem Sector.countBytes_eq {x : Sector} (hx : x.wf = true) :
    x.countBytes = [BitVec.ofNat 8 (x.slotsIn 0), BitVec.ofNat 8 (x.slotsIn 1), BitVec.ofNat 8 (x.slotsIn 2)] := by
  have hmark1 : x.isClosed = true ↔ x.stateAt 31 = 1 := by
    rw [Sector.stateAt, if_pos rfl, Sector.isClosed]; cases x.mark <;> simp
  have hmark2 : x.mark = .torn ↔ x.stateAt 31 = 2 := by
    rw [Sector.stateAt, if_pos rfl]; cases x.mark <;> simp
  have hbelow : ∀ {i}, i < 31 → x.stateAt i = slotStateNum (slotContent x.slots i) := fun hi => by
    rw [Sector.stateAt, if_neg (by omega)]; rfl
  have hwritten : x.slotsIn 1 = (writtenValues x).length + if x.isClosed then 1 else 0 := by
    rw [Sector.slotsIn_eq hx (fun c => c.value?.isSome) fun i hi => ?_, writtenValues, List.length_filterMap_eq_countP]
    · simp only [hmark1]
      congr 1
      exact List.countP_congr fun y _ => by rcases y with ⟨i, v | _⟩ <;> simp [SlotContent.value?]
    · rw [hbelow hi]
      rcases slotContent x.slots i with _ | v | _ <;> rfl
  have htorn : x.slotsIn 2 = (x.slots.filter fun s => s.2 == .torn).length + if x.mark = .torn then 1 else 0 := by
    rw [Sector.slotsIn_eq hx (fun c => c == .torn) fun i hi => ?_, List.countP_eq_length_filter]
    · simp only [hmark2]
    · rw [hbelow hi]
      rcases slotContent x.slots i with _ | v | _ <;> simp [slotStateNum]
  have hempty : x.slotsIn 0 = 32 - x.slotsIn 1 - x.slotsIn 2 := by have := x.slotsIn_sum; omega
  rw [hempty, hwritten, htorn]
  simp only [Sector.countBytes, be1_natCast, List.cons_append, List.nil_append]

theorem Sector.isClosed_eq (x : Sector) : x.isClosed = (x.stateAt 31 == 1) := by
  rw [Sector.stateAt, if_pos rfl, Sector.isClosed]
  cases x.mark <;> rfl

/-- A sector's fields in the record (R171). -/
theorem Store.sectorBytes_eq {u : Store} {k : SectorId} (hx : (u.sectors.get k).wf = true) :
    u.sectorBytes k =
      [BitVec.ofNat 8 ((u.sectors.get k).slotsIn 0), BitVec.ofNat 8 ((u.sectors.get k).slotsIn 1),
        BitVec.ofNat 8 ((u.sectors.get k).slotsIn 2), if (u.sectors.get k).stateAt 31 == 1 then 1#8 else 0#8,
        if (u.sectors.get k).lock then 1#8 else 0#8, if (u.sectors.get k).clearing then 1#8 else 0#8,
        BitVec.ofNat 8 (u.statuses.get k).num] := by
  simp [Store.sectorBytes, Sector.countBytes_eq hx, Sector.isClosed_eq, noYes_eq, be1_natCast]

/-! ## FETCH STORE STATUS -/

/-- The operation shown: that of a read in a suspension, or the running one; absent where nothing runs (R171). -/
def Store.namedBytes (free : Nat) (u : Store) : List Byte :=
  match u.named with
  | some r => 1#8 :: runningBytes free r
  | none => [0#8, 0#8, 0#8, 0#8, 0#8]

theorem Hub.storeRecord_eq (free : Nat) (h : Hub) :
    h.storeRecord free = [if h.store.running = none then 0#8 else 1#8] ++ h.store.namedBytes free ++ h.store.clearBytes
      ++ [if h.store.shown.depot then 0#8 else 1#8] ++ halfBytes h.store.loads
      ++ SectorId.all.flatMap h.store.sectorBytes := by
  have hrunning : noYes h.store.running.isSome = [if h.store.running = none then 0#8 else 1#8] := by
    cases h.store.running <;> rfl
  have hdepot : yesNo h.store.shown.depot = [if h.store.shown.depot then 0#8 else 1#8] := by
    cases h.store.shown.depot <;> rfl
  rw [Hub.storeRecord, Store.namedBytes, hrunning, hdepot]
  cases h.store.named <;> rfl

theorem Hub.fetchStoreStatus_after {h : Hub} {q : Request} (depot : Bool) (ha : h.admits q.port .status = true)
    (hp : (h.port q.port).posted = none) (w : Between) :
    h.after w (.fetchStoreStatus q depot) =
      { (readPins (.fetchStoreStatus q depot) h).answered q 0x0B#8 (.done (h.storeRecord h.freeCount)) with
        freeCount := h.freeCount + 2 } := by
  have hrecord : ((h.readDepot depot).judged q).storeRecord h.freeCount = h.storeRecord h.freeCount := by
    simp [Hub.storeRecord]
  rw [Hub.after, Hub.fetch_taken q 0x0B#8 serveStoreStatus (by simpa [Hub.admits, Hub.holds] using ha) (by simpa using hp)]
  simp only [serveStoreStatus, Hub.judged_freeCount, Hub.readDepot_frame, hrecord]
  have hanswered : (readPins (.fetchStoreStatus q depot) h).answered q 0x0B#8 (.done (h.storeRecord h.freeCount)) =
      ((h.readDepot depot).judged q).reply q.port 0x0B#8 q.tag (.done (h.storeRecord h.freeCount)) :=
    (Hub.judged_reply q 0x0B#8 _ (h.readDepot depot)).symm
  rw [hanswered]
  rfl

/-- A byte of the running operation: what its order has, or a free value (R171; log entry 16). -/
theorem unstatedByte_or {α : Type} (x : Option α) (f : α → Nat) (free : Nat) :
    ∃ a : Byte, (x.map fun n => be1 (f n)).getD [Config.unstatedByte free] = [a] ∧
      ∀ n, x.map f = some n → a = BitVec.ofNat 8 n := by
  cases x with
  | none => exact ⟨_, rfl, nofun⟩
  | some y => exact ⟨_, be1_natCast _, by rintro _ ⟨⟩; rfl⟩

/-- What the record shows of a running operation: its order, and the sector and slot its order has (R171). -/
theorem runningBytes_shows (free : Nat) (r : RunningOp) :
    ∃ a b : Byte, runningBytes free r = [r.op.code, a, b, BitVec.ofNat 8 (portNum r.port)] ∧
      (∀ n, r.op.sector?.map SectorId.num = some n → a = BitVec.ofNat 8 n) ∧
      ∀ n, r.op.slot?.map id = some n → b = BitVec.ofNat 8 n := by
  obtain ⟨a, ha, hsector⟩ := unstatedByte_or r.op.sector? SectorId.num free
  obtain ⟨b, hb, hslot⟩ := unstatedByte_or r.op.slot? id (free + 1)
  refine ⟨a, b, ?_, hsector, hslot⟩
  have hb' : ((r.op.slot?.map fun n => be1 n).getD [Config.unstatedByte (free + 1)]) = [b] := by
    rw [← hb]; cases r.op.slot? <;> rfl
  rw [runningBytes, ha, hb', be1_natCast]
  rfl

theorem Store.clearBytes_clear {u : Store} {r : RunningOp} {k : SectorId} (hr : u.running = some r)
    (hk : r.op = .clear k) :
    u.clearBytes = [1#8, BitVec.ofNat 8 u.shown.progress, if u.read = none then 0#8 else 1#8] := by
  obtain ⟨op, port, elapsed, lock⟩ := r
  obtain rfl : op = .clear k := hk
  simp only [Store.clearBytes, hr, be1_natCast, noYes_eq]
  cases u.read <;> rfl

theorem Store.clearBytes_other {u : Store} (hr : ∀ r k, u.running = some r → r.op ≠ .clear k) :
    u.clearBytes = [0#8, 0#8, 0#8] := by
  unfold Store.clearBytes
  split
  · next k _ _ _ hrun => exact absurd rfl (hr _ k hrun)
  · rfl

/-! ## The record's own fields (R171) -/

theorem Hub.hubReset_shown (q : Request) (h : Hub) : (h.hubReset q).store.shown = h.store.shown :=
  Hub.hubReset_preserves (P := fun g => g.store.shown = h.store.shown) (fun _ _ _ _ hg => hg) (fun _ _ hg => hg)
    (fun _ _ hg => hg) q rfl

/-- No other command updates the record (R171). -/
theorem Hub.after_shown {c : Instr} {h : Hub} (hc : classOf c ≠ some .calibration)
    (hd : h.store.due = none ∨ completesStore c = false) (hp : c ≠ .powerOnReset)
    (hl : ∀ inputs, c ≠ .activeSetLoad inputs) (w : Between) : (h.after w c).store.shown = h.store.shown := by
  cases c
  case powerOnReset => exact absurd rfl hp
  case activeSetLoad x => exact absurd rfl (hl x)
  case hubReset q => exact Hub.hubReset_shown q h
  case rstLine => rfl
  case abandon q code =>
    exact Hub.exchangeLoaded_preserves (P := fun g => g.store.shown = h.store.shown) (fun _ _ _ _ hg => hg)
      (fun _ _ hg => hg) q code (fun _ _ hg => hg) rfl
  case storeReadCompletion | storeWriteCompletion | storeCloseCompletion | storeLockCompletion | blankTestCompletion
      | storeClearCompletion | applyCompletion =>
    obtain hd | hd := hd
    · exact congrArg (fun g => g.store.shown) (Hub.storeCompletion_not_due hd _ _)
    · exact Bool.noConfusion hd
  case storeRead | storeClear | storeWrite | storeClose | storeLock | blankTest | apply => exact absurd rfl hc
  all_goals exact congrArg Store.shown (Hub.after_store_of_untouched rfl w h)

/-- Settles O14: ACTIVE ITEM by its number, STORE STATUS part by part, and who updates it. -/
theorem storeRecordsCopied : Obligations.StoreRecordsCopied := by
  refine ⟨fun s q ha hp => ⟨fun k slot x hslot hpayload hx => ?_, fun hrange => ?_⟩, ?_, fun s t c hstep hc hd hp hl => ?_⟩
  · have hnum : (BitVec.ofNat 8 (32 * k.num + slot)).toNat = 32 * k.num + slot :=
      Nat.mod_eq_of_lt (by have := SectorId.num_le k; omega)
    have hserved := serveActiveItem_found (b := BitVec.ofNat 8 (32 * k.num + slot)) (x := x) (h := s.hub.judged q)
      (by rw [hnum, Hub.judged_itemAt, Hub.itemAt_num _ _ hslot, hx])
    refine exec_of_after ((Hub.fetch_answers ha hp (by rw [hpayload]; exact hserved)).trans ?_)
    cases x.source <;> rfl
  · refine exec_of_after (Hub.fetch_answers ha hp (serveActiveItem_range (hrange.imp_right fun hnone b hb => ?_)))
    rw [Hub.judged_itemAt]
    refine Option.eq_none_iff_forall_ne_some.mpr fun x hx => ?_
    obtain ⟨k, slot, hslot, hn, hget⟩ := Hub.itemAt_eq_some hx
    exact hnone k slot x hslot (by rw [hb, ← hn, BitVec.ofNat_toNat, BitVec.setWidth_eq]) hget
  · intro s q depot ha hp hwf sector
    refine ⟨s.hub.store.namedBytes s.hub.freeCount, s.hub.store.clearBytes, ?_, fun hr hread => ?_, fun r hr => ?_,
      fun r k => Store.clearBytes_clear, Store.clearBytes_other⟩
    · refine exec_of_after ((Hub.fetchStoreStatus_after depot ha hp _).trans ?_)
      rw [Hub.storeRecord_eq]
      have hsector : s.hub.store.sectorBytes = sector := funext fun k => by
        rw [Store.sectorBytes_eq (hwf k)]
        cases hst : s.hub.store.statuses.get k <;> simp only [sector, hst] <;> rfl
      rw [hsector]
    · simp [Store.namedBytes, Store.named, hr, hread]
    · obtain ⟨a, b, hbytes, hsector, hslot⟩ := runningBytes_shows s.hub.freeCount r
      have hnamed : s.hub.store.namedBytes s.hub.freeCount = 1#8 :: runningBytes s.hub.freeCount r := by
        simp [Store.namedBytes, Store.named, hr]
      obtain ⟨op, port, elapsed, lock⟩ := r
      cases op <;> exact ⟨a, b, hnamed.trans (congrArg _ hbytes), hsector, hslot⟩
  · obtain rfl := Host.Outcome.next.inj ((exec_eq ..).symm.trans hstep)
    exact Hub.after_shown hc hd hp hl _

end Sys2Proof.Machine
end

section
/-! PROOFS. Resets, the load, and the passing of time (R19, R32, R51, R69, R89, R108, R121, R138, R147, R156, R160, R164,
R165, R168, R169; log entries 1 to 3). -/

namespace Sys2Proof.Machine

/-! ## Resets -/

/-- What every reset leaves of the part: the units after reset, the queues empty, the store cut off; the rest is said
reset by reset (R158, R160, R164, R168). -/
structure Hub.ResetFrom (h g : Hub) : Prop where
  clock : g.clock = .atReset
  sensing : g.sensing = .atReset
  path : g.path = .atReset
  steering : g.steering = .atReset
  joints : g.joints = .atReset
  brake : g.brake = .atReset
  level : g.level = .atReset
  kneel : g.kneel = .atReset
  doors : g.doors = .atReset
  link : g.link = .atReset
  ports : g.ports = .fill .atReset
  events : g.events = .atReset g.events.routing
  sectors : g.store.sectors = h.store.sectors
  running : g.store.running = none
  read : g.store.read = none
  dir : g.pins.dir = h.pins.dir
  depot : g.pins.depot = h.pins.depot

theorem Hub.powerOn_resetFrom (h : Hub) : h.ResetFrom h.powerOn := by
  constructor <;> rfl

theorem Hub.warmReset_resetFrom (cut : Port → Option CutFrame) (h : Hub) : h.ResetFrom (h.warmReset cut) := by
  constructor <;> rfl

/-- The three kinds of reset, by the part after them (R158, R160). -/
theorem after_resetsPart {h : Hub} {c : Instr} (hr : resetsPart h c = true) (w : Between) :
    (c = .powerOnReset ∧ h.after w c = h.powerOn) ∨
    (c = .rstLine ∧ h.after w c = h.warmReset (Config.cutFrame h.freeCount)) ∨
    ∃ q, c = .hubReset q ∧ h.after w c = (h.answered q 0x33#8 (.done [])).warmReset (h.cutBut q.port) := by
  cases c <;> first
    | exact Bool.noConfusion hr
    | exact .inl ⟨rfl, rfl⟩
    | exact .inr (.inl ⟨rfl, rfl⟩)
    | exact .inr (.inr ⟨_, rfl, Hub.hubReset_taken hr⟩)

theorem after_resetFrom {h : Hub} {c : Instr} (hr : resetsPart h c = true) (w : Between) : h.ResetFrom (h.after w c) := by
  obtain ⟨-, he⟩ | ⟨-, he⟩ | ⟨q, -, he⟩ := after_resetsPart hr w <;> rw [he]
  · exact h.powerOn_resetFrom
  · exact h.warmReset_resetFrom _
  · have hreset := (h.answered q 0x33#8 (.done [])).warmReset_resetFrom (h.cutBut q.port)
    exact { hreset with }

/-- Settles O3: the values of `Hub.atPowerOn` for these units. -/
theorem resetState : Obligations.ResetState := by
  intro s c hr
  have hreset := after_resetFrom hr s.between
  refine ⟨_, exec_eq .., rfl, hreset.clock, hreset.sensing, hreset.path, fun p => ?_, fun p => ?_⟩
  · rw [Hub.port, hreset.ports]; cases p <;> rfl
  · rw [hreset.events]; cases p <;> exact ⟨rfl, rfl⟩

/-- Settles O4: the values of `Hub.atPowerOn` for these units. -/
theorem resetUnits : Obligations.ResetUnits := by
  intro s c hr
  have hreset := after_resetFrom hr s.between
  refine ⟨_, exec_eq .., rfl, ?_⟩
  simp only [Hub.axleSteer, Hub.axleBrake, Hub.circuit, Hub.door, hreset.steering, hreset.joints, hreset.brake,
    hreset.level, hreset.kneel, hreset.doors, hreset.link]
  refine ⟨rfl, rfl, rfl, fun x => by cases x <;> rfl, fun j => by cases j <;> rfl, rfl, rfl, rfl, rfl, rfl, rfl, rfl, rfl,
    rfl, rfl, rfl, rfl, rfl, rfl, rfl, rfl, rfl, rfl, rfl, rfl, fun k => by cases k <;> exact ⟨rfl, rfl, rfl, rfl, rfl, rfl, rfl⟩,
    fun c => by cases c <;> exact ⟨rfl, rfl, rfl, rfl, rfl, rfl, rfl, rfl⟩, fun i => by cases i <;> rfl, rfl, rfl, rfl, rfl,
    rfl, rfl, rfl, rfl, rfl, fun d => by cases d <;> exact ⟨rfl, rfl, rfl, rfl⟩, rfl, rfl, rfl, rfl, rfl,
    fun c => by cases c <;> rfl, fun k => by cases k <;> rfl, fun x => by cases x <;> rfl, fun j => by cases j <;> rfl,
    rfl, rfl, rfl, rfl⟩

theorem Hub.cutPins_dataOut (cut : Port → Option CutFrame) (h : Hub) (p : Port) :
    (h.cutPins cut).dataOut.get p = ((cut p).map (CutFrame.shiftOut (h.port p).pending)).getD (h.pins.dataOut.get p) := by
  simp [Hub.cutPins]

/-- Settles O5: what each kind of reset keeps, and the refused HUB RESET. -/
theorem resetKeepsStoreAndAccess : Obligations.ResetKeepsStoreAndAccess := by
  refine ⟨fun s c hr => ?_, fun s q ha hs => ?_⟩
  · have hreset := after_resetFrom hr s.between
    have hcut : ∀ p, ((Config.cutFrame s.hub.freeCount p).map (CutFrame.shiftOut (s.hub.port p).pending)).getD
        (s.hub.pins.dataOut.get p) = match Config.cutFrame s.hub.freeCount p with
          | none => s.hub.pins.dataOut.get p
          | some f => (s.hub.port p).pending.shiftOut f.before ++ List.replicate f.after 0x00#8 := fun p => by
      cases Config.cutFrame s.hub.freeCount p <;> rfl
    refine ⟨_, exec_eq .., hreset.sectors, hreset.running, hreset.read, ?_, ?_, hreset.dir, hreset.depot, ?_, ?_⟩
    · rintro rfl
      exact ⟨rfl, fun k => by cases k <;> rfl⟩
    · intro hc
      obtain ⟨rfl, -⟩ | ⟨rfl, -⟩ | ⟨q, rfl, he⟩ := after_resetsPart hr s.between
      · exact absurd rfl hc
      · exact ⟨rfl, rfl⟩
      · dsimp only; rw [he]; exact ⟨rfl, rfl⟩
    · intro p hp
      obtain ⟨rfl, he⟩ | ⟨rfl, he⟩ | ⟨q, rfl, he⟩ := after_resetsPart hr s.between <;> dsimp only <;> rw [he]
      · exact (Hub.cutPins_dataOut _ _ p).trans (hcut p)
      · exact (Hub.cutPins_dataOut _ _ p).trans (hcut p)
      · refine (Hub.cutPins_dataOut _ _ p).trans (Eq.trans ?_ (hcut p))
        have hne : p ≠ q.port := (hp q rfl).symm
        have hport : (s.hub.answered q 0x33#8 (.done [])).port p = s.hub.port p := by
          simp [Hub.answered, Hub.port, hne]
        have hdata : (s.hub.answered q 0x33#8 (.done [])).pins.dataOut.get p = s.hub.pins.dataOut.get p := by
          simp [Hub.answered, hne]
        rw [hport, hdata, Hub.cutBut, if_neg hne]
    · rintro q rfl
      obtain ⟨hq, -⟩ | ⟨hq, -⟩ | ⟨q', hq, he⟩ := after_resetsPart hr s.between
      · contradiction
      · contradiction
      · obtain rfl := Instr.hubReset.inj hq
        dsimp only
        rw [he]
        refine (Hub.cutPins_dataOut _ _ q.port).trans ?_
        rw [Hub.cutBut, if_pos rfl]
        simp [Hub.answered]
  · refine exec_of_after ((Hub.hubReset_refused (by simp [Hub.takesReset, ha, Hub.standing, hs])).trans ?_)
    exact Hub.order_of_service ha (serveHubReset_moving (by simpa [Hub.standing] using hs))

theorem Levelling.atReset_inv : Levelling.atReset.Inv where
  held i x hx := by cases i <;> contradiction
  filling c hc := by cases c <;> contradiction
  oneSlot i j x y hx := by cases i <;> contradiction
  queued e he := by contradiction
  waiting c hc := by cases c <;> contradiction
  oneEntry := .nil
  ordered := .nil
  cutFree _ i := by cases i <;> rfl
  served hc := by contradiction
  excluded c hc := by cases c <;> contradiction

theorem Hub.atPowerOn_doorInv : Hub.atPowerOn.DoorInv where
  lines d := by cases d <;> rfl
  permitLine := rfl
  granted d hd := by cases d <;> contradiction
  disabled d hd := by cases d <;> exact ⟨rfl, rfl, rfl⟩
  permit hl := by contradiction
  condition hl := by contradiction
  position hl := by contradiction
  open_halt hs := by contradiction
  kneeling hk := absurd rfl hk
  load hl := by contradiction
  before _ := ⟨rfl, rfl, rfl, rfl, rfl, fun d => by cases d <;> exact ⟨rfl, rfl, rfl, rfl⟩⟩

theorem Hub.atPowerOn_steerInv : Hub.atPowerOn.SteerInv where
  limits t := by cases t <;> decide
  bounded t x hx := by cases t <;> contradiction
  held t := by cases t <;> rfl
  enabled t := by cases t <;> rfl
  failed t := by cases t <;> decide
  shown t := by cases t <;> rfl
  before _ := ⟨rfl, fun t => by cases t <;> rfl⟩
  load hl := by contradiction

theorem Hub.atPowerOn_storeInv : Hub.atPowerOn.StoreInv where
  wf := reset_sectors_wf
  writable p k slot v hp := by cases p <;> contradiction
  waits p rq hp := by cases p <;> contradiction
  suspended r hr := by contradiction
  started r hr := by contradiction

/-- Settles O54: each invariant on the values of the power-on reset. -/
theorem invariantsAtReset : Obligations.InvariantsAtReset :=
  ⟨PathMemory.atReset_inv, EventUnit.atReset_inv _, Levelling.atReset_inv, fun c => by cases c <;> rfl,
    Hub.atPowerOn_doorInv, Hub.atPowerOn_steerInv, Hub.atPowerOn_storeInv⟩

/-! ## The load (R169) -/

/-- What the load does to the store: the set and the statuses, one more load, and the record (R169, R171). -/
theorem Hub.completeLoad_store (levels : PerDoor DoorLevels) (h : Hub) :
    (h.completeLoad levels).store = { h.store with
      active := if h.access.owed = true then h.installLoad.store.active
        else h.installLoad.store.active.set .s7 h.store.active.s7
      statuses := h.installLoad.store.statuses
      loads := h.store.loads + 1
      shown := ⟨h.pins.depot, h.store.progress⟩ } := by
  simp only [Hub.completeLoad, Hub.sampleDoors_frame, Hub.formRideTargets_frame, Hub.startLoads_frame,
    Hub.startTimers_frame, Hub.formAccess_frame, Hub.updateRecord_store, Hub.installReset_store]
  have hpins : ∀ g : Hub, g.installReset.pins = g.pins := fun g => by unfold Hub.installReset; split <;> rfl
  simp only [hpins]
  rfl

/-- The move permit is recomputed at the load, and the door condition without a trigger (R135, R136, R138). -/
theorem Hub.permitHolds_congr {h g : Hub} (hd : g.doors.doors = h.doors.doors) (hk : g.kneel = h.kneel)
    (hb : g.brake.halt = h.brake.halt) : g.permitHolds = h.permitHolds := by
  simp [Hub.permitHolds, Hub.doorsLocked, Hub.releasesWithdrawn, Hub.handlesAtRest, Hub.door, hd, hk, hb]

theorem Hub.doorsLocked_congr {h g : Hub} (hd : g.doors.doors = h.doors.doors) : g.doorsLocked = h.doorsLocked := by
  simp [Hub.doorsLocked, Hub.door, hd]

theorem Hub.releasesWithdrawn_congr {h g : Hub} (hd : g.doors.doors = h.doors.doors) :
    g.releasesWithdrawn = h.releasesWithdrawn := by
  simp [Hub.releasesWithdrawn, Hub.door, hd]

/-- The first sample of the doors (R124, R125, R138). -/
theorem Hub.sampleDoors_spec (levels : PerDoor DoorLevels) (h : Hub) :
    (∀ d, (h.sampleDoors levels).door d = { h.door d with
      raw := levels.get d, debounced := levels.get d, position := positionOf (levels.get d), enabled := h.maskEnables d }) ∧
    (h.sampleDoors levels).doors.changes = h.doors.changes ∧
    (h.sampleDoors levels).doors.condition =
      ((h.sampleDoors levels).doorsLocked && (h.sampleDoors levels).releasesWithdrawn) ∧
    (h.sampleDoors levels).doors.permit = (h.sampleDoors levels).permitHolds := by
  unfold Hub.sampleDoors
  extract_lets sampled
  refine ⟨fun d => ?_, ?_, ?_, ?_⟩
  · simp [Hub.door, sampled]
  · simp [sampled]
  · simp only [Hub.judgePermit_doors, Hub.onDoors_doors]
    exact (congrArg₂ (· && ·) (Hub.doorsLocked_congr (by simp)) (Hub.releasesWithdrawn_congr (by simp))).symm
  · rw [Hub.judgePermit_doors]
    exact (Hub.permitHolds_congr (by simp) (by simp) (by simp)).symm

/-- The access map and the routing table are formed where they are owed, from the set just loaded (R156, R164). -/
theorem Hub.formAccess_spec (h : Hub) :
    h.formAccess.access = (if h.access.owed then h.formedAccess else h.access) ∧
    h.formAccess.events.routing = (if h.access.owed then h.formedRouting else h.events.routing) := by
  unfold Hub.formAccess
  split <;> exact ⟨rfl, rfl⟩

theorem Hub.formedAccess_eq (h : Hub) : h.formedAccess =
    if h.store.statuses.s7 = .valid ∨ h.store.statuses.s7 = .clamped then
      { map := ⟨.ofInt 5 (h.item .s7 0), .ofInt 5 (h.item .s7 1), .ofInt 5 (h.item .s7 2)⟩
        lock := h.item .s7 3 = 1, source := .sector7, owed := false }
    else { map := builtInMap, lock := false, source := .builtIn, owed := false } := by
  have hused : h.sector7Used = true ↔ h.store.statuses.s7 = .valid ∨ h.store.statuses.s7 = .clamped := by
    simp [Hub.sector7Used]
  rw [Hub.formedAccess]
  simp only [hused]
  split <;> rfl

theorem Hub.formedRouting_get (h : Hub) (k : EventKind) : h.formedRouting.get k =
    if h.store.statuses.s7 = .valid ∨ h.store.statuses.s7 = .clamped then .ofInt 3 (h.item .s7 (3 + k.num))
    else builtInRouting.get k := by
  have hused : h.sector7Used = true ↔ h.store.statuses.s7 = .valid ∨ h.store.statuses.s7 = .clamped := by
    simp [Hub.sector7Used]
  rw [Hub.formedRouting]
  simp only [hused]
  split <;> simp

/-- The link's timer, chains and image are no part of the load, but for the lines (R136, R138). -/
theorem Hub.sampleDoors_link (levels : PerDoor DoorLevels) (h : Hub) :
    (h.sampleDoors levels).link = { h.link with lines := (h.sampleDoors levels).link.lines } := by
  simp only [Hub.sampleDoors, Hub.judgePermit]
  split <;> simp [Hub.drivePermit]

/-- Settles O6: the load's parts one after the other. -/
theorem loadInstallsActiveSet : Obligations.LoadInstallsActiveSet := by
  intro s inputs hdue
  obtain ⟨h, hh⟩ : ∃ h, h = s.hub.readDepot inputs.depot := ⟨_, rfl⟩
  have hafter : s.hub.after s.between (.activeSetLoad inputs) = h.completeLoad inputs.doors := by
    rw [hh]; exact if_pos hdue
  refine ⟨_, exec_of_after hafter, rfl, ?_⟩
  dsimp only
  obtain ⟨loaded, hloaded⟩ : ∃ g, g = (h.onClock fun u => { u with loaded := true, load := .stopped }).installReset.updateRecord :=
    ⟨_, rfl⟩
  obtain ⟨formed, hformed⟩ : ∃ g, g = loaded.formAccess.startTimers.startLoads.formRideTargets := ⟨_, rfl⟩
  obtain ⟨t, ht⟩ : ∃ t, t = h.completeLoad inputs.doors := ⟨_, rfl⟩
  have htf : t = formed.sampleDoors inputs.doors := by rw [ht, hformed, hloaded]; rfl
  have hstore := h.completeLoad_store inputs.doors
  rw [← ht] at hstore ⊢
  have hlstore : loaded.store = t.store := by simp [htf, hformed]
  have hitem : ∀ {g : Hub}, g.store = t.store → ∀ k n, g.item k n = t.item k n := fun hg => Hub.item_congr (by rw [hg])
  obtain ⟨hdoor, hchanges, hcondition, hpermit⟩ := formed.sampleDoors_spec inputs.doors
  have hlink := formed.sampleDoors_link inputs.doors
  rw [← htf] at hdoor hchanges hcondition hpermit hlink
  obtain ⟨haccess, hrouting⟩ := loaded.formAccess_spec
  have howed : loaded.access = s.hub.access := by simp [hloaded, hh]
  refine ⟨?_, fun k => ⟨?_, ?_⟩, by simp [hstore, hh], by simp [hstore, hh],
    by simp [hstore, hh], by simp [hstore, hh], by simp [hstore, hh, Hub.readDepot], ?_, ?_, ?_, ?_, ?_, fun d => ?_, ?_,
    hcondition, hpermit, ?_, fun k => ?_, ?_, ?_, ?_, ?_, ?_, ?_, ?_, ?_, ?_, ?_⟩
  · simp [htf, hformed, hloaded, hh]
  · rw [hstore]
    cases howed : s.hub.access.owed
    · cases k <;> simp [hh, howed, Hub.installLoad, Hub.sector]
      rfl
    · simp [hh, howed, Hub.installLoad, Hub.sector]
  · simp [hstore, hh, Hub.installLoad, Hub.sector]
  · simp [htf, hformed, hloaded, hh, Hub.startTimers, Timer.started]
  · simp [htf, hformed, hloaded, hh, Hub.startTimers, Timer.started]
  · simp [htf, hformed, hloaded, hh, Hub.startTimers, Timer.started]
  · have hnom : ∀ k, loaded.formAccess.startTimers.loadNom k = t.loadNom k := fun k => hitem (by simp [hlstore]) _ _
    have hmax : ∀ k, loaded.formAccess.startTimers.loadMax k = t.loadMax k := fun k => hitem (by simp [hlstore]) _ _
    have htbrake : t.brake = loaded.formAccess.startTimers.startLoads.brake := by simp [htf, hformed]
    rw [htbrake]
    simp only [Hub.startLoads, hnom, hmax]
    simp [Hub.startTimers, hloaded, hh, Timer.started, Hub.axleBrake]
  · have htrim : ∀ c, loaded.formAccess.startTimers.startLoads.trim c = t.trim c := fun c => hitem (by simp [hlstore]) _ _
    have htlevel : t.level = loaded.formAccess.startTimers.startLoads.formRideTargets.level := by simp [htf, hformed]
    rw [htlevel]
    simp only [Hub.formRideTargets, htrim]
    simp [Hub.startTimers, hloaded, hh, Timer.started, Hub.circuit]
    rfl
  · rw [hdoor, Hub.maskEnables, Hub.enableMask, hitem (g := formed) (by simp [hformed, hlstore])]
    have hbefore : formed.door d = s.hub.door d := by simp [Hub.door, hformed, hloaded, hh]
    rw [hbefore]
    rfl
  · simp [hchanges, hformed, hloaded, hh]
  · have htaccess : t.access = loaded.formAccess.access := by simp [htf, hformed]
    rw [htaccess, haccess, Hub.formedAccess_eq, howed, hlstore]
    simp only [hitem hlstore]
    cases s.hub.access.owed <;> rfl
  · have htrouting : t.events.routing = loaded.formAccess.events.routing := by
      rw [htf, (Hub.sampleDoors_emits _ _).routing, hformed]
      simp
    rw [htrouting, hrouting, howed]
    cases s.hub.access.owed
    · simp [hloaded, hh]
    · simp only [if_true, Hub.formedRouting_get, hlstore, hitem hlstore]
      rfl
  · simp [htf, hformed, hloaded, hh]
  · simp [htf, hformed, hloaded, hh]
  · simp [htf, hformed, hloaded, hh]
  · simp [htf, hformed, hloaded, hh, Hub.readDepot]
  · simp [htf, hformed, hloaded, hh]
  all_goals rw [hlink]; simp [hformed, hloaded, hh]

/-! ## Time (log entries 1 to 3) -/

/-- A timer that was just started, after a number of tenths (log entry 3). -/
theorem Timer.advance_iterate (period n e : Nat) (he : e ≤ period) :
    (Timer.advance period)^[n] (.running e) = .running (min period (e + n)) := by
  induction n with
  | zero => simp [he]
  | succ n ih =>
    rw [Function.iterate_succ_apply', ih]
    simp only [Timer.advance, Timer.running.injEq]
    omega

theorem Timer.due_iterate (period n : Nat) :
    ((Timer.advance period)^[n] (.running 0)).due period = decide (period ≤ n) := by
  rw [Timer.advance_iterate _ _ _ (Nat.zero_le _)]
  simp [Timer.due]

/-- A field on which the tick works by itself, after a number of ticks. -/
theorem Hub.tick_iterate {α : Type} {π : Hub → α} {f : α → α} (hf : ∀ h : Hub, π h.tick = f (π h)) (n : Nat) (h : Hub) :
    π (Hub.tick^[n] h) = f^[n] (π h) := by
  induction n generalizing h with
  | zero => rfl
  | succ n ih => rw [Function.iterate_succ_apply, ih, hf, Function.iterate_succ_apply]

/-- A timer of the part, due after its period and not before. -/
theorem Hub.tick_due {π : Hub → Timer} {period : Nat} (hf : ∀ h : Hub, π h.tick = (π h).advance period) (n : Nat) {h : Hub}
    (hr : π h = .running 0) : (π (Hub.tick^[n] h)).due period = decide (period ≤ n) := by
  rw [Hub.tick_iterate hf, hr, Timer.due_iterate]

theorem Hub.tick_timer (h : Hub) (d : Door) (i : DoorInput) :
    ((h.tick.door d).timers.get i) = ((h.door d).timers.get i).advance debounceTime := by
  cases d <;> cases i <;> rfl

/-- Within a millisecond its tenths are counted (R162). -/
theorem Clock.tick_within {u : Clock} (hs : u.sub = 0) {n : Nat} (hn : n ≤ 9) :
    (Clock.tick^[n] u).ms = u.ms ∧ (Clock.tick^[n] u).sub = n := by
  induction n with
  | zero => exact ⟨rfl, hs⟩
  | succ n ih =>
    obtain ⟨hms, hsub⟩ := ih (by omega)
    rw [Function.iterate_succ_apply']
    simp [Clock.tick, hsub, hms, show ¬9 ≤ n by omega]

/-- Ten ticks make a millisecond (R162). -/
theorem Clock.tick_ten {u : Clock} (hs : u.sub = 0) : (Clock.tick^[10] u).ms = u.ms + 1 ∧ (Clock.tick^[10] u).sub = 0 := by
  obtain ⟨hms, hsub⟩ := Clock.tick_within hs (Nat.le_refl 9)
  rw [Function.iterate_succ_apply']
  generalize Clock.tick^[9] u = v at hms hsub ⊢
  simp [Clock.tick, hsub, hms]

theorem Clock.tick_ms {u : Clock} (hs : u.sub = 0) (n : Nat) :
    (Clock.tick^[10 * n] u).ms = u.ms + BitVec.ofNat 32 n ∧ (Clock.tick^[10 * n] u).sub = 0 := by
  induction n with
  | zero => simp [hs]
  | succ n ih =>
    have hsplit : Clock.tick^[10 * (n + 1)] u = Clock.tick^[10] (Clock.tick^[10 * n] u) := by
      rw [← Function.iterate_add_apply]
      congr 1
      omega
    obtain ⟨hms, hsub⟩ := Clock.tick_ten ih.2
    rw [hsplit, hms, hsub, ih.1, BitVec.add_assoc]
    exact ⟨congrArg (u.ms + ·) (BitVec.ofNat_add n 1).symm, rfl⟩

/-- A running operation, after a number of tenths of work (R166, R167). -/
theorem RunningOp.tick_iterate (n : Nat) {r : RunningOp} (hr : r.elapsed ≤ r.op.duration) :
    RunningOp.tick^[n] r = { r with elapsed := min r.op.duration (r.elapsed + n) } := by
  induction n with
  | zero => simp [hr]
  | succ n ih =>
    rw [Function.iterate_succ_apply', ih]
    simp only [RunningOp.tick, RunningOp.mk.injEq, true_and, and_true]
    omega

/-- While no read is served, the running operation works (R167). -/
theorem Store.tick_free {u : Store} (hread : u.read = none) (n : Nat) :
    (Store.tick^[n] u).read = none ∧ (Store.tick^[n] u).running = u.running.map RunningOp.tick^[n] := by
  induction n with
  | zero => simp [hread]
  | succ n ih =>
    rw [Function.iterate_succ_apply', Store.tick]
    simp only [ih.1, ih.2, Option.map_map, true_and]
    exact congrArg (fun f => u.running.map f) (Function.iterate_succ' _ _).symm

/-- While a read is served, the suspended clear stands still (R155, R167). -/
theorem Store.tick_suspended {u : Store} {r : RunningOp} (hread : u.read = some r) (n : Nat) :
    (∃ r', (Store.tick^[n] u).read = some r') ∧ (Store.tick^[n] u).running = u.running := by
  induction n with
  | zero => exact ⟨⟨r, hread⟩, rfl⟩
  | succ n ih =>
    obtain ⟨⟨r', hr'⟩, hrunning⟩ := ih
    rw [Function.iterate_succ_apply', Store.tick]
    simp only [hr']
    exact ⟨⟨_, rfl⟩, hrunning⟩

theorem Store.tick_due {u : Store} {r : RunningOp} (hread : u.read = none) (hr : u.running = some r) (he : r.elapsed = 0)
    (n : Nat) : (Store.tick^[n] u).due.isSome = decide (r.op.duration ≤ n) := by
  obtain ⟨hread', hrunning'⟩ := Store.tick_free hread n
  rw [hr, Option.map_some, RunningOp.tick_iterate n (by omega)] at hrunning'
  simp only [Store.due, hread', hrunning', he]
  by_cases hn : r.op.duration ≤ n
  · simp [hn]
  · simp [hn]

theorem Hub.storeCompletion_other {h : Hub} {code : Byte} (hd : ∀ r, h.store.due = some r → r.op.code ≠ code)
    (depot : Bool) : h.storeCompletion code depot = h := by
  unfold Hub.storeCompletion
  split
  · next r hr => rw [if_neg (hd r hr)]
  · rfl

/-- Settles O2: the timers one by one, then the commands that find nothing due. -/
theorem idleStepsKeepTime : Obligations.IdleStepsKeepTime := by
  refine ⟨⟨fun s hs => by simp [step, hs], fun h n hs => ?_, fun h n => ?_, fun h => ?_⟩, fun s => ?_⟩
  · rw [show (Hub.tick^[10 * n] h).clock = Clock.tick^[10 * n] h.clock from Hub.tick_iterate (π := Hub.clock) (fun _ => rfl) _ _]
    exact (Clock.tick_ms hs n).1
  · refine ⟨Hub.tick_due (π := fun h => h.clock.load) (fun _ => rfl) n,
      Hub.tick_due (π := fun h => h.sensing.scanTimer) (fun _ => rfl) n,
      Hub.tick_due (π := fun h => h.sensing.speedTimer) (fun _ => rfl) n,
      Hub.tick_due (π := fun h => h.sensing.quiet) (fun _ => rfl) n,
      Hub.tick_due (π := fun h => h.steering.timer) (fun _ => rfl) n,
      Hub.tick_due (π := fun h => h.joints.timer) (fun _ => rfl) n,
      Hub.tick_due (π := fun h => h.brake.timer) (fun _ => rfl) n,
      Hub.tick_due (π := fun h => h.level.timer) (fun _ => rfl) n,
      Hub.tick_due (π := fun h => h.link.timer) (fun _ => rfl) n,
      fun d i => Hub.tick_due (π := fun h => (h.door d).timers.get i) (fun h => h.tick_timer d i) n,
      fun r hread hr he => ?_, fun r hread => ?_⟩
    · rw [show (Hub.tick^[n] h).store = Store.tick^[n] h.store from Hub.tick_iterate (π := Hub.store) (fun _ => rfl) _ _,
        Store.tick_due hread hr he]
      cases r.op <;> rfl
    · rw [show (Hub.tick^[n] h).store = Store.tick^[n] h.store from Hub.tick_iterate (π := Hub.store) (fun _ => rfl) _ _]
      exact (Store.tick_suspended hread n).2
  · intro next
    have hnext : ∀ period x, next period x = Timer.advance period x := fun period x => by cases x <;> rfl
    simp only [hnext]
    have hdoors : h.tick.doors = { h.doors with doors := .tab fun d => { h.door d with timers :=
        ⟨(h.door d).timers.closed.advance debounceTime, (h.door d).timers.lock.advance debounceTime,
          (h.door d).timers.handle.advance debounceTime⟩ } } := rfl
    have hstore : h.tick.store = { h.store with running := h.tick.store.running, read := h.tick.store.read } := by
      simp only [Hub.tick, Store.tick]
      split <;> rfl
    rw [← hdoors, ← hstore]
    rfl
  · have hidle : ∀ {i : Instr}, s.hub.after s.between i = s.hub → exec i s = .next s := fun h => exec_of_after h
    have hoff : ∀ {b : Bool} {h g : Hub}, b = false → (if b = true then h else g) = g := fun hb => by simp [hb]
    refine ⟨fun inputs hd => hidle (hoff hd), fun raw hd => hidle (hoff hd), fun input dir hl => hidle (hoff hl),
      fun dir hd => hidle (hoff hd), fun hd => hidle (hoff hd), fun hd => hidle (hoff hd), fun hd => hidle (hoff hd),
      fun hd => hidle (hoff hd), fun hd => hidle (hoff hd), fun hd => hidle (hoff hd), fun a hb => hidle (hoff hb),
      fun d i level hl => hidle (if_neg ?_), fun d i hd => hidle (hoff hd), fun depot => ?_,
      fun p bytes hwf => hidle (if_neg ?_), fun q kind code hcode => hidle (hoff ?_)⟩
    · rintro ⟨hloaded, hne⟩
      obtain hl | hl := hl
      · rw [hloaded] at hl; contradiction
      · exact hne hl
    · exact ⟨fun hd => hidle (Hub.storeCompletion_other hd depot), fun hd => hidle (Hub.storeCompletion_other hd depot),
        fun hd => hidle (Hub.storeCompletion_other hd depot), fun hd => hidle (Hub.storeCompletion_other hd depot),
        fun hd => hidle (Hub.storeCompletion_other hd depot), fun hd => hidle (Hub.storeCompletion_other hd depot),
        fun hd => hidle (Hub.storeCompletion_other hd depot)⟩
    · simpa [Instr.wf, ← Option.isSome_iff_ne_none] using hwf
    · simpa [Option.isSome_iff_ne_none, Option.isNone_iff_eq_none] using hcode

end Sys2Proof.Machine
end

section
/-! PROOFS. The records that the FETCH requests copy, field by field (R18, R54, R68, R88, R107, R120, R137, R146, R150,
R159). -/

namespace Sys2Proof.Machine

/-! ## Numbers and absent values in a record (R150) -/

theorem be2_eq (x : Int) : be2 x = be1 (x / 256) ++ be1 x := by
  simp only [be2, halfBytes, be1, List.cons_append, List.nil_append, List.cons.injEq, and_true]
  constructor <;> refine BitVec.eq_of_toNat_eq ?_ <;>
    simp only [BitVec.extractLsb'_toNat, BitVec.toNat_ofInt, Nat.shiftRight_eq_div_pow] <;> omega

theorem be4_eq (x : Int) : be4 x = be2 (x / 65536) ++ be2 x := by
  simp only [be4, wordBytes, be2, halfBytes, List.cons_append, List.nil_append, List.cons.injEq, and_true]
  refine ⟨?_, ?_, ?_, ?_⟩ <;> refine BitVec.eq_of_toNat_eq ?_ <;>
    simp only [BitVec.extractLsb'_toNat, BitVec.toNat_ofInt, Nat.shiftRight_eq_div_pow] <;> omega

theorem halfBytes_eq (w : Half) : halfBytes w = be2 w.toNat := by simp [be2]

theorem wordBytes_eq (w : Word) : wordBytes w = be4 w.toNat := by simp [be4]

/-- A field that may be absent: 0 and zeros, or 1 and the value's bytes. -/
def maybeBytes (width : Nat) : Option (List Byte) → List Byte
  | some bytes => be1 1 ++ bytes
  | none => List.replicate (width + 1) 0x00#8

theorem optBytes_eq {α : Type} {zero : α} {enc : α → List Byte} {width : Nat} (hw : (enc zero).length = width)
    (x : Option α) : optBytes zero enc x = maybeBytes width (x.map enc) := by
  cases x with
  | none => simp [optBytes, maybeBytes, List.replicate_succ, ← hw]
  | some y => rfl

theorem optInt_eq (x : Option Int) : optInt x = maybeBytes 2 (x.map be2) := optBytes_eq rfl x

theorem optName_eq {α : Type} (num : α → Nat) (x : Option α) : optName num x = maybeBytes 1 (x.map fun y => be1 (num y)) := by
  cases x <;> rfl

/-! ## FETCH as a copy -/

/-- A FETCH that is taken answers with its record and changes nothing but its port (R151, R165). -/
theorem exec_fetch_copying {s : State} {q : Request} {i : Instr} {code : Byte} {record : Hub → List Byte} {bytes : List Byte}
    (ha : s.hub.admits q.port .status = true) (hp : (s.hub.port q.port).posted = none)
    (hafter : s.hub.after s.between i = s.hub.fetch q code (copying record)) (hr : record (s.hub.judged q) = bytes) :
    exec i s = .next { s with hub := s.hub.answered q code (.done bytes) } := by
  refine exec_of_after (hafter.trans (Hub.fetch_answers ha hp ?_))
  rw [copying, hr]

theorem Midway.spend_eq (m : Option Midway) : (m.bind Midway.spend) = match m with
    | some ⟨n + 2, a4, periods⟩ => some ⟨n + 1, a4, periods⟩
    | _ => none := by
  rcases m with _ | ⟨_ | _ | n, a4, periods⟩ <;> rfl

theorem Causes.num_eq (x : Causes) :
    (x.num : Int) = (if x.height then 1 else 0) + (if x.valve then 2 else 0) + if x.chain then 4 else 0 := by
  rcases x with ⟨_ | _, _ | _, _ | _⟩ <;> rfl

/-- Settles O12: the record's fields against their encodings, one unit after the other. -/
theorem fetchCopiesItsRecord : Obligations.FetchCopiesItsRecord := by
  refine ⟨?_, fun s q ha hp => ?_⟩
  · intro s q ha hp h copy one two four second first maybe timer freeze standstill drive halt kneel mode target pair single
      steered shown joint braked slot levelled inScope levels door chain valve modulated actuated
    have hone : one = be1 := rfl
    have htwo : two = be2 := funext fun x => (be2_eq x).symm
    have hfour : four = be4 := funext fun x => by simp only [four, htwo]; exact (be4_eq x).symm
    have hsecond : second = noYes := funext fun b => by cases b <;> rfl
    have hfirst : first = yesNo := funext fun b => by cases b <;> rfl
    have hmaybe : maybe = maybeBytes := funext fun n => funext fun x => by cases x <;> rfl
    have htimer : timer = Count.bytes := funext fun x => by cases x <;> simp only [timer, htwo] <;> rfl
    have hfreeze : freeze = Freeze.bytes := funext fun x => by cases x <;> simp only [freeze, htwo] <;> rfl
    have hstandstill : standstill = fun x => be1 x.num := funext fun x => by cases x <;> rfl
    have hdrive : drive = fun x => be1 x.num := funext fun x => by cases x <;> rfl
    have hhalt : halt = fun x => be1 x.num := funext fun x => by cases x <;> rfl
    have hkneel : kneel = fun x => be1 x.num := funext fun x => by cases x <;> rfl
    have hmode : mode = fun x => be1 (axleModeNum x) := funext fun x => by cases x <;> rfl
    have htarget : target = fun x => be1 x.num := funext fun x => by cases x <;> rfl
    have hpair : pair = Pair.bytes := funext fun x => by
      simp only [pair, htwo, Pair.bytes]; cases x.state <;> rfl
    have hsingle : single = Single.bytes := funext fun x => by simp only [single, htwo, hsecond]; rfl
    have hsteered : steered = AxleSteer.bytes := funext fun x => by
      simp only [steered, hsecond, hmaybe, htwo, htimer, AxleSteer.bytes, optName_eq, optInt_eq, Option.map_map]
      rcases x with ⟨_, mode, cause, _, _, _, _, _, _, _⟩
      rcases mode with _ | m <;> rcases cause with _ | c
      · rfl
      · cases c <;> rfl
      · cases m <;> rfl
      · cases m <;> cases c <;> rfl
    have hjoint : joint = JointHold.bytes := funext fun x => by
      simp only [joint, htwo, hfour, hone, hsecond, hmaybe, htimer, JointHold.bytes, optInt_eq]
      cases x.state <;> rfl
    have hbraked : braked = AxleBrake.bytes := funext fun x => by
      simp only [braked, htwo, hsecond, hfreeze, hmode, AxleBrake.bytes]
      cases x.source <;> rfl
    have hslot : slot = slotBytes := funext fun x => by
      cases x with
      | none => rfl
      | some y => simp only [slot, htwo, hone, slotBytes, halfBytes_eq]
    have hlevelled : ∀ c, levelled (h.circuit c) = h.circuitBytes c := fun c => by
      simp only [levelled, htwo, hone, hmaybe, htarget, Hub.circuitBytes, optInt_eq, Causes.num_eq]
      cases (h.circuit c).action <;> cases (h.circuit c).direction <;> cases (h.circuit c).reason <;> rfl
    have hinScope : inScope = h.scopeBytes := funext fun c => by
      simp only [inScope, htwo, hone, hmaybe, htarget, Hub.scopeBytes, optInt_eq]
    have hlevels : levels = levelBytes := funext fun x => by simp only [levels, hsecond]; rfl
    have hdoor : door = h.doorBytes := funext fun d => by
      simp only [door, hsecond, hfirst, hlevels, Hub.doorBytes]
      cases (h.door d).position <;> cases (h.door d).release <;> rfl
    have hchain : chain = ChainHold.bytes := funext fun x => by simp only [chain, hsecond]; rfl
    have hvalve : valve = fun x => be1 (valveNum x) := funext fun x => by cases x <;> rfl
    have hmodulated : modulated = modBytes := funext fun x => by simp only [modulated, hmode, htwo]; rfl
    have hactuated : actuated = steerBytes := funext fun x => by simp only [actuated, hsecond, htwo]; rfl
    clear_value valve modulated actuated chain door levels inScope levelled slot braked joint steered single pair target
      mode kneel halt drive standstill freeze timer maybe first second four two one
    subst hvalve hmodulated hactuated hchain hdoor hlevels hinScope hslot hbraked hjoint hsteered hsingle hpair htarget
      hmode hkneel hhalt hdrive hstandstill hfreeze htimer hmaybe hfirst hsecond hfour htwo hone
    refine ⟨?_, ?_, ?_, ?_, ?_, ?_, ?_, ?_, ?_, ?_⟩
    · refine exec_fetch_copying ha hp rfl ?_
      show h.motionRecord = _
      simp only [Hub.motionRecord, wordBytes_eq]
      cases h.sensing.direction <;> rfl
    · exact exec_fetch_copying ha hp rfl rfl
    · refine exec_of_after ((Hub.fetch_taken q 0x04#8 serveSteer ha hp).trans ?_)
      cases hmid : h.steering.midway with
      | none =>
        have hserved : serveSteer (h.judged q) = (h.judged q, .done h.steerRecord) := by
          have : (h.judged q).steering.midway = none := by simpa using hmid
          simp only [serveSteer, this]; rfl
        have hrecord : h.steerRecord = be2 shown.1.toNat ++ (h.axleSteer .a3).bytes ++ shown.2.bytes := by
          simp [shown, hmid, Hub.steerRecord, Trailing.all, halfBytes_eq]
        have hkeeps : { h.steering with midway := none } = h.steering := by rw [← hmid]
        rw [hserved, hrecord]
        refine (Hub.judged_reply q _ _ h).trans ?_
        simp only [copy, hkeeps]
        rfl
      | some m =>
        have hserved : serveSteer (h.judged q) =
            ((h.judged q).onSteering fun u => { u with midway := m.spend }, .done (m.shown (h.judged q)).steerRecord) := by
          have : (h.judged q).steering.midway = some m := by simpa using hmid
          simp only [serveSteer, this]
        have hrecord : (m.shown (h.judged q)).steerRecord =
            be2 shown.1.toNat ++ (h.axleSteer .a3).bytes ++ shown.2.bytes := by
          simp [shown, hmid, Hub.steerRecord, Trailing.all, halfBytes_eq, Midway.shown, Hub.axleSteer]
        have hspend := Midway.spend_eq (some m)
        rw [hserved, hrecord]
        refine Eq.trans (b := (h.answered q 0x04#8 (.done _)).onSteering fun u => { u with midway := m.spend })
          (by rw [← Hub.judged_reply]; rfl) ?_
        have hmatch : m.spend = match some m with
            | some ⟨n + 2, a4, periods⟩ => some ⟨n + 1, a4, periods⟩
            | _ => none := hspend
        rw [hmatch]
        rfl
    · refine exec_fetch_copying ha hp rfl ?_
      show h.jointsRecord = _
      simp only [Hub.jointsRecord, halfBytes_eq]
      simp [Joint.all]
      rfl
    · refine exec_fetch_copying ha hp rfl ?_
      show h.brakeRecord = _
      have hseq : optBytes 0#8 (fun b => [b]) h.brake.lastSeq = maybeBytes 1 (h.brake.lastSeq.map fun b => [b]) :=
        optBytes_eq rfl _
      simp only [Hub.brakeRecord, halfBytes_eq, optName_eq, hseq]
      cases h.brake.status <;> rcases h.brake.lastPort with _ | _ | _ | _ <;> rfl
    · refine exec_fetch_copying ha hp rfl ?_
      show h.levelRecord = _
      have hlevelled' : (fun c => levelled (h.circuit c)) = h.circuitBytes := funext hlevelled
      simp only [Hub.levelRecord, halfBytes_eq, optInt_eq, hlevelled']
      have hslots : FillSlot.all.flatMap (fun i => slotBytes (h.level.slots.get i)) =
          slotBytes h.level.slots.f1 ++ (slotBytes h.level.slots.f2 ++ slotBytes h.level.slots.f3) := by
        simp [FillSlot.all, PerSlot.get]
      rw [hslots]
      cases h.level.cutCause <;> simp only [List.append_assoc] <;> rfl
    · refine exec_fetch_copying ha hp rfl ?_
      show h.kneelRecord = _
      simp only [Hub.kneelRecord, halfBytes_eq, optName_eq]
      rcases h.kneel.cause with _ | _ | _ <;> rcases h.kneel.before with _ | _ | _ | _ | _ | _ <;> rfl
    · refine exec_fetch_copying ha hp rfl ?_
      show h.doorsRecord = _
      simp only [Hub.doorsRecord, halfBytes_eq]
    · refine exec_fetch_copying ha hp rfl ?_
      show h.linkRecord = _
      have hvalves : ∀ x : Device ValveCmd Bool, x.bytes .hold true (fun v => be1 (valveNum v)) okBytes =
          be1 (valveNum x.image) ++ maybeBytes 1 (x.lastSent.map fun v => be1 (valveNum v))
            ++ maybeBytes 1 (x.echo.map fun v => be1 (valveNum v)) ++ noYes x.mismatch ++ maybeBytes 1 (x.status.map yesNo)
            ++ noYes x.fault := fun x => by
        rw [Device.bytes, optBytes_eq (width := 1) rfl, optBytes_eq (width := 1) rfl, optBytes_eq (width := 1) rfl]; rfl
      have hmodulators : ∀ x : Device ModCmd Bool, x.bytes ⟨.backup, 0⟩ true modBytes okBytes =
          modBytes x.image ++ maybeBytes 3 (x.lastSent.map modBytes) ++ maybeBytes 3 (x.echo.map modBytes)
            ++ noYes x.mismatch ++ maybeBytes 1 (x.status.map yesNo) ++ noYes x.fault := fun x => by
        rw [Device.bytes, optBytes_eq (width := 3) rfl, optBytes_eq (width := 3) rfl, optBytes_eq (width := 1) rfl]; rfl
      have hactuators : ∀ x : Device SteerCmd Half, x.bytes ⟨false, 0⟩ 0#16 steerBytes halfBytes =
          steerBytes x.image ++ maybeBytes 3 (x.lastSent.map steerBytes) ++ maybeBytes 3 (x.echo.map steerBytes)
            ++ noYes x.mismatch ++ maybeBytes 2 (x.status.map fun w => be2 w.toNat) ++ noYes x.fault := fun x => by
        rw [Device.bytes, optBytes_eq (width := 3) rfl, optBytes_eq (width := 3) rfl, optBytes_eq (width := 2) rfl,
          funext halfBytes_eq]
      have hdampers : ∀ x : Device Nat Bool, x.bytes 0 true (fun n : Nat => be1 n) okBytes =
          be1 x.image ++ maybeBytes 1 (x.lastSent.map fun n => be1 n) ++ maybeBytes 1 (x.echo.map fun n => be1 n)
            ++ noYes x.mismatch ++ maybeBytes 1 (x.status.map yesNo) ++ noYes x.fault := fun x => by
        rw [Device.bytes, optBytes_eq (width := 1) rfl, optBytes_eq (width := 1) rfl, optBytes_eq (width := 1) rfl]
        cases x.lastSent <;> cases x.echo <;> rfl
      simp only [Hub.linkRecord, hvalves, hmodulators, hactuators, hdampers]
      rw [halfBytes_eq]
    · refine exec_fetch_copying ha hp rfl ?_
      show h.accessRecord = _
      simp only [Hub.accessRecord]
      cases h.access.source <;> rfl
  · refine exec_fetch_copying ha hp rfl ?_
    have hclasses : be1 (s.hub.access.map.get q.port).toNat = [(s.hub.access.map.get q.port).setWidth 8] := by
      simp only [be1, List.cons.injEq, and_true]
      refine BitVec.eq_of_toNat_eq ?_
      simp only [BitVec.toNat_ofInt, BitVec.toNat_setWidth]
      omega
    simp only [Hub.portRecord, Hub.judged_port, hp, Hub.judged_access, hclasses]
    cases q.port <;> cases (s.hub.port _).slot <;> rfl

end Sys2Proof.Machine
end

section
/-! PROOFS. What the doors' and the kneel unit's operations leave of the link and of the levelling unit: a frame for the
parts of those two units. -/

namespace Sys2Proof.Machine

/-! ## The link without the doors' lines, and without the valves -/

/-- All of the link but the release lines and the move-permit line. -/
def Link.body (u : Link) : Link := { u with lines := { u.lines with release := .fill false, permit := false } }

/-- All of the link but those lines and the valves. -/
def Link.rest (u : Link) : Link := { u.body with valves := .fill (.atReset .hold) }

theorem Link.eq_of_body {u v : Link} (hb : u.body = v.body) :
    u = { v with lines := { v.lines with release := u.lines.release, permit := u.lines.permit } } := by
  obtain ⟨_, _, _, _, _, _, _, _, ⟨_, _, _⟩, _, _⟩ := u
  simpa [Link.body] using hb

theorem Link.eq_of_rest {u v : Link} (hb : u.rest = v.rest) :
    u = { v with
      valves := u.valves, lines := { v.lines with release := u.lines.release, permit := u.lines.permit } } := by
  obtain ⟨_, _, _, _, _, _, _, _, ⟨_, _, _⟩, _, _⟩ := u
  simpa [Link.rest, Link.body] using hb

theorem Link.valves_of_body {u v : Link} (hb : u.body = v.body) : u.valves = v.valves :=
  show u.body.valves = v.body.valves from congrArg Link.valves hb
theorem Link.rest_of_body {u v : Link} (hb : u.body = v.body) : u.rest = v.rest := by
  rw [Link.rest, hb, Link.rest]

/-! ## The levelling unit without targets, sources and hold reasons -/

/-- A circuit without what the kneel unit writes in it (R92, R102, R110). -/
def CircuitLevel.core (x : CircuitLevel) : CircuitLevel := { x with target := 0, source := .ride, reason := .none }

/-- The levelling unit without what the kneel unit writes in its circuits. -/
def Levelling.core (u : Levelling) : Levelling := { u with circuits := u.circuits.map CircuitLevel.core }

theorem Levelling.core_circuit {u v : Levelling} (hc : u.core = v.core) (c : Circuit) :
    (u.circuits.get c).core = (v.circuits.get c).core := by
  simpa [Levelling.core] using congrArg (fun w : Levelling => w.circuits.get c) hc

theorem Levelling.core_of_circuits {u v : Levelling} (hu : u = { v with circuits := u.circuits })
    (hc : ∀ c, (u.circuits.get c).core = (v.circuits.get c).core) : u.core = v.core := by
  rw [Levelling.core, Levelling.core, hu]
  congr 1
  exact PerCircuit.ext_get fun c => by simpa using hc c

/-! ## The operations that reach the link by the doors' lines alone -/

@[simp] theorem Hub.driveRelease_body (d : Door) (level : Bool) (h : Hub) : (h.driveRelease d level).link.body = h.link.body := rfl
@[simp] theorem Hub.drivePermit_body (level : Bool) (h : Hub) : (h.drivePermit level).link.body = h.link.body := rfl

@[simp] theorem Hub.judgePermit_body (h : Hub) : h.judgePermit.link.body = h.link.body := by
  unfold Hub.judgePermit
  split <;> simp

@[simp] theorem Hub.writeTargets_core (source : TargetSource) (h : Hub) : (h.writeTargets source).level.core = h.level.core := by
  refine Levelling.core_of_circuits rfl fun c => ?_
  simp only [Hub.writeTargets, Hub.onLevel, PerCircuit.get_tab]
  split <;> rfl

/-- A change of the kneel state, the entry into STOPPED apart, writes sources and hold reasons alone (R92, R102). -/
theorem Hub.levellingTakesKneel_core {new : KneelState} (hn : new ≠ .stopped) (old : KneelState) (h : Hub) :
    (h.levellingTakesKneel old new).level.core = h.level.core ∧ (h.levellingTakesKneel old new).link = h.link := by
  cases new
  case stopped => exact absurd rfl hn
  all_goals exact ⟨Levelling.core_of_circuits rfl fun c => by simp [Hub.levellingTakesKneel, Hub.onLevel, CircuitLevel.core], rfl⟩

theorem Hub.setKneel_core {new : KneelState} (hn : new ≠ .stopped) (h : Hub) :
    (h.setKneel new).level.core = h.level.core ∧ (h.setKneel new).link.body = h.link.body := by
  simp [Hub.setKneel, Hub.levellingTakesKneel_core hn]

@[simp] theorem Hub.autoRaise_core (h : Hub) :
    h.autoRaise.level.core = h.level.core ∧ h.autoRaise.link.body = h.link.body := by
  unfold Hub.autoRaise
  split
  · simp [Hub.setKneel_core (new := .raising) nofun]
  · exact ⟨rfl, rfl⟩

@[simp] theorem Hub.judgeCondition_core (h : Hub) :
    h.judgeCondition.level.core = h.level.core ∧ h.judgeCondition.link.body = h.link.body := by
  unfold Hub.judgeCondition
  dsimp only
  split
  · exact ⟨rfl, rfl⟩
  · split <;> simp

@[simp] theorem Hub.setRelease_core (d : Door) (new : Release) (h : Hub) :
    (h.setRelease d new).level.core = h.level.core ∧ (h.setRelease d new).link.body = h.link.body := by
  unfold Hub.setRelease
  split <;> simp [Hub.raiseRelease]

@[simp] theorem Hub.grantWaiting_core (h : Hub) :
    h.grantWaiting.level.core = h.level.core ∧ h.grantWaiting.link.body = h.link.body := by
  unfold Hub.grantWaiting
  exact ⟨foldl_keeps (fun g : Hub => g.level.core) _ (fun g d => by split <;> simp) _ _,
    foldl_keeps (fun g : Hub => g.link.body) _ (fun g d => by split <;> simp) _ _⟩

@[simp] theorem Hub.withdrawByMotion_core (h : Hub) (d : Door) :
    (h.withdrawByMotion d).level.core = h.level.core ∧ (h.withdrawByMotion d).link.body = h.link.body := by
  unfold Hub.withdrawByMotion
  (repeat' split) <;> simp

@[simp] theorem Hub.setHalt_core (new : HaltState) (h : Hub) :
    (h.setHalt new).level.core = h.level.core ∧ (h.setHalt new).link.body = h.link.body := by
  unfold Hub.setHalt
  extract_lets changed
  split <;> simp [changed]

@[simp] theorem Hub.requestApply_core (h : Hub) :
    h.requestApply.level.core = h.level.core ∧ h.requestApply.link.body = h.link.body := by
  unfold Hub.requestApply
  split <;> simp

@[simp] theorem Hub.judgeAutoHalt_core (h : Hub) :
    h.judgeAutoHalt.level.core = h.level.core ∧ h.judgeAutoHalt.link.body = h.link.body := by
  unfold Hub.judgeAutoHalt
  split <;> simp

@[simp] theorem Hub.enterStandstill_core (h : Hub) :
    h.enterStandstill.level.core = h.level.core ∧ h.enterStandstill.link.body = h.link.body := by
  unfold Hub.enterStandstill
  dsimp only
  split <;> simp

@[simp] theorem Hub.positionChange_core (d : Door) (h : Hub) :
    (h.positionChange d).level.core = h.level.core ∧ (h.positionChange d).link.body = h.link.body := by
  unfold Hub.positionChange
  dsimp only
  (repeat' split) <;> simp

@[simp] theorem Hub.handleActs_core (d : Door) (h : Hub) :
    (h.handleActs d).level.core = h.level.core ∧ (h.handleActs d).link.body = h.link.body := by
  unfold Hub.handleActs
  extract_lets fresh asked moved
  have hasked : asked.level.core = h.level.core ∧ asked.link.body = h.link.body := by simp [asked]
  have hmoved : moved.level.core = asked.level.core ∧ moved.link.body = asked.link.body := by
    simp only [moved]
    (repeat' split) <;> simp [Hub.raiseRelease]
  simp [hmoved, hasked]

@[simp] theorem Hub.handleChange_core (d : Door) (h : Hub) :
    (h.handleChange d).level.core = h.level.core ∧ (h.handleChange d).link.body = h.link.body := by
  unfold Hub.handleChange Hub.handleActive Hub.handleInactive
  (repeat' split) <;> simp

@[simp] theorem Hub.debounceExpiry_core (d : Door) (i : DoorInput) (h : Hub) :
    (h.debounceExpiry d i).level.core = h.level.core ∧ (h.debounceExpiry d i).link.body = h.link.body := by
  unfold Hub.debounceExpiry
  dsimp only
  (repeat' split) <;> simp

@[simp] theorem Hub.judgeAtSpeed_core (h : Hub) (d : Door) :
    (h.judgeAtSpeed d).level.core = h.level.core ∧ (h.judgeAtSpeed d).link.body = h.link.body := by
  unfold Hub.judgeAtSpeed
  split <;> simp

@[simp] theorem Hub.speedExpiry_core (dir : Direction) (h : Hub) :
    (h.speedExpiry dir).level.core = h.level.core ∧ (h.speedExpiry dir).link.body = h.link.body :=
  ⟨foldl_keeps (fun g : Hub => g.level.core) _ (by simp) _ _, foldl_keeps (fun g : Hub => g.link.body) _ (by simp) _ _⟩

@[simp] theorem Hub.quietExpiry_core (h : Hub) :
    h.quietExpiry.level.core = h.level.core ∧ h.quietExpiry.link.body = h.link.body := by
  unfold Hub.quietExpiry
  dsimp only
  split <;> simp

@[simp] theorem Hub.releaseDoor_core (mask : DoorMask) (h : Hub) (d : Door) :
    (h.releaseDoor mask d).level.core = h.level.core ∧ (h.releaseDoor mask d).link.body = h.link.body := by
  unfold Hub.releaseDoor
  split <;> simp

@[simp] theorem Hub.withdrawDoor_core (mask : DoorMask) (h : Hub) (d : Door) :
    (h.withdrawDoor mask d).level.core = h.level.core ∧ (h.withdrawDoor mask d).link.body = h.link.body := by
  unfold Hub.withdrawDoor
  split <;> simp

@[simp] theorem Hub.disableDoor_core (h : Hub) (d : Door) :
    (h.disableDoor d).level.core = h.level.core ∧ (h.disableDoor d).link.body = h.link.body := by
  simp [Hub.disableDoor]

@[simp] theorem Hub.installEnables_core (h : Hub) :
    h.installEnables.level.core = h.level.core ∧ h.installEnables.link.body = h.link.body := by
  simp [Hub.installEnables, foldl_keeps (fun g : Hub => g.level.core), foldl_keeps (fun g : Hub => g.link.body)]

@[simp] theorem Hub.sampleDoors_core (levels : PerDoor DoorLevels) (h : Hub) :
    (h.sampleDoors levels).level.core = h.level.core ∧ (h.sampleDoors levels).link.body = h.link.body := by
  simp [Hub.sampleDoors]

@[simp] theorem Hub.formRideTargets_core (h : Hub) : h.formRideTargets.level.core = h.level.core := by
  refine Levelling.core_of_circuits rfl fun c => ?_
  simp only [Hub.formRideTargets, Hub.onLevel, PerCircuit.get_tab]
  split <;> rfl

/-! ## The orders -/

@[simp] theorem serveHaltOn_core (h : Hub) :
    (serveHaltOn h).1.level.core = h.level.core ∧ (serveHaltOn h).1.link.body = h.link.body := by
  unfold serveHaltOn
  (repeat' split) <;> simp

@[simp] theorem serveHaltOff_core (h : Hub) :
    (serveHaltOff h).1.level.core = h.level.core ∧ (serveHaltOff h).1.link.body = h.link.body := by
  unfold serveHaltOff
  (repeat' split) <;> simp

@[simp] theorem serveKneel_core (h : Hub) :
    (serveKneel h).1.level.core = h.level.core ∧ (serveKneel h).1.link.body = h.link.body := by
  unfold serveKneel
  (repeat' split) <;> simp [Hub.setKneel_core (new := .lowering) nofun]

@[simp] theorem serveRaise_core (h : Hub) :
    (serveRaise h).1.level.core = h.level.core ∧ (serveRaise h).1.link.body = h.link.body := by
  unfold serveRaise
  split <;> simp [Hub.setKneel_core (new := .raising) nofun]

@[simp] theorem serveRelease_core (payload : List Byte) (h : Hub) :
    (serveRelease payload h).1.level.core = h.level.core ∧ (serveRelease payload h).1.link.body = h.link.body := by
  unfold serveRelease
  (repeat' split) <;>
    simp [foldl_keeps (fun g : Hub => g.level.core), foldl_keeps (fun g : Hub => g.link.body)]

@[simp] theorem serveWithdraw_core (payload : List Byte) (h : Hub) :
    (serveWithdraw payload h).1.level.core = h.level.core ∧ (serveWithdraw payload h).1.link.body = h.link.body := by
  unfold serveWithdraw
  split <;> simp [foldl_keeps (fun g : Hub => g.level.core), foldl_keeps (fun g : Hub => g.link.body)]

end Sys2Proof.Machine
end

section
/-! PROOFS. The fill slots, the fill queue and the action states: what the operations of the levelling unit keep of their
agreement (R90, R96, R97, R103, R105). -/

namespace Sys2Proof.Machine

/-! ## Slots, entries and action states by number -/

/-- The circuit that holds a slot. -/
def Levelling.holder (u : Levelling) (i : FillSlot) : Option Circuit := (u.slots.get i).map HeldSlot.circuit

/-- The number of slots a circuit holds. -/
def Levelling.holdings (u : Levelling) (c : Circuit) : Nat := (FillSlot.all.map u.holder).count (some c)

/-- The number of a circuit's entries in the fill queue. -/
def Levelling.entries (u : Levelling) (c : Circuit) : Nat := (u.queue.map QueueEntry.circuit).count c

/-- Slots and entries are those of the action states, and the queue stands in class order (R90, R96). -/
structure Levelling.Agrees (u : Levelling) : Prop where
  holds   : ∀ c, u.holdings c = if (u.circuits.get c).action = .fill then 1 else 0
  waits   : ∀ c, u.entries c = if (u.circuits.get c).action = .fillWait then 1 else 0
  ordered : u.queue.Pairwise fun a b => a.cls ≤ b.cls

/-- A circuit with a cause is EXCLUDED (R103). -/
def Levelling.CausesOut (u : Levelling) : Prop :=
  ∀ c, (u.circuits.get c).causes.any = true → (u.circuits.get c).action = .excluded

/-- No slot is held while the cut is in force (R97, R99). -/
def Levelling.CutFree (u : Levelling) : Prop := u.cut = true → ∀ i, u.slots.get i = none

/-- No slot is free beside a queue (R97). -/
def Levelling.Served (u : Levelling) : Prop := u.queue = [] ∨ ∀ i, u.slots.get i ≠ none

/-- The form of the unit between the steps of an operation. -/
structure Levelling.Form (u : Levelling) : Prop where
  agrees  : u.Agrees
  causes  : u.CausesOut
  cutFree : u.CutFree

theorem Levelling.holder_eq_some {u : Levelling} {i : FillSlot} {c : Circuit} :
    u.holder i = some c ↔ ∃ x, u.slots.get i = some x ∧ x.circuit = c := by
  simp [Levelling.holder]

theorem Levelling.holdings_eq (u : Levelling) (c : Circuit) : u.holdings c =
    (if u.holder .f1 = some c then 1 else 0) + (if u.holder .f2 = some c then 1 else 0)
      + if u.holder .f3 = some c then 1 else 0 := by
  simp only [Levelling.holdings, FillSlot.all, List.map_cons, List.map_nil, List.count_cons, List.count_nil, beq_iff_eq]
  omega

theorem Levelling.holdings_pos {u : Levelling} {c : Circuit} : 0 < u.holdings c ↔ ∃ i, u.holder i = some c := by
  rw [Levelling.holdings, List.count_pos_iff]
  simp

theorem Levelling.entries_pos {u : Levelling} {c : Circuit} : 0 < u.entries c ↔ ∃ e ∈ u.queue, e.circuit = c := by
  rw [Levelling.entries, List.count_pos_iff]
  simp

/-- The agreement says what the form's fields say one by one. -/
theorem Levelling.inv_iff (u : Levelling) : u.Inv ↔ u.Form ∧ (u.cut = false → u.Served) := by
  constructor
  · intro hu
    have hholds : ∀ c, u.holdings c = if (u.circuits.get c).action = .fill then 1 else 0 := fun c => by
      split
      · next hfill =>
        obtain ⟨i, x, hx, hxc⟩ := hu.filling c hfill
        have hsole : ∀ j, u.holder j = some c ↔ j = i := fun j => by
          refine ⟨fun hj => ?_, fun hj => hj ▸ Levelling.holder_eq_some.mpr ⟨x, hx, hxc⟩⟩
          obtain ⟨y, hy, hyc⟩ := Levelling.holder_eq_some.mp hj
          exact hu.oneSlot j i y x hy hx (hyc.trans hxc.symm)
        simp only [Levelling.holdings_eq, hsole]
        cases i <;> rfl
      · next hfill =>
        refine Nat.eq_zero_of_not_pos fun hpos => ?_
        obtain ⟨i, hi⟩ := Levelling.holdings_pos.mp hpos
        obtain ⟨x, hx, rfl⟩ := Levelling.holder_eq_some.mp hi
        exact hfill (hu.held i x hx)
    have hwaits : ∀ c, u.entries c = if (u.circuits.get c).action = .fillWait then 1 else 0 := fun c => by
      have hnodup : (u.queue.map QueueEntry.circuit).Nodup := List.pairwise_map.mpr hu.oneEntry
      split
      · next hwait => exact List.count_eq_one_of_mem hnodup (by simpa using hu.waiting c hwait)
      · next hwait =>
        refine Nat.eq_zero_of_not_pos fun hpos => ?_
        obtain ⟨e, he, rfl⟩ := Levelling.entries_pos.mp hpos
        exact hwait (hu.queued e he)
    exact ⟨⟨⟨hholds, hwaits, hu.ordered⟩, hu.excluded, hu.cutFree⟩, hu.served⟩
  · rintro ⟨⟨⟨hholds, hwaits, hordered⟩, hcauses, hcut⟩, hserved⟩
    refine ⟨fun i x hx => ?_, fun c hfill => ?_, fun i j x y hx hy hxy => ?_, fun e he => ?_, fun c hwait => ?_, ?_,
      hordered, hcut, hserved, hcauses⟩
    · by_contra hfill
      have hpos := Levelling.holdings_pos.mpr ⟨i, Levelling.holder_eq_some.mpr ⟨x, hx, rfl⟩⟩
      rw [hholds, if_neg hfill] at hpos
      exact absurd hpos (by decide)
    · have hpos : 0 < u.holdings c := by rw [hholds, if_pos hfill]; decide
      obtain ⟨i, hi⟩ := Levelling.holdings_pos.mp hpos
      obtain ⟨x, hx, hxc⟩ := Levelling.holder_eq_some.mp hi
      exact ⟨i, x, hx, hxc⟩
    · by_contra hij
      have hi := Levelling.holder_eq_some.mpr ⟨x, hx, rfl⟩
      have hj := Levelling.holder_eq_some.mpr ⟨y, hy, hxy.symm⟩
      have hle : u.holdings x.circuit ≤ 1 := by rw [hholds]; split <;> decide
      rw [Levelling.holdings_eq] at hle
      cases i <;> cases j <;> first | exact hij rfl | (simp only [hi, hj, if_true] at hle; omega)
    · by_contra hwait
      have hpos := Levelling.entries_pos.mpr ⟨e, he, rfl⟩
      rw [hwaits, if_neg hwait] at hpos
      exact absurd hpos (by decide)
    · have hpos : 0 < u.entries c := by rw [hwaits, if_pos hwait]; decide
      exact Levelling.entries_pos.mp hpos
    · refine List.pairwise_map.mp (List.nodup_iff_count_le_one.mpr fun c => ?_)
      have := hwaits c
      rw [Levelling.entries] at this
      rw [this]
      split <;> decide

/-! ## Slots and entries under an update -/

theorem Levelling.holdings_congr {u v : Levelling} (hs : v.slots = u.slots) (c : Circuit) : v.holdings c = u.holdings c := by
  have hholder : v.holder = u.holder := funext fun i => by rw [Levelling.holder, hs, Levelling.holder]
  rw [Levelling.holdings, hholder, Levelling.holdings]

theorem Levelling.entries_congr {u v : Levelling} (hq : v.queue = u.queue) (c : Circuit) : v.entries c = u.entries c := by
  simp [Levelling.entries, hq]

/-- A circuit's slots are released. -/
theorem Levelling.holdings_release {u v : Levelling} {c : Circuit}
    (hs : v.slots = u.slots.map fun x => x.filter fun s => !(s.circuit == c)) (c' : Circuit) :
    v.holdings c' = if c' = c then 0 else u.holdings c' := by
  have hholder : ∀ i, v.holder i = if u.holder i = some c then none else u.holder i := fun i => by
    rw [Levelling.holder, Levelling.holder, hs, PerSlot.get_map]
    cases u.slots.get i with
    | none => rfl
    | some x => by_cases hx : x.circuit = c <;> simp [hx]
  split
  · next heq =>
    refine Nat.eq_zero_of_not_pos fun hpos => ?_
    obtain ⟨i, hi⟩ := Levelling.holdings_pos.mp hpos
    rw [hholder] at hi
    split at hi <;> simp_all
  · next hne =>
    have hsame : ∀ i, v.holder i = some c' ↔ u.holder i = some c' := fun i => by
      rw [hholder]
      split <;> simp_all [Ne.symm hne]
    simp only [Levelling.holdings_eq, hsame]

/-- A slot is taken, freed, or changed. -/
theorem Levelling.holdings_set {u v : Levelling} {i : FillSlot} {y : Option HeldSlot} (hs : v.slots = u.slots.set i y)
    (c : Circuit) : v.holdings c + (if u.holder i = some c then 1 else 0)
      = u.holdings c + if y.map HeldSlot.circuit = some c then 1 else 0 := by
  have hholder : ∀ j, v.holder j = if j = i then y.map HeldSlot.circuit else u.holder j := fun j => by
    rw [Levelling.holder, hs, PerSlot.get_set]
    split <;> rfl
  simp only [Levelling.holdings_eq, hholder]
  cases i <;> simp <;> omega

/-- A circuit leaves the queue. -/
theorem Levelling.entries_leave {u v : Levelling} {c : Circuit}
    (hq : v.queue = u.queue.filter fun e => !(e.circuit == c)) (c' : Circuit) :
    v.entries c' = if c' = c then 0 else u.entries c' := by
  rw [Levelling.entries, Levelling.entries, hq]
  generalize u.queue = q
  induction q with
  | nil => simp
  | cons e q ih =>
    by_cases he : e.circuit = c
    · by_cases hc : c' = c <;> simp_all [Ne.symm]
    · by_cases hc : c' = c <;> simp_all [List.count_cons]

theorem tailOfClass_perm (x : QueueEntry) (q : List QueueEntry) : (tailOfClass x q).Perm (x :: q) := by
  have hsplit := List.filter_append_perm (fun e : QueueEntry => decide (e.cls ≤ x.cls)) q
  have hrest : (q.filter fun e => decide (x.cls < e.cls)) = q.filter fun e => !decide (e.cls ≤ x.cls) :=
    List.filter_congr fun e _ => (decide_eq_decide.mpr Nat.not_le.symm).trans (decide_not ..)
  rw [tailOfClass, hrest]
  exact List.perm_middle.trans (hsplit.cons x)

theorem headOfClass_perm (x : QueueEntry) (q : List QueueEntry) : (headOfClass x q).Perm (x :: q) := by
  have hsplit := List.filter_append_perm (fun e : QueueEntry => decide (e.cls < x.cls)) q
  have hrest : (q.filter fun e => decide (x.cls ≤ e.cls)) = q.filter fun e => !decide (e.cls < x.cls) :=
    List.filter_congr fun e _ => (decide_eq_decide.mpr Nat.not_lt.symm).trans (decide_not ..)
  rw [headOfClass, hrest]
  exact List.perm_middle.trans (hsplit.cons x)

theorem Levelling.entries_enter {u v : Levelling} {x : QueueEntry} (hq : v.queue.Perm (x :: u.queue)) (c : Circuit) :
    v.entries c = u.entries c + if x.circuit = c then 1 else 0 := by
  rw [Levelling.entries, (hq.map _).count_eq, List.map_cons, List.count_cons]
  simp [Levelling.entries]

theorem tailOfClass_ordered {q : List QueueEntry} (hq : q.Pairwise fun a b => a.cls ≤ b.cls) (x : QueueEntry) :
    (tailOfClass x q).Pairwise fun a b => a.cls ≤ b.cls := by
  refine List.pairwise_append.mpr ⟨hq.filter _, List.pairwise_cons.mpr ⟨fun e he => ?_, hq.filter _⟩, fun a ha b hb => ?_⟩
  · have := (List.mem_filter.mp he).2
    simp only [decide_eq_true_eq] at this
    omega
  · have hax := (List.mem_filter.mp ha).2
    simp only [decide_eq_true_eq] at hax
    rcases List.mem_cons.mp hb with rfl | hb
    · exact hax
    · have := (List.mem_filter.mp hb).2
      simp only [decide_eq_true_eq] at this
      omega

theorem headOfClass_ordered {q : List QueueEntry} (hq : q.Pairwise fun a b => a.cls ≤ b.cls) (x : QueueEntry) :
    (headOfClass x q).Pairwise fun a b => a.cls ≤ b.cls := by
  refine List.pairwise_append.mpr ⟨hq.filter _, List.pairwise_cons.mpr ⟨fun e he => ?_, hq.filter _⟩, fun a ha b hb => ?_⟩
  · have := (List.mem_filter.mp he).2
    simpa using this
  · have hax := (List.mem_filter.mp ha).2
    simp only [decide_eq_true_eq] at hax
    rcases List.mem_cons.mp hb with rfl | hb
    · exact Nat.le_of_lt hax
    · have := (List.mem_filter.mp hb).2
      simp only [decide_eq_true_eq] at this
      omega

/-! ## One circuit turns to another action state -/

theorem Levelling.Agrees.turn {u v : Levelling} (hu : u.Agrees) {c : Circuit} {a : Action}
    (hact : ∀ c', (v.circuits.get c').action = if c' = c then a else (u.circuits.get c').action)
    (hholds : ∀ c', v.holdings c' = if c' = c then (if a = .fill then 1 else 0) else u.holdings c')
    (hwaits : ∀ c', v.entries c' = if c' = c then (if a = .fillWait then 1 else 0) else u.entries c')
    (hordered : v.queue.Pairwise fun a b => a.cls ≤ b.cls) : v.Agrees := by
  refine ⟨fun c' => ?_, fun c' => ?_, hordered⟩
  · rw [hholds, hact]
    split
    · rfl
    · exact hu.holds c'
  · rw [hwaits, hact]
    split
    · rfl
    · exact hu.waits c'

theorem Levelling.CausesOut.turn {u v : Levelling} (hu : u.CausesOut) {c : Circuit} {a : Action}
    (hact : ∀ c', (v.circuits.get c').action = if c' = c then a else (u.circuits.get c').action)
    (hcauses : ∀ c', (v.circuits.get c').causes = (u.circuits.get c').causes)
    (ha : (u.circuits.get c).causes.any = true → a = .excluded) : v.CausesOut := by
  intro c' hany
  rw [hcauses] at hany
  rw [hact]
  split
  · next heq => exact ha (heq ▸ hany)
  · exact hu c' hany

/-- What an operation of the unit other than a grant does: it keeps the agreement, and fills no slot. -/
structure Levelling.Moves (u v : Levelling) : Prop where
  agrees : u.Agrees → v.Agrees
  causes : u.Agrees → u.CausesOut → v.CausesOut
  cut    : v.cut = u.cut
  free   : ∀ i, u.slots.get i = none → v.slots.get i = none

theorem Levelling.Moves.refl (u : Levelling) : u.Moves u := ⟨id, fun _ => id, rfl, fun _ => id⟩

theorem Levelling.Moves.trans {u v w : Levelling} (huv : u.Moves v) (hvw : v.Moves w) : u.Moves w :=
  ⟨hvw.agrees ∘ huv.agrees, fun ha hc => hvw.causes (huv.agrees ha) (huv.causes ha hc), hvw.cut.trans huv.cut,
    fun i hi => hvw.free i (huv.free i hi)⟩

theorem Levelling.Moves.form {u v : Levelling} (huv : u.Moves v) (hu : u.Form) : v.Form :=
  ⟨huv.agrees hu.agrees, huv.causes hu.agrees hu.causes,
    fun hcut i => huv.free i (hu.cutFree (huv.cut.symm.trans hcut) i)⟩

theorem Hub.moves_foldl {α : Type} {f : Hub → α → Hub} (hf : ∀ (h : Hub) (x : α), h.level.Moves (f h x).level) (l : List α)
    (h : Hub) : h.level.Moves (l.foldl f h).level := by
  induction l generalizing h with
  | nil => exact .refl _
  | cons x l ih => exact (hf h x).trans (ih _)

/-- The action states, the causes, the slots' circuits and the queue stay. -/
theorem Levelling.Agrees.of_same {u v : Levelling} (hu : u.Agrees)
    (hact : ∀ c, (v.circuits.get c).action = (u.circuits.get c).action) (hholder : ∀ i, v.holder i = u.holder i)
    (hqueue : v.queue = u.queue) : v.Agrees := by
  refine ⟨fun c => ?_, fun c => ?_, hqueue ▸ hu.ordered⟩
  · rw [hact, ← hu.holds, Levelling.holdings, funext hholder, Levelling.holdings]
  · rw [hact, ← hu.waits, Levelling.entries_congr hqueue]

theorem Levelling.CausesOut.of_same {u v : Levelling} (hu : u.CausesOut)
    (hact : ∀ c, (v.circuits.get c).action = (u.circuits.get c).action)
    (hcauses : ∀ c, (v.circuits.get c).causes = (u.circuits.get c).causes) : v.CausesOut := fun c hany => by
  rw [hact]
  exact hu c (hcauses c ▸ hany)

theorem Levelling.Moves.of_same {u v : Levelling}
    (hact : ∀ c, (v.circuits.get c).action = (u.circuits.get c).action)
    (hcauses : ∀ c, (v.circuits.get c).causes = (u.circuits.get c).causes) (hslots : v.slots = u.slots)
    (hqueue : v.queue = u.queue) (hcut : v.cut = u.cut) : u.Moves v :=
  ⟨fun hu => hu.of_same hact (fun i => by rw [Levelling.holder, hslots, Levelling.holder]) hqueue,
    fun _ hu => hu.of_same hact hcauses, hcut, fun i hi => by rw [hslots]; exact hi⟩

theorem Levelling.Moves.of_core {u v : Levelling} (hc : v.core = u.core) : u.Moves v := by
  have hslots : v.core.slots = u.core.slots := by rw [hc]
  have hqueue : v.core.queue = u.core.queue := by rw [hc]
  have hcut : v.core.cut = u.core.cut := by rw [hc]
  exact .of_same (fun c => (congrArg CircuitLevel.action (Levelling.core_circuit hc c) :))
    (fun c => (congrArg CircuitLevel.causes (Levelling.core_circuit hc c) :)) hslots hqueue hcut

theorem Hub.moves_onCircuit {g : CircuitLevel → CircuitLevel} (hact : ∀ x, (g x).action = x.action)
    (hcauses : ∀ x, (g x).causes = x.causes) (c : Circuit) (h : Hub) : h.level.Moves (h.onCircuit c g).level := by
  refine .of_same (fun c' => ?_) (fun c' => ?_) rfl rfl rfl <;>
    rw [Hub.onCircuit_level_circuits, PerCircuit.get_set] <;> split <;> simp_all

@[simp] theorem Hub.setAction_level (c : Circuit) (a : Action) (h : Hub) :
    (h.setAction c a).level = (h.onCircuit c fun x => { x with action := a }).level := by
  simp [Hub.setAction]

theorem Hub.setAction_circuit (c : Circuit) (a : Action) (h : Hub) (c' : Circuit) :
    (h.setAction c a).circuit c' = if c' = c then { h.circuit c with action := a } else h.circuit c' := by
  rw [Hub.circuit, Hub.setAction_level]
  exact Hub.circuit_onCircuit ..

/-- A circuit that holds no slot and has no entry turns to another such state. -/
theorem Hub.moves_setAction {c : Circuit} {a : Action} {h : Hub} (hold : (h.circuit c).action ≠ .fill)
    (hold' : (h.circuit c).action ≠ .fillWait) (ha : a ≠ .fill) (ha' : a ≠ .fillWait)
    (hout : (h.circuit c).causes.any = true → (h.circuit c).action = .excluded → a = .excluded) :
    h.level.Moves (h.setAction c a).level := by
  have hact : ∀ c', ((h.setAction c a).circuit c').action = if c' = c then a else (h.circuit c').action := fun c' => by
    rw [Hub.setAction_circuit]; split <;> rfl
  refine ⟨fun hu => hu.turn hact (fun c' => ?_) (fun c' => ?_) (by simpa using hu.ordered), fun _ hu => hu.turn hact
    (fun c' => ?_) fun hany => hout hany (hu c hany), by simp, by simp⟩
  · rw [Levelling.holdings_congr (u := h.level) (by simp)]
    split
    · next heq => subst heq; exact (hu.holds _).trans (if_neg hold)
    · rfl
  · rw [Levelling.entries_congr (u := h.level) (by simp)]
    split
    · next heq => subst heq; exact (hu.waits _).trans (if_neg hold')
    · rfl
  · show ((h.setAction c a).circuit c').causes = (h.circuit c').causes
    rw [Hub.setAction_circuit]
    split <;> simp_all

/-- A circuit that leaves its slot and its entry. -/
def Hub.drop (c : Circuit) (h : Hub) : Hub := (h.releaseSlot c).leaveQueue c

/-- The circuit that left slot and entry turns to HOLD or EXCLUDED. -/
theorem Levelling.Moves.drop {u v : Levelling} {c : Circuit} {a : Action} (ha : a ≠ .fill) (ha' : a ≠ .fillWait)
    (hact : ∀ c', (v.circuits.get c').action = if c' = c then a else (u.circuits.get c').action)
    (hcauses : ∀ c', (v.circuits.get c').causes = (u.circuits.get c').causes)
    (hslots : v.slots = u.slots.map fun x => x.filter fun s => !(s.circuit == c))
    (hqueue : v.queue = u.queue.filter fun e => !(e.circuit == c)) (hcut : v.cut = u.cut)
    (hout : (u.circuits.get c).action = .excluded → a = .excluded) : u.Moves v := by
  refine ⟨fun hu => hu.turn hact (fun c' => ?_) (fun c' => ?_) (hqueue ▸ hu.ordered.filter _), fun _ hu =>
    hu.turn hact hcauses fun hany => hout (hu c hany), hcut, fun i hi => by simp [hslots, hi]⟩
  · rw [Levelling.holdings_release hslots, if_neg ha]
  · rw [Levelling.entries_leave hqueue, if_neg ha']

theorem Hub.moves_toHold {c : Circuit} {h : Hub} (hold : (h.circuit c).action ≠ .excluded) :
    h.level.Moves (h.toHold c).level := by
  refine .drop (c := c) (a := .hold) nofun nofun (fun c' => ?_) (fun c' => ?_) (by simp [Hub.toHold, Hub.releaseSlot, Hub.leaveQueue])
    (by simp [Hub.toHold, Hub.releaseSlot, Hub.leaveQueue]) (by simp [Hub.toHold, Hub.releaseSlot, Hub.leaveQueue]) fun h => absurd h hold
  · show ((h.toHold c).circuit c').action = _
    rw [Hub.toHold, Hub.setAction_circuit]
    split <;> rfl
  · show ((h.toHold c).circuit c').causes = _
    rw [Hub.toHold, Hub.setAction_circuit]
    split
    · next heq => subst heq; rfl
    · rfl

theorem Hub.moves_takeOut (h : Hub) (c : Circuit) : h.level.Moves (h.takeOut c).level := by
  refine .drop (c := c) (a := .excluded) nofun nofun (fun c' => ?_) (fun c' => ?_) (by simp [Hub.takeOut, Hub.releaseSlot, Hub.leaveQueue])
    (by simp [Hub.takeOut, Hub.releaseSlot, Hub.leaveQueue]) (by simp [Hub.takeOut, Hub.releaseSlot, Hub.leaveQueue]) fun _ => rfl
  · show ((h.takeOut c).circuit c').action = _
    rw [Hub.takeOut, Hub.setAction_circuit, Hub.circuit_onCircuit]
    split
    · rfl
    · rw [Hub.circuit_onCircuit, if_neg ‹_›]; rfl
  · show ((h.takeOut c).circuit c').causes = _
    rw [Hub.takeOut, Hub.setAction_circuit, Hub.circuit_onCircuit]
    split
    · next heq => subst heq; simp; rfl
    · rw [Hub.circuit_onCircuit, if_neg ‹_›]; rfl

/-! ## Grants (R97) -/

theorem freeSlot_eq_none {slots : PerSlot (Option HeldSlot)} : freeSlot slots = none ↔ ∀ i, slots.get i ≠ none := by
  rw [freeSlot, List.find?_eq_none]
  simp

theorem freeSlot_free {slots : PerSlot (Option HeldSlot)} {i : FillSlot} (hi : freeSlot slots = some i) :
    slots.get i = none := by
  simpa using List.find?_some hi

/-- A grant gives the queue's head the lowest free slot; without one there is none to give, no one to take it, or the cut
is in force (R97). -/
theorem Hub.grantHead_cases (h : Hub) : (h.grantHead = h ∧ (h.level.cut = true ∨ h.level.Served)) ∨
    ∃ i e rest, h.level.cut = false ∧ freeSlot h.level.slots = some i ∧ h.level.queue = e :: rest ∧
      h.grantHead = (h.onLevel fun u =>
        { u with
          queue := rest
          slots := u.slots.set i (some ⟨e.circuit, 0, u.grants, e.cls⟩)
          grants := u.grants + 1 }).setAction e.circuit .fill := by
  unfold Hub.grantHead
  split
  · next i e rest hcut hfree hqueue => exact .inr ⟨i, e, rest, hcut, hfree, hqueue, rfl⟩
  · next hnone =>
    refine .inl ⟨rfl, ?_⟩
    by_contra hcase
    obtain ⟨hcut, hserved⟩ := not_or.mp hcase
    obtain ⟨hqueue, hslots⟩ := not_or.mp hserved
    obtain ⟨e, rest, hqueue⟩ := List.exists_cons_of_ne_nil hqueue
    cases hfree : freeSlot h.level.slots with
    | none => exact hslots (freeSlot_eq_none.mp hfree)
    | some i => exact hnone i e rest (by simpa using hcut) hfree hqueue

@[simp] theorem Hub.grantHead_cut (h : Hub) : h.grantHead.level.cut = h.level.cut := by
  obtain ⟨heq, -⟩ | ⟨i, e, rest, -, -, -, heq⟩ := h.grantHead_cases <;> rw [heq]
  simp

@[simp] theorem Hub.grant_cut (h : Hub) : h.grant.level.cut = h.level.cut := by simp [Hub.grant]

/-- The queue's head turns to FILL: it waited, so that no cause is its own. -/
theorem Hub.grantHead_form {h : Hub} (hu : h.level.Form) : h.grantHead.level.Form := by
  obtain ⟨heq, -⟩ | ⟨i, e, rest, hcut, hfree, hqueue, heq⟩ := h.grantHead_cases
  · rwa [heq]
  have hact : ∀ c, (h.grantHead.circuit c).action = if c = e.circuit then .fill else (h.circuit c).action := fun c => by
    rw [heq, Hub.setAction_circuit]
    split <;> rfl
  have hcauses : ∀ c, (h.grantHead.circuit c).causes = (h.circuit c).causes := fun c => by
    rw [heq, Hub.setAction_circuit]
    split
    · next hc => rw [hc]; rfl
    · rfl
  have hentries : h.level.entries e.circuit = if (h.circuit e.circuit).action = .fillWait then 1 else 0 := hu.agrees.waits _
  have hentry : (h.circuit e.circuit).action = .fillWait ∧ h.level.entries e.circuit = 1 := by
    by_cases hwait : (h.circuit e.circuit).action = .fillWait
    · exact ⟨hwait, by rw [hentries, if_pos hwait]⟩
    · rw [if_neg hwait, Levelling.entries, hqueue] at hentries
      simp at hentries
  have hholding : h.level.holdings e.circuit = 0 := by
    rw [hu.agrees.holds, if_neg]
    exact fun hfill => absurd (hfill.symm.trans hentry.1) (by decide)
  have hslots : h.grantHead.level.slots = h.level.slots.set i (some ⟨e.circuit, 0, h.level.grants, e.cls⟩) := by
    rw [heq]; simp
  have hrest : h.grantHead.level.queue = rest := by rw [heq]; simp
  refine ⟨hu.agrees.turn hact (fun c => ?_) (fun c => ?_) ?_, hu.causes.turn hact hcauses fun hany => ?_, fun hno => ?_⟩
  · have hset := Levelling.holdings_set hslots c
    have hnone : h.level.holder i = none := by simp [Levelling.holder, freeSlot_free hfree]
    by_cases hc : c = e.circuit
    · subst hc; simpa [hnone, hholding] using hset
    · simpa [hnone, Ne.symm hc, hc] using hset
  · have hone := hentry.2
    rw [Levelling.entries, hqueue, List.map_cons, List.count_cons] at hone
    rw [Levelling.entries, hrest, Levelling.entries, hqueue, List.map_cons, List.count_cons]
    by_cases hc : c = e.circuit
    · subst hc; simpa using hone
    · simp [hc, Ne.symm hc]
  · rw [hrest]
    exact (hqueue ▸ hu.agrees.ordered).of_cons
  · exact absurd (hentry.1.symm.trans (hu.causes _ hany)) (by decide)
  · simp [hcut] at hno

theorem Hub.grant_form {h : Hub} (hu : h.level.Form) : h.grant.level.Form :=
  Hub.grantHead_form (Hub.grantHead_form (Hub.grantHead_form hu))

/-- The number of free slots. -/
def Levelling.vacant (u : Levelling) : Nat := (FillSlot.all.map u.holder).count none

theorem Levelling.served_of_full {u : Levelling} (hu : u.vacant = 0) : u.Served := by
  refine .inr fun i hi => ?_
  refine List.count_eq_zero.mp hu ?_
  exact List.mem_map.mpr ⟨i, i.mem_all, by simp [Levelling.holder, hi]⟩

/-- Each grant serves the queue or takes a slot. -/
theorem Hub.grantHead_serves {h : Hub} (hcut : h.level.cut = false) :
    h.grantHead.level.Served ∨ h.grantHead.level.vacant + 1 = h.level.vacant := by
  obtain ⟨heq, hcase⟩ | ⟨i, e, rest, -, hfree, -, heq⟩ := h.grantHead_cases
  · rw [heq]
    exact .inl (hcase.resolve_left (by simp [hcut]))
  · have hslots : h.grantHead.level.slots = h.level.slots.set i (some ⟨e.circuit, 0, h.level.grants, e.cls⟩) := by
      rw [heq]; simp
    have hholder : ∀ j, h.grantHead.level.holder j = if j = i then some e.circuit else h.level.holder j := fun j => by
      rw [Levelling.holder, hslots, PerSlot.get_set]
      split <;> rfl
    have hnone : h.level.holder i = none := by simp [Levelling.holder, freeSlot_free hfree]
    right
    simp only [Levelling.vacant, FillSlot.all, List.map_cons, List.map_nil, List.count_cons, List.count_nil, hholder]
    cases i <;> simp [hnone] <;> omega

theorem Hub.grantHead_of_served {h : Hub} (hs : h.level.Served) : h.grantHead = h := by
  obtain ⟨heq, -⟩ | ⟨i, e, rest, -, hfree, hqueue, -⟩ := h.grantHead_cases
  · exact heq
  · obtain hnil | hfull := hs
    · simp [hqueue] at hnil
    · exact absurd (freeSlot_free hfree) (hfull i)

/-- The grants serve the queue or fill the three slots (R97). -/
theorem Hub.grant_served {h : Hub} (hcut : h.level.cut = false) : h.grant.level.Served := by
  have hkeeps : ∀ {g : Hub}, g.level.Served → g.grantHead.level.Served := fun {g} hg => by rwa [Hub.grantHead_of_served hg]
  obtain hfirst | hfirst := Hub.grantHead_serves hcut
  · exact hkeeps (hkeeps hfirst)
  obtain hsecond | hsecond := Hub.grantHead_serves (h := h.grantHead) (by simpa)
  · exact hkeeps hsecond
  obtain hthird | hthird := Hub.grantHead_serves (h := h.grantHead.grantHead) (by simpa)
  · exact hthird
  refine Levelling.served_of_full ?_
  have hthree : h.level.vacant ≤ 3 := List.count_le_length
  rw [Hub.grant]
  omega

/-! ## The entry into STOPPED (R102, R116) and the exclusion (R103) -/

/-- A circuit leaves action, slot and entry, or keeps them all. -/
structure Levelling.Drops (u v : Levelling) : Prop extends u.Moves v where
  queue : v.queue.Sublist u.queue

theorem Levelling.Drops.refl (u : Levelling) : u.Drops u := ⟨.refl u, .refl _⟩

theorem Levelling.Drops.trans {u v w : Levelling} (huv : u.Drops v) (hvw : v.Drops w) : u.Drops w :=
  ⟨huv.toMoves.trans hvw.toMoves, hvw.queue.trans huv.queue⟩

theorem Hub.drops_foldl {α : Type} {f : Hub → α → Hub} (hf : ∀ (h : Hub) (x : α), h.level.Drops (f h x).level) (l : List α)
    (h : Hub) : h.level.Drops (l.foldl f h).level := by
  induction l generalizing h with
  | nil => exact .refl _
  | cons x l ih => exact (hf h x).trans (ih _)

/-- Where no slot came free, a shorter queue is served as it was. -/
theorem Levelling.Served.of_sublist {u v : Levelling} (hu : u.Served) (hs : v.slots = u.slots)
    (hq : v.queue.Sublist u.queue) : v.Served := by
  obtain hnil | hfull := hu
  · exact .inl (List.sublist_nil.mp (hnil ▸ hq))
  · exact .inr fun i => hs ▸ hfull i

theorem Hub.toHold_queue (c : Circuit) (h : Hub) : (h.toHold c).level.queue = h.level.queue.filter fun e => !(e.circuit == c) := by
  simp [Hub.toHold, Hub.releaseSlot, Hub.leaveQueue]

theorem Hub.drops_stopCircuit (h : Hub) (c : Circuit) : h.level.Drops (h.stopCircuit c).level := by
  have hreason : ∀ g : Hub, g.level.Drops (g.onCircuit c fun x => { x with reason := .kneelStopped }).level := fun g =>
    ⟨Hub.moves_onCircuit (g := fun x => { x with reason := .kneelStopped }) (fun _ => rfl) (fun _ => rfl) c g, .refl _⟩
  unfold Hub.stopCircuit
  split
  · exact .refl _
  · exact hreason h
  all_goals
    next hact =>
      refine Levelling.Drops.trans ⟨Hub.moves_toHold (by simp [hact]), ?_⟩ (hreason _)
      rw [Hub.toHold_queue]
      exact List.filter_sublist

theorem Hub.drops_takeOut (h : Hub) (c : Circuit) : h.level.Drops (h.takeOut c).level := by
  refine ⟨h.moves_takeOut c, ?_⟩
  have hqueue : (h.takeOut c).level.queue = h.level.queue.filter fun e => !(e.circuit == c) := by
    simp [Hub.takeOut, Hub.releaseSlot, Hub.leaveQueue]
  rw [hqueue]
  exact List.filter_sublist

/-- Form and service, of the unit between its operations. -/
def Levelling.Sound (u : Levelling) : Prop := u.Form ∧ (u.cut = false → u.Served)

/-- A freed slot is granted at once, so that the unit is served again where it was (R97). -/
theorem Hub.grantIfFreed_form {before after : PerSlot (Option HeldSlot)} {h : Hub} (hu : h.level.Form)
    (hs : before = after → h.level.cut = false → h.level.Served) : (h.grantIfFreed before after).level.Form ∧
      ((h.grantIfFreed before after).level.cut = false → (h.grantIfFreed before after).level.Served) := by
  unfold Hub.grantIfFreed
  split
  · next heq => exact ⟨hu, hs heq⟩
  · exact ⟨Hub.grant_form hu, fun hcut => Hub.grant_served (by simpa using hcut)⟩

@[simp] theorem Hub.writeValves_level (h : Hub) : h.writeValves.level = h.level := rfl

theorem Hub.writeValves_shown (h : Hub) : h.writeValves.ValvesShown := fun c => by
  simp [Hub.writeValves, Hub.onLink, Hub.circuit]

/-- The valves and the action states stay. -/
theorem Hub.ValvesShown.of_core {h g : Hub} (hv : h.ValvesShown) (hlevel : g.level.core = h.level.core)
    (hlink : g.link.body = h.link.body) : g.ValvesShown := fun c => by
  have hact : (g.circuit c).action = (h.circuit c).action :=
    (congrArg CircuitLevel.action (Levelling.core_circuit hlevel c) :)
  rw [Link.valves_of_body hlink, hv c, hact]

/-- What the entry into STOPPED does to the levelling unit: the circuits in scope are stopped, and the freed slots
granted (R102, R97). -/
theorem Hub.levellingTakesStop_form (old : KneelState) {h : Hub} (hu : h.level.Form) :
    (h.levellingTakesKneel old .stopped).level.Form ∧
    ((h.level.cut = false → h.level.Served) → (h.levellingTakesKneel old .stopped).level.cut = false →
      (h.levellingTakesKneel old .stopped).level.Served) ∧
    (h.levellingTakesKneel old .stopped).level.cut = h.level.cut ∧ (h.levellingTakesKneel old .stopped).ValvesShown := by
  have hstopped : h.level.Drops (h.scope.foldl Hub.stopCircuit h).level := Hub.drops_foldl Hub.drops_stopCircuit _ h
  have hform := hstopped.form hu
  simp only [Hub.levellingTakesKneel, Hub.writeValves_level]
  refine ⟨?_, fun hs => ?_, ?_, Hub.writeValves_shown _⟩
  · unfold Hub.grantIfFreed
    split
    · exact hform
    · exact Hub.grant_form hform
  · exact (Hub.grantIfFreed_form hform fun heq hcut =>
      (hs (hstopped.cut.symm.trans hcut)).of_sublist heq.symm hstopped.queue).2
  · unfold Hub.grantIfFreed
    split <;> simp [hstopped.cut]

/-- A change of the kneel state keeps the unit in form (R102). -/
theorem Hub.setKneel_form (new : KneelState) {h : Hub} (hu : h.level.Form) :
    (h.setKneel new).level.Form ∧
    ((h.level.cut = false → h.level.Served) → (h.setKneel new).level.cut = false → (h.setKneel new).level.Served) ∧
    (h.setKneel new).level.cut = h.level.cut ∧ (h.ValvesShown → (h.setKneel new).ValvesShown) := by
  by_cases hn : new = .stopped
  · subst hn
    obtain ⟨g, hlevel, hg⟩ : ∃ g : Hub, g.level = h.level ∧
        (h.setKneel .stopped).level = (g.levellingTakesKneel h.kneel.state .stopped).level ∧
        (h.setKneel .stopped).link.body = (g.levellingTakesKneel h.kneel.state .stopped).link.body :=
      ⟨(h.onKneel fun u => { u with state := .stopped }).raise .kneelState 0 KneelState.stopped.num, by simp,
        by simp [Hub.setKneel]⟩
    obtain ⟨hform, hserved, hcut, hvalves⟩ := Hub.levellingTakesStop_form h.kneel.state (hlevel ▸ hu)
    rw [hg.1]
    rw [hlevel] at hserved hcut
    exact ⟨hform, hserved, hcut, fun _ => hvalves.of_core (by rw [hg.1]) hg.2⟩
  · obtain ⟨hcore, hbody⟩ := Hub.setKneel_core hn h
    have hmoves : h.level.Moves (h.setKneel new).level := .of_core hcore
    have hslots : (h.setKneel new).level.core.slots = h.level.core.slots := by rw [hcore]
    have hqueue : (h.setKneel new).level.core.queue = h.level.core.queue := by rw [hcore]
    exact ⟨hmoves.form hu, fun hs hcut => (hs (hmoves.cut.symm.trans hcut)).of_sublist hslots (hqueue ▸ .refl _),
      hmoves.cut, fun hv => hv.of_core hcore hbody⟩

theorem Hub.stopKneel_form (cause : StopCause) (c : Option Circuit) {h : Hub} (hu : h.level.Form) :
    (h.stopKneel cause c).level.Form ∧
    ((h.level.cut = false → h.level.Served) → (h.stopKneel cause c).level.cut = false → (h.stopKneel cause c).level.Served) ∧
    (h.stopKneel cause c).level.cut = h.level.cut ∧ (h.ValvesShown → (h.stopKneel cause c).ValvesShown) := by
  unfold Hub.stopKneel
  split
  case h_1 | h_2 | h_3 => exact Hub.setKneel_form .stopped (h := h.onKneel _) hu
  all_goals exact ⟨hu, id, rfl, id⟩

/-- What a fold of takings out does to the action states. -/
theorem Hub.takeOut_circuit (h : Hub) (c c' : Circuit) : ((h.takeOut c).circuit c').action =
      (if c' = c then .excluded else (h.circuit c').action) ∧
    ((h.takeOut c).circuit c').causes = (h.circuit c').causes := by
  rw [Hub.takeOut, Hub.setAction_circuit]
  split
  · next heq => subst heq; exact ⟨rfl, by rw [Hub.circuit_onCircuit, if_pos rfl]; rfl⟩
  · next hne => rw [Hub.circuit_onCircuit, if_neg hne]; exact ⟨rfl, rfl⟩

theorem Hub.foldl_takeOut_circuit (cs : List Circuit) (h : Hub) (c : Circuit) :
    ((cs.foldl Hub.takeOut h).circuit c).action = (if c ∈ cs then .excluded else (h.circuit c).action) ∧
    ((cs.foldl Hub.takeOut h).circuit c).causes = (h.circuit c).causes := by
  induction cs generalizing h with
  | nil => simp
  | cons d cs ih =>
    obtain ⟨hact, hcauses⟩ := h.takeOut_circuit d c
    rw [List.foldl_cons, (ih _).1, (ih _).2, hact, hcauses]
    by_cases hc : c = d <;> simp [hc]

/-- A cause is marked or cleared on circuits. -/
theorem Hub.foldl_causes_circuit (g : Causes → Causes) (hg : ∀ x, g (g x) = g x) (cs : List Circuit) (h : Hub) (c : Circuit) :
    (cs.foldl (fun h c => h.onCircuit c fun x => { x with causes := g x.causes }) h).circuit c =
      if c ∈ cs then { h.circuit c with causes := g (h.circuit c).causes } else h.circuit c := by
  induction cs generalizing h with
  | nil => simp
  | cons d cs ih =>
    rw [List.foldl_cons, ih, Hub.circuit_onCircuit]
    by_cases hd : c = d
    · subst hd
      by_cases hmem : c ∈ cs <;> simp [hmem, hg]
    · simp [hd]

theorem Hub.foldl_onCircuit_level (g : Circuit → CircuitLevel → CircuitLevel) (cs : List Circuit) (h : Hub) :
    (cs.foldl (fun h c => h.onCircuit c (g c)) h).level =
      { h.level with circuits := (cs.foldl (fun h c => h.onCircuit c (g c)) h).level.circuits } := by
  induction cs generalizing h with
  | nil => rfl
  | cons d cs ih =>
    rw [List.foldl_cons, ih]
    rfl

/-- What the hand-over of newly EXCLUDED circuits to the kneel unit keeps (R116). -/
theorem Hub.handed_form (cs : List Circuit) {h : Hub} (hu : h.level.Form) :
    let g := cs.foldl (fun h c => if h.inScope c then h.stopKneel .exclusion (some c) else h) h
    g.level.Form ∧ ((h.level.cut = false → h.level.Served) → g.level.cut = false → g.level.Served) ∧
      g.level.cut = h.level.cut := by
  induction cs generalizing h with
  | nil => exact ⟨hu, id, rfl⟩
  | cons c cs ih =>
    simp only [List.foldl_cons]
    split
    · obtain ⟨hform, hserved, hcut, -⟩ := Hub.stopKneel_form .exclusion (some c) hu
      obtain ⟨hform', hserved', hcut'⟩ := ih hform
      exact ⟨hform', hserved' ∘ hserved, hcut'.trans hcut⟩
    · exact ih hu

/-- The unit with a cause marked and its circuits taken out, before the kneel unit is told (R103). -/
def Hub.outOf (cs : List Circuit) (add : Causes → Causes) (h : Hub) : Hub :=
  let newly := cs.filter fun c => !((h.circuit c).action == .excluded)
  let marked := cs.foldl (fun h c => h.onCircuit c fun x => { x with causes := add x.causes }) h
  newly.foldl Hub.takeOut marked

theorem Hub.outOf_form (cs : List Circuit) {add : Causes → Causes} (hadd : ∀ x, add (add x) = add x) {h : Hub}
    (hform : h.level.Form) : (h.outOf cs add).level.Form ∧ (h.outOf cs add).level.cut = h.level.cut ∧
      (h.outOf cs add).level.queue.Sublist h.level.queue := by
  unfold Hub.outOf
  extract_lets newly marked
  have hmarked : ∀ c, marked.circuit c =
      if c ∈ cs then { h.circuit c with causes := add (h.circuit c).causes } else h.circuit c :=
    Hub.foldl_causes_circuit add hadd cs h
  have hkept : marked.level = { h.level with circuits := marked.level.circuits } := Hub.foldl_onCircuit_level _ cs h
  have hslots : marked.level.slots = h.level.slots := by rw [hkept]
  have hqueue : marked.level.queue = h.level.queue := by rw [hkept]
  have hcut : marked.level.cut = h.level.cut := by rw [hkept]
  have hact : ∀ c, (marked.circuit c).action = (h.circuit c).action := fun c => by
    rw [hmarked]
    split <;> rfl
  have hdrops : marked.level.Drops (newly.foldl Hub.takeOut marked).level := Hub.drops_foldl Hub.drops_takeOut newly marked
  refine ⟨⟨hdrops.agrees (hform.agrees.of_same hact (fun i => by rw [Levelling.holder, hslots, Levelling.holder]) hqueue),
    fun c hany => ?_, fun hc i => ?_⟩, hdrops.cut.trans hcut, hqueue ▸ hdrops.queue⟩
  · obtain ⟨haction, hcauses⟩ := Hub.foldl_takeOut_circuit newly marked c
    have hany' : (marked.circuit c).causes.any = true := hcauses ▸ hany
    refine haction.trans ?_
    split
    · rfl
    · next hnew =>
      rw [hact]
      by_cases hmem : c ∈ cs
      · by_contra hne
        exact hnew (List.mem_filter.mpr ⟨hmem, by simp [hne]⟩)
      · rw [hmarked, if_neg hmem] at hany'
        exact hform.causes c hany'
  · exact hdrops.free i (hslots ▸ hform.cutFree (hcut.symm.trans (hdrops.cut.symm.trans hc)) i)

/-- An exclusion keeps the unit in form: the cause is marked, its circuits are taken out, a kneel in progress is stopped,
and the freed slots are granted (R103, R116, R97). -/
theorem Hub.exclude_inv (cs : List Circuit) {add : Causes → Causes} (hadd : ∀ x, add (add x) = add x) {h : Hub}
    (hu : h.level.Inv) : (h.exclude cs add).level.Inv ∧ (h.exclude cs add).ValvesShown := by
  obtain ⟨hform, hserved⟩ := (Levelling.inv_iff _).mp hu
  obtain ⟨hout, hcut, hqueue⟩ := Hub.outOf_form cs hadd hform
  unfold Hub.exclude
  extract_lets newly marked out handed
  refine ⟨?_, Hub.writeValves_shown _⟩
  rw [Hub.writeValves_level, Levelling.inv_iff]
  obtain ⟨hhanded, hkeeps, -⟩ := Hub.handed_form newly hout
  exact Hub.grantIfFreed_form hhanded fun heq => hkeeps fun hc => (hserved (hcut.symm.trans hc)).of_sublist heq.symm hqueue

/-- Clearing a cause keeps the unit in form (R103). -/
theorem Hub.moves_clearCause (cs : List Circuit) {drop : Causes → Causes} (hdrop : ∀ x, (drop x).any = true → x.any = true)
    (h : Hub) : h.level.Moves (h.clearCause cs drop).level ∧ (h.clearCause cs drop).level.slots = h.level.slots ∧
      (h.clearCause cs drop).level.queue = h.level.queue ∧
      ∀ c, ((h.clearCause cs drop).circuit c).action = (h.circuit c).action := by
  have hstep : ∀ (g : Hub) c, g.level.Moves (g.onCircuit c fun x => { x with causes := drop x.causes }).level ∧
      ∀ c', ((g.onCircuit c fun x => { x with causes := drop x.causes }).circuit c').action = (g.circuit c').action := by
    intro g c
    have hact : ∀ c', ((g.onCircuit c fun x => { x with causes := drop x.causes }).circuit c').action = (g.circuit c').action :=
      fun c' => by rw [Hub.circuit_onCircuit]; split <;> simp_all
    refine ⟨⟨fun hu => hu.of_same hact (fun _ => rfl) rfl, fun _ hu c' hany => ?_, rfl, fun _ => id⟩, hact⟩
    refine (hact c').trans (hu c' ?_)
    have hany' : ((g.onCircuit c fun x => { x with causes := drop x.causes }).circuit c').causes.any = true := hany
    rw [Hub.circuit_onCircuit] at hany'
    split at hany'
    · next heq => subst heq; exact hdrop _ hany'
    · exact hany'
  unfold Hub.clearCause
  induction cs generalizing h with
  | nil => exact ⟨.refl _, rfl, rfl, fun _ => rfl⟩
  | cons c cs ih =>
    obtain ⟨hmoves, hslots, hqueue, hact⟩ := ih (h.onCircuit c fun x => { x with causes := drop x.causes })
    exact ⟨(hstep h c).1.trans hmoves, hslots, hqueue, fun c' => (hact c').trans ((hstep h c).2 c')⟩

/-- The unit moves without freeing a slot. -/
theorem Levelling.Inv.of_moves {u v : Levelling} (hu : u.Inv) (hm : u.Moves v) (hs : v.slots = u.slots)
    (hq : v.queue.Sublist u.queue) : v.Inv := by
  obtain ⟨hform, hserved⟩ := (Levelling.inv_iff u).mp hu
  exact (Levelling.inv_iff v).mpr ⟨hm.form hform, fun hc => (hserved (hm.cut.symm.trans hc)).of_sublist hs hq⟩

theorem Levelling.Inv.of_core {u v : Levelling} (hu : u.Inv) (hc : v.core = u.core) : v.Inv := by
  have hslots : v.core.slots = u.core.slots := by rw [hc]
  have hqueue : v.core.queue = u.core.queue := by rw [hc]
  exact hu.of_moves (.of_core hc) hslots (hqueue ▸ .refl _)

theorem Hub.clearCause_inv (cs : List Circuit) {drop : Causes → Causes} (hdrop : ∀ x, (drop x).any = true → x.any = true)
    {h : Hub} (hu : h.level.Inv) (hv : h.ValvesShown) : (h.clearCause cs drop).level.Inv ∧ (h.clearCause cs drop).ValvesShown := by
  obtain ⟨hmoves, hslots, hqueue, hact⟩ := h.moves_clearCause cs hdrop
  refine ⟨hu.of_moves hmoves hslots (hqueue ▸ .refl _), fun c => ?_⟩
  rw [hact, ← hv c]
  simp [Hub.clearCause]

/-! ## The air cut (R99, R100) -/

/-- A filling circuit turns back to FILL_WAIT (R99). -/
theorem Hub.backToQueue_agrees {x : HeldSlot} {h : Hub} (hx : (h.circuit x.circuit).action = .fill) :
    (h.level.Agrees → (h.backToQueue x).level.Agrees) ∧ (h.level.CausesOut → (h.backToQueue x).level.CausesOut) := by
  have hact : ∀ c, ((h.backToQueue x).circuit c).action = if c = x.circuit then .fillWait else (h.circuit c).action :=
    fun c => by
      rw [Hub.backToQueue, Hub.setAction_circuit]
      split <;> rfl
  have hcauses : ∀ c, ((h.backToQueue x).circuit c).causes = (h.circuit c).causes := fun c => by
    rw [Hub.backToQueue, Hub.setAction_circuit]
    split
    · next heq => rw [heq]; rfl
    · rfl
  have hslots : (h.backToQueue x).level.slots = h.level.slots.map fun y => y.filter fun s => !(s.circuit == x.circuit) := by
    simp [Hub.backToQueue, Hub.releaseSlot]
  have hqueue : (h.backToQueue x).level.queue = headOfClass ⟨x.circuit, x.cls⟩ h.level.queue := by
    simp [Hub.backToQueue, Hub.releaseSlot]
  refine ⟨fun hu => hu.turn hact (fun c => ?_) (fun c => ?_) (hqueue ▸ headOfClass_ordered hu.ordered _), fun hu =>
    hu.turn hact hcauses fun hany => absurd (hx.symm.trans (hu _ hany)) (by decide)⟩
  · rw [Levelling.holdings_release hslots]; rfl
  · rw [Levelling.entries_enter (hqueue ▸ headOfClass_perm _ _)]
    split
    · next heq =>
      subst heq
      have hnone : h.level.entries x.circuit = 0 := by
        rw [hu.waits, if_neg]
        exact fun hw => absurd (hx.symm.trans hw) (by decide)
      simp [hnone]
    · next hne => simp [Ne.symm hne]

theorem insertByAge_perm (next : Half) (x : HeldSlot) (l : List HeldSlot) : (insertByAge next x l).Perm (x :: l) := by
  induction l with
  | nil => exact .refl _
  | cons y l ih =>
    rw [insertByAge]
    split
    · exact .refl _
    · exact (ih.cons y).trans (.swap ..)

/-- The list by age holds what the slots hold. -/
theorem Levelling.latestFirst_perm (u : Levelling) : u.latestFirst.Perm (FillSlot.all.filterMap u.slots.get) := by
  have hfold : u.latestFirst =
      FillSlot.all.foldl (fun acc i => (u.slots.get i).elim acc fun x => insertByAge u.grants x acc) [] := by
    unfold Levelling.latestFirst
    congr 1
    funext acc i
    cases u.slots.get i <;> rfl
  have hperm : ∀ (l : List FillSlot) (acc : List HeldSlot),
      (l.foldl (fun acc i => (u.slots.get i).elim acc fun x => insertByAge u.grants x acc) acc).Perm
        (l.filterMap u.slots.get ++ acc) := by
    intro l
    induction l with
    | nil => exact fun acc => .refl _
    | cons i l ih =>
      intro acc
      rw [List.foldl_cons]
      refine (ih _).trans ?_
      cases hi : u.slots.get i with
      | none => simp [hi]
      | some x =>
        simp only [Option.elim, List.filterMap_cons, hi, List.cons_append]
        exact ((insertByAge_perm _ x acc).append_left _).trans List.perm_middle
  rw [hfold]
  simpa using hperm FillSlot.all []

/-- Every holder goes back to the queue, so that no slot stays held (R99). -/
theorem Hub.foldl_backToQueue (l : List HeldSlot) {h : Hub} (hnodup : (l.map HeldSlot.circuit).Nodup)
    (hfill : ∀ x ∈ l, (h.circuit x.circuit).action = .fill) (hheld : ∀ i y, h.level.slots.get i = some y → y ∈ l)
    (ha : h.level.Agrees) (hc : h.level.CausesOut) :
    (l.foldl Hub.backToQueue h).level.Agrees ∧ (l.foldl Hub.backToQueue h).level.CausesOut ∧
      ∀ i, (l.foldl Hub.backToQueue h).level.slots.get i = none := by
  induction l generalizing h with
  | nil => exact ⟨ha, hc, fun i => Option.eq_none_iff_forall_ne_some.mpr fun y hy => nomatch hheld i y hy⟩
  | cons x l ih =>
    obtain ⟨hx, hnodup⟩ := List.nodup_cons.mp hnodup
    obtain ⟨hagrees, hcauses⟩ := Hub.backToQueue_agrees (hfill x List.mem_cons_self)
    refine ih hnodup (fun y hy => ?_) (fun i y hy => ?_) (hagrees ha) (hcauses hc)
    · have hne : y.circuit ≠ x.circuit := fun heq => hx (heq ▸ List.mem_map_of_mem hy)
      rw [Hub.backToQueue, Hub.setAction_circuit, if_neg hne]
      exact hfill y (List.mem_cons_of_mem _ hy)
    · have hslots : (h.backToQueue x).level.slots = h.level.slots.map fun y => y.filter fun s => !(s.circuit == x.circuit) := by
        simp [Hub.backToQueue, Hub.releaseSlot]
      rw [hslots, PerSlot.get_map] at hy
      obtain ⟨hy, hne⟩ := Option.filter_eq_some_iff.mp hy
      rcases List.mem_cons.mp (hheld i y hy) with rfl | hmem
      · simp at hne
      · exact hmem

/-- The beginning of an air cut frees every slot (R99). -/
theorem Hub.beginCut_inv (cause : CutCause) {h : Hub} (hu : h.level.Inv) :
    (h.beginCut cause).level.Inv ∧ (h.beginCut cause).ValvesShown := by
  obtain ⟨⟨hagrees, hcauses, -⟩, -⟩ := (Levelling.inv_iff _).mp hu
  have hmem : ∀ x, x ∈ h.level.latestFirst ↔ ∃ i, h.level.slots.get i = some x := fun x => by
    rw [h.level.latestFirst_perm.mem_iff]
    simp
  have hnodup : (h.level.latestFirst.map HeldSlot.circuit).Nodup := by
    rw [(h.level.latestFirst_perm.map _).nodup_iff, List.map_filterMap]
    refine List.Nodup.filterMap (fun i j c hi hj => ?_) (by decide)
    obtain ⟨x, hx, rfl⟩ := Option.map_eq_some_iff.mp hi
    obtain ⟨y, hy, hyc⟩ := Option.map_eq_some_iff.mp hj
    exact hu.oneSlot i j x y hx hy hyc.symm
  obtain ⟨ha, hc, hfree⟩ := Hub.foldl_backToQueue h.level.latestFirst
    (h := h.onLevel fun u => { u with cut := true, cutCause := cause }) hnodup
    (fun x hx => by obtain ⟨i, hi⟩ := (hmem x).mp hx; exact hu.held i x hi)
    (fun i y hy => (hmem y).mpr ⟨i, hy⟩) ⟨hagrees.holds, hagrees.waits, hagrees.ordered⟩ hcauses
  have hcut : (h.level.latestFirst.foldl Hub.backToQueue (h.onLevel fun u => { u with cut := true, cutCause := cause })).level.cut
      = true := by
    refine foldl_keeps (fun g : Hub => g.level.cut) _ (fun g x => ?_) _ _
    simp [Hub.backToQueue, Hub.releaseSlot]
  unfold Hub.beginCut
  refine ⟨?_, fun c => ?_⟩
  · simp only [Hub.raise_frame, Hub.writeValves_level]
    exact (Levelling.inv_iff _).mpr ⟨⟨ha, hc, fun _ => hfree⟩, fun hno => by simp [hcut] at hno⟩
  · simpa [Hub.circuit] using Hub.writeValves_shown _ c

/-- The judging of the reservoir begins a cut, lifts it, or leaves it (R99, R100). -/
theorem Hub.judgeReservoir_inv (old : Single) {h : Hub} (hu : h.level.Inv) (hv : h.ValvesShown) :
    (h.judgeReservoir old).level.Inv ∧ (h.judgeReservoir old).ValvesShown := by
  have hcause : ∀ cause, { h.level with cutCause := cause }.Inv := fun _ =>
    ⟨hu.held, hu.filling, hu.oneSlot, hu.queued, hu.waiting, hu.oneEntry, hu.ordered, hu.cutFree, hu.served, hu.excluded⟩
  have hraise : ∀ cause v, ((h.onLevel fun u => { u with cutCause := cause }).raise .airLow 0 v).ValvesShown := fun _ _ c => by
    simpa [Hub.circuit] using hv c
  unfold Hub.judgeReservoir
  extract_lets new
  split
  · next hcut =>
    split
    · split
      · exact ⟨by simpa using hcause _, hraise _ _⟩
      · exact ⟨hu, hv⟩
    · split
      · refine ⟨?_, Hub.writeValves_shown _⟩
        obtain ⟨⟨hagrees, hcauses, hfree⟩, -⟩ := (Levelling.inv_iff _).mp hu
        have hform : (h.onLevel fun u => { u with cut := false }).level.Form :=
          ⟨⟨hagrees.holds, hagrees.waits, hagrees.ordered⟩, hcauses, fun _ => hfree hcut⟩
        rw [Hub.writeValves_level, Levelling.inv_iff]
        exact ⟨Hub.grant_form hform, fun _ => Hub.grant_served rfl⟩
      · split
        · exact ⟨by simpa using hcause _, hraise _ _⟩
        · split
          · exact ⟨hcause _, hv⟩
          · exact ⟨hu, hv⟩
  · (repeat' split) <;> first | exact ⟨hu, hv⟩ | exact Hub.beginCut_inv _ hu

/-- The recovered heights empty their rings and clear cause HEIGHT (R91, R103). -/
theorem Hub.heightsRecovered_inv (cs : List Circuit) {h : Hub} (hu : h.level.Inv) (hv : h.ValvesShown) :
    (h.heightsRecovered cs).level.Inv ∧ (h.heightsRecovered cs).ValvesShown := by
  have hemptied : ∀ g : Hub, g.level.Inv ∧ g.ValvesShown → ∀ c,
      (g.onCircuit c fun x => { x with ring := [], height := none, error := none }).level.Inv ∧
        (g.onCircuit c fun x => { x with ring := [], height := none, error := none }).ValvesShown := by
    intro g hg c
    refine ⟨hg.1.of_moves (Hub.moves_onCircuit (g := fun x => { x with ring := [], height := none, error := none })
      (fun _ => rfl) (fun _ => rfl) c g) rfl (.refl _), fun c' => ?_⟩
    rw [Hub.circuit_onCircuit]
    refine (hg.2 c').trans ?_
    split <;> simp_all
  have hfold : ∀ (l : List Circuit) (g : Hub), g.level.Inv ∧ g.ValvesShown →
      (l.foldl (fun h c => h.onCircuit c fun x => { x with ring := [], height := none, error := none }) g).level.Inv ∧
        (l.foldl (fun h c => h.onCircuit c fun x => { x with ring := [], height := none, error := none }) g).ValvesShown := by
    intro l
    induction l with
    | nil => exact fun g hg => hg
    | cons c l ih => exact fun g hg => ih _ (hemptied g hg c)
  obtain ⟨hu', hv'⟩ := hfold cs h ⟨hu, hv⟩
  exact Hub.clearCause_inv cs (fun x hx => by revert hx; cases x; simp [Causes.any]; tauto) hu' hv'

/-- A scan round keeps the unit in form (R99, R100, R103). -/
theorem Hub.scanRound_inv (raw : ScanResults) {h : Hub} (hu : h.level.Inv) :
    (h.scanRound raw).level.Inv ∧ (h.scanRound raw).ValvesShown := by
  unfold Hub.scanRound
  extract_lets old published new raised lost found levelled
  have hraised : raised.level.Inv := by simpa [raised, published] using hu
  obtain ⟨hexcluded, hshown⟩ := Hub.exclude_inv lost (add := fun x => { x with height := true }) (fun _ => rfl) hraised
  obtain ⟨hlevelled, hvalves⟩ := Hub.heightsRecovered_inv found hexcluded hshown
  split
  · exact Hub.judgeReservoir_inv _ hlevelled hvalves
  · exact ⟨hlevelled, hvalves⟩

/-! ## The levelling period (R93) -/

theorem Hub.moves_sampleHeights (h : Hub) : h.level.Moves h.sampleHeights.level :=
  .of_same (fun c => by simp [Hub.sampleHeights, Hub.onLevel, CircuitLevel.sample])
    (fun c => by simp [Hub.sampleHeights, Hub.onLevel, CircuitLevel.sample]) rfl rfl rfl

theorem Hub.moves_exitExcluded (h : Hub) (c : Circuit) : h.level.Moves (h.exitExcluded c).level := by
  unfold Hub.exitExcluded
  extract_lets x
  split
  · next hx =>
    obtain ⟨hact, hany⟩ := hx
    refine (Hub.moves_onCircuit (g := fun x => { x with reason := h.exitReason c, count := 0 }) (fun _ => rfl) (fun _ => rfl)
      c h).trans (Hub.moves_setAction ?_ ?_ nofun nofun fun hcause => ?_)
    · simpa [x] using hact ▸ nofun
    · simpa [x] using hact ▸ nofun
    · simp [x, hany] at hcause
  · exact .refl _

theorem Hub.moves_formSections (h : Hub) : h.level.Moves h.formSections.level :=
  .of_same (fun _ => rfl) (fun _ => rfl) rfl rfl rfl

theorem Hub.moves_endPause (h : Hub) (c : Circuit) : h.level.Moves (h.endPause c).level := by
  unfold Hub.endPause
  extract_lets ends
  split
  · exact Hub.moves_onCircuit (g := fun x => { x with reason := .none }) (fun _ => rfl) (fun _ => rfl) c h
  · exact .refl _

/-- A deviation is judged in HOLD alone (R94). -/
theorem Hub.holdDeviation_hold {h : Hub} {c : Circuit} {d : Deviation} (hd : h.holdDeviation c = some d) :
    (h.circuit c).action = .hold := by
  unfold Hub.holdDeviation at hd
  extract_lets x at hd
  split at hd
  · next hx => exact hx.1
  · cases hd

theorem Hub.moves_judgePause (h : Hub) (c : Circuit) : h.level.Moves (h.judgePause c).level := by
  unfold Hub.judgePause
  extract_lets wantsVent wantsFill pause
  have hpause : ∀ r, (h.circuit c).action ≠ .excluded → h.level.Moves (pause r).level := by
    intro r hne
    refine Levelling.Moves.trans (v := (if (h.circuit c).action = .hold then h else h.toHold c).level) ?_
      (Hub.moves_onCircuit (g := fun x => { x with reason := r }) (fun _ => rfl) (fun _ => rfl) c _)
    split
    · exact .refl _
    · exact Hub.moves_toHold hne
  have hdeviates : ∀ d, h.holdDeviation c = some d → (h.circuit c).action ≠ .excluded := fun d hd => by
    rw [Hub.holdDeviation_hold hd]
    decide
  split
  · split
    · next hv =>
      refine hpause _ ?_
      simp only [wantsVent, Bool.and_eq_true, Bool.or_eq_true, beq_iff_eq] at hv
      obtain ⟨hv | hv, -⟩ := hv
      · simp [hv]
      · exact hdeviates _ hv
    · split
      · next hv =>
        refine hpause _ ?_
        simp only [wantsFill, Bool.and_eq_true, Bool.or_eq_true, beq_iff_eq] at hv
        obtain ⟨(hv | hv) | hv, -⟩ := hv
        · simp [hv]
        · simp [hv]
        · exact hdeviates _ hv
      · exact .refl _
  · exact .refl _

theorem Hub.moves_stopWaiting (h : Hub) (c : Circuit) : h.level.Moves (h.stopWaiting c).level := by
  unfold Hub.stopWaiting
  split
  · next hw => exact Hub.moves_toHold (by simp [hw.1])
  · exact .refl _

theorem Hub.moves_stopRunning (h : Hub) (c : Circuit) : h.level.Moves (h.stopRunning c).level := by
  unfold Hub.stopRunning
  split <;> first | (split <;> first | exact Hub.moves_toHold (by simp [*]) | exact .refl _) | exact .refl _

/-- A slot's circuit that has used up its time waits again (R98). -/
theorem Hub.moves_slowFill {i : FillSlot} {x : HeldSlot} {h : Hub} (hx : h.level.slots.get i = some x) :
    h.level.Moves (h.slowFill i x).level := by
  have hlevel : (h.slowFill i x).level = ((h.onLevel fun u =>
      { u with slots := u.slots.set i none, queue := tailOfClass ⟨x.circuit, x.cls⟩ u.queue }).setAction
        x.circuit .fillWait).level := by simp [Hub.slowFill]
  have hact : ∀ c, ((h.slowFill i x).circuit c).action = if c = x.circuit then .fillWait else (h.circuit c).action :=
    fun c => by
      rw [Hub.circuit, hlevel]
      refine (congrArg CircuitLevel.action (Hub.setAction_circuit ..)).trans ?_
      split <;> rfl
  have hcauses : ∀ c, ((h.slowFill i x).circuit c).causes = (h.circuit c).causes := fun c => by
    rw [Hub.circuit, hlevel]
    refine (congrArg CircuitLevel.causes (Hub.setAction_circuit ..)).trans ?_
    split
    · next heq => rw [heq]; rfl
    · rfl
  have hslots : (h.slowFill i x).level.slots = h.level.slots.set i none := by rw [hlevel]; simp
  have hqueue : (h.slowFill i x).level.queue = tailOfClass ⟨x.circuit, x.cls⟩ h.level.queue := by rw [hlevel]; simp
  have hholder : h.level.holder i = some x.circuit := Levelling.holder_eq_some.mpr ⟨x, hx, rfl⟩
  have hfill : h.level.Agrees → (h.circuit x.circuit).action = .fill := fun hu => by
    by_contra hne
    have hpos := Levelling.holdings_pos.mpr ⟨i, hholder⟩
    have hzero : h.level.holdings x.circuit = 0 := (hu.holds _).trans (if_neg hne)
    omega
  refine ⟨fun hu => hu.turn hact (fun c => ?_) (fun c => ?_) (hqueue ▸ tailOfClass_ordered hu.ordered _), fun hu hc =>
    hc.turn hact hcauses fun hany => absurd ((hfill hu).symm.trans (hc _ hany)) (by decide), by rw [hlevel]; simp, fun j hj => ?_⟩
  · have hset := Levelling.holdings_set hslots c
    have hone : h.level.holdings x.circuit = 1 := by rw [hu.holds]; exact if_pos (hfill hu)
    rw [hholder] at hset
    by_cases hc : c = x.circuit
    · subst hc; simpa [hone] using hset
    · simpa [hc, Ne.symm hc] using hset
  · rw [Levelling.entries_enter (hqueue ▸ tailOfClass_perm _ _)]
    split
    · next heq =>
      subst heq
      have hnone : h.level.entries x.circuit = 0 := by
        rw [hu.waits]
        exact if_neg fun hw => absurd ((hfill hu).symm.trans hw) (by decide)
      simp [hnone]
    · next hne => simp [Ne.symm hne]
  · rw [hslots, PerSlot.get_set]
    split
    · rfl
    · exact hj

theorem Hub.moves_advanceSlot (h : Hub) (i : FillSlot) : h.level.Moves (h.advanceSlot i).level := by
  unfold Hub.advanceSlot
  split
  · exact .refl _
  · next x hx =>
    split
    · exact Hub.moves_slowFill hx
    · refine ⟨fun hu => hu.of_same (fun _ => rfl) (fun j => ?_) rfl, fun _ => id, rfl, fun j hj => ?_⟩
      · simp only [Levelling.holder, Hub.onLevel, PerSlot.get_set]
        split
        · next heq => rw [heq, hx]; rfl
        · rfl
      · simp only [Hub.onLevel, PerSlot.get_set]
        split
        · next heq => rw [heq, hx] at hj; cases hj
        · exact hj

/-- A circuit in HOLD starts an action (R94). -/
theorem Hub.moves_beginAction {c : Circuit} {h : Hub} (hold : (h.circuit c).action = .hold) (d : Deviation) :
    h.level.Moves (h.beginAction c d).level := by
  unfold Hub.beginAction
  extract_lets cleared
  have hcleared : h.level.Moves cleared.level :=
    Hub.moves_onCircuit (g := fun x => { x with count := 0 }) (fun _ => rfl) (fun _ => rfl) c h
  have hact : (cleared.circuit c).action = .hold := by
    simp only [cleared, Hub.circuit_onCircuit, if_true]; exact hold
  clear_value cleared
  cases d with
  | high =>
    exact hcleared.trans (Hub.moves_setAction (ne_of_eq_of_ne hact (by decide)) (ne_of_eq_of_ne hact (by decide)) nofun nofun
      fun _ hout => absurd (hact.symm.trans hout) (by decide))
  | low =>
    refine hcleared.trans ?_
    have hcircuit : ∀ c', ((cleared.onLevel fun u =>
        { u with queue := tailOfClass ⟨c, h.fillClass c⟩ u.queue }).setAction c .fillWait).circuit c' =
        if c' = c then { cleared.circuit c with action := .fillWait } else cleared.circuit c' := Hub.setAction_circuit _ _ _
    have haction : ∀ c', (((cleared.onLevel fun u =>
        { u with queue := tailOfClass ⟨c, h.fillClass c⟩ u.queue }).setAction c .fillWait).circuit c').action =
        if c' = c then .fillWait else (cleared.circuit c').action := fun c' => by rw [hcircuit]; split <;> rfl
    have hcauses : ∀ c', (((cleared.onLevel fun u =>
        { u with queue := tailOfClass ⟨c, h.fillClass c⟩ u.queue }).setAction c .fillWait).circuit c').causes =
        (cleared.circuit c').causes := fun c' => by rw [hcircuit]; split <;> simp_all
    refine ⟨fun hu => hu.turn haction (fun c' => ?_) (fun c' => ?_) (by simpa using tailOfClass_ordered hu.ordered _), fun hu hc =>
      hc.turn haction hcauses fun hany => absurd (hact.symm.trans (hc _ hany)) (by decide), by simp, by simp⟩
    · rw [Levelling.holdings_congr (u := cleared.level) (by simp)]
      split
      · next heq =>
        subst heq
        refine (hu.holds _).trans (if_neg fun hf => absurd (hact.symm.trans hf) (by decide))
      · rfl
    · rw [Levelling.entries_enter (u := cleared.level) (x := ⟨c, h.fillClass c⟩) (by simpa using tailOfClass_perm _ _)]
      split
      · next heq =>
        subst heq
        have hnone : cleared.level.entries c = 0 :=
          (hu.waits _).trans (if_neg fun hf => absurd (hact.symm.trans hf) (by decide))
        simp [hnone]
      · next hne => simp [Ne.symm hne]

theorem Hub.moves_startCircuit (left : Circuit → Bool) (h : Hub) (c : Circuit) :
    h.level.Moves (h.startCircuit left c).level := by
  unfold Hub.startCircuit
  extract_lets x
  split
  · next hx =>
    split
    · exact Hub.moves_onCircuit (g := fun x => { x with count := 0 }) (fun _ => rfl) (fun _ => rfl) c h
    · next d hd =>
      extract_lets counted
      have hcounted : h.level.Moves counted.level ∧ (counted.circuit c).action = .hold := by
        simp only [counted]
        split
        · exact ⟨.refl _, hx.1⟩
        · refine ⟨Hub.moves_onCircuit (g := (·.persist d)) (fun _ => rfl) (fun _ => rfl) c h, ?_⟩
          rw [Hub.circuit_onCircuit, if_pos rfl]
          exact hx.1
      split
      · exact hcounted.1.trans (Hub.moves_beginAction hcounted.2 d)
      · exact hcounted.1
  · exact .refl _

theorem Hub.moves_levellingStops (h : Hub) : h.level.Moves h.levellingStops.level := by
  unfold Hub.levellingStops
  extract_lets exited paused stopped
  have hexited : h.level.Moves exited.level := h.moves_sampleHeights.trans (Hub.moves_foldl Hub.moves_exitExcluded _ _)
  have hpaused : exited.level.Moves paused.level :=
    (exited.moves_formSections.trans (Hub.moves_foldl Hub.moves_endPause _ _)).trans (Hub.moves_foldl Hub.moves_judgePause _ _)
  have hstopped : paused.level.Moves stopped.level :=
    (Hub.moves_foldl Hub.moves_stopWaiting _ _).trans (Hub.moves_foldl Hub.moves_stopRunning _ _)
  exact ((hexited.trans hpaused).trans hstopped).trans (Hub.moves_foldl Hub.moves_advanceSlot _ _)

/-- The completion of a kneel changes no action state (R113, R114). -/
@[simp] theorem Hub.judgeCompletion_core (h : Hub) :
    h.judgeCompletion.level.core = h.level.core ∧ h.judgeCompletion.link.body = h.link.body := by
  unfold Hub.judgeCompletion
  (repeat' split) <;> simp [Hub.setKneel_core (new := .knelt) nofun, Hub.setKneel_core (new := .ride) nofun]

/-- A levelling period keeps the unit in form: its stops and starts move circuits, and its grants serve the queue (R93). -/
theorem Hub.levellingPeriod_inv {h : Hub} (hu : h.level.Inv) :
    h.levellingPeriod.level.Inv ∧ h.levellingPeriod.ValvesShown := by
  obtain ⟨hform, -⟩ := (Levelling.inv_iff _).mp hu
  unfold Hub.levellingPeriod
  extract_lets stopped granted
  have hgranted : granted.level.Inv := by
    refine (Levelling.inv_iff _).mpr ⟨Hub.grant_form ?_, fun hcut => Hub.grant_served (by simpa [granted] using hcut)⟩
    exact (Hub.moves_foldl (Hub.moves_startCircuit _) _ _).form ((Hub.moves_levellingStops h).form hform)
  clear_value granted
  have hjudged : granted.writeValves.handErrors.judgeCompletion.level.core = granted.level.core := by simp
  have hend : ∀ g : Hub, g.level.Moves (g.onLevel fun u => { u with periods := u.periods + 1, timer := .started }).level := fun _ =>
    .of_same (fun _ => rfl) (fun _ => rfl) rfl rfl rfl
  refine ⟨(hgranted.of_core hjudged).of_moves (hend _) rfl (.refl _), ?_⟩
  have hvalves : granted.writeValves.handErrors.judgeCompletion.ValvesShown :=
    (Hub.writeValves_shown granted).of_core hjudged (by simp)
  exact hvalves

/-! ## Every command -/

/-- The invariant of the slots, the queue and the valves. -/
def Hub.LevelSound (h : Hub) : Prop := h.level.Inv ∧ h.ValvesShown

theorem Hub.LevelSound.of_core {h g : Hub} (hs : h.LevelSound) (hlevel : g.level.core = h.level.core)
    (hlink : g.link.body = h.link.body) : g.LevelSound :=
  ⟨hs.1.of_core hlevel, hs.2.of_core hlevel hlink⟩

theorem Hub.LevelSound.of_eq {h g : Hub} (hs : h.LevelSound) (hlevel : g.level = h.level)
    (hvalves : ∀ c, (g.link.valves.get c).image = (h.link.valves.get c).image) : g.LevelSound :=
  ⟨hlevel ▸ hs.1, fun c => by rw [hvalves, hs.2 c, Hub.circuit, Hub.circuit, hlevel]⟩

theorem Hub.LevelSound.of_valves {h g : Hub} (hs : h.LevelSound) (hlevel : g.level = h.level)
    (hvalves : g.link.valves = h.link.valves) : g.LevelSound := hs.of_eq hlevel fun c => by rw [hvalves]

theorem Causes.any_clears (x : Causes) : ({ x with valve := false }.any = true → x.any = true) ∧
    ({ x with chain := false }.any = true → x.any = true) := by
  cases x
  simp [Causes.any]
  tauto

/-- A fault handed to the levelling unit excludes circuits or clears their cause (R143, R103). -/
theorem Hub.LevelSound.handFault {h : Hub} (hs : h.LevelSound) {chain value : Nat} {cs : List Circuit} {add drop : Causes → Causes}
    (hadd : ∀ x, add (add x) = add x) (hdrop : ∀ x, (drop x).any = true → x.any = true) (old new : Bool) :
    (h.handFault chain value (Hub.exclude cs add) (Hub.clearCause cs drop) old new).LevelSound := by
  unfold Hub.handFault
  split
  · exact Hub.exclude_inv cs hadd (by simpa using hs.1)
  · exact Hub.clearCause_inv cs hdrop hs.1 hs.2
  · exact hs

/-- What every step of a fold keeps, the fold keeps. -/
theorem foldl_preserves {α β : Type} {P : β → Prop} {f : β → α → β} (hf : ∀ b a, P b → P (f b a)) (l : List α) {b : β}
    (hb : P b) : P (l.foldl f b) := by
  induction l generalizing b with
  | nil => exact hb
  | cons a l ih => exact ih (hf b a hb)

theorem Hub.completeL_levelSound (answers : PerCircuit (Option (DeviceAnswer ValveCmd Bool))) {h : Hub} (hs : h.LevelSound) :
    (h.completeL answers).LevelSound := by
  unfold Hub.completeL
  extract_lets old judged new clean chain updated flags
  have hupdated : updated.LevelSound := hs.of_eq rfl fun c => by simp [updated, new, old, Device.complete]
  have hflags : flags.LevelSound := foldl_preserves (P := Hub.LevelSound)
    (fun g c hg => hg.handFault (add := fun x => { x with valve := true }) (fun _ => rfl) (fun x => x.any_clears.1) _ _) _ hupdated
  exact hflags.handFault (add := fun x => { x with chain := true }) (fun _ => rfl) (fun x => x.any_clears.2) _ _

/-! ## The operations that leave the valves -/

@[simp] theorem Hub.writeModulator_valves (k : Axle) (x : ModCmd) (h : Hub) : (h.writeModulator k x).link.valves = h.link.valves := rfl
@[simp] theorem Hub.writeActuator_valves (t : Trailing) (x : SteerCmd) (h : Hub) : (h.writeActuator t x).link.valves = h.link.valves := rfl
@[simp] theorem Hub.writeDamper_valves (j : Joint) (x : Nat) (h : Hub) : (h.writeDamper j x).link.valves = h.link.valves := rfl
@[simp] theorem Hub.driveTorque_valves (level : Bool) (h : Hub) : (h.driveTorque level).link.valves = h.link.valves := rfl
@[simp] theorem Hub.writeSteer_valves (t : Trailing) (h : Hub) : (h.writeSteer t).link.valves = h.link.valves := rfl

@[simp] theorem Hub.failAxle_valves (cause : FailCause) (t : Trailing) (h : Hub) :
    (h.failAxle cause t).link.valves = h.link.valves := by
  unfold Hub.failAxle
  split <;> simp

@[simp] theorem Hub.failBoth_valves (cause : FailCause) (h : Hub) : (h.failBoth cause).link.valves = h.link.valves := by
  simp [Hub.failBoth]

@[simp] theorem Hub.steerAxle_valves (t : Trailing) (h : Hub) : (h.steerAxle t).link.valves = h.link.valves := by
  unfold Hub.steerAxle
  extract_lets x tracking checked
  (repeat' split) <;> simp [checked]

@[simp] theorem Hub.steeringPeriod_valves (between : Between) (h : Hub) :
    (h.steeringPeriod between).link.valves = h.link.valves := by
  simp [Hub.steeringPeriod]

@[simp] theorem Hub.clampSteer_valves (t : Trailing) (h : Hub) : (h.clampSteer t).link.valves = h.link.valves := by
  unfold Hub.clampSteer
  extract_lets x
  split <;> simp

@[simp] theorem Hub.judgeTorque_valves (h : Hub) : h.judgeTorque.link.valves = h.link.valves := by
  unfold Hub.judgeTorque
  extract_lets cut judged
  split <;> simp [judged]

@[simp] theorem Hub.jointWork_valves (h : Hub) (j : Joint) : (h.jointWork j).link.valves = h.link.valves := by
  unfold Hub.jointWork
  extract_lets old new written
  split <;> simp [written]

@[simp] theorem Hub.jointPeriod_valves (h : Hub) : h.jointPeriod.link.valves = h.link.valves := by simp [Hub.jointPeriod]

@[simp] theorem Hub.takeDemands_valves (h : Hub) : h.takeDemands.link.valves = h.link.valves := by
  unfold Hub.takeDemands
  split
  · simp
  · extract_lets emptied taken
    split <;> simp [taken, emptied]

@[simp] theorem Hub.confirmHalt_core (h : Hub) :
    h.confirmHalt.level.core = h.level.core ∧ h.confirmHalt.link.body = h.link.body := by
  unfold Hub.confirmHalt
  split
  · split
    · simp
    · extract_lets time timed
      split <;> simp [timed]
  · exact ⟨rfl, rfl⟩

@[simp] theorem Hub.command_valves (h : Hub) : h.command.link.valves = h.link.valves := by
  unfold Hub.command
  exact foldl_keeps (fun g : Hub => g.link.valves) _ (fun g k => Hub.writeModulator_valves k _ g) Axle.all _

theorem Hub.brakePeriod_levelSound {h : Hub} (hs : h.LevelSound) : h.brakePeriod.LevelSound := by
  have hloads : h.takeDemands.setModes.runLoads.formService.LevelSound := hs.of_valves (by simp) (by simp)
  have hconfirmed := hloads.of_core (Hub.confirmHalt_core _).1 (Hub.confirmHalt_core _).2
  exact hconfirmed.of_valves (by simp [Hub.brakePeriod]) (by simp [Hub.brakePeriod])

/-- The refreshes of the other chains leave the valves (R143). -/
theorem Hub.chainComplete_levelSound (answers : ChainAnswers) {h : Hub} (hs : h.LevelSound) :
    (h.chainComplete answers).LevelSound := by
  have hfault : ∀ (chain value : Nat) (set : Hub → Hub) (old new : Bool) (g : Hub),
      (∀ x, (set x).link.valves = x.link.valves) → (g.handFault chain value set id old new).link.valves = g.link.valves :=
    fun chain value set old new g hset => handFault_keeps (fun g : Hub => g.link.valves) _ _ _ _ _ _ g (by simp) hset (by simp)
  cases answers with
  | l a => exact Hub.completeL_levelSound a hs
  | b a =>
    refine hs.of_valves (by simp [Hub.chainComplete]) ?_
    simp only [Hub.chainComplete, Hub.completeB]
    rw [hfault _ _ id _ _ _ (fun _ => rfl)]
    exact foldl_keeps (fun g : Hub => g.link.valves) _ (fun g k => hfault _ _ _ _ _ g fun _ => rfl) _ _
  | s a =>
    refine hs.of_valves (by simp [Hub.chainComplete]) ?_
    simp only [Hub.chainComplete, Hub.completeS]
    rw [hfault _ _ _ _ _ _ (by simp)]
    refine (foldl_keeps (fun g : Hub => g.link.valves) _ (fun g k => hfault _ _ _ _ _ g (by simp)) _ _).trans ?_
    refine (foldl_keeps (fun g : Hub => g.link.valves) _ (fun g k => ?_) _ _).trans rfl
    unfold Hub.takeAngle
    split <;> rfl
  | j a =>
    refine hs.of_valves (by simp [Hub.chainComplete]) ?_
    simp only [Hub.chainComplete, Hub.completeJ]
    rw [hfault _ _ id _ _ _ (fun _ => rfl)]
    exact foldl_keeps (fun g : Hub => g.link.valves) _ (fun g k => hfault _ _ _ _ _ g fun _ => rfl) _ _

theorem Hub.leaveStandstill_levelSound {h : Hub} (hs : h.LevelSound) : h.leaveStandstill.LevelSound := by
  obtain ⟨hform, hserved⟩ := (Levelling.inv_iff _).mp hs.1
  unfold Hub.leaveStandstill
  extract_lets changed
  have hchanged : changed.LevelSound := hs.of_valves (by simp [changed]) (by simp [changed])
  refine Hub.LevelSound.of_valves (h := if h.standing then
    Door.all.foldl Hub.withdrawByMotion (changed.stopKneel .standstill none) else changed) ?_ (by simp) (by simp)
  split
  · obtain ⟨hf, hkeeps, hcut, hvalves⟩ := Hub.stopKneel_form .standstill none (h := changed) (by simpa [changed] using hform)
    have hstopped : (changed.stopKneel .standstill none).LevelSound :=
      ⟨(Levelling.inv_iff _).mpr ⟨hf, hkeeps (by simpa [changed] using hserved)⟩, hvalves hchanged.2⟩
    exact hstopped.of_core (foldl_keeps (fun g : Hub => g.level.core) _ (by simp) _ _)
      (foldl_keeps (fun g : Hub => g.link.body) _ (by simp) _ _)
  · exact hchanged

theorem Hub.wheelPulse_levelSound (dir : Direction) {h : Hub} (hs : h.LevelSound) : (h.wheelPulse dir).LevelSound := by
  unfold Hub.wheelPulse
  extract_lets counted
  have hcounted : counted.LevelSound := hs.of_valves (by simp [counted]) (by simp [counted])
  split
  · exact Hub.leaveStandstill_levelSound hcounted
  · exact hcounted

theorem Hub.installApply_levelSound {h : Hub} (hs : h.LevelSound) : h.installApply.LevelSound := by
  unfold Hub.installApply
  have hclamped : ((h.installLoad.clampSteer .a3).clampSteer .a4).LevelSound := hs.of_valves (by simp) (by simp)
  have hformed : ((h.installLoad.clampSteer .a3).clampSteer .a4).formRideTargets.LevelSound :=
    hclamped.of_core (by simp) (by simp)
  exact hformed.of_core (by simp) (by simp)

theorem Hub.storeCompletion_levelSound (code : Byte) (depot : Bool) {h : Hub} (hs : h.LevelSound) :
    (h.storeCompletion code depot).LevelSound := by
  have hread : (h.readDepot depot).LevelSound := hs.of_valves rfl rfl
  unfold Hub.storeCompletion
  split
  · next r _ =>
    split
    · extract_lets pins
      split
      · exact hread.of_valves (by simp [pins]) (by simp [pins])
      · unfold Hub.completeOp
        extract_lets finished
        have hfinished : finished.1.LevelSound := by
          simp only [finished, Hub.finishWork]
          (repeat' split) <;> first | exact hread | exact Hub.installApply_levelSound hread
        exact hfinished.of_valves (by simp) (by simp)
    · exact hs
  · exact hs

theorem Hub.startTimers_level (h : Hub) : h.startTimers.level = { h.level with timer := .started } := rfl

theorem Hub.completeLoad_levelSound (levels : PerDoor DoorLevels) {h : Hub} (hs : h.LevelSound) :
    (h.completeLoad levels).LevelSound := by
  unfold Hub.completeLoad
  extract_lets loaded
  have hloaded : loaded.LevelSound := hs.of_valves (by simp [loaded]) (by simp [loaded])
  have hstarted : loaded.formAccess.startTimers.startLoads.LevelSound :=
    ⟨hloaded.1.of_moves (.of_same (by simp [Hub.startTimers_level]) (by simp [Hub.startTimers_level])
        (by simp [Hub.startTimers_level]) (by simp [Hub.startTimers_level]) (by simp [Hub.startTimers_level]))
      (by simp [Hub.startTimers_level]) (by simp [Hub.startTimers_level]), fun c => by
        simpa [Hub.circuit, Hub.startTimers_level] using hloaded.2 c⟩
  exact (hstarted.of_core (h := loaded.formAccess.startTimers.startLoads) (by simp) (by simp) :
    loaded.formAccess.startTimers.startLoads.formRideTargets.LevelSound).of_core (by simp) (by simp)

theorem Hub.order_levelSound {f : Service} (hf : ∀ g : Hub, (f g).1.level.core = g.level.core ∧ (f g).1.link.body = g.link.body)
    (q : Request) (code : Byte) (c : AccessClass) {h : Hub} (hs : h.LevelSound) : (h.order q code c f).LevelSound :=
  Hub.order_preserves (P := Hub.LevelSound) (fun _ _ _ _ hg => hg) (fun _ _ hg => hg) q code c
    (fun g _ hg => hg.of_core (hf g).1 (hf g).2) hs

/-- Every command keeps slots, queue and valves in agreement. -/
theorem Hub.after_levelSound (w : Between) (c : Instr) {h : Hub} (hs : h.LevelSound) : (h.after w c).LevelSound := by
  have hif : ∀ (b : Prop) [Decidable b] {g : Hub}, g.LevelSound → (if b then g else h).LevelSound := by
    intro b _ g hg
    split
    · exact hg
    · exact hs
  have hatReset : ∀ {g : Hub}, g.level = Levelling.atReset → g.link = Link.atReset → g.LevelSound := fun hl hk =>
    ⟨hl ▸ Levelling.atReset_inv, fun c => by rw [hk, Hub.circuit, hl]; cases c <;> rfl⟩
  cases c
  case powerOnReset | rstLine => exact hatReset rfl rfl
  case hubReset q =>
    exact Hub.hubReset_preserves (P := Hub.LevelSound) (fun _ _ _ _ hg => hg) (fun _ _ hg => hg)
      (fun _ _ _ => hatReset rfl rfl) q hs
  case activeSetLoad x => exact hif _ (Hub.completeLoad_levelSound _ (hs.of_valves rfl rfl))
  case scanRound raw => exact hif _ (Hub.scanRound_inv raw hs.1)
  case wheelPulse i dir => exact hif _ (Hub.wheelPulse_levelSound dir hs)
  case speedTimerExpiry dir => exact hif _ (hs.of_core (by simp) (by simp))
  case quietTimerExpiry => exact hif _ (hs.of_core (by simp) (by simp))
  case steeringTimerExpiry => exact hif _ (hs.of_valves (by simp) (by simp))
  case jointTimerExpiry => exact hif _ (hs.of_valves (by simp) (by simp))
  case brakeTimerExpiry => exact hif _ (Hub.brakePeriod_levelSound hs)
  case levellingTimerExpiry => exact hif _ (Hub.levellingPeriod_inv hs.1)
  case refreshTimerExpiry => exact hif _ (hs.of_eq rfl fun c => by simp [Link.refresh, Device.send])
  case chainRefreshComplete answers => exact hif _ (Hub.chainComplete_levelSound answers hs)
  case debounceTimerExpiry d i => exact hif _ (hs.of_core (by simp) (by simp))
  case haltOn q => exact Hub.order_levelSound serveHaltOn_core q _ _ hs
  case haltOff q => exact Hub.order_levelSound serveHaltOff_core q _ _ hs
  case release q => exact Hub.order_levelSound (serveRelease_core _) q _ _ hs
  case withdraw q => exact Hub.order_levelSound (serveWithdraw_core _) q _ _ hs
  case kneel q => exact Hub.order_levelSound serveKneel_core q _ _ hs
  case raise q => exact Hub.order_levelSound serveRaise_core q _ _ hs
  case storeReadCompletion | storeWriteCompletion | storeCloseCompletion | storeLockCompletion | blankTestCompletion
      | storeClearCompletion | applyCompletion => exact Hub.storeCompletion_levelSound _ _ hs
  all_goals exact hs.of_valves (by simp) (by simp)

/-- Settles O57: the operations move circuits between slots, queue and neither, and the grants serve the queue. -/
theorem slotsAndQueueAgree : Obligations.SlotsAndQueueAgree :=
  fun _ _ hu hv hstep => step_induction (P := Hub.LevelSound) (fun _ w c => Hub.after_levelSound w c)
    (fun h hh => ⟨hh.1.of_moves (v := h.tick.level) (.of_same (fun _ => rfl) (fun _ => rfl) rfl rfl rfl) rfl (.refl _), hh.2⟩)
    ⟨hu, hv⟩ hstep

end Sys2Proof.Machine
end

section
/-! PROOFS. What the door and kneel operations leave of the brake unit, the kneel unit and the lines: one fact per operation
(R77, R116 to R118, R126, R136). -/

namespace Sys2Proof.Machine

/-! ## The brake unit without its axles -/

/-- All of the brake unit but its axles (R70). -/
def Brake.base (u : Brake) : Brake := { u with axles := Brake.atReset.axles }

theorem Brake.eq_of_base {u v : Brake} (hb : u.base = v.base) : u = { v with axles := u.axles } := by
  obtain ⟨⟩ := u
  simpa [Brake.base] using hb

theorem Brake.halt_of_base {u v : Brake} (hb : u.base = v.base) : u.halt = v.halt :=
  show u.base.halt = v.base.halt from congrArg Brake.halt hb

@[simp] theorem Hub.onAxleBrake_base (k : Axle) (g : AxleBrake → AxleBrake) (h : Hub) :
    (h.onAxleBrake k g).brake.base = h.brake.base := rfl

@[simp] theorem Hub.judgeActivity_base (k : Axle) (h : Hub) : (h.judgeActivity k).brake.base = h.brake.base := rfl

@[simp] theorem Hub.judgeActivities_base (h : Hub) : h.judgeActivities.brake.base = h.brake.base := by
  simp [Hub.judgeActivities, Axle.all]

@[simp] theorem Hub.setAction_base (c : Circuit) (a : Action) (h : Hub) : (h.setAction c a).brake.base = h.brake.base := rfl

@[simp] theorem Hub.toHold_base (c : Circuit) (h : Hub) : (h.toHold c).brake.base = h.brake.base := rfl

@[simp] theorem Hub.takeOut_base (h : Hub) (c : Circuit) : (h.takeOut c).brake.base = h.brake.base := rfl

@[simp] theorem Hub.backToQueue_base (h : Hub) (x : HeldSlot) : (h.backToQueue x).brake.base = h.brake.base := rfl

@[simp] theorem Hub.grant_base (h : Hub) : h.grant.brake.base = h.brake.base := by
  have hhead : ∀ g : Hub, g.grantHead.brake.base = g.brake.base := fun g => by
    unfold Hub.grantHead
    split <;> rfl
  simp [Hub.grant, hhead]

@[simp] theorem Hub.grantIfFreed_base (before after : PerSlot (Option HeldSlot)) (h : Hub) :
    (h.grantIfFreed before after).brake.base = h.brake.base := by
  unfold Hub.grantIfFreed
  split <;> simp

@[simp] theorem Hub.stopCircuit_base (h : Hub) (c : Circuit) : (h.stopCircuit c).brake.base = h.brake.base := by
  unfold Hub.stopCircuit
  split <;> rfl

@[simp] theorem Hub.levellingTakesKneel_base (old new : KneelState) (h : Hub) :
    (h.levellingTakesKneel old new).brake.base = h.brake.base := by
  cases new
  case stopped =>
    simp only [Hub.levellingTakesKneel, Hub.writeValves_frame, Hub.grantIfFreed_base]
    exact foldl_keeps (fun g : Hub => g.brake.base) _ (by simp) _ _
  all_goals rfl

/-- A change of the kneel state between two states other than RIDE leaves the brake unit's own parts (R77). -/
theorem Hub.setKneel_base {new : KneelState} {h : Hub} (ho : h.kneel.state ≠ .ride) (hn : new ≠ .ride) :
    (h.setKneel new).brake.base = h.brake.base := by
  simp [Hub.setKneel, Hub.brakeTakesKneel, ho, hn]

/-- The brake unit's kneel freeze follows the kneel state (R77); the rest of the unit's own parts stay. -/
theorem Hub.setKneel_halt (new : KneelState) (h : Hub) : (h.setKneel new).brake.halt = h.brake.halt := by
  have hlevel : ∀ g : Hub, (g.levellingTakesKneel h.kneel.state new).brake.halt = g.brake.halt := fun g =>
    Brake.halt_of_base (g.levellingTakesKneel_base _ _)
  simp only [Hub.setKneel, Hub.brakeTakesKneel, Hub.judgePermit_frame]
  (repeat' split) <;> simp [hlevel]

/-- The kneel unit after a change of its state (R116). -/
@[simp] theorem Hub.setKneel_kneel (new : KneelState) (h : Hub) : (h.setKneel new).kneel =
    if new = .stopped then { h.kneel with state := new }
    else { h.kneel with state := new, cause := none, circuit := none, before := none } := by
  have hlevel : ∀ g : Hub, (g.levellingTakesKneel h.kneel.state new).kneel = g.kneel := fun g => by
    unfold Hub.levellingTakesKneel
    split <;> simp [foldl_keeps Hub.kneel]
  have hbrake : ∀ g : Hub, (g.brakeTakesKneel h.kneel.state new).kneel = g.kneel := fun g => by
    unfold Hub.brakeTakesKneel
    (repeat' split) <;> rfl
  simp only [Hub.setKneel, Hub.judgePermit_frame, hbrake, hlevel, Hub.raise_frame, Hub.onKneel_kneel]

@[simp] theorem Hub.setKneel_state (new : KneelState) (h : Hub) : (h.setKneel new).kneel.state = new := by
  rw [Hub.setKneel_kneel]
  split <;> rfl

@[simp] theorem Hub.setKneel_standing (new : KneelState) (h : Hub) : (h.setKneel new).standing = h.standing := by
  simp [Hub.standing]

/-- A stop of a kneel leaves the brake unit's own parts. -/
@[simp] theorem Hub.stopKneel_base (cause : StopCause) (c : Option Circuit) (h : Hub) :
    (h.stopKneel cause c).brake.base = h.brake.base := by
  unfold Hub.stopKneel
  split
  case h_1 hk | h_2 hk | h_3 hk =>
    exact Hub.setKneel_base (h := h.onKneel _) (by simp [hk]) nofun
  all_goals rfl

/-- In RIDE and STOPPED nothing is stopped (R116). -/
theorem Hub.stopKneel_of_still {h : Hub} (hk : h.kneel.state = .ride ∨ h.kneel.state = .stopped) (cause : StopCause)
    (c : Option Circuit) : h.stopKneel cause c = h := by
  unfold Hub.stopKneel
  obtain hk | hk := hk <;> simp [hk]

/-- An auto-raise is a change between kneel states other than RIDE. -/
@[simp] theorem Hub.autoRaise_base (h : Hub) : h.autoRaise.brake = h.brake := by
  unfold Hub.autoRaise
  split
  · next hk =>
    have hne : h.kneel.state ≠ .ride := by obtain ⟨-, hk | hk⟩ := hk <;> simp [hk]
    simp [Hub.setKneel, Hub.brakeTakesKneel, Hub.levellingTakesKneel, hne]
  · rfl

@[simp] theorem Hub.judgeCondition_brake (h : Hub) : h.judgeCondition.brake = h.brake := by
  unfold Hub.judgeCondition
  extract_lets now changed
  (repeat' split) <;> simp [changed]

@[simp] theorem Hub.setRelease_brake (d : Door) (new : Release) (h : Hub) : (h.setRelease d new).brake = h.brake := by
  unfold Hub.setRelease
  split <;> simp [Hub.raiseRelease]

@[simp] theorem Hub.grantWaiting_brake (h : Hub) : h.grantWaiting.brake = h.brake :=
  foldl_keeps Hub.brake _ (fun g d => by split <;> simp) _ _

@[simp] theorem Hub.withdrawByMotion_brake (h : Hub) (d : Door) : (h.withdrawByMotion d).brake = h.brake := by
  unfold Hub.withdrawByMotion
  (repeat' split) <;> simp

/-- The brake unit after a change of the halt state (R81). -/
@[simp] theorem Hub.setHalt_brake (new : HaltState) (h : Hub) : (h.setHalt new).brake = { h.brake with
    halt := new
    applying := if new = .applying then .running 0 else .stopped
    haltFault := if new = .applying then false else h.brake.haltFault } := by
  unfold Hub.setHalt
  extract_lets changed
  refine Eq.trans (b := changed.brake) ?_ rfl
  split <;> simp

/-! ## Standstill under the shared operations -/

@[simp] theorem Hub.setRelease_standing (d : Door) (new : Release) (h : Hub) : (h.setRelease d new).standing = h.standing := by
  simp [Hub.standing]

@[simp] theorem Hub.judgeCondition_standing (h : Hub) : h.judgeCondition.standing = h.standing := by simp [Hub.standing]

@[simp] theorem Hub.judgePermit_standing (h : Hub) : h.judgePermit.standing = h.standing := by simp [Hub.standing]

@[simp] theorem Hub.requestApply_standing (h : Hub) : h.requestApply.standing = h.standing := by simp [Hub.standing]

@[simp] theorem Hub.setHalt_standing (new : HaltState) (h : Hub) : (h.setHalt new).standing = h.standing := by
  simp [Hub.standing]

/-! ## The doors' lines -/

@[simp] theorem Hub.judgePermit_lines (h : Hub) : h.judgePermit.link.lines = { h.link.lines with
    permit := if h.doors.permit = h.permitHolds then h.link.lines.permit else h.permitHolds } := by
  unfold Hub.judgePermit
  split <;> simp [Hub.drivePermit]

@[simp] theorem Hub.levellingTakesKneel_lines (old new : KneelState) (h : Hub) :
    (h.levellingTakesKneel old new).link.lines = h.link.lines := by
  cases new
  case stopped =>
    have hstopped : (h.scope.foldl Hub.stopCircuit h).link = h.link := foldl_keeps Hub.link _ (by simp) _ _
    simp only [Hub.levellingTakesKneel, Hub.grantIfFreed]
    split <;> simp [Hub.writeValves, hstopped]
  all_goals rfl

@[simp] theorem Hub.brakeTakesKneel_link (old new : KneelState) (h : Hub) : (h.brakeTakesKneel old new).link = h.link := by
  unfold Hub.brakeTakesKneel
  (repeat' split) <;> rfl

@[simp] theorem Hub.setKneel_releaseLines (new : KneelState) (h : Hub) :
    (h.setKneel new).link.lines.release = h.link.lines.release := by
  simp [Hub.setKneel]

@[simp] theorem Hub.autoRaise_releaseLines (h : Hub) : h.autoRaise.link.lines.release = h.link.lines.release := by
  unfold Hub.autoRaise
  split <;> simp

@[simp] theorem Hub.judgeCondition_releaseLines (h : Hub) :
    h.judgeCondition.link.lines.release = h.link.lines.release := by
  unfold Hub.judgeCondition
  extract_lets now changed
  (repeat' split) <;> simp [changed]

/-- A release's line follows the release (R126). -/
theorem Hub.setRelease_releaseLines (d : Door) (new : Release) (h : Hub) : (h.setRelease d new).link.lines.release =
    if (h.door d).release = new then h.link.lines.release else h.link.lines.release.set d (new == .granted) := by
  unfold Hub.setRelease
  split <;> simp [Hub.raiseRelease, Hub.driveRelease]

/-- The move-permit line shows the move permit (R136, R145). -/
def Hub.PermitShown (h : Hub) : Prop := h.link.lines.permit = h.doors.permit

theorem Hub.PermitShown.judgePermit {h : Hub} (hp : h.PermitShown) : h.judgePermit.PermitShown := by
  simp only [Hub.PermitShown, Hub.judgePermit_lines, Hub.judgePermit_doors]
  split
  · next heq => rw [hp, heq]
  · rfl

theorem Hub.PermitShown.setKneel {h : Hub} (hp : h.PermitShown) (new : KneelState) : (h.setKneel new).PermitShown := by
  unfold Hub.setKneel
  refine Hub.PermitShown.judgePermit ?_
  simpa [Hub.PermitShown] using hp

theorem Hub.PermitShown.judgeCondition {h : Hub} (hp : h.PermitShown) : h.judgeCondition.PermitShown := by
  have hraise : ∀ {g : Hub}, g.PermitShown → g.autoRaise.PermitShown := fun {g} hg => by
    unfold Hub.autoRaise
    split
    · exact Hub.PermitShown.setKneel (h := g.writeTargets .raise) hg _
    · exact hg
  unfold Hub.judgeCondition
  extract_lets now changed
  (repeat' split) <;> first | exact hp | exact hraise hp

theorem Hub.PermitShown.setRelease {h : Hub} (hp : h.PermitShown) (d : Door) (new : Release) :
    (h.setRelease d new).PermitShown := by
  unfold Hub.setRelease
  split
  · exact hp
  · refine Hub.PermitShown.judgePermit (Hub.PermitShown.judgeCondition ?_)
    simpa [Hub.PermitShown, Hub.raiseRelease, Hub.driveRelease] using hp

end Sys2Proof.Machine
end

section
/-! PROOFS. The doors' interlocks: what each operation keeps of them (R83, R111, R125, R126, R135, R136). -/

namespace Sys2Proof.Machine

/-! ## The interlocks of the part with a loaded set -/

/-- The lines, the disabled doors, the positions and a kneel's halt brake (R111, R124 to R126). -/
structure Hub.DoorForm (h : Hub) : Prop where
  lines      : ∀ d, h.link.lines.release.get d = ((h.door d).release == .granted)
  permitLine : h.link.lines.permit = h.doors.permit
  disabled   : ∀ d, (h.door d).enabled = false →
    (h.door d).release = .withdrawn ∧ (h.door d).mark = false ∧ (h.door d).atSpeed = false
  position   : ∀ d, (h.door d).position = positionOf (h.door d).debounced
  kneeling   : h.kneel.state ≠ .ride → h.brake.halt = .applied

/-- A GRANTED release stands at standstill under an APPLIED halt brake (R126, R129). -/
def Hub.GrantsStand (h : Hub) : Prop := ∀ d, (h.door d).release = .granted → h.standing = true ∧ h.brake.halt = .applied

/-- An open enabled door at standstill has the halt brake on (R83, R134). -/
def Hub.OpenHalted (h : Hub) : Prop := h.standing = true → h.doorsLocked = false → h.brake.halt ≠ .released

/-- The move permit and the door condition are those of R136 and R135. -/
def Hub.PermitJudged (h : Hub) : Prop := h.doors.permit = h.permitHolds
def Hub.ConditionJudged (h : Hub) : Prop := h.doors.condition = (h.doorsLocked && h.releasesWithdrawn)

/-- The interlocks, the load behind the part. -/
structure Hub.DoorsSound (h : Hub) : Prop extends h.DoorForm where
  granted   : h.GrantsStand
  openHalt  : h.OpenHalted
  condition : h.ConditionJudged
  permit    : h.PermitJudged

theorem Hub.doorInv_iff {h : Hub} (hl : h.clock.loaded = true) : h.DoorInv ↔ h.DoorsSound ∧ h.clock.load = .stopped := by
  constructor
  · intro hd
    exact ⟨⟨⟨hd.lines, hd.permitLine, hd.disabled, hd.position hl, hd.kneeling⟩, hd.granted, hd.open_halt, hd.condition hl,
      hd.permit hl⟩, hd.load hl⟩
  · rintro ⟨hd, hload⟩
    exact ⟨hd.lines, hd.permitLine, hd.granted, hd.disabled, fun _ => hd.permit, fun _ => hd.condition, fun _ => hd.position,
      hd.openHalt, hd.kneeling, fun _ => hload, fun hno => by simp [hl] at hno⟩

/-! ## Steps that keep the interlocks -/

/-- An operation before the door condition and the move permit are judged. -/
structure Hub.DoorMoves (h g : Hub) : Prop where
  form     : h.DoorForm → g.DoorForm
  granted  : h.DoorForm → h.GrantsStand → g.GrantsStand
  openHalt : h.DoorForm → h.OpenHalted → g.OpenHalted

/-- A whole operation. -/
structure Hub.DoorStep (h g : Hub) : Prop extends h.DoorMoves g where
  condition : h.DoorForm → h.ConditionJudged → g.ConditionJudged
  permit    : h.DoorForm → h.PermitJudged → g.PermitJudged

theorem Hub.DoorMoves.trans {h g f : Hub} (hg : h.DoorMoves g) (gf : g.DoorMoves f) : h.DoorMoves f :=
  ⟨gf.form ∘ hg.form, fun hh hs => gf.granted (hg.form hh) (hg.granted hh hs),
    fun hh hs => gf.openHalt (hg.form hh) (hg.openHalt hh hs)⟩

theorem Hub.DoorStep.refl (h : Hub) : h.DoorStep h := ⟨⟨id, fun _ => id, fun _ => id⟩, fun _ => id, fun _ => id⟩

theorem Hub.DoorStep.trans {h g f : Hub} (hg : h.DoorStep g) (gf : g.DoorStep f) : h.DoorStep f :=
  ⟨hg.toDoorMoves.trans gf.toDoorMoves, fun hh hs => gf.condition (hg.form hh) (hg.condition hh hs),
    fun hh hs => gf.permit (hg.form hh) (hg.permit hh hs)⟩

theorem Hub.DoorStep.sound {h g : Hub} (hg : h.DoorStep g) (hs : h.DoorsSound) : g.DoorsSound :=
  ⟨hg.form hs.toDoorForm, hg.granted hs.toDoorForm hs.granted, hg.openHalt hs.toDoorForm hs.openHalt,
    hg.condition hs.toDoorForm hs.condition, hg.permit hs.toDoorForm hs.permit⟩

theorem Hub.doorStep_foldl {α : Type} {f : Hub → α → Hub} (hf : ∀ (h : Hub) (x : α), h.DoorStep (f h x)) (l : List α)
    (h : Hub) : h.DoorStep (l.foldl f h) := by
  induction l generalizing h with
  | nil => exact .refl _
  | cons x l ih => exact (hf h x).trans (ih _)

/-- The doors, the lines, standstill, the halt state and the kneel state stay. -/
theorem Hub.DoorStep.of_doors {h g : Hub} (hd : g.doors.doors = h.doors.doors) (hc : g.doors.condition = h.doors.condition)
    (hm : g.doors.permit = h.doors.permit) (hl : g.link.lines.release = h.link.lines.release)
    (hp : g.link.lines.permit = h.link.lines.permit) (hs : g.standing = h.standing) (hb : g.brake.halt = h.brake.halt)
    (hk : g.kneel.state = h.kneel.state) : h.DoorStep g := by
  have hdoor : ∀ d, g.door d = h.door d := fun d => by rw [Hub.door, hd, Hub.door]
  have hlocked : g.doorsLocked = h.doorsLocked := Hub.doorsLocked_congr hd
  have hwithdrawn : g.releasesWithdrawn = h.releasesWithdrawn := Hub.releasesWithdrawn_congr hd
  have hpermit : g.permitHolds = h.permitHolds := by
    simp [Hub.permitHolds, hlocked, hwithdrawn, Hub.handlesAtRest, hdoor, hk, hb]
  refine ⟨⟨fun hf => ⟨fun d => ?_, ?_, fun d => ?_, fun d => ?_, ?_⟩, fun _ hg d => ?_, fun _ ho => ?_⟩, fun _ hj => ?_,
    fun _ hj => ?_⟩
  · rw [hl, hdoor]; exact hf.lines d
  · rw [hp, hm]; exact hf.permitLine
  · rw [hdoor]; exact hf.disabled d
  · rw [hdoor]; exact hf.position d
  · rw [hk, hb]; exact hf.kneeling
  · rw [hdoor, hs, hb]; exact hg d
  · rw [Hub.OpenHalted, hs, hlocked, hb]; exact ho
  · rw [Hub.ConditionJudged, hc, hlocked, hwithdrawn]; exact hj
  · rw [Hub.PermitJudged, hm, hpermit]; exact hj

theorem Hub.DoorStep.of_eq {h g : Hub} (hd : g.doors = h.doors) (hl : g.link.lines.release = h.link.lines.release)
    (hp : g.link.lines.permit = h.link.lines.permit) (hs : g.standing = h.standing) (hb : g.brake.halt = h.brake.halt)
    (hk : g.kneel.state = h.kneel.state) : h.DoorStep g :=
  .of_doors (by rw [hd]) (by rw [hd]) (by rw [hd]) hl hp hs hb hk

/-- The doors' lines: the releases and the move permit (R117, R136). -/
def Link.doorLines (u : Link) : PerDoor Bool × Bool := (u.lines.release, u.lines.permit)

/-- Nothing the interlocks read differs. -/
structure Hub.ReadsAlike (h g : Hub) : Prop where
  doors      : g.doors = h.doors
  lines      : g.link.doorLines = h.link.doorLines
  standstill : g.sensing.standstill = h.sensing.standstill
  halt       : g.brake.halt = h.brake.halt
  kneel      : g.kneel.state = h.kneel.state

theorem Hub.ReadsAlike.step {h g : Hub} (hg : h.ReadsAlike g) : h.DoorStep g :=
  .of_eq hg.doors (congrArg Prod.fst hg.lines) (congrArg Prod.snd hg.lines)
    (by rw [Hub.standing, hg.standstill, Hub.standing]) hg.halt hg.kneel

theorem Hub.ReadsAlike.refl (h : Hub) : h.ReadsAlike h := ⟨rfl, rfl, rfl, rfl, rfl⟩

theorem Hub.ReadsAlike.trans {h g f : Hub} (hg : h.ReadsAlike g) (gf : g.ReadsAlike f) : h.ReadsAlike f :=
  ⟨gf.doors.trans hg.doors, gf.lines.trans hg.lines, gf.standstill.trans hg.standstill, gf.halt.trans hg.halt,
    gf.kneel.trans hg.kneel⟩

/-! ## The move permit and the door condition -/

theorem Hub.judgePermit_judged (h : Hub) : h.judgePermit.PermitJudged := by
  rw [Hub.PermitJudged, Hub.judgePermit_doors]
  exact (Hub.permitHolds_congr (by simp) (by simp) (by simp)).symm

theorem Hub.judgePermit_condition {h : Hub} (hc : h.ConditionJudged) : h.judgePermit.ConditionJudged := by
  rw [Hub.ConditionJudged, Hub.doorsLocked_congr (h := h) (by simp), Hub.releasesWithdrawn_congr (h := h) (by simp)]
  simpa [Hub.ConditionJudged] using hc

theorem Hub.moves_judgePermit (h : Hub) : h.DoorMoves h.judgePermit := by
  refine ⟨fun hf => ⟨fun d => ?_, ?_, fun d => ?_, fun d => ?_, ?_⟩, fun _ hg d => ?_, fun _ ho => ?_⟩
  · simpa using hf.lines d
  · simp only [Hub.judgePermit_lines, Hub.judgePermit_doors]
    split
    · next heq => rw [hf.permitLine, heq]
    · rfl
  · simpa using hf.disabled d
  · simpa using hf.position d
  · simpa using hf.kneeling
  · simpa using hg d
  · rw [Hub.OpenHalted, Hub.judgePermit_standing, Hub.doorsLocked_congr (h := h) (by simp)]
    simpa [Hub.OpenHalted] using ho

/-- An operation that ends in a judging of the move permit. -/
theorem Hub.DoorMoves.judged {h g : Hub} (hg : h.DoorMoves g) (hc : h.DoorForm → h.ConditionJudged → g.ConditionJudged) :
    h.DoorStep g.judgePermit :=
  ⟨hg.trans g.moves_judgePermit, fun hf hh => Hub.judgePermit_condition (hc hf hh), fun _ _ => g.judgePermit_judged⟩

/-- A change of the kneel state; one that leaves RIDE stands under an APPLIED halt brake (R111). -/
theorem Hub.doorStep_setKneel {new : KneelState} {h : Hub} (hn : h.DoorForm → new ≠ .ride → h.brake.halt = .applied) :
    h.DoorStep (h.setKneel new) := by
  obtain ⟨g, hg, hdoors, hlines⟩ : ∃ g : Hub, h.setKneel new = g.judgePermit ∧ g.doors = h.doors ∧
      g.link.lines = h.link.lines :=
    ⟨_, rfl, by simp, by simp⟩
  have hkneel : g.kneel.state = new := by simpa [hg] using h.setKneel_state new
  have hhalt : g.brake.halt = h.brake.halt := by simpa [hg] using h.setKneel_halt new
  have hstanding : g.standing = h.standing := by simpa [hg] using h.setKneel_standing new
  have hdoor : ∀ d, g.door d = h.door d := fun d => by rw [Hub.door, hdoors, Hub.door]
  have hlocked : g.doorsLocked = h.doorsLocked := Hub.doorsLocked_congr (by rw [hdoors])
  rw [hg]
  refine Hub.DoorMoves.judged ⟨fun hf => ⟨fun d => ?_, ?_, fun d => ?_, fun d => ?_, fun hne => ?_⟩, fun _ hgr d => ?_,
    fun _ ho => ?_⟩ fun _ hc => ?_
  · rw [hlines, hdoor]; exact hf.lines d
  · rw [hlines, hdoors]; exact hf.permitLine
  · rw [hdoor]; exact hf.disabled d
  · rw [hdoor]; exact hf.position d
  · rw [hhalt]; exact hn hf (hkneel ▸ hne)
  · rw [hdoor, hhalt, hstanding]; exact hgr d
  · rw [Hub.OpenHalted, hhalt, hstanding, hlocked]; exact ho
  · rw [Hub.ConditionJudged, hdoors, hlocked, Hub.releasesWithdrawn_congr (h := h) (by rw [hdoors])]; exact hc

theorem Hub.doorStep_stopKneel (cause : StopCause) (c : Option Circuit) (h : Hub) : h.DoorStep (h.stopKneel cause c) := by
  unfold Hub.stopKneel
  split
  case h_1 hk | h_2 hk | h_3 hk =>
    refine Hub.DoorStep.trans (g := h.onKneel fun u =>
        { u with cause := some cause, circuit := c, before := some u.state }) (.of_eq rfl rfl rfl rfl rfl rfl)
      (Hub.doorStep_setKneel fun hf _ => hf.kneeling (by simp [hk]))
  all_goals exact .refl _

theorem Hub.doorStep_autoRaise (h : Hub) : h.DoorStep h.autoRaise := by
  unfold Hub.autoRaise
  split
  · next hk =>
    refine Hub.DoorStep.trans (g := h.writeTargets .raise) (.of_eq rfl rfl rfl rfl rfl rfl)
      (Hub.doorStep_setKneel fun hf _ => hf.kneeling ?_)
    obtain ⟨-, hk | hk⟩ := hk <;> simp [Hub.writeTargets, hk]
  · exact .refl _

theorem Hub.judgeCondition_judged (h : Hub) : h.judgeCondition.ConditionJudged := by
  rw [Hub.ConditionJudged, Hub.doorsLocked_congr (h := h) (by simp), Hub.releasesWithdrawn_congr (h := h) (by simp)]
  simp

theorem Hub.moves_judgeCondition (h : Hub) : h.DoorMoves h.judgeCondition := by
  unfold Hub.judgeCondition
  extract_lets now changed
  have hchanged : h.DoorMoves changed :=
    ⟨fun hf => ⟨hf.lines, hf.permitLine, hf.disabled, hf.position, hf.kneeling⟩, fun _ hg => hg, fun _ ho => ho⟩
  split
  · exact (Hub.DoorStep.refl h).toDoorMoves
  · split
    · exact hchanged.trans (Hub.doorStep_autoRaise changed).toDoorMoves
    · exact hchanged

/-! ## Releases -/

/-- The positions, enables and handles do not hang on a release. -/
@[simp] theorem Hub.setRelease_doorsLocked (d : Door) (new : Release) (h : Hub) :
    (h.setRelease d new).doorsLocked = h.doorsLocked := by
  have : ∀ d', ((h.setRelease d new).door d').enabled = (h.door d').enabled ∧
      ((h.setRelease d new).door d').position = (h.door d').position := fun d' => by
    rw [Hub.setRelease_door]
    split
    · next heq => rw [heq]; exact ⟨rfl, rfl⟩
    · exact ⟨rfl, rfl⟩
  simp only [Hub.doorsLocked, this]

/-- A change of a release: GRANTED at standstill under an APPLIED halt brake, and away from WITHDRAWN on an enabled door
alone (R125, R126). -/
theorem Hub.doorStep_setRelease {d : Door} {new : Release} {h : Hub}
    (hgrant : new = .granted → h.standing = true ∧ h.brake.halt = .applied)
    (hen : new = .withdrawn ∨ (h.door d).enabled = true) : h.DoorStep (h.setRelease d new) := by
  unfold Hub.setRelease
  split
  · exact .refl h
  · extract_lets changed
    have hmoves : h.DoorMoves ((changed.driveRelease d (new == .granted)).raiseRelease d) := by
      have hdoor : ∀ d', ((changed.driveRelease d (new == .granted)).raiseRelease d).door d' =
          if d' = d then { h.door d with release := new } else h.door d' := fun d' => by
        simp [Hub.door, Hub.raiseRelease, changed, PerDoor.get_set]
      have hline : ∀ d', ((changed.driveRelease d (new == .granted)).raiseRelease d).link.lines.release.get d' =
          if d' = d then new == .granted else h.link.lines.release.get d' := fun d' => by
        simp [Hub.raiseRelease, Hub.driveRelease, changed, PerDoor.get_set]
      have hlocked : ((changed.driveRelease d (new == .granted)).raiseRelease d).doorsLocked = h.doorsLocked := by
        have : ∀ d', (((changed.driveRelease d (new == .granted)).raiseRelease d).door d').enabled = (h.door d').enabled ∧
            (((changed.driveRelease d (new == .granted)).raiseRelease d).door d').position = (h.door d').position :=
          fun d' => by
            rw [hdoor]
            split
            · next heq => rw [heq]; exact ⟨rfl, rfl⟩
            · exact ⟨rfl, rfl⟩
        simp [Hub.doorsLocked, this]
      refine ⟨fun hf => ⟨fun d' => ?_, hf.permitLine, fun d' => ?_, fun d' => ?_, hf.kneeling⟩, fun _ hg d' => ?_,
        fun _ ho => ?_⟩
      · rw [hline, hdoor]
        split
        · rfl
        · exact hf.lines d'
      · rw [hdoor]
        split
        · intro hno
          obtain ⟨-, hmark, hspeed⟩ := hf.disabled d hno
          exact ⟨hen.resolve_right (by simpa using hno), hmark, hspeed⟩
        · exact hf.disabled d'
      · rw [hdoor]
        split
        · exact hf.position d
        · exact hf.position d'
      · rw [hdoor]
        split
        · exact hgrant
        · exact hg d'
      · rw [Hub.OpenHalted, hlocked]
        exact ho
    exact (hmoves.trans (Hub.moves_judgeCondition _)).judged fun _ _ => Hub.judgeCondition_judged _

/-- The waiting releases are granted at standstill under an APPLIED halt brake (R129). -/
theorem Hub.doorStep_grantWaiting {h : Hub} (hs : h.standing = true) (hb : h.brake.halt = .applied) :
    h.DoorStep h.grantWaiting := by
  have hfold : ∀ (l : List Door) (g : Hub), g.standing = true → g.brake.halt = .applied → g.DoorStep
      (l.foldl (fun h d => if (h.door d).release = .waiting then h.setRelease d .granted else h) g) := by
    intro l
    induction l with
    | nil => exact fun g _ _ => .refl g
    | cons d l ih =>
      intro g hs hb
      rw [List.foldl_cons]
      split
      · next hw =>
        refine Hub.DoorStep.trans ?_ (ih _ (by simpa using hs) (by simpa using hb))
        have hstep : (g.door d).enabled = true → g.DoorStep (g.setRelease d .granted) := fun hen =>
          Hub.doorStep_setRelease (fun _ => ⟨hs, hb⟩) (.inr hen)
        have henabled : g.DoorForm → (g.door d).enabled = true := fun hf => by
          by_contra hno
          simpa [hw] using (hf.disabled d (by simpa using hno)).1
        exact ⟨⟨fun hf => (hstep (henabled hf)).form hf, fun hf => (hstep (henabled hf)).granted hf,
          fun hf => (hstep (henabled hf)).openHalt hf⟩, fun hf => (hstep (henabled hf)).condition hf,
          fun hf => (hstep (henabled hf)).permit hf⟩
      · exact ih g hs hb
  exact hfold Door.all h hs hb

/-! ## The halt brake -/

/-- A change of the halt state: a release needs locked doors, no release and RIDE; APPLYING needs no kneel and no grant
(R81, R85). -/
theorem Hub.doorStep_setHalt {new : HaltState} {h : Hub}
    (hkneel : h.DoorForm → new ≠ .applied → h.kneel.state = .ride)
    (hgrant : h.DoorForm → h.GrantsStand → new ≠ .applied → ∀ d, (h.door d).release ≠ .granted)
    (hopen : new = .released → h.doorsLocked = true) : h.DoorStep (h.setHalt new) := by
  unfold Hub.setHalt
  extract_lets changed
  have hchanged : h.DoorMoves changed := by
    refine ⟨fun hf => ⟨hf.lines, hf.permitLine, hf.disabled, hf.position, fun hne => ?_⟩, fun hf hg d hd => ?_, fun _ ho hs hl => ?_⟩
    · by_contra happlied
      exact hne (hkneel hf happlied)
    · by_contra hno
      have happlied : new ≠ .applied := fun heq => hno ⟨(hg d hd).1, heq⟩
      exact hgrant hf hg happlied d hd
    · intro hrel
      have hlocked : h.doorsLocked = false := hl
      simp [hopen hrel] at hlocked
  split
  · next hs =>
    have hgranted := Hub.doorStep_grantWaiting (h := changed) hs.2 hs.1
    exact (hchanged.trans hgranted.toDoorMoves).judged fun hf hc => hgranted.condition (hchanged.form hf) hc
  · exact hchanged.judged fun _ hc => hc

theorem Hub.doorStep_requestApply (h : Hub) : h.DoorStep h.requestApply := by
  unfold Hub.requestApply
  split
  · next hrel =>
    refine Hub.doorStep_setHalt (fun hf _ => ?_) (fun _ hg _ d hd => ?_) nofun
    · by_contra hne
      exact absurd (hrel.symm.trans (hf.kneeling hne)) (by decide)
    · exact absurd (hrel.symm.trans (hg d hd).2) (by decide)
  · exact .refl h

theorem Hub.requestApply_halt (h : Hub) : h.requestApply.brake.halt ≠ .released := by
  unfold Hub.requestApply
  split
  · simp
  · assumption

theorem Hub.doorStep_judgeAutoHalt (h : Hub) : h.DoorStep h.judgeAutoHalt := by
  unfold Hub.judgeAutoHalt
  split
  · exact Hub.doorStep_requestApply h
  · exact .refl h

@[simp] theorem Hub.requestApply_door (h : Hub) (d : Door) : h.requestApply.door d = h.door d := by
  unfold Hub.requestApply
  split
  · simp [Hub.setHalt, Hub.door]
  · rfl

/-- The automatic halt apply makes an open door at standstill stand under the halt brake (R134). -/
theorem Hub.judgeAutoHalt_openHalted (h : Hub) : h.judgeAutoHalt.OpenHalted := by
  unfold Hub.judgeAutoHalt
  split
  · exact fun _ _ => h.requestApply_halt
  · next hno => exact fun hs hl => absurd ⟨hs, hl⟩ hno

/-! ## Standstill -/

theorem Hub.doorStep_judgeActivities (h : Hub) : h.DoorStep h.judgeActivities :=
  .of_eq (by simp) (by simp) (by simp) (by simp [Hub.standing]) (Brake.halt_of_base (by simp)) (by simp)

/-- Standstill becomes TRUE (R129, R134). -/
theorem Hub.enterStandstill_sound {h : Hub} (hs : h.DoorsSound) : h.enterStandstill.DoorsSound := by
  unfold Hub.enterStandstill
  extract_lets changed granted
  have hchanged : changed.DoorForm ∧ changed.GrantsStand ∧ changed.ConditionJudged ∧ changed.PermitJudged :=
    ⟨⟨hs.lines, hs.permitLine, hs.disabled, hs.position, hs.kneeling⟩, fun d hd => ⟨rfl, (hs.granted d hd).2⟩, hs.condition, hs.permit⟩
  obtain ⟨hform, hgrants, hcondition, hpermit⟩ := hchanged
  have hgranted : changed.DoorStep granted := by
    simp only [granted]
    split
    · next hb => exact Hub.doorStep_grantWaiting rfl hb
    · exact .refl _
  have hjudged := hgranted.trans (Hub.doorStep_judgeAutoHalt granted)
  have hsound : granted.judgeAutoHalt.DoorsSound :=
    ⟨hjudged.form hform, hjudged.granted hform hgrants, Hub.judgeAutoHalt_openHalted _, hjudged.condition hform hcondition,
      hjudged.permit hform hpermit⟩
  exact (Hub.doorStep_judgeActivities _).sound hsound

/-- After its handling no door's release is GRANTED (R130). -/
theorem Hub.withdrawByMotion_release {h : Hub} (hf : h.DoorForm) (d : Door) :
    ((h.withdrawByMotion d).door d).release ≠ .granted := by
  unfold Hub.withdrawByMotion
  split
  · split <;> simp_all
  · next hno => simp [(hf.disabled d (by simpa using hno)).1]

theorem Hub.withdrawByMotion_other {h : Hub} {d d' : Door} (hne : d' ≠ d) :
    (h.withdrawByMotion d).door d' = h.door d' := by
  unfold Hub.withdrawByMotion
  (repeat' split) <;> simp [hne]

theorem Hub.doorStep_withdrawByMotion (h : Hub) (d : Door) : h.DoorStep (h.withdrawByMotion d) := by
  unfold Hub.withdrawByMotion
  split
  · next hen =>
    split <;> first
      | exact .refl h
      | exact Hub.doorStep_setRelease nofun (.inr hen)
  · exact .refl h

/-- The doors' releases at a loss of standstill (R130). -/
theorem Hub.foldl_withdrawByMotion {h : Hub} (hf : h.DoorForm) (l : List Door) :
    (l.foldl Hub.withdrawByMotion h).DoorForm ∧
    ∀ d, ((l.foldl Hub.withdrawByMotion h).door d).release = .granted → d ∉ l ∧ (h.door d).release = .granted := by
  induction l generalizing h with
  | nil => exact ⟨hf, fun d hd => ⟨List.not_mem_nil, hd⟩⟩
  | cons d' l ih =>
    obtain ⟨hform, hnone⟩ := ih ((h.doorStep_withdrawByMotion d').form hf)
    refine ⟨hform, fun d hd => ?_⟩
    obtain ⟨hmem, hgr⟩ := hnone d hd
    have hne : d ≠ d' := fun heq => Hub.withdrawByMotion_release hf d' (heq ▸ hgr)
    rw [Hub.withdrawByMotion_other hne] at hgr
    exact ⟨fun hin => (List.mem_cons.mp hin).elim hne hmem, hgr⟩

/-- Standstill becomes FALSE (R116, R130). -/
theorem Hub.leaveStandstill_sound {h : Hub} (hs : h.DoorsSound) : h.leaveStandstill.DoorsSound := by
  unfold Hub.leaveStandstill
  extract_lets changed
  have hform : changed.DoorForm := ⟨hs.lines, hs.permitLine, hs.disabled, hs.position, hs.kneeling⟩
  have hopen : ∀ g : Hub, g.standing = false → g.OpenHalted := fun g hno hst => by simp [hno] at hst
  refine (Hub.doorStep_judgeActivities _).sound ?_
  split
  · have hstopped := Hub.doorStep_stopKneel .standstill none changed
    have hstep : changed.DoorStep (Door.all.foldl Hub.withdrawByMotion (changed.stopKneel .standstill none)) :=
      hstopped.trans (Hub.doorStep_foldl Hub.doorStep_withdrawByMotion _ _)
    obtain ⟨hf, hnone⟩ := Hub.foldl_withdrawByMotion (hstopped.form hform) Door.all
    refine ⟨hf, fun d hd => absurd d.mem_all (hnone d hd).1, hopen _ ?_, hstep.condition hform hs.condition,
      hstep.permit hform hs.permit⟩
    simp [Hub.standing, foldl_keeps Hub.sensing, changed]
  · next hno =>
    exact ⟨hform, fun d hd => absurd (hs.granted d hd).1 hno, hopen _ rfl, hs.condition, hs.permit⟩

/-! ## Inputs, handles and orders -/

/-- A change to one door's fields that no interlock reads, but those of that door itself. -/
theorem Hub.DoorForm.onDoor {h : Hub} (hf : h.DoorForm) {d : Door} {g : DoorHold → DoorHold}
    (hrelease : (g (h.door d)).release = (h.door d).release)
    (hdisabled : (g (h.door d)).enabled = false → (g (h.door d)).release = .withdrawn ∧ (g (h.door d)).mark = false ∧
      (g (h.door d)).atSpeed = false)
    (hposition : (g (h.door d)).position = positionOf (g (h.door d)).debounced) : (h.onDoor d g).DoorForm := by
  refine ⟨fun d' => ?_, hf.permitLine, fun d' => ?_, fun d' => ?_, hf.kneeling⟩
  · rw [Hub.door_onDoor]
    split
    · next heq => rw [hrelease, heq]; exact hf.lines d
    · exact hf.lines d'
  · rw [Hub.door_onDoor]
    split
    · exact hdisabled
    · exact hf.disabled d'
  · rw [Hub.door_onDoor]
    split
    · exact hposition
    · exact hf.position d'

/-- The door condition and the move permit read a door's enable, position, release and debounced handle. -/
theorem Hub.reads_onDoor {h : Hub} {d : Door} {g : DoorHold → DoorHold} (hen : (g (h.door d)).enabled = (h.door d).enabled)
    (hpos : (h.door d).enabled = true → (g (h.door d)).position = (h.door d).position)
    (hrel : (g (h.door d)).release = (h.door d).release) :
    (h.onDoor d g).doorsLocked = h.doorsLocked ∧ (h.onDoor d g).releasesWithdrawn = h.releasesWithdrawn ∧
    (((h.door d).enabled = true → (g (h.door d)).debounced.handle = (h.door d).debounced.handle) →
      (h.onDoor d g).permitHolds = h.permitHolds) := by
  have hlocked : (h.onDoor d g).doorsLocked = h.doorsLocked := by
    refine congrArg (fun f => Door.all.all f) (funext fun d' => ?_)
    rw [Hub.door_onDoor]
    split
    · next heq =>
      subst heq
      rw [hen]
      cases hb : (h.door d').enabled
      · rfl
      · rw [hpos hb]
    · rfl
  have hwithdrawn : (h.onDoor d g).releasesWithdrawn = h.releasesWithdrawn := by
    refine congrArg (fun f => Door.all.all f) (funext fun d' => ?_)
    rw [Hub.door_onDoor]
    split
    · next heq => rw [hrel, heq]
    · rfl
  refine ⟨hlocked, hwithdrawn, fun hhandle => ?_⟩
  have hrest : (h.onDoor d g).handlesAtRest = h.handlesAtRest := by
    refine congrArg (fun f => Door.all.all f) (funext fun d' => ?_)
    rw [Hub.door_onDoor]
    split
    · next heq =>
      subst heq
      rw [hen]
      cases hb : (h.door d').enabled
      · rfl
      · rw [hhandle hb]
    · rfl
  rw [Hub.permitHolds, hlocked, hwithdrawn, hrest]
  rfl

/-- Such a change as a step. -/
theorem Hub.doorStep_onDoor {h : Hub} {d : Door} {g : DoorHold → DoorHold} (hen : (g (h.door d)).enabled = (h.door d).enabled)
    (hpos : (g (h.door d)).position = (h.door d).position) (hrel : (g (h.door d)).release = (h.door d).release)
    (hdeb : (g (h.door d)).debounced = (h.door d).debounced)
    (hdisabled : h.DoorForm → (h.door d).enabled = false → (g (h.door d)).mark = false ∧ (g (h.door d)).atSpeed = false) :
    h.DoorStep (h.onDoor d g) := by
  obtain ⟨hlocked, hwithdrawn, hpermit⟩ := Hub.reads_onDoor hen (fun _ => hpos) hrel
  refine ⟨⟨fun hf => hf.onDoor hrel (fun hno => ?_) (by rw [hpos, hdeb]; exact hf.position d), fun _ hg d' => ?_, fun _ ho => ?_⟩,
    fun _ hc => ?_, fun _ hp => ?_⟩
  · rw [hen] at hno
    exact ⟨hrel.trans (hf.disabled d hno).1, hdisabled hf hno⟩
  · rw [Hub.door_onDoor]
    split
    · next heq => rw [hrel]; exact hg d
    · exact hg d'
  · rw [Hub.OpenHalted, hlocked]; exact ho
  · rw [Hub.ConditionJudged, hlocked, hwithdrawn]; exact hc
  · rw [Hub.PermitJudged, hpermit fun _ => by rw [hdeb]]; exact hp

theorem Hub.doorStep_raise (kind : EventKind) (subject : Nat) (value : Int) (h : Hub) : h.DoorStep (h.raise kind subject value) :=
  .of_eq (by simp) (by simp) (by simp) (by simp [Hub.standing]) (by simp) (by simp)

/-- An enabled door's handle acts (R131). -/
theorem Hub.doorStep_handleActs {d : Door} {h : Hub} (hen : (h.door d).enabled = true) : h.DoorStep (h.handleActs d) := by
  unfold Hub.handleActs
  extract_lets fresh asked moved
  have hasked : h.DoorStep asked :=
    (Hub.doorStep_onDoor (g := fun x => { x with mark := true }) rfl rfl rfl rfl fun _ hno => by simp [hen] at hno).trans
      (Hub.doorStep_requestApply _)
  have henabled : (asked.door d).enabled = true := by simpa [asked] using hen
  have hmoved : asked.DoorStep moved := by
    simp only [moved]
    split
    · refine Hub.doorStep_setRelease (fun hgr => ?_) (.inr henabled)
      unfold Hub.handleRelease at hgr
      split at hgr
      · split at hgr
        · assumption
        · cases hgr
      · next hne => exact absurd rfl hne
    · split
      · exact Hub.doorStep_raise _ _ _ _
      · exact .refl _
  exact (hasked.trans hmoved).trans (Hub.doorStep_raise _ _ _ _)

theorem Hub.doorStep_judgeAtSpeed (h : Hub) (d : Door) : h.DoorStep (h.judgeAtSpeed d) := by
  unfold Hub.judgeAtSpeed
  split
  · next hs =>
    have hstep : (h.door d).enabled = true → h.DoorStep ((h.onDoor d fun x => { x with atSpeed := false }).handleActs d) :=
      fun hen => (Hub.doorStep_onDoor (g := fun x => { x with atSpeed := false }) rfl rfl rfl rfl
        fun _ hno => by simp [hen] at hno).trans (Hub.doorStep_handleActs (by simpa using hen))
    have henabled : h.DoorForm → (h.door d).enabled = true := fun hf => by
      by_contra hno
      simpa [hs.1] using (hf.disabled d (by simpa using hno)).2.2
    exact ⟨⟨fun hf => (hstep (henabled hf)).form hf, fun hf => (hstep (henabled hf)).granted hf,
      fun hf => (hstep (henabled hf)).openHalt hf⟩, fun hf => (hstep (henabled hf)).condition hf,
      fun hf => (hstep (henabled hf)).permit hf⟩
  · exact .refl h

theorem Hub.onDoor_self {h : Hub} {d : Door} {g : DoorHold → DoorHold} (hg : g (h.door d) = h.door d) : h.onDoor d g = h := by
  have hdoors : h.doors.doors.set d (h.doors.doors.get d) = h.doors.doors := PerDoor.ext_get fun i => by
    rw [PerDoor.get_set]
    split
    · next heq => rw [heq]
    · rfl
  have hg' : g (h.doors.doors.get d) = h.doors.doors.get d := hg
  rw [Hub.onDoor, Hub.onDoors, hg', hdoors]

theorem Hub.onDoor_onDoor (h : Hub) (d : Door) (f g : DoorHold → DoorHold) :
    (h.onDoor d f).onDoor d g = h.onDoor d fun x => g (f x) := by
  have hdoors : ∀ (v : PerDoor DoorHold) x y, (v.set d x).set d y = v.set d y := fun v x y => PerDoor.ext_get fun i => by
    simp only [PerDoor.get_set]
    split <;> rfl
  simp only [Hub.onDoor, Hub.onDoors, PerDoor.get_set_self, hdoors]

/-- A debounced change of a switch (R124, R134 to R136). -/
theorem Hub.positionChange_sound {d : Door} {h : Hub}
    (hset : (h.onDoor d fun y => { y with position := positionOf (h.door d).debounced }).DoorForm)
    (hg : h.GrantsStand) (ho : h.OpenHalted) (hc : h.ConditionJudged) (hp : h.PermitJudged) :
    (h.positionChange d).DoorsSound := by
  unfold Hub.positionChange
  extract_lets now changed
  split
  · next heq =>
    have hself : (h.onDoor d fun y => { y with position := now }) = h := Hub.onDoor_self (by rw [← heq])
    exact ⟨hself ▸ hset, hg, ho, hc, hp⟩
  · have hstep : (h.onDoor d fun y => { y with position := now }).DoorStep changed :=
      .of_doors (by simp [changed]) (by simp [changed]) (by simp [changed]) (by simp [changed]) (by simp [changed])
        (by simp [changed, Hub.standing]) (by simp [changed]) (by simp [changed])
    have hgrants : (h.onDoor d fun y => { y with position := now }).GrantsStand := fun d' => by
      rw [Hub.door_onDoor]
      split
      · exact hg d
      · exact hg d'
    have hform := hstep.form hset
    split
    · have hauto := Hub.doorStep_judgeAutoHalt changed
      have hmoves := hauto.toDoorMoves.trans (Hub.moves_judgeCondition _)
      have hcondition := Hub.moves_judgeCondition changed.judgeAutoHalt
      refine ⟨(Hub.moves_judgePermit _).form (hmoves.form hform),
        (Hub.moves_judgePermit _).granted (hmoves.form hform) (hmoves.granted hform (hstep.granted hset hgrants)),
        (Hub.moves_judgePermit _).openHalt (hmoves.form hform)
          (hcondition.openHalt (hauto.form hform) (Hub.judgeAutoHalt_openHalted _)),
        Hub.judgePermit_condition (Hub.judgeCondition_judged _), Hub.judgePermit_judged _⟩
    · next hno =>
      obtain ⟨hlocked, hwithdrawn, hpermit⟩ := Hub.reads_onDoor (h := h) (d := d) (g := fun y => { y with position := now }) rfl
        (fun hen => absurd hen hno) rfl
      refine hstep.sound ⟨hset, hgrants, ?_, ?_, ?_⟩
      · rw [Hub.OpenHalted, hlocked]; exact ho
      · rw [Hub.ConditionJudged, hlocked, hwithdrawn]; exact hc
      · rw [Hub.PermitJudged, hpermit fun _ => rfl]; exact hp

/-- A debounced change of a handle (R131 to R133, R136). -/
theorem Hub.handleChange_sound {d : Door} {h : Hub} (hform : h.DoorForm) (hg : h.GrantsStand) (ho : h.OpenHalted)
    (hc : h.ConditionJudged) (hp : (h.door d).enabled = false → h.PermitJudged) : (h.handleChange d).DoorsSound := by
  unfold Hub.handleChange
  split
  · next hen =>
    have hspeed : ∀ b v, h.DoorStep ((h.onDoor d fun x => { x with atSpeed := b }).raise .doorEmergency d.num v) := fun b v =>
      (Hub.doorStep_onDoor (g := fun x => { x with atSpeed := b }) rfl rfl rfl rfl fun _ hno => by simp [hen] at hno).trans
        (Hub.doorStep_raise _ _ _ _)
    have hstep : h.DoorStep (if (h.door d).debounced.handle then h.handleActive d else h.handleInactive d) := by
      split
      · unfold Hub.handleActive
        split
        · exact Hub.doorStep_handleActs hen
        · exact hspeed true 2
      · exact hspeed false 0
    have hjudged := hstep.toDoorMoves.trans (Hub.moves_judgePermit _)
    exact ⟨hjudged.form hform, hjudged.granted hform hg, hjudged.openHalt hform ho,
      Hub.judgePermit_condition (hstep.condition hform hc), Hub.judgePermit_judged _⟩
  · next hno => exact ⟨hform, hg, ho, hc, hp (by simpa using hno)⟩

/-- An expiry of a debounce timer (R123, R124, R131). -/
theorem Hub.debounceExpiry_sound (d : Door) (i : DoorInput) {h : Hub} (hs : h.DoorsSound) : (h.debounceExpiry d i).DoorsSound := by
  unfold Hub.debounceExpiry
  extract_lets stopped raw taken
  have hstopped : stopped.DoorsSound :=
    (Hub.doorStep_onDoor (g := fun x => { x with timers := x.timers.set i .stopped }) rfl rfl rfl rfl
      fun hf hno => (hf.disabled d hno).2).sound hs
  clear_value stopped
  split
  · exact hstopped
  · obtain ⟨hlocked, hwithdrawn, hpermit⟩ := Hub.reads_onDoor (h := stopped) (d := d)
      (g := fun x => { x with debounced := withLevel x.debounced i raw }) rfl (fun _ => rfl) rfl
    have hgrants : taken.GrantsStand := fun d' => by
      simp only [taken, Hub.door_onDoor]
      split
      · exact hstopped.granted d
      · exact hstopped.granted d'
    have hopen : taken.OpenHalted := by rw [Hub.OpenHalted, hlocked]; exact hstopped.openHalt
    have hcondition : taken.ConditionJudged := by rw [Hub.ConditionJudged, hlocked, hwithdrawn]; exact hstopped.condition
    have hform : ∀ (g : DoorHold → DoorHold), taken.onDoor d g =
        stopped.onDoor d fun x => g { x with debounced := withLevel x.debounced i raw } := fun g => Hub.onDoor_onDoor _ _ _ _
    cases i with
    | closed | lock =>
      refine Hub.positionChange_sound ?_ hgrants hopen hcondition (by
        rw [Hub.PermitJudged, hpermit fun _ => rfl]; exact hstopped.permit)
      rw [hform]
      refine hstopped.onDoor rfl (fun hno => hstopped.disabled d hno) ?_
      simp [taken]
    | handle =>
      refine Hub.handleChange_sound (hstopped.onDoor rfl (fun hno => hstopped.disabled d hno) (hstopped.position d)) hgrants hopen
        hcondition fun hno => ?_
      rw [Hub.PermitJudged, hpermit fun hen => ?_]
      · exact hstopped.permit
      · have hsame : (taken.door d).enabled = (stopped.door d).enabled := by simp [taken]
        rw [hsame, hen] at hno
        cases hno

/-! ## The orders -/

theorem serveHaltOn_step (h : Hub) : h.DoorStep (serveHaltOn h).1 := by
  unfold serveHaltOn
  split
  · next hrel =>
    split
    · have hstep := Hub.doorStep_requestApply h
      rwa [Hub.requestApply, if_pos hrel] at hstep
    · exact .refl h
  · exact .refl h

theorem serveHaltOff_step (h : Hub) : h.DoorStep (serveHaltOff h).1 := by
  unfold serveHaltOff
  split
  · exact .refl h
  · split
    · next hi =>
      simp only [Hub.haltOffInterlocks, Bool.and_eq_true, beq_iff_eq] at hi
      obtain ⟨⟨⟨hlocked, hwithdrawn⟩, -⟩, hride⟩ := hi
      refine Hub.doorStep_setHalt (fun _ _ => hride) (fun _ _ _ d hd => ?_) fun _ => hlocked
      have hd' := List.all_eq_true.mp hwithdrawn d d.mem_all
      simp [hd] at hd'
    · exact .refl h

theorem Hub.doorStep_writeTargets (source : TargetSource) (h : Hub) : h.DoorStep (h.writeTargets source) :=
  .of_eq rfl rfl rfl rfl rfl rfl

theorem serveKneel_step (h : Hub) : h.DoorStep (serveKneel h).1 := by
  unfold serveKneel
  split
  · exact .refl h
  · exact .refl h
  all_goals
    split
    · exact .refl h
    · split
      · exact .refl h
      · next hb =>
        split
        · exact .refl h
        · exact (Hub.doorStep_writeTargets _ h).trans (Hub.doorStep_setKneel fun _ _ => not_not.mp hb)

theorem serveRaise_step (h : Hub) : h.DoorStep (serveRaise h).1 := by
  unfold serveRaise
  split
  · exact .refl h
  · exact .refl h
  all_goals
    next hk =>
      exact (Hub.doorStep_writeTargets _ h).trans
        (Hub.doorStep_setKneel fun hf _ => hf.kneeling (by simp [Hub.writeTargets, hk]))

theorem serveRelease_step (payload : List Byte) (h : Hub) : h.DoorStep (serveRelease payload h).1 := by
  have hfold : ∀ mask (l : List Door) (g : Hub), g.standing = true → g.DoorStep (l.foldl (Hub.releaseDoor mask) g) := by
    intro mask l
    induction l with
    | nil => exact fun g _ => .refl g
    | cons d l ih =>
      intro g hs
      have hone : g.DoorStep (g.releaseDoor mask d) ∧ (g.releaseDoor mask d).standing = true := by
        unfold Hub.releaseDoor
        split
        · next hd =>
          refine ⟨Hub.doorStep_setRelease (fun hgr => ⟨hs, ?_⟩) (.inr hd.2.1), by simpa using hs⟩
          by_contra hno
          simp [hno] at hgr
        · exact ⟨.refl g, hs⟩
      exact hone.1.trans (ih _ hone.2)
  unfold serveRelease
  split
  · exact .refl h
  · split
    · exact .refl h
    · split
      · exact .refl h
      · next hs =>
        split
        · exact .refl h
        · exact (hfold _ _ h (by simpa using hs)).trans (Hub.doorStep_requestApply _)

theorem serveWithdraw_step (payload : List Byte) (h : Hub) : h.DoorStep (serveWithdraw payload h).1 := by
  unfold serveWithdraw
  split
  · exact .refl h
  · refine Hub.doorStep_foldl (fun g d => ?_) _ h
    unfold Hub.withdrawDoor
    split
    · next hd =>
      exact (Hub.doorStep_onDoor (g := fun x => { x with mark := false }) rfl rfl rfl rfl
        fun _ hno => absurd (hno.symm.trans hd.2.1) (by decide)).trans (Hub.doorStep_setRelease nofun (.inl rfl))
    · exact .refl g

/-! ## Levelling, braking and the pulses -/

theorem Hub.doorStep_exclude (cs : List Circuit) (add : Causes → Causes) (h : Hub) : h.DoorStep (h.exclude cs add) := by
  unfold Hub.exclude
  extract_lets newly marked out handed
  have hout : h.DoorStep out := .of_eq (by simp [out, marked, foldl_keeps Hub.doors])
    (by simp [out, marked, foldl_keeps Hub.link]) (by simp [out, marked, foldl_keeps Hub.link])
    (by simp [Hub.standing, out, marked, foldl_keeps Hub.sensing])
    (Brake.halt_of_base ((foldl_keeps (fun g : Hub => g.brake.base) _ Hub.takeOut_base _ _).trans (by simp [marked])))
    (by simp [out, marked, foldl_keeps Hub.kneel])
  have hhanded : out.DoorStep handed := by
    refine Hub.doorStep_foldl (fun g c => ?_) _ out
    split
    · exact Hub.doorStep_stopKneel _ _ g
    · exact .refl g
  exact (hout.trans hhanded).trans
    (.of_eq (by simp) (by simp [Hub.writeValves]) (by simp [Hub.writeValves]) (by simp [Hub.standing])
      (Brake.halt_of_base (by simp)) (by simp))

theorem Hub.doorStep_judgeCompletion (h : Hub) : h.DoorStep h.judgeCompletion := by
  unfold Hub.judgeCompletion
  split
  · next hk =>
    split
    · exact Hub.DoorStep.trans (g := h.onKneel fun u => { u with completions := u.completions + 1 }) (.of_eq rfl rfl rfl rfl rfl rfl)
        (Hub.doorStep_setKneel fun hf _ => hf.kneeling (by simp [hk]))
    · exact .refl h
  · split
    · exact Hub.DoorStep.trans (g := h.onKneel fun u => { u with completions := u.completions + 1 }) (.of_eq rfl rfl rfl rfl rfl rfl)
        (Hub.doorStep_setKneel fun _ hne => absurd rfl hne)
    · exact .refl h
  all_goals exact .refl h

/-- The stages of a levelling period reach the brake unit by the axles' activity alone (R78, R105). -/
@[simp] theorem Hub.exitExcluded_base (h : Hub) (c : Circuit) : (h.exitExcluded c).brake.base = h.brake.base := by
  unfold Hub.exitExcluded
  extract_lets x
  split <;> simp

@[simp] theorem Hub.endPause_base (h : Hub) (c : Circuit) : (h.endPause c).brake.base = h.brake.base := by
  unfold Hub.endPause
  extract_lets ends
  split <;> simp

@[simp] theorem Hub.judgePause_base (h : Hub) (c : Circuit) : (h.judgePause c).brake.base = h.brake.base := by
  unfold Hub.judgePause
  extract_lets wantsVent wantsFill pause
  have hpause : ∀ r, (pause r).brake.base = h.brake.base := fun r => by
    simp only [pause, Hub.onCircuit_brake]
    split <;> simp
  (repeat' split) <;> simp [hpause]

@[simp] theorem Hub.stopWaiting_base (h : Hub) (c : Circuit) : (h.stopWaiting c).brake.base = h.brake.base := by
  unfold Hub.stopWaiting
  split <;> simp

@[simp] theorem Hub.stopRunning_base (h : Hub) (c : Circuit) : (h.stopRunning c).brake.base = h.brake.base := by
  unfold Hub.stopRunning
  (repeat' split) <;> simp

@[simp] theorem Hub.advanceSlot_base (h : Hub) (i : FillSlot) : (h.advanceSlot i).brake.base = h.brake.base := by
  unfold Hub.advanceSlot Hub.slowFill
  (repeat' split) <;> simp

@[simp] theorem Hub.startCircuit_base (left : Circuit → Bool) (h : Hub) (c : Circuit) :
    (h.startCircuit left c).brake.base = h.brake.base := by
  have hbegin : ∀ (g : Hub) d, (g.beginAction c d).brake.base = g.brake.base := fun g d => by
    unfold Hub.beginAction
    cases d <;> simp
  unfold Hub.startCircuit
  extract_lets x
  split
  · split
    · simp
    · extract_lets counted
      have hcounted : counted.brake.base = h.brake.base := by
        simp only [counted]
        split <;> simp
      split <;> simp [hbegin, hcounted]
  · rfl

theorem Hub.levellingStops_base (h : Hub) : h.levellingStops.brake.base = h.brake.base := by
  have hfold : ∀ {α : Type} (f : Hub → α → Hub) (l : List α) (g : Hub), (∀ g x, (f g x).brake.base = g.brake.base) →
      (l.foldl f g).brake.base = g.brake.base := fun f l g hf => foldl_keeps (fun g : Hub => g.brake.base) f hf l g
  unfold Hub.levellingStops
  extract_lets exited paused stopped
  rw [hfold _ _ _ Hub.advanceSlot_base, hfold _ _ _ Hub.stopRunning_base, hfold _ _ _ Hub.stopWaiting_base,
    hfold _ _ _ Hub.judgePause_base, hfold _ _ _ Hub.endPause_base, Hub.formSections, Hub.onLevel_brake,
    hfold _ _ _ Hub.exitExcluded_base, Hub.sampleHeights, Hub.onLevel_brake]

/-- The work of a levelling period before the completion is judged (R90 to R105). -/
def Hub.levellingWork (h : Hub) : Hub :=
  (Circuit.all.foldl (Hub.startCircuit (h.leftAction h.levellingStops)) h.levellingStops).grant.writeValves.handErrors

theorem Hub.levellingWork_alike (h : Hub) : h.ReadsAlike h.levellingWork := by
  have hbase : (Circuit.all.foldl (Hub.startCircuit (h.leftAction h.levellingStops)) h.levellingStops).brake.base = h.brake.base :=
    (foldl_keeps (fun g : Hub => g.brake.base) _ (Hub.startCircuit_base _) _ _).trans h.levellingStops_base
  unfold Hub.levellingWork
  exact ⟨by simp [foldl_keeps Hub.doors], by simp [Link.doorLines, Hub.writeValves, foldl_keeps Hub.link],
    by simp [foldl_keeps Hub.sensing], Brake.halt_of_base (by simpa using hbase),
    by simp [Hub.handErrors, foldl_keeps Hub.kneel]⟩

theorem Hub.levellingPeriod_eq (h : Hub) :
    h.levellingPeriod = h.levellingWork.judgeCompletion.onLevel fun u => { u with periods := u.periods + 1, timer := .started } :=
  rfl

theorem Hub.doorStep_levellingPeriod (h : Hub) : h.DoorStep h.levellingPeriod := by
  have hend : ∀ g : Hub, g.DoorStep (g.onLevel fun u => { u with periods := u.periods + 1, timer := .started }) := fun _ =>
    .of_eq rfl rfl rfl rfl rfl rfl
  rw [Hub.levellingPeriod_eq]
  exact (h.levellingWork_alike.step.trans (Hub.doorStep_judgeCompletion _)).trans (hend _)

theorem Hub.doorStep_confirmHalt (h : Hub) : h.DoorStep h.confirmHalt := by
  unfold Hub.confirmHalt
  split
  · split
    · exact Hub.doorStep_setHalt (fun _ hno => absurd rfl hno) (fun _ _ hno => absurd rfl hno) nofun
    · extract_lets time timed
      have htimed : h.DoorStep timed := .of_eq rfl rfl rfl rfl rfl rfl
      split
      · exact htimed.trans (Hub.DoorStep.trans (g := timed.onBrake fun u => { u with haltFault := true })
          (.of_eq rfl rfl rfl rfl rfl rfl) (Hub.doorStep_raise _ _ _ _))
      · exact htimed
  · exact .refl h

/-! ## The installation of an APPLY -/

/-- The doors while the new mask disables those of a list (R125). -/
structure Hub.Disabling (l : List Door) (h : Hub) : Prop where
  lines      : ∀ d, h.link.lines.release.get d = ((h.door d).release == .granted)
  permitLine : h.PermitShown
  disabled   : ∀ d, d ∉ l → (h.door d).enabled = false →
    (h.door d).release = .withdrawn ∧ (h.door d).mark = false ∧ (h.door d).atSpeed = false
  position   : ∀ d, (h.door d).position = positionOf (h.door d).debounced
  halt       : h.brake.halt = .applied
  granted    : ∀ d, (h.door d).release = .granted → h.standing = true

theorem Hub.Disabling.disableDoor {d : Door} {l : List Door} {h : Hub} (hd : h.Disabling (d :: l)) : (h.disableDoor d).Disabling l := by
  have hdoor : ∀ d', (h.disableDoor d).door d' =
      if d' = d then { h.door d with mark := false, atSpeed := false, release := .withdrawn } else h.door d' := fun d' => by
    rw [Hub.disableDoor, Hub.setRelease_door]
    simp only [Hub.door_onDoor]
    split <;> simp_all
  have hlines : ∀ d', (h.disableDoor d).link.lines.release.get d' =
      if d' = d then false else h.link.lines.release.get d' := fun d' => by
    rw [Hub.disableDoor, Hub.setRelease_releaseLines]
    split
    · next hw =>
      split
      · next heq =>
        subst heq
        have hw' : (h.door d').release = .withdrawn := by simpa using hw
        exact (hd.lines d').trans (by rw [hw']; rfl)
      · rfl
    · rw [PerDoor.get_set]; rfl
  refine ⟨fun d' => ?_, Hub.PermitShown.setRelease (h := h.onDoor d _) hd.permitLine d .withdrawn, fun d' hmem => ?_, fun d' => ?_, ?_,
    fun d' => ?_⟩
  · rw [hlines, hdoor]
    split
    · rfl
    · exact hd.lines d'
  · rw [hdoor]
    split
    · exact fun _ => ⟨rfl, rfl, rfl⟩
    · next hne => exact hd.disabled d' fun hin => (List.mem_cons.mp hin).elim hne hmem
  · rw [hdoor]
    split
    · exact hd.position d
    · exact hd.position d'
  · simpa [Hub.disableDoor] using hd.halt
  · have hstanding : (h.disableDoor d).standing = h.standing := by simp [Hub.disableDoor, Hub.standing]
    rw [hdoor, hstanding]
    split
    · nofun
    · exact hd.granted d'

/-- Doors that the new mask disables, and open doors it enables, stand under the APPLIED halt brake of an APPLY (R125,
R170). -/
theorem Hub.installEnables_sound {h : Hub} (hs : h.DoorsSound) (hb : h.brake.halt = .applied) : h.installEnables.DoorsSound := by
  unfold Hub.installEnables
  extract_lets disabled masked
  have hdoor : ∀ d, masked.door d = { h.door d with enabled := h.maskEnables d } := fun d => by
    simp [masked, Hub.door]
  have hmasked : masked.Disabling disabled := by
    refine ⟨fun d => ?_, hs.permitLine, fun d hmem => ?_, fun d => ?_, hb, fun d => ?_⟩
    · rw [hdoor]; exact hs.lines d
    · rw [hdoor]
      intro hno
      refine hs.disabled d ?_
      by_contra hen
      exact hmem (List.mem_filter.mpr ⟨d.mem_all, by simp_all⟩)
    · rw [hdoor]; exact hs.position d
    · rw [hdoor]; exact fun hgr => (hs.granted d hgr).1
  have hfold : ∀ (l : List Door) (g : Hub), g.Disabling l → (l.foldl Hub.disableDoor g).Disabling [] := by
    intro l
    induction l with
    | nil => exact fun g hg => hg
    | cons d l ih => exact fun g hg => ih _ hg.disableDoor
  have hend := hfold disabled masked hmasked
  generalize disabled.foldl Hub.disableDoor masked = g at hend ⊢
  have hform : g.DoorForm := ⟨hend.lines, hend.permitLine, fun d => hend.disabled d List.not_mem_nil, hend.position, fun _ => hend.halt⟩
  have hgrants : g.GrantsStand := fun d hgr => ⟨hend.granted d hgr, hend.halt⟩
  have hopen : g.OpenHalted := fun _ _ hrel => absurd (hend.halt.symm.trans hrel) (by decide)
  have hmoves := (Hub.moves_judgeCondition g).trans (Hub.moves_judgePermit _)
  exact ⟨hmoves.form hform, hmoves.granted hform hgrants, hmoves.openHalt hform hopen,
    Hub.judgePermit_condition (Hub.judgeCondition_judged _), Hub.judgePermit_judged _⟩

theorem Hub.installApply_sound {h : Hub} (hs : h.DoorsSound) (hb : h.brake.halt = .applied) : h.installApply.DoorsSound := by
  have hsteer : ∀ (t : Trailing) (g : Hub), g.DoorStep (g.clampSteer t) := fun t g => by
    unfold Hub.clampSteer
    extract_lets x
    split
    · exact .of_eq (by simp) rfl rfl rfl rfl rfl
    · exact .refl g
  have hload : h.DoorStep ((h.installLoad.clampSteer .a3).clampSteer .a4).formRideTargets :=
    (((Hub.DoorStep.of_eq (h := h) (g := h.installLoad) rfl rfl rfl rfl rfl rfl).trans (hsteer _ _)).trans (hsteer _ _)).trans
      (Hub.DoorStep.of_eq (g := Hub.formRideTargets _) rfl rfl rfl rfl rfl rfl)
  exact Hub.installEnables_sound (hload.sound hs) (by simpa using hb)

theorem Hub.storeCompletion_sound (code : Byte) (depot : Bool) {h : Hub} (hs : h.DoorsSound) :
    (h.storeCompletion code depot).DoorsSound := by
  have hread : (h.readDepot depot).DoorsSound :=
    (Hub.DoorStep.of_eq (h := h) (g := h.readDepot depot) rfl rfl rfl rfl rfl rfl).sound hs
  have heq : ∀ {g f : Hub}, g.DoorsSound → f.doors = g.doors → f.link = g.link → f.sensing = g.sensing →
      f.brake = g.brake → f.kneel = g.kneel → f.DoorsSound := fun {g f} hg h1 h2 h3 h4 h5 =>
    (Hub.DoorStep.of_eq h1 (by rw [h2]) (by rw [h2]) (by rw [Hub.standing, h3, Hub.standing]) (by rw [h4]) (by rw [h5])).sound hg
  unfold Hub.storeCompletion
  split
  · next r _ =>
    split
    · extract_lets pins
      split
      · exact heq hread (by simp [pins]) (by simp [pins]) (by simp [pins]) (by simp [pins]) (by simp [pins])
      · unfold Hub.completeOp
        extract_lets finished
        have hfinished : finished.1.DoorsSound := by
          simp only [finished, Hub.finishWork]
          split
          case h_7 =>
            split
            · next hnone =>
              exact Hub.installApply_sound hread (Hub.applyRefusal_eq_none.mp (Option.isNone_iff_eq_none.mp hnone)).2.1
            · exact hread
          all_goals exact heq hread rfl rfl rfl rfl rfl
        exact heq hfinished (by simp) (by simp) (by simp) (by simp) (by simp)
    · exact hs
  · exact hs

/-! ## The part before the load, and the load -/

/-- What the interlocks read. -/
theorem Hub.DoorInv.of_eq {h g : Hub} (hi : h.DoorInv) (hd : g.doors = h.doors) (hl : g.link.lines.release = h.link.lines.release)
    (hp : g.link.lines.permit = h.link.lines.permit) (hs : g.sensing.standstill = h.sensing.standstill)
    (hb : g.brake.halt = h.brake.halt) (hk : g.kneel.state = h.kneel.state) (hc : g.clock.loaded = h.clock.loaded)
    (hload : g.clock.load = h.clock.load) (hq : g.clock.loaded = false → g.sensing.quiet = h.sensing.quiet) : g.DoorInv := by
  have hdoor : ∀ d, g.door d = h.door d := fun d => by rw [Hub.door, hd, Hub.door]
  have hstanding : g.standing = h.standing := by rw [Hub.standing, hs, Hub.standing]
  cases hloaded : h.clock.loaded with
  | true =>
    obtain ⟨hsound, hstopped⟩ := (Hub.doorInv_iff hloaded).mp hi
    exact (Hub.doorInv_iff (hc.trans hloaded)).mpr
      ⟨(Hub.DoorStep.of_eq hd hl hp hstanding hb hk).sound hsound, hload.trans hstopped⟩
  | false =>
    have hno : g.clock.loaded = false := hc.trans hloaded
    obtain ⟨hpermit, hmoving, hquiet, hride, hreleased, hdoors⟩ := hi.before hloaded
    refine ⟨fun d => ?_, ?_, fun d => ?_, fun d => ?_, fun hyes => ?_, fun hyes => ?_, fun hyes => ?_, fun hyes => ?_, fun hne => ?_,
      fun hyes => ?_, fun _ => ⟨?_, ?_, ?_, ?_, ?_, fun d => ?_⟩⟩
    · rw [hl, hdoor]; exact hi.lines d
    · rw [hp, hd]; exact hi.permitLine
    · rw [hdoor, hstanding, hb]; exact hi.granted d
    · rw [hdoor]; exact hi.disabled d
    · simp [hno] at hyes
    · simp [hno] at hyes
    · simp [hno] at hyes
    · rw [hstanding, hmoving] at hyes; cases hyes
    · rw [hk] at hne; exact absurd hride hne
    · simp [hno] at hyes
    · rw [hd]; exact hpermit
    · rw [hstanding]; exact hmoving
    · rw [hq hno]; exact hquiet
    · rw [hk]; exact hride
    · rw [hb]; exact hreleased
    · rw [hdoor]; exact hdoors d

/-- Whole units that stay. -/
theorem Hub.DoorInv.of_units {h g : Hub} (hi : h.DoorInv) (hd : g.doors = h.doors) (hl : g.link.lines.release = h.link.lines.release)
    (hp : g.link.lines.permit = h.link.lines.permit) (hs : g.sensing = h.sensing) (hb : g.brake = h.brake)
    (hk : g.kneel = h.kneel) (hc : g.clock = h.clock) : g.DoorInv :=
  hi.of_eq hd hl hp (by rw [hs]) (by rw [hb]) (by rw [hk]) (by rw [hc]) (by rw [hc]) fun _ => by rw [hs]

/-- Before the load the doors are sampled under a RELEASED halt brake, with no release (R138). -/
theorem Hub.completeLoad_doorInv (levels : PerDoor DoorLevels) {h : Hub} (hi : h.DoorInv) (hl : h.clock.loaded = false) :
    (h.completeLoad levels).DoorInv := by
  obtain ⟨-, hmoving, -, hride, hreleased, hdoors⟩ := hi.before hl
  unfold Hub.completeLoad
  extract_lets loaded
  obtain ⟨g, hg⟩ : ∃ g, g = loaded.formAccess.startTimers.startLoads.formRideTargets := ⟨_, rfl⟩
  rw [← hg]
  obtain ⟨hsampled, -, hcondition, hpermit⟩ := Hub.sampleDoors_spec levels g
  have hgdoors : g.doors = h.doors := by simp [hg, loaded]
  have hglink : g.link = h.link := by simp [hg, loaded]
  have hgkneel : g.kneel = h.kneel := by simp [hg, loaded]
  have hghalt : g.brake.halt = h.brake.halt := by simp [hg, loaded, Hub.startLoads, Hub.startTimers]
  have hgstanding : g.standing = h.standing := by simp [hg, loaded, Hub.standing, Hub.startTimers]
  have hdoor : ∀ d, (g.door d).release = .withdrawn ∧ (g.door d).mark = false ∧ (g.door d).atSpeed = false := fun d => by
    rw [Hub.door, hgdoors]
    exact ⟨(hdoors d).1, (hdoors d).2.1, (hdoors d).2.2.1⟩
  have hstanding : (g.sampleDoors levels).standing = false := by
    simpa [Hub.standing] using hgstanding.trans hmoving
  have hrelease : ∀ d, ((g.sampleDoors levels).door d).release = .withdrawn := fun d => by
    rw [hsampled]; exact (hdoor d).1
  refine (Hub.doorInv_iff ?_).mpr ⟨⟨⟨fun d => ?_, ?_, fun d _ => ?_, fun d => ?_, fun hne => ?_⟩, fun d hgr => ?_, fun hst => ?_,
    hcondition, hpermit⟩, ?_⟩
  · simp [hg, loaded]
  · have hline : (g.sampleDoors levels).link.lines.release = h.link.lines.release := by simp [Hub.sampleDoors, hglink]
    rw [hline, hrelease, hi.lines d]
    rw [(hdoors d).1]
  · refine Hub.PermitShown.judgePermit (h := (Hub.onDoors _ (Hub.onDoors _ g))) ?_
    simpa [Hub.PermitShown, hglink, hgdoors] using hi.permitLine
  · exact ⟨hrelease d, by rw [hsampled]; exact (hdoor d).2.1, by rw [hsampled]; exact (hdoor d).2.2⟩
  · rw [hsampled]
  · have hsame : (g.sampleDoors levels).kneel.state = .ride := by simpa [hgkneel] using hride
    exact absurd hsame hne
  · rw [hrelease d] at hgr
    cases hgr
  · rw [hstanding] at hst
    cases hst
  · simp [hg, loaded]

/-! ## What stays without a kneel, a grant or a handle -/

@[simp] theorem Hub.exclude_base (cs : List Circuit) (add : Causes → Causes) (h : Hub) :
    (h.exclude cs add).brake.base = h.brake.base := by
  unfold Hub.exclude
  extract_lets newly marked out handed
  have hout : out.brake.base = h.brake.base :=
    (foldl_keeps (fun g : Hub => g.brake.base) _ Hub.takeOut_base _ _).trans (by simp [marked])
  have hhanded : handed.brake.base = out.brake.base :=
    foldl_keeps (fun g : Hub => g.brake.base) _ (fun g c => by split <;> simp) _ _
  simp [hhanded, hout]

/-- In RIDE and STOPPED an exclusion stays within the levelling unit, the valves and the axles' activity (R103, R116). -/
theorem Hub.exclude_of_still {h : Hub} (hk : h.kneel.state = .ride ∨ h.kneel.state = .stopped) (cs : List Circuit)
    (add : Causes → Causes) : (h.exclude cs add).kneel = h.kneel ∧ (h.exclude cs add).doors = h.doors ∧
      (h.exclude cs add).link.lines = h.link.lines ∧ (h.exclude cs add).events = h.events := by
  unfold Hub.exclude
  extract_lets newly marked out handed
  have hout : out.kneel = h.kneel ∧ out.doors = h.doors ∧ out.link = h.link ∧ out.events = h.events := by
    refine ⟨?_, ?_, ?_, ?_⟩ <;>
      simp [out, marked, foldl_keeps Hub.kneel, foldl_keeps Hub.doors, foldl_keeps Hub.link, foldl_keeps Hub.events]
  have hhanded : handed = out := foldl_preserves (P := fun g => g = out) (fun g c hg => by
    rw [hg]
    split
    · exact Hub.stopKneel_of_still (by rw [hout.1]; exact hk) _ _
    · rfl) _ rfl
  rw [hhanded]
  obtain ⟨hkneel, hdoors, hlink, hevents⟩ := hout
  refine ⟨by simp [hkneel], by simp [hdoors], ?_, by simp [hevents]⟩
  unfold Hub.grantIfFreed
  split <;> simp [Hub.writeValves, hlink]

theorem Hub.judgeReservoir_lines (old : Single) (h : Hub) :
    (h.judgeReservoir old).kneel = h.kneel ∧ (h.judgeReservoir old).doors = h.doors ∧
    (h.judgeReservoir old).link.lines = h.link.lines ∧ (h.judgeReservoir old).brake.base = h.brake.base := by
  have hcut : ∀ (g : Hub) cause, (g.beginCut cause).kneel = g.kneel ∧ (g.beginCut cause).doors = g.doors ∧
      (g.beginCut cause).link.lines = g.link.lines ∧ (g.beginCut cause).brake.base = g.brake.base := fun g cause => by
    unfold Hub.beginCut
    extract_lets cut
    refine ⟨by simp [cut, foldl_keeps Hub.kneel], by simp [cut, foldl_keeps Hub.doors], ?_, ?_⟩
    · simp [Hub.writeValves, cut, foldl_keeps Hub.link]
    · simp only [Hub.raise_frame, Hub.writeValves_frame]
      exact (foldl_keeps (fun g : Hub => g.brake.base) _ Hub.backToQueue_base _ _).trans rfl
  unfold Hub.judgeReservoir
  extract_lets new
  (repeat' split) <;> first
    | exact ⟨rfl, rfl, rfl, rfl⟩
    | exact hcut h _
    | simp [Hub.writeValves]

/-- What a scan round reaches of the doors' interlocks goes through its exclusion (R103). -/
theorem Hub.doorStep_scanRound (raw : ScanResults) (h : Hub) : h.DoorStep (h.scanRound raw) ∧
    (h.kneel.state = .ride ∨ h.kneel.state = .stopped → (h.scanRound raw).kneel = h.kneel ∧ (h.scanRound raw).doors = h.doors ∧
      (h.scanRound raw).link.lines = h.link.lines) ∧ (h.scanRound raw).brake.base = h.brake.base := by
  unfold Hub.scanRound
  extract_lets old published new raised lost found levelled
  have hraised : raised.doors = h.doors ∧ raised.link = h.link ∧ raised.kneel = h.kneel ∧ raised.brake = h.brake ∧
      raised.standing = h.standing := by
    refine ⟨by simp [raised, published], by simp [raised, published], by simp [raised, published], by simp [raised, published], ?_⟩
    simp [Hub.standing, raised, published, Hub.published]
  obtain ⟨hdoors, hlink, hkneel, hbrake, hstanding⟩ := hraised
  clear_value raised
  have hexcluded := (Hub.DoorStep.of_eq hdoors (by rw [hlink]) (by rw [hlink]) hstanding (by rw [hbrake]) (by rw [hkneel])).trans
    (Hub.doorStep_exclude lost (fun x => { x with height := true }) raised)
  have hfound : ∀ g : Hub, (g.heightsRecovered found).doors = g.doors ∧ (g.heightsRecovered found).link = g.link ∧
      (g.heightsRecovered found).kneel = g.kneel ∧ (g.heightsRecovered found).brake = g.brake ∧
      (g.heightsRecovered found).sensing = g.sensing := fun g => by simp
  obtain ⟨hd, hl, hk, hb, hs⟩ := hfound (raised.exclude lost fun x => { x with height := true })
  have hlevelled : h.DoorStep levelled := hexcluded.trans
    (.of_eq hd (by rw [hl]) (by rw [hl]) (by rw [Hub.standing, hs, Hub.standing]) (by rw [hb]) (by rw [hk]))
  have hstill : h.kneel.state = .ride ∨ h.kneel.state = .stopped →
      levelled.kneel = h.kneel ∧ levelled.doors = h.doors ∧ levelled.link.lines = h.link.lines := fun hk' => by
    obtain ⟨h1, h2, h3, -⟩ := Hub.exclude_of_still (h := raised) (by rwa [hkneel]) lost fun x => { x with height := true }
    exact ⟨hk.trans (h1.trans hkneel), hd.trans (h2.trans hdoors), by rw [hl, h3, hlink]⟩
  have hbase : levelled.brake.base = h.brake.base := by rw [hb, Hub.exclude_base, hbrake]
  split
  · obtain ⟨h1, h2, h3, h4⟩ := levelled.judgeReservoir_lines old.reservoir
    refine ⟨hlevelled.trans (.of_eq h2 (by rw [h3]) (by rw [h3]) (by simp [Hub.standing]) (Brake.halt_of_base h4) (by rw [h1])),
      fun hk' => ?_, h4.trans hbase⟩
    obtain ⟨h5, h6, h7⟩ := hstill hk'
    exact ⟨h1.trans h5, h2.trans h6, h3.trans h7⟩
  · exact ⟨hlevelled, hstill, hbase⟩

/-! ## The commands that drive other lines and the image -/

@[simp] theorem Hub.writeModulator_doorLines (k : Axle) (cmd : ModCmd) (h : Hub) :
    (h.writeModulator k cmd).link.doorLines = h.link.doorLines := rfl

@[simp] theorem Hub.writeDamper_doorLines (j : Joint) (level : Nat) (h : Hub) :
    (h.writeDamper j level).link.doorLines = h.link.doorLines := rfl

@[simp] theorem Hub.driveTorque_doorLines (level : Bool) (h : Hub) : (h.driveTorque level).link.doorLines = h.link.doorLines :=
  rfl

@[simp] theorem Hub.writeSteer_doorLines (t : Trailing) (h : Hub) : (h.writeSteer t).link.doorLines = h.link.doorLines := rfl

@[simp] theorem Hub.judgeTorque_doorLines (h : Hub) : h.judgeTorque.link.doorLines = h.link.doorLines := by
  unfold Hub.judgeTorque
  extract_lets cut judged
  split <;> simp [judged]

@[simp] theorem Hub.jointPeriod_doorLines (h : Hub) : h.jointPeriod.link.doorLines = h.link.doorLines := by
  have hwork : ∀ (g : Hub) j, (g.jointWork j).link.doorLines = g.link.doorLines := fun g j => by
    unfold Hub.jointWork
    extract_lets old new written
    split <;> simp [written]
  simp [Hub.jointPeriod, hwork]

@[simp] theorem Hub.failAxle_doorLines (cause : FailCause) (t : Trailing) (h : Hub) :
    (h.failAxle cause t).link.doorLines = h.link.doorLines := by
  unfold Hub.failAxle
  split <;> simp

@[simp] theorem Hub.failBoth_doorLines (cause : FailCause) (h : Hub) : (h.failBoth cause).link.doorLines = h.link.doorLines := by
  simp [Hub.failBoth]

@[simp] theorem Hub.steerAxle_doorLines (t : Trailing) (h : Hub) : (h.steerAxle t).link.doorLines = h.link.doorLines := by
  unfold Hub.steerAxle
  extract_lets x tracking checked
  (repeat' split) <;> simp [checked]

@[simp] theorem Hub.steeringPeriod_doorLines (w : Between) (h : Hub) : (h.steeringPeriod w).link.doorLines = h.link.doorLines := by
  simp [Hub.steeringPeriod]

@[simp] theorem Hub.takeDemands_doorLines (h : Hub) : h.takeDemands.link.doorLines = h.link.doorLines := by
  unfold Hub.takeDemands
  split
  · simp
  · extract_lets emptied taken
    split <;> simp [taken, emptied]

@[simp] theorem Hub.command_doorLines (h : Hub) : h.command.link.doorLines = h.link.doorLines := by
  unfold Hub.command
  exact foldl_keeps (fun g : Hub => g.link.doorLines) _ (fun g k => Hub.writeModulator_doorLines k _ g) Axle.all _

/-- On the chains other than L, no door line is driven (R143). -/
theorem Hub.chainComplete_doorLines {answers : ChainAnswers} (ha : ∀ a, answers ≠ .l a) (h : Hub) :
    (h.chainComplete answers).link.doorLines = h.link.doorLines := by
  have hfault : ∀ (chain value : Nat) (set : Hub → Hub) (old new : Bool) (g : Hub),
      (∀ x, (set x).link.doorLines = x.link.doorLines) →
        (g.handFault chain value set id old new).link.doorLines = g.link.doorLines := fun chain value set old new g hset =>
    handFault_keeps (fun g : Hub => g.link.doorLines) _ _ _ _ _ _ g (by simp) hset (by simp)
  cases answers with
  | l a => exact absurd rfl (ha a)
  | b a =>
    simp only [Hub.chainComplete, Hub.completeB]
    rw [hfault _ _ id _ _ _ (fun _ => rfl)]
    exact foldl_keeps (fun g : Hub => g.link.doorLines) _ (fun g k => hfault _ _ _ _ _ g fun _ => rfl) _ _
  | s a =>
    simp only [Hub.chainComplete, Hub.completeS]
    rw [hfault _ _ _ _ _ _ (by simp)]
    refine (foldl_keeps (fun g : Hub => g.link.doorLines) _ (fun g k => hfault _ _ _ _ _ g (by simp)) _ _).trans ?_
    refine (foldl_keeps (fun g : Hub => g.link.doorLines) _ (fun g k => ?_) _ _).trans rfl
    unfold Hub.takeAngle
    split <;> rfl
  | j a =>
    simp only [Hub.chainComplete, Hub.completeJ]
    rw [hfault _ _ id _ _ _ (fun _ => rfl)]
    exact foldl_keeps (fun g : Hub => g.link.doorLines) _ (fun g k => hfault _ _ _ _ _ g fun _ => rfl) _ _

/-! ## What the interlocks read stays -/

theorem Hub.ReadsAlike.inv {h g : Hub} (hg : h.ReadsAlike g) (hi : h.DoorInv) (hc : g.clock = h.clock)
    (hq : g.clock.loaded = false → g.sensing.quiet = h.sensing.quiet) : g.DoorInv :=
  hi.of_eq hg.doors (congrArg Prod.fst hg.lines) (congrArg Prod.snd hg.lines) hg.standstill hg.halt hg.kneel (by rw [hc])
    (by rw [hc]) hq

/-- After the load the interlocks are those of the loaded part; before it nothing they read differs. -/
theorem Hub.DoorInv.of_step {h g : Hub} (hi : h.DoorInv) (hc : g.clock = h.clock)
    (hs : h.clock.loaded = true → h.DoorsSound → g.DoorsSound)
    (hu : h.clock.loaded = false → h.ReadsAlike g ∧ g.sensing.quiet = h.sensing.quiet) : g.DoorInv := by
  cases hl : h.clock.loaded with
  | true =>
    obtain ⟨hsound, hload⟩ := (Hub.doorInv_iff hl).mp hi
    exact (Hub.doorInv_iff (by rw [hc, hl])).mpr ⟨hs hl hsound, by rw [hc, hload]⟩
  | false => exact (hu hl).1.inv hi hc fun _ => (hu hl).2

/-! ## The commands of the units -/

theorem Hub.speedExpiry_step (dir : Direction) (h : Hub) : h.DoorStep (h.speedExpiry dir) :=
  .trans (g := (h.onPins fun u => { u with dir := dir }).onSensing (·.closeBucket dir)) (.of_eq rfl rfl rfl rfl rfl rfl)
    (Hub.doorStep_foldl Hub.doorStep_judgeAtSpeed _ _)

/-- With no handle waiting at speed an expiry of the speed timer leaves the other units (R132). -/
theorem Hub.speedExpiry_of_none {h : Hub} (hd : ∀ d, (h.door d).atSpeed = false) (dir : Direction) :
    h.speedExpiry dir = (h.onPins fun u => { u with dir := dir }).onSensing (·.closeBucket dir) :=
  foldl_preserves (P := fun g => g = (h.onPins fun u => { u with dir := dir }).onSensing (·.closeBucket dir))
    (fun g d hg => by
      subst hg
      have hnone : (Hub.door ((h.onPins fun u => { u with dir := dir }).onSensing (·.closeBucket dir)) d).atSpeed = false :=
        hd d
      simp [Hub.judgeAtSpeed, hnone]) _ rfl

theorem Hub.wheelPulse_sound (dir : Direction) {h : Hub} (hs : h.DoorsSound) : (h.wheelPulse dir).DoorsSound := by
  unfold Hub.wheelPulse
  extract_lets counted
  have hcounted : counted.DoorsSound :=
    (Hub.DoorStep.of_eq (h := h) (by simp [counted]) (by simp [counted]) (by simp [counted])
      (by simp [counted, Hub.standing, Sensing.countPulse]) (by simp [counted]) (by simp [counted])).sound hs
  split
  · exact Hub.leaveStandstill_sound hcounted
  · exact hcounted

theorem Hub.brakeLoads_alike (h : Hub) : h.ReadsAlike h.takeDemands.setModes.runLoads.formService := by
  have htake : h.takeDemands.brake.halt = h.brake.halt := by
    unfold Hub.takeDemands
    split
    · unfold Hub.ageDemand
      extract_lets age aged
      split <;> simp [aged]
    · extract_lets emptied taken
      split <;> simp [taken, emptied, Brake.takeDemand]
  exact ⟨by simp, by simp, by simp, by simpa [Hub.setModes, Hub.runLoads, Hub.formService] using htake, by simp⟩

theorem Hub.command_alike (h : Hub) : h.ReadsAlike (h.command.onBrake fun u => { u with
    periods := u.periods + 1, timer := .started }) := by
  refine ⟨by simp, by simp, by simp, ?_, by simp⟩
  have hfold : h.command.brake.halt = h.brake.halt := by
    unfold Hub.command
    extract_lets formed
    exact (foldl_keeps (fun g : Hub => g.brake) _ (fun g k => rfl) Axle.all formed).trans rfl ▸ rfl
  simpa using hfold

theorem Hub.doorStep_brakePeriod (h : Hub) : h.DoorStep h.brakePeriod :=
  (h.brakeLoads_alike.step.trans (Hub.doorStep_confirmHalt _)).trans (Hub.command_alike _).step


/-- Before the load the halt brake is RELEASED, and there is nothing to confirm (R84). -/
theorem Hub.brakePeriod_alike {h : Hub} (hb : h.brake.halt = .released) : h.ReadsAlike h.brakePeriod := by
  have hloads := h.brakeLoads_alike
  have hconfirm : h.takeDemands.setModes.runLoads.formService.confirmHalt = h.takeDemands.setModes.runLoads.formService := by
    rw [Hub.confirmHalt, if_neg (ne_of_eq_of_ne (hloads.halt.trans hb) (by decide))]
  rw [Hub.brakePeriod, hconfirm]
  exact hloads.trans (Hub.command_alike _)

/-- In RIDE there is no completion to judge (R113, R114). -/
theorem Hub.levellingPeriod_alike {h : Hub} (hk : h.kneel.state = .ride) : h.ReadsAlike h.levellingPeriod := by
  have hwork := h.levellingWork_alike
  have hjudge : h.levellingWork.judgeCompletion = h.levellingWork := by simp [Hub.judgeCompletion, hwork.kneel.trans hk]
  rw [Hub.levellingPeriod_eq, hjudge]
  have hend : ∀ g : Hub, g.ReadsAlike (g.onLevel fun u => { u with periods := u.periods + 1, timer := .started }) := fun _ =>
    ⟨rfl, rfl, rfl, rfl, rfl⟩
  exact hwork.trans (hend _)

/-! ## A completion of a chain's refresh -/

theorem Hub.raise_alike (kind : EventKind) (subject : Nat) (value : Int) (h : Hub) : h.ReadsAlike (h.raise kind subject value) :=
  ⟨by simp, by simp, by simp, by simp, by simp⟩

theorem Hub.clearCause_alike (cs : List Circuit) (drop : Causes → Causes) (h : Hub) : h.ReadsAlike (h.clearCause cs drop) :=
  ⟨by simp, by simp, by simp, by simp, by simp⟩

theorem Hub.exclude_alike {h : Hub} (hk : h.kneel.state = .ride) (cs : List Circuit) (add : Causes → Causes) :
    h.ReadsAlike (h.exclude cs add) := by
  obtain ⟨hkneel, hdoors, hlines, -⟩ := Hub.exclude_of_still (.inl hk) cs add
  exact ⟨hdoors, by rw [Link.doorLines, hlines, Link.doorLines], by simp, Brake.halt_of_base (by simp), by rw [hkneel]⟩

/-- What the setting of a fault and its clearing keep, the hand-over keeps. -/
theorem handFault_preserves {P : Hub → Prop} {chain value : Nat} {set clear : Hub → Hub} (hs : ∀ g, P g → P (set (g.raise .chainFault chain value)))
    (hc : ∀ g, P g → P (clear g)) (old new : Bool) {h : Hub} (hp : P h) : P (h.handFault chain value set clear old new) := by
  cases old <;> cases new
  case false.true => exact hs _ hp
  case true.false => exact hc _ hp
  all_goals exact hp

/-- A relation that the take-up of the answers, the exclusions and the clearings keep, chain L's completion keeps. -/
theorem Hub.completeL_preserves {P : Hub → Prop} (answers : PerCircuit (Option (DeviceAnswer ValveCmd Bool))) {h : Hub}
    (hlink : ∀ valves chain, P (h.onLink fun u => { u with valves := valves, chainL := chain }))
    (hset : ∀ cs add value g, P g → P (Hub.exclude cs add (g.raise .chainFault 1 value)))
    (hclear : ∀ cs drop g, P g → P (Hub.clearCause cs drop g)) : P (h.completeL answers) := by
  unfold Hub.completeL
  extract_lets old judged new clean chain updated flags
  have hflags : P flags :=
    foldl_preserves (fun g c hg => handFault_preserves (fun g hg => hset _ _ _ g hg) (fun g hg => hclear _ _ g hg) _ _ hg) _
      (hlink _ _)
  exact handFault_preserves (fun g hg => hset _ _ _ g hg) (fun g hg => hclear _ _ g hg) _ _ hflags

/-- On the chains other than L nothing the interlocks read differs (R143). -/
theorem Hub.chainComplete_alike {answers : ChainAnswers} (ha : ∀ a, answers ≠ .l a) (h : Hub) :
    h.ReadsAlike (h.chainComplete answers) := by
  refine ⟨?_, Hub.chainComplete_doorLines ha h, by simp, ?_, ?_⟩
  all_goals
    cases answers with
    | l a => exact absurd rfl (ha a)
    | b a => simp [Hub.chainComplete]
    | s a => simp [Hub.chainComplete]
    | j a => simp [Hub.chainComplete]

theorem Hub.doorStep_completeL (answers : PerCircuit (Option (DeviceAnswer ValveCmd Bool))) (h : Hub) :
    h.DoorStep (h.completeL answers) :=
  Hub.completeL_preserves (P := h.DoorStep) answers (fun _ _ => .of_eq rfl rfl rfl rfl rfl rfl)
    (fun cs add _ _ hg => (hg.trans (Hub.raise_alike _ _ _ _).step).trans (Hub.doorStep_exclude cs add _))
    (fun cs drop g hg => hg.trans (g.clearCause_alike cs drop).step)

theorem Hub.completeL_alike (answers : PerCircuit (Option (DeviceAnswer ValveCmd Bool))) {h : Hub} (hk : h.kneel.state = .ride) :
    h.ReadsAlike (h.completeL answers) :=
  Hub.completeL_preserves (P := h.ReadsAlike) answers (fun _ _ => ⟨rfl, rfl, rfl, rfl, rfl⟩)
    (fun cs add _ _ hg => (hg.trans (Hub.raise_alike _ _ _ _)).trans
      (Hub.exclude_alike ((hg.trans (Hub.raise_alike _ _ _ _)).kneel.trans hk) cs add))
    (fun cs drop g hg => hg.trans (g.clearCause_alike cs drop))

/-! ## Orders and completions -/

theorem Hub.order_doorInv {f : Service} (hf : ∀ h : Hub, h.DoorStep (f h).1) (hclock : ∀ h, (f h).1.clock = h.clock) (q : Request)
    (code : Byte) (c : AccessClass) {h : Hub} (hi : h.DoorInv) : (h.order q code c f).DoorInv :=
  Hub.order_preserves (P := Hub.DoorInv) (fun _ _ _ _ hg => hg.of_units rfl rfl rfl rfl rfl rfl rfl)
    (fun _ _ hg => hg.of_units rfl rfl rfl rfl rfl rfl rfl) q code c
    (fun g hl hg => hg.of_step (hclock g) (fun _ hs => (hf g).sound hs) fun hno => by simp [hl] at hno) hi

/-- Without standstill a completion of the store installs nothing (R170). -/
theorem Hub.storeCompletion_alike {h : Hub} (hs : h.standing = false) (code : Byte) (depot : Bool) :
    h.ReadsAlike (h.storeCompletion code depot) := by
  have hfinish : ∀ (g : Hub) (r : RunningOp), g.standing = false → g.ReadsAlike (g.finishWork r).1 := fun g r hg => by
    unfold Hub.finishWork
    split
    case h_7 =>
      split
      · next hnone =>
        have hstill := (Hub.applyRefusal_eq_none.mp (Option.isNone_iff_eq_none.mp hnone)).1
        simp [Hub.standing, hstill] at hg
      · exact .refl _
    all_goals exact ⟨rfl, rfl, rfl, rfl, rfl⟩
  unfold Hub.storeCompletion
  split
  · next r _ =>
    split
    · extract_lets pins
      split
      · exact ⟨by simp [pins], by simp [pins], by simp [pins], by simp [pins], by simp [pins]⟩
      · unfold Hub.completeOp
        extract_lets finished
        have hfinished : pins.ReadsAlike finished.1 := hfinish pins r hs
        refine Hub.ReadsAlike.trans (h := h) (g := finished.1) (.trans (g := pins) ⟨rfl, rfl, rfl, rfl, rfl⟩ hfinished) ?_
        exact ⟨by simp, by simp, by simp, by simp, by simp⟩
    · exact .refl h
  · exact .refl h

theorem Hub.storeCompletion_doorInv (code : Byte) (depot : Bool) {h : Hub} (hi : h.DoorInv) :
    (h.storeCompletion code depot).DoorInv :=
  hi.of_step (by simp) (fun _ hs => Hub.storeCompletion_sound code depot hs) fun hno =>
    ⟨Hub.storeCompletion_alike (hi.before hno).2.1 code depot, by simp⟩

theorem Hub.DoorInv.ite {b : Prop} [Decidable b] {h g : Hub} (hi : h.DoorInv) (hg : b → g.DoorInv) :
    (if b then g else h).DoorInv := by
  split
  · next hb => exact hg hb
  · exact hi

/-- A scan round publishes; of the sensing unit nothing else moves (R3). -/
theorem Hub.scanRound_sensing (raw : ScanResults) (h : Hub) : (h.scanRound raw).sensing = h.published raw := by
  unfold Hub.scanRound
  extract_lets old published new raised lost found levelled
  have hlevelled : levelled.sensing = h.published raw := by simp [levelled, raised, published]
  split <;> simp [hlevelled]

theorem Hub.scanRound_doorInv (raw : ScanResults) {h : Hub} (hi : h.DoorInv) : (h.scanRound raw).DoorInv := by
  obtain ⟨hstep, hstill, hbase⟩ := h.doorStep_scanRound raw
  refine hi.of_step (by simp) (fun _ hs => hstep.sound hs) fun hno => ?_
  obtain ⟨hkneel, hdoors, hlines⟩ := hstill (.inl (hi.before hno).2.2.2.1)
  exact ⟨⟨hdoors, by rw [Link.doorLines, hlines, Link.doorLines], by rw [Hub.scanRound_sensing]; rfl, Brake.halt_of_base hbase,
    by rw [hkneel]⟩, by rw [Hub.scanRound_sensing]; rfl⟩

theorem Hub.speedExpiry_doorInv (dir : Direction) {h : Hub} (hi : h.DoorInv) : (h.speedExpiry dir).DoorInv := by
  refine hi.of_step (by simp) (fun _ hs => (h.speedExpiry_step dir).sound hs) fun hno => ?_
  rw [Hub.speedExpiry_of_none fun d => ((hi.before hno).2.2.2.2.2 d).2.2.1]
  exact ⟨⟨rfl, rfl, rfl, rfl, rfl⟩, rfl⟩

theorem Hub.quietExpiry_sound {h : Hub} (hs : h.DoorsSound) : h.quietExpiry.DoorsSound := by
  have hquiet : (h.onSensing fun u => { u with quiet := .stopped, distance := 0 }).DoorsSound :=
    (Hub.DoorStep.of_eq (h := h) (g := h.onSensing fun u => { u with quiet := .stopped, distance := 0 })
      rfl rfl rfl rfl rfl rfl).sound hs
  unfold Hub.quietExpiry
  extract_lets quiet
  split
  · exact hquiet
  · exact Hub.enterStandstill_sound hquiet

theorem Hub.chainComplete_doorInv (answers : ChainAnswers) {h : Hub} (hi : h.DoorInv) : (h.chainComplete answers).DoorInv := by
  by_cases hl : ∃ a, answers = .l a
  · obtain ⟨a, rfl⟩ := hl
    have hclock : (h.completeL a).clock = h.clock := by simp
    have hquiet : (h.completeL a).sensing.quiet = h.sensing.quiet := by simp
    exact Hub.DoorInv.of_step (g := h.completeL a) hi hclock (fun _ hs => (h.doorStep_completeL a).sound hs) fun hno =>
      ⟨Hub.completeL_alike a (hi.before hno).2.2.2.1, hquiet⟩
  · exact (h.chainComplete_alike fun a ha => hl ⟨a, ha⟩).inv hi (by simp) fun _ => by simp

/-- Every command keeps the interlocks. -/
theorem Hub.after_doorInv (w : Between) (c : Instr) {h : Hub} (hi : h.DoorInv) : (h.after w c).DoorInv := by
  cases c
  case powerOnReset | rstLine => exact Hub.atPowerOn_doorInv.of_units rfl rfl rfl rfl rfl rfl rfl
  case hubReset q =>
    exact Hub.hubReset_preserves (P := Hub.DoorInv) (fun _ _ _ _ hg => hg.of_units rfl rfl rfl rfl rfl rfl rfl)
      (fun _ _ hg => hg.of_units rfl rfl rfl rfl rfl rfl rfl)
      (fun _ _ _ => Hub.atPowerOn_doorInv.of_units rfl rfl rfl rfl rfl rfl rfl) q hi
  case activeSetLoad x =>
    refine hi.ite fun hdue => ?_
    have hno : h.clock.loaded = false := by
      cases hl : h.clock.loaded with
      | false => rfl
      | true => rw [hi.load hl] at hdue; cases hdue
    exact Hub.completeLoad_doorInv _ (h := h.readDepot x.depot) (hi.of_units rfl rfl rfl rfl rfl rfl rfl) hno
  case scanRound raw => exact hi.ite fun _ => Hub.scanRound_doorInv raw hi
  case wheelPulse i dir =>
    exact hi.ite fun hl => hi.of_step (by simp) (fun _ hs => Hub.wheelPulse_sound dir hs) fun hno => by simp [hl] at hno
  case speedTimerExpiry dir => exact hi.ite fun _ => Hub.speedExpiry_doorInv dir hi
  case quietTimerExpiry =>
    refine hi.ite fun hdue => hi.of_step (by simp) (fun _ hs => Hub.quietExpiry_sound hs) fun hno => ?_
    rw [(hi.before hno).2.2.1] at hdue
    cases hdue
  case steeringTimerExpiry =>
    exact hi.ite fun _ => Hub.ReadsAlike.inv ⟨by simp, by simp, by simp, by simp, by simp⟩ hi (by simp) fun _ => by simp
  case jointTimerExpiry =>
    exact hi.ite fun _ => Hub.ReadsAlike.inv ⟨by simp, by simp, by simp, by simp, by simp⟩ hi (by simp) fun _ => by simp
  case brakeTimerExpiry =>
    exact hi.ite fun _ => hi.of_step (by simp) (fun _ hs => h.doorStep_brakePeriod.sound hs) fun hno =>
      ⟨Hub.brakePeriod_alike (hi.before hno).2.2.2.2.1, by simp⟩
  case levellingTimerExpiry =>
    exact hi.ite fun _ => hi.of_step (by simp) (fun _ hs => h.doorStep_levellingPeriod.sound hs) fun hno =>
      ⟨Hub.levellingPeriod_alike (hi.before hno).2.2.2.1, by simp⟩
  case refreshTimerExpiry => exact hi.ite fun _ => hi.of_units rfl rfl rfl rfl rfl rfl rfl
  case chainRefreshComplete answers => exact hi.ite fun _ => Hub.chainComplete_doorInv answers hi
  case doorInputChange d i l =>
    refine hi.ite fun hl => hi.of_step rfl (fun _ hs => ?_) fun hno => by simp [hl.1] at hno
    exact (Hub.doorStep_onDoor (g := fun x => { x with raw := withLevel x.raw i l, timers := x.timers.set i .started })
      rfl rfl rfl rfl fun hf hd => (hf.disabled d hd).2).sound hs
  case debounceTimerExpiry d i =>
    refine hi.ite fun hdue => hi.of_step (by simp) (fun _ hs => Hub.debounceExpiry_sound d i hs) fun hno => ?_
    rw [((hi.before hno).2.2.2.2.2 d).2.2.2] at hdue
    cases i <;> cases hdue
  case haltOn q => exact Hub.order_doorInv serveHaltOn_step (by simp) q _ _ hi
  case haltOff q => exact Hub.order_doorInv serveHaltOff_step (by simp) q _ _ hi
  case release q => exact Hub.order_doorInv (serveRelease_step _) (by simp) q _ _ hi
  case withdraw q => exact Hub.order_doorInv (serveWithdraw_step _) (by simp) q _ _ hi
  case kneel q => exact Hub.order_doorInv serveKneel_step (by simp) q _ _ hi
  case raise q => exact Hub.order_doorInv serveRaise_step (by simp) q _ _ hi
  case storeReadCompletion | storeWriteCompletion | storeCloseCompletion | storeLockCompletion | blankTestCompletion
      | storeClearCompletion | applyCompletion => exact Hub.storeCompletion_doorInv _ _ hi
  all_goals exact hi.of_units (by simp) (by simp) (by simp) (by simp) (by simp) (by simp) (by simp)

/-- A tick runs timers alone; those that stand still stay so (R15, R123). -/
theorem Hub.tick_doorInv {h : Hub} (hi : h.DoorInv) : h.tick.DoorInv := by
  have hdoor : ∀ d, h.tick.door d = { h.door d with timers := (h.door d).timers.tick } := fun d => by cases d <;> rfl
  refine ⟨fun d => ?_, hi.permitLine, fun d => ?_, fun d => ?_, hi.permit, hi.condition, fun hl d => ?_, hi.open_halt,
    hi.kneeling, fun hl => ?_, fun hl => ?_⟩
  · rw [hdoor]; exact hi.lines d
  · rw [hdoor]; exact hi.granted d
  · rw [hdoor]; exact hi.disabled d
  · rw [hdoor]; exact hi.position hl d
  · exact congrArg (Timer.advance loadTime) (hi.load hl)
  · obtain ⟨hpermit, hmoving, hquiet, hride, hreleased, hdoors⟩ := hi.before hl
    refine ⟨hpermit, hmoving, congrArg (Timer.advance quietTime) hquiet, hride, hreleased, fun d => ?_⟩
    obtain ⟨hrel, hmark, hspeed, htimers⟩ := hdoors d
    rw [hdoor]
    exact ⟨hrel, hmark, hspeed, by rw [htimers]; rfl⟩

/-- Settles O58: every shared operation is a step of the doors' interlocks, and before the load nothing they read moves. -/
theorem doorInterlocksHold : Obligations.DoorInterlocksHold :=
  fun _ _ hi hstep => step_induction (P := Hub.DoorInv) (fun _ w c => Hub.after_doorInv w c) (fun _ => Hub.tick_doorInv) hi hstep

end Sys2Proof.Machine
end

section
/-! PROOFS. The link outside valves and door lines under the operations of levelling, kneel and doors; the trailing axles'
setpoints, enables and images; O59. -/

namespace Sys2Proof.Machine

/-! ## The link without valves and door lines -/

@[simp] theorem Hub.writeValves_rest (h : Hub) : h.writeValves.link.rest = h.link.rest := rfl

@[simp] theorem Hub.levellingTakesKneel_rest (old new : KneelState) (h : Hub) :
    (h.levellingTakesKneel old new).link.rest = h.link.rest := by
  cases new
  case stopped =>
    simp only [Hub.levellingTakesKneel, Hub.writeValves_rest, Hub.grantIfFreed_frame]
    exact congrArg Link.rest (foldl_keeps Hub.link _ (by simp) _ _)
  all_goals rfl

@[simp] theorem Hub.setKneel_rest (new : KneelState) (h : Hub) : (h.setKneel new).link.rest = h.link.rest := by
  simp [Hub.setKneel, Link.rest_of_body (Hub.judgePermit_body _)]

@[simp] theorem Hub.stopKneel_rest (cause : StopCause) (c : Option Circuit) (h : Hub) :
    (h.stopKneel cause c).link.rest = h.link.rest := by
  unfold Hub.stopKneel
  split <;> simp

@[simp] theorem Hub.exclude_rest (cs : List Circuit) (add : Causes → Causes) (h : Hub) :
    (h.exclude cs add).link.rest = h.link.rest := by
  unfold Hub.exclude
  extract_lets newly marked out handed
  have hout : out.link = h.link := by simp [out, marked, foldl_keeps Hub.link]
  have hhanded : handed.link.rest = out.link.rest :=
    foldl_keeps (fun g : Hub => g.link.rest) _ (fun g c => by split <;> simp) _ _
  simp [hhanded, hout]

@[simp] theorem Hub.judgeReservoir_rest (old : Single) (h : Hub) : (h.judgeReservoir old).link.rest = h.link.rest := by
  have hcut : ∀ (g : Hub) cause, (g.beginCut cause).link.rest = g.link.rest := fun g cause => by
    unfold Hub.beginCut
    extract_lets cut
    simp [cut, foldl_keeps Hub.link]
  unfold Hub.judgeReservoir
  extract_lets new
  (repeat' split) <;> simp [hcut]

@[simp] theorem Hub.scanRound_rest (raw : ScanResults) (h : Hub) : (h.scanRound raw).link.rest = h.link.rest := by
  unfold Hub.scanRound
  extract_lets old published new raised lost found levelled
  have hlevelled : levelled.link.rest = h.link.rest := by simp [levelled, raised, published]
  split <;> simp [hlevelled]

@[simp] theorem Hub.levellingWork_rest (h : Hub) : h.levellingWork.link.rest = h.link.rest := by
  simp [Hub.levellingWork, foldl_keeps Hub.link]

@[simp] theorem Hub.judgeCompletion_rest (h : Hub) : h.judgeCompletion.link.rest = h.link.rest := by
  unfold Hub.judgeCompletion
  (repeat' split) <;> simp

@[simp] theorem Hub.levellingPeriod_rest (h : Hub) : h.levellingPeriod.link.rest = h.link.rest := by
  simp [Hub.levellingPeriod_eq]

@[simp] theorem Hub.leaveStandstill_rest (h : Hub) : h.leaveStandstill.link.rest = h.link.rest := by
  unfold Hub.leaveStandstill
  extract_lets changed
  simp only [Hub.judgeActivities_frame]
  split
  · have hfold : (Door.all.foldl Hub.withdrawByMotion (changed.stopKneel .standstill none)).link.body =
        (changed.stopKneel .standstill none).link.body := foldl_keeps (fun g : Hub => g.link.body) _ (by simp) _ _
    rw [Link.rest_of_body hfold, Hub.stopKneel_rest]
    simp [changed]
  · simp [changed]

@[simp] theorem Hub.wheelPulse_rest (dir : Direction) (h : Hub) : (h.wheelPulse dir).link.rest = h.link.rest := by
  unfold Hub.wheelPulse
  extract_lets counted
  split <;> simp [counted]

/-! ## Chain S's image -/

/-- The command of a steering actuator in the output image (R48, R139). -/
def Hub.steerImage (h : Hub) (t : Trailing) : SteerCmd := (h.link.actuators.get t).image

theorem Hub.steerImage_of_rest {h g : Hub} (hr : g.link.rest = h.link.rest) (t : Trailing) : g.steerImage t = h.steerImage t := by
  have hactuators : g.link.actuators = h.link.actuators := (congrArg Link.actuators hr :)
  rw [Hub.steerImage, hactuators, Hub.steerImage]

theorem Hub.steerImage_of_body {h g : Hub} (hb : g.link.body = h.link.body) (t : Trailing) : g.steerImage t = h.steerImage t :=
  Hub.steerImage_of_rest (Link.rest_of_body hb) t

/-- The command an axle's enable and setpoint make (R48). -/
def AxleSteer.command (x : AxleSteer) : SteerCmd := ⟨x.enable, x.setpoint.getD 0⟩

theorem Hub.writeSteer_steerImage (t x : Trailing) (h : Hub) : (h.writeSteer t).steerImage x =
    if x = t then ⟨(h.axleSteer t).initialised && (h.axleSteer t).mode != some .failed, (h.axleSteer t).setpoint.getD 0⟩
    else h.steerImage x := by
  simp only [Hub.writeSteer, Hub.writeActuator, Hub.steerImage, Hub.onLink, PerTrailing.get_set]
  split <;> rfl

/-! ## One axle -/

/-- An axle in its form: the setpoint within a limit, present exactly when initialised, the enable off before that and in
FAILED, and FAILED with a cause (R45, R47, R48, R50). -/
structure AxleSteer.Sound (limit : Int) (x : AxleSteer) : Prop where
  bounded : ∀ y, x.setpoint = some y → -limit ≤ y ∧ y ≤ limit
  held    : x.initialised = x.setpoint.isSome
  enabled : x.enable = (x.initialised && x.mode != some .failed)
  failed  : x.mode = some .failed ↔ x.cause.isSome

/-- An axle that enters FAILED; one already FAILED keeps its first cause (R37, R47). -/
def AxleSteer.fail (cause : FailCause) (x : AxleSteer) : AxleSteer :=
  if x.mode = some .failed then x else { x with mode := some .failed, cause := some cause, enable := false }

theorem AxleSteer.Sound.fail {limit : Int} {x : AxleSteer} (hx : x.Sound limit) (cause : FailCause) :
    (x.fail cause).Sound limit := by
  unfold AxleSteer.fail
  split
  · exact hx
  · exact ⟨hx.bounded, hx.held, by simp, by simp⟩

theorem Hub.failAxle_axleSteer (cause : FailCause) (t x : Trailing) (h : Hub) :
    (h.failAxle cause t).axleSteer x = if x = t then (h.axleSteer t).fail cause else h.axleSteer x := by
  unfold Hub.failAxle AxleSteer.fail
  split
  · split
    · next heq => rw [heq]
    · rfl
  · rw [Hub.writeSteer_axleSteer, Hub.axleSteer_onAxleSteer]

/-- The axle after its work of a period, at a lookup in the path memory of `h` (R35, R46, R47, R50). -/
def Hub.steered (h : Hub) (t : Trailing) : AxleSteer :=
  let x := h.axleSteer t
  if x.mode = some .failed then x
  else if x.initialised then
    let tracking := trackingAfter (x.setpoint.getD 0) (x.measured.getD 0) x.tracking
    if tracking = .running 500 then
      { x with tracking := tracking, mode := some .failed, cause := some .tracking, enable := false }
    else h.steerStages t { x with tracking := tracking }
  else
    match x.measured with
    | some angle => h.initialiseAxle t angle x
    | none => x

theorem Hub.onAxleSteer_onAxleSteer (h : Hub) (t : Trailing) (f g : AxleSteer → AxleSteer) :
    (h.onAxleSteer t f).onAxleSteer t g = h.onAxleSteer t fun x => g (f x) := by
  cases t <;> rfl

theorem Hub.onAxleSteer_congr {h : Hub} {t : Trailing} {f g : AxleSteer → AxleSteer} (hfg : f (h.axleSteer t) = g (h.axleSteer t)) :
    h.onAxleSteer t f = h.onAxleSteer t g := by
  simp only [Hub.onAxleSteer, Hub.onSteering]
  rw [show f (h.steering.axles.get t) = g (h.steering.axles.get t) from hfg]

/-- An axle's work writes its new state and its command, or leaves all as it is (R35, R48). -/
theorem Hub.steerAxle_cases (t : Trailing) (h : Hub) :
    (h.steerAxle t = h ∧ h.steered t = h.axleSteer t) ∨
      h.steerAxle t = (h.onAxleSteer t fun _ => h.steered t).writeSteer t := by
  unfold Hub.steerAxle Hub.steered
  extract_lets x tracking checked
  split
  · exact .inl ⟨rfl, rfl⟩
  · next hmode =>
    split
    · split
      · refine .inr ?_
        have hne : (checked.axleSteer t).mode ≠ some .failed := by simpa [checked, x] using hmode
        rw [Hub.failAxle, if_neg hne, Hub.onAxleSteer_onAxleSteer]
        exact congrArg (Hub.writeSteer t) (Hub.onAxleSteer_congr rfl)
      · refine .inr ?_
        rw [Hub.onAxleSteer_onAxleSteer]
        exact congrArg (Hub.writeSteer t) (Hub.onAxleSteer_congr rfl)
    · cases x.measured with
      | some angle => exact .inr (congrArg (Hub.writeSteer t) (Hub.onAxleSteer_congr rfl))
      | none => exact .inl ⟨rfl, rfl⟩

theorem Hub.steerAxle_axleSteer (t x : Trailing) (h : Hub) :
    (h.steerAxle t).axleSteer x = if x = t then h.steered t else h.axleSteer x := by
  obtain ⟨hsame, haxle⟩ | hwritten := h.steerAxle_cases t
  · rw [hsame, haxle]
    split
    · next heq => rw [heq]
    · rfl
  · rw [hwritten, Hub.writeSteer_axleSteer, Hub.axleSteer_onAxleSteer]

/-! ## The two axles and their image -/

/-- An axle in its form, and its command in the image. -/
structure Hub.SteersSound (h : Hub) (t : Trailing) : Prop where
  sound : (h.axleSteer t).Sound (h.angleMax t)
  shown : h.steerImage t = (h.axleSteer t).command

/-- The angle limits and rate limits of the active set (R53). -/
def Hub.SteerLimits (h : Hub) : Prop := ∀ t, 0 ≤ h.angleMax t ∧ h.angleMax t ≤ 2000 ∧ 0 ≤ h.rateMax t

theorem Hub.steerInv_iff (h : Hub) : h.SteerInv ↔ h.SteerLimits ∧ (∀ t, h.SteersSound t) ∧
    (h.clock.loaded = false → h.steering.timer = .stopped ∧ ∀ t, (h.axleSteer t).initialised = false) ∧
    (h.clock.loaded = true → h.clock.load = .stopped) :=
  ⟨fun hi => ⟨hi.limits, fun t => ⟨⟨hi.bounded t, hi.held t, hi.enabled t, hi.failed t⟩, hi.shown t⟩, hi.before, hi.load⟩,
    fun ⟨hlimits, hs, hbefore, hload⟩ => ⟨hlimits, fun t => (hs t).sound.bounded, fun t => (hs t).sound.held,
      fun t => (hs t).sound.enabled, fun t => (hs t).sound.failed, fun t => (hs t).shown, hbefore, hload⟩⟩

theorem Hub.SteersSound.of_eq {h g : Hub} {t : Trailing} (hs : h.SteersSound t) (ha : g.store.active = h.store.active)
    (hx : g.axleSteer t = h.axleSteer t) (hi : g.steerImage t = h.steerImage t) : g.SteersSound t :=
  ⟨by rw [hx, Hub.angleMax_congr ha]; exact hs.sound, by rw [hx, hi]; exact hs.shown⟩

/-- An axle's new state, written into the image. -/
theorem Hub.writeSteer_sound {h : Hub} {t : Trailing} {g : AxleSteer → AxleSteer} (hs : ∀ x, x ≠ t → h.SteersSound x)
    (hg : (g (h.axleSteer t)).Sound (h.angleMax t)) (x : Trailing) : ((h.onAxleSteer t g).writeSteer t).SteersSound x := by
  have haxle : ∀ y, ((h.onAxleSteer t g).writeSteer t).axleSteer y = if y = t then g (h.axleSteer t) else h.axleSteer y :=
    fun y => by rw [Hub.writeSteer_axleSteer, Hub.axleSteer_onAxleSteer]
  by_cases hx : x = t
  · subst hx
    refine ⟨?_, ?_⟩
    · rw [haxle, if_pos rfl, Hub.angleMax_congr (h := h) (by simp)]
      exact hg
    · rw [Hub.writeSteer_steerImage, haxle, if_pos rfl, if_pos rfl, Hub.axleSteer_onAxleSteer, if_pos rfl, AxleSteer.command,
        hg.enabled]
  · refine (hs x hx).of_eq (by simp) (by rw [haxle, if_neg hx]) ?_
    rw [Hub.writeSteer_steerImage, if_neg hx]
    rfl

theorem Hub.failAxle_sound {h : Hub} (hs : ∀ x, h.SteersSound x) (cause : FailCause) (t x : Trailing) :
    (h.failAxle cause t).SteersSound x := by
  unfold Hub.failAxle
  split
  · exact hs x
  · next hmode =>
    refine Hub.writeSteer_sound (fun y _ => hs y) ?_ x
    have hf := (hs t).sound.fail cause
    rwa [AxleSteer.fail, if_neg hmode] at hf

theorem Hub.failBoth_sound {h : Hub} (hs : ∀ x, h.SteersSound x) (cause : FailCause) (x : Trailing) :
    (h.failBoth cause).SteersSound x :=
  Hub.failAxle_sound (Hub.failAxle_sound hs cause _) cause _ x

theorem clampTo_bounds {lo hi x : Int} (hle : lo ≤ hi) : lo ≤ clampTo lo hi x ∧ clampTo lo hi x ≤ hi := by
  unfold clampTo
  omega

/-- Clamp and rate limit keep a setpoint within the angle limit (R44, R45). -/
theorem Hub.nextSetpoint_bounds {h : Hub} {t : Trailing} (hl : 0 ≤ h.angleMax t) {setpoint : Int}
    (hs : -h.angleMax t ≤ setpoint ∧ setpoint ≤ h.angleMax t) (hr : 0 ≤ h.rateMax t) (w : Int) :
    -h.angleMax t ≤ h.nextSetpoint t setpoint w ∧ h.nextSetpoint t setpoint w ≤ h.angleMax t := by
  obtain ⟨hclo, hchi⟩ := clampTo_bounds (x := w) (show -h.angleMax t ≤ h.angleMax t by omega)
  unfold Hub.nextSetpoint
  extract_lets c
  rw [clampTo]
  simp only [c]
  omega

theorem Hub.chooseMode_ne_failed (h : Hub) (t : Trailing) : (h.chooseMode t).1 ≠ .failed := by
  unfold Hub.chooseMode
  (repeat' split) <;> nofun

/-- Stages 3 to 5 on an axle in its form (R35). -/
theorem Hub.steerStages_sound {h : Hub} {t : Trailing} (hl : h.SteerLimits) {x : AxleSteer} (hx : x.Sound (h.angleMax t))
    (hi : x.initialised = true) (hm : x.mode ≠ some .failed) : (h.steerStages t x).Sound (h.angleMax t) := by
  have hcause : x.cause.isSome = false := by
    cases hc : x.cause.isSome with
    | false => rfl
    | true => exact absurd (hx.failed.mpr hc) hm
  have henable : x.enable = true := by rw [hx.enabled, hi]; simpa using hm
  obtain ⟨y, hy⟩ := Option.isSome_iff_exists.mp (hx.held.symm.trans hi)
  have hnext : ∀ w, -h.angleMax t ≤ h.nextSetpoint t (x.setpoint.getD 0) w ∧ h.nextSetpoint t (x.setpoint.getD 0) w ≤ h.angleMax t :=
    Hub.nextSetpoint_bounds (hl t).1 (by rw [hy]; exact hx.bounded y hy) (hl t).2.2
  have hmode := h.chooseMode_ne_failed t
  unfold Hub.steerStages
  split
  · exact ⟨hx.bounded, hx.held, by simp [henable, hi], by simp [hcause]⟩
  · refine ⟨?_, by simp [hi], by simp [henable, hi], by simp [hcause]⟩
    rintro z ⟨⟩
    exact hnext 0
  · next mode lookup _ _ hchosen =>
    have hne : mode ≠ .failed := by simpa [hchosen] using hmode
    refine ⟨?_, by simp [hi], by simp [henable, hi, hne], by simp [hcause, hne]⟩
    rintro z ⟨⟩
    exact hnext _

theorem Hub.steered_sound {h : Hub} {t : Trailing} (hl : h.SteerLimits) (hx : (h.axleSteer t).Sound (h.angleMax t)) :
    (h.steered t).Sound (h.angleMax t) := by
  unfold Hub.steered
  extract_lets x tracking
  split
  · exact hx
  · next hmode =>
    split
    · next hinit =>
      split
      · exact ⟨hx.bounded, hx.held, by simp, by simp⟩
      · exact Hub.steerStages_sound hl (x := { x with tracking := tracking }) ⟨hx.bounded, hx.held, hx.enabled, hx.failed⟩ hinit hmode
    · split
      · have hne := h.chooseMode_ne_failed t
        have hcause : x.cause.isSome = false := by
          cases hc : x.cause.isSome with
          | false => rfl
          | true => exact absurd (hx.failed.mpr hc) hmode
        refine ⟨?_, rfl, by simp [Hub.initialiseAxle, hne], by simp [Hub.initialiseAxle, hne, hcause]⟩
        rintro z ⟨⟩
        exact clampTo_bounds (by have := (hl t).1; omega)
      · exact hx

theorem Hub.steerAxle_sound {h : Hub} (hl : h.SteerLimits) (hs : ∀ x, h.SteersSound x) (t x : Trailing) :
    (h.steerAxle t).SteersSound x := by
  obtain ⟨hsame, -⟩ | hwritten := h.steerAxle_cases t
  · rw [hsame]
    exact hs x
  · rw [hwritten]
    exact Hub.writeSteer_sound (fun y _ => hs y) (Hub.steered_sound hl (hs t).sound) x

/-! ## A steering period -/

theorem Hub.chooseMode_congr {h g : Hub} (hb : g.brake = h.brake) (hs : g.sensing = h.sensing) (hp : g.path = h.path)
    (hst : g.store = h.store) (t : Trailing) : g.chooseMode t = h.chooseMode t := by
  have hlag : g.lag t = h.lag t := by cases t <;> exact Hub.item_congr (by rw [hst]) _ _
  unfold Hub.chooseMode Hub.lagLookup Hub.standing
  rw [hb, hs, hp, hlag]

theorem Hub.steerStages_congr {h g : Hub} (hb : g.brake = h.brake) (hs : g.sensing = h.sensing) (hp : g.path = h.path)
    (hst : g.store = h.store) (t : Trailing) (x : AxleSteer) : g.steerStages t x = h.steerStages t x := by
  have hi := Hub.item_congr (h := h) (g := g) (by rw [hst])
  have hangle : g.angleMax t = h.angleMax t := Hub.angleMax_congr (by rw [hst]) t
  have hrate : g.rateMax t = h.rateMax t := by cases t <;> exact hi _ _
  have hk : g.gainK t = h.gainK t := by cases t <;> exact hi _ _
  have hg : g.gainG t = h.gainG t := by cases t <;> exact hi _ _
  have hr : g.gainRev t = h.gainRev t := by cases t <;> exact hi _ _
  have hchosen := Hub.chooseMode_congr hb hs hp hst t
  have hfade : g.fadeFactor = h.fadeFactor := by
    unfold Hub.fadeFactor Hub.vlo Hub.vhi
    rw [hs, hi, hi]
  have hlaw : ∀ m l, g.steerLaw t m l = h.steerLaw t m l := fun m l => by simp only [Hub.steerLaw, hs, hk, hg, hr]
  have hnext : ∀ y w, g.nextSetpoint t y w = h.nextSetpoint t y w := fun y w => by simp only [Hub.nextSetpoint, hangle, hrate]
  simp only [Hub.steerStages, hchosen, hfade, hlaw, hnext]

theorem Hub.steered_congr {h g : Hub} (hb : g.brake = h.brake) (hs : g.sensing = h.sensing) (hp : g.path = h.path)
    (hst : g.store = h.store) {t : Trailing} (hx : g.axleSteer t = h.axleSteer t) : g.steered t = h.steered t := by
  have hi := Hub.item_congr (h := h) (g := g) (by rw [hst])
  have hangle : g.angleMax t = h.angleMax t := Hub.angleMax_congr (by rw [hst]) t
  have hchosen := Hub.chooseMode_congr hb hs hp hst t
  simp only [Hub.steered, Hub.initialiseAxle, hx, hangle, hchosen, Hub.steerStages_congr hb hs hp hst]

/-- The path a lookup sees is that of the increments alone (R29). -/
theorem Hub.pathAfter_congr {h g : Hub} (hs : g.sensing = h.sensing) (hp : g.path = h.path) (hst : g.store = h.store)
    (dirs : List Direction) : g.pathAfter dirs = h.pathAfter dirs := by
  have hpath : ∀ (x y : Hub) (dir : Direction) (w : Nat), x.sensing = y.sensing → x.path = y.path →
      (x.pathIncrement dir w).path = (y.pathIncrement dir w).path := fun x y dir w hs hp => by
    cases dir
    · simp only [Hub.pathIncrement, Hub.onPath, hs, hp]
    · simp only [Hub.pathIncrement, hp]
      split <;> simp
  unfold Hub.pathAfter
  induction dirs generalizing g h with
  | nil => exact hp
  | cons dir dirs ih =>
    have hwp : g.wp = h.wp := congrArg Int.toNat (Hub.item_congr (by rw [hst]) _ _)
    rw [List.foldl_cons, List.foldl_cons]
    exact ih (by simp [hs]) (by rw [hwp]; exact hpath _ _ _ _ hs hp) (by simp [hst])

/-- The axles after a period: A4's work sees the path that the increments between the two leave (R29, R34). -/
theorem Hub.steeringPeriod_axleSteer (w : Between) (h : Hub) (t : Trailing) : (h.steeringPeriod w).axleSteer t =
    match t with
    | .a3 => h.steered .a3
    | .a4 => { h with path := h.pathAfter w.pulses }.steered .a4 := by
  have hfirst : ∀ x, (h.steerAxle .a3).axleSteer x = if x = .a3 then h.steered .a3 else h.axleSteer x := fun x =>
    h.steerAxle_axleSteer .a3 x |>.trans rfl
  have hpath : (h.steerAxle .a3).pathAfter w.pulses = h.pathAfter w.pulses := Hub.pathAfter_congr (by simp) (by simp) (by simp) _
  have hlast : (h.steeringPeriod w).axleSteer t =
      (Hub.steerAxle .a4 { h.steerAxle .a3 with path := (h.steerAxle .a3).pathAfter w.pulses }).axleSteer t := rfl
  rw [hlast, Hub.steerAxle_axleSteer, hpath]
  cases t with
  | a3 => exact (hfirst .a3).trans rfl
  | a4 =>
    exact Hub.steered_congr (h := { h with path := h.pathAfter w.pulses })
      (g := { h.steerAxle .a3 with path := h.pathAfter w.pulses }) (by simp) (by simp) rfl (by simp) (hfirst .a4)

/-! ## The limits of a loaded set -/

/-- The value of an item in force, or of a loaded list, at a home slot lies in the item's range (R169). -/
theorem itemValue_loadSector {k : SectorId} (x : Sector) {i : Nat} {spec : ItemSpec} (hs : (itemSpecs k)[i]? = some spec)
    (hr : spec.lo ≤ spec.default ∧ spec.default ≤ spec.hi) :
    spec.lo ≤ itemValue (loadSector k x).1 i ∧ itemValue (loadSector k x).1 i ≤ spec.hi := by
  have hitem : (loadSector k x).1[i]? = some ⟨spec.default, .default⟩ ∨ (loadSector k x).1[i]? = some ⟨spec.default, .corrected⟩ ∨
      (loadSector k x).1[i]? = some (loadItem spec (slotContent x.slots i)) := by
    by_cases ht : x.isTorn = true
    · rw [loadSector_torn ht]
      exact .inl (by simp [hs, ItemSpec.builtIn])
    · by_cases hm : x.matches = true
      · obtain ⟨hrestored, hloaded⟩ := loadSector_item (by simpa using ht) hm hs
        by_cases hc : CrossRestores k (loadItems x 0 (itemSpecs k)) i
        · exact .inr (.inl (hrestored hc))
        · exact .inr (.inr (hloaded hc))
      · rw [loadSector_defaulted (by simpa using ht) (by simpa using hm)]
        exact .inl (by simp [hs, ItemSpec.builtIn])
  obtain hitem | hitem | hitem := hitem <;> simp only [itemValue, hitem, Option.map_some, Option.getD_some]
  · exact hr
  · exact hr
  · rw [loadItem_eq]
    (repeat' split) <;> dsimp only <;> omega

/-- The steering limits that a load of sector 0 gives (R53). -/
theorem Hub.steerLimits_of_load {g : Hub} (x : Sector) (ha : g.store.active.get .s0 = (loadSector .s0 x).1) : g.SteerLimits := by
  have hitem : ∀ i, g.item .s0 i = itemValue (loadSector .s0 x).1 i := fun i => by rw [Hub.item, ha, itemValue]
  have h9 := itemValue_loadSector x (k := .s0) (i := 9) rfl (by decide)
  have h10 := itemValue_loadSector x (k := .s0) (i := 10) rfl (by decide)
  have h11 := itemValue_loadSector x (k := .s0) (i := 11) rfl (by decide)
  have h12 := itemValue_loadSector x (k := .s0) (i := 12) rfl (by decide)
  dsimp only at h9 h10 h11 h12
  intro t
  cases t <;> simp only [Hub.angleMax, Hub.rateMax, hitem] <;> omega

/-! ## What the commands leave -/

/-- Angle limits, axles and chain S's image stay. -/
structure Hub.SteersAlike (h g : Hub) : Prop where
  active : g.store.active = h.store.active
  axles  : ∀ t, g.axleSteer t = h.axleSteer t
  images : ∀ t, g.steerImage t = h.steerImage t
  timer  : g.steering.timer = h.steering.timer

theorem Hub.SteersAlike.of_units {h g : Hub} (ha : g.store.active = h.store.active) (hs : g.steering = h.steering)
    (hl : g.link.rest = h.link.rest) : h.SteersAlike g :=
  ⟨ha, fun t => by rw [Hub.axleSteer, hs, Hub.axleSteer], fun t => Hub.steerImage_of_rest hl t, by rw [hs]⟩

theorem Hub.SteersAlike.trans {h g f : Hub} (hg : h.SteersAlike g) (gf : g.SteersAlike f) : h.SteersAlike f :=
  ⟨gf.active.trans hg.active, fun t => (gf.axles t).trans (hg.axles t), fun t => (gf.images t).trans (hg.images t),
    gf.timer.trans hg.timer⟩

theorem Hub.SteerLimits.congr {h g : Hub} (hl : h.SteerLimits) (ha : g.store.active = h.store.active) : g.SteerLimits := by
  have hi := Hub.item_congr ha
  intro t
  have hx := hl t
  cases t <;> simp only [Hub.angleMax, Hub.rateMax, hi] at hx ⊢ <;> exact hx

theorem Hub.SteersAlike.sound {h g : Hub} (hg : h.SteersAlike g) (hs : ∀ t, h.SteersSound t) (t : Trailing) : g.SteersSound t :=
  (hs t).of_eq hg.active (hg.axles t) (hg.images t)

theorem Hub.SteersAlike.limits {h g : Hub} (hg : h.SteersAlike g) (hl : h.SteerLimits) : g.SteerLimits := hl.congr hg.active

@[simp] theorem Hub.completeSuspended_active (r : RunningOp) (h : Hub) :
    (h.completeSuspended r).store.active = h.store.active := by
  unfold Hub.completeSuspended
  extract_lets delivered
  have hdelivered : delivered.store.active = h.store.active := by simp [delivered]
  (repeat' split) <;> simp [Hub.startSuspended, hdelivered]

/-- The work of an operation's end: of an APPLY whose conditions hold the installation, of any other at most a sector
(R166, R167, R170). -/
theorem Hub.finishWork_cases (r : RunningOp) (h : Hub) :
    (r.op = .apply ∧ h.applyRefusal = none ∧ (h.finishWork r).1 = h.installApply) ∨
      ((h.finishWork r).1.store.active = h.store.active ∧
        (h.finishWork r).1 = { h with store := (h.finishWork r).1.store }) := by
  unfold Hub.finishWork
  split
  case h_7 hop =>
    split
    · next hnone => exact .inl ⟨hop, Option.isNone_iff_eq_none.mp hnone, rfl⟩
    · exact .inr ⟨rfl, rfl⟩
  all_goals exact .inr ⟨rfl, rfl⟩

/-- A completion of the store leaves the steering unit, or it is that of an installing APPLY (R52, R170). -/
theorem Hub.storeCompletion_steers (code : Byte) (depot : Bool) (h : Hub) : h.SteersAlike (h.storeCompletion code depot) ∨
    (code = 0x3E#8 ∧ (h.readDepot depot).applyRefusal = none ∧
      (h.readDepot depot).installApply.SteersAlike (h.storeCompletion code depot)) := by
  have hsame : ∀ g : Hub, g.SteersAlike g := fun _ => ⟨rfl, fun _ => rfl, fun _ => rfl, rfl⟩
  unfold Hub.storeCompletion
  split
  · next r _ =>
    split
    · next hcode =>
      extract_lets pins
      split
      · exact .inl (.of_units (by simp [pins]) (by simp [pins]) (by simp [pins]))
      · have hafter : (pins.finishWork r).1.SteersAlike (pins.completeOp r) := by
          rw [Hub.completeOp_eq]
          exact .of_units (by simp) (by simp) (by simp)
        obtain ⟨hop, hnone, hinstalled⟩ | ⟨hactive, hother⟩ := pins.finishWork_cases r
        · rw [hinstalled] at hafter
          exact .inr ⟨by rw [← hcode, hop]; rfl, hnone, hafter⟩
        · refine .inl (.trans (.of_units hactive ?_ ?_) hafter) <;> rw [hother] <;> rfl
    · exact .inl (hsame h)
  · exact .inl (hsame h)


theorem Link.actuators_of_rest {u v : Link} (hr : u.rest = v.rest) : u.actuators = v.actuators :=
  (congrArg Link.actuators hr :)

theorem Hub.SteersAlike.of_actuators {h g : Hub} (ha : g.store.active = h.store.active) (hs : g.steering = h.steering)
    (hl : g.link.actuators = h.link.actuators) : h.SteersAlike g :=
  ⟨ha, fun t => by rw [Hub.axleSteer, hs, Hub.axleSteer], fun t => by rw [Hub.steerImage, hl, Hub.steerImage], by rw [hs]⟩

@[simp] theorem Hub.writeModulator_actuators (k : Axle) (cmd : ModCmd) (h : Hub) :
    (h.writeModulator k cmd).link.actuators = h.link.actuators := rfl

@[simp] theorem Hub.judgeTorque_actuators (h : Hub) : h.judgeTorque.link.actuators = h.link.actuators := by
  unfold Hub.judgeTorque
  extract_lets cut judged
  split <;> rfl

@[simp] theorem Hub.jointPeriod_actuators (h : Hub) : h.jointPeriod.link.actuators = h.link.actuators := by
  have hwork : ∀ (g : Hub) j, (g.jointWork j).link.actuators = g.link.actuators := fun g j => by
    unfold Hub.jointWork
    extract_lets old new written
    split <;> simp [written, Hub.writeDamper]
  simp [Hub.jointPeriod, hwork]

@[simp] theorem Hub.brakePeriod_actuators (h : Hub) : h.brakePeriod.link.actuators = h.link.actuators := by
  have htake : h.takeDemands.link.actuators = h.link.actuators := by
    unfold Hub.takeDemands
    split
    · simp
    · extract_lets emptied taken
      split <;> simp [taken, emptied]
  have hcommand : ∀ g : Hub, g.command.link.actuators = g.link.actuators := fun g => by
    unfold Hub.command
    exact foldl_keeps (fun g : Hub => g.link.actuators) _ (fun g k => Hub.writeModulator_actuators k _ g) Axle.all _
  have hconfirm := Link.actuators_of_rest (Link.rest_of_body h.takeDemands.setModes.runLoads.formService.confirmHalt_core.2)
  simpa [Hub.brakePeriod, hcommand, htake] using hconfirm

/-- On the chains other than S the actuators stay (R143). -/
theorem Hub.chainComplete_actuators {answers : ChainAnswers} (ha : ∀ a, answers ≠ .s a) (h : Hub) :
    (h.chainComplete answers).link.actuators = h.link.actuators := by
  have hfault : ∀ (chain value : Nat) (set : Hub → Hub) (old new : Bool) (g : Hub),
      (∀ x, (set x).link.actuators = x.link.actuators) →
        (g.handFault chain value set id old new).link.actuators = g.link.actuators := fun chain value set old new g hset =>
    handFault_keeps (fun g : Hub => g.link.actuators) _ _ _ _ _ _ g (by simp) hset (by simp)
  cases answers with
  | l a =>
    refine Hub.completeL_preserves (P := fun g => g.link.actuators = h.link.actuators) a (fun _ _ => rfl)
      (fun cs add _ g hg => ?_) fun cs drop g hg => by simpa using hg
    exact (Link.actuators_of_rest (Hub.exclude_rest cs add _)).trans (by simpa using hg)
  | b a =>
    simp only [Hub.chainComplete, Hub.completeB]
    rw [hfault _ _ id _ _ _ (fun _ => rfl)]
    exact foldl_keeps (fun g : Hub => g.link.actuators) _ (fun g k => hfault _ _ _ _ _ g fun _ => rfl) _ _
  | s a => exact absurd rfl (ha a)
  | j a =>
    simp only [Hub.chainComplete, Hub.completeJ]
    rw [hfault _ _ id _ _ _ (fun _ => rfl)]
    exact foldl_keeps (fun g : Hub => g.link.actuators) _ (fun g k => hfault _ _ _ _ _ g fun _ => rfl) _ _

/-! ## A completion on chain S -/

/-- Through chain S's completion: what the take-up of the answers, of the angles and the failures keep. -/
theorem Hub.completeS_preserves {P : Hub → Prop} (answers : PerTrailing (Option (DeviceAnswer SteerCmd Half))) {h : Hub}
    (hlink : ∀ new : PerTrailing (Device SteerCmd Half), (∀ t, (new.get t).image = h.steerImage t) → ∀ chain,
      P (h.onLink fun u => { u with actuators := new, chainS := chain }))
    (hangle : ∀ t word g, P g → P (Hub.takeAngle t word g))
    (hfail : ∀ cause value g, P g → P (Hub.failBoth cause (g.raise .chainFault 3 value))) : P (h.completeS answers) := by
  unfold Hub.completeS
  extract_lets old judged new clean chain updated measured flags
  have hupdated : P updated := hlink new (fun t => by simp [new, Device.complete, old, Hub.steerImage]) chain
  have hmeasured : P measured := foldl_preserves (fun g t hg => hangle _ _ g hg) _ hupdated
  have hflags : P flags := foldl_preserves
    (fun g t hg => handFault_preserves (fun g hg => hfail _ _ g hg) (fun g hg => hg) _ _ hg) _ hmeasured
  exact handFault_preserves (fun g hg => hfail _ _ g hg) (fun g hg => hg) _ _ hflags

/-- A measured angle changes no more of an axle than itself (R142). -/
theorem Hub.takeAngle_sound {h : Hub} (hs : ∀ t, h.SteersSound t) (t : Trailing) (word : Option Half) (x : Trailing) :
    (h.takeAngle t word).SteersSound x := by
  unfold Hub.takeAngle
  split
  · next angle _ =>
    have haxle := Hub.axleSteer_onAxleSteer t x (fun y => { y with measured := some angle }) h
    have himage : (h.onAxleSteer t fun y => { y with measured := some angle }).steerImage x = h.steerImage x := rfl
    by_cases hx : x = t
    · subst hx
      rw [if_pos rfl] at haxle
      have hsound := (hs x).sound
      exact ⟨by rw [haxle]; exact ⟨hsound.bounded, hsound.held, hsound.enabled, hsound.failed⟩,
        by rw [haxle, himage, (hs x).shown]; rfl⟩
    · rw [if_neg hx] at haxle
      exact (hs x).of_eq rfl haxle himage
  · exact hs x

theorem Hub.raise_steers (kind : EventKind) (subject : Nat) (value : Int) (h : Hub) : h.SteersAlike (h.raise kind subject value) :=
  .of_actuators (by simp) (by simp) (by simp)

theorem Hub.completeS_sound (answers : PerTrailing (Option (DeviceAnswer SteerCmd Half))) {h : Hub} (hs : ∀ t, h.SteersSound t) :
    ∀ t, (h.completeS answers).SteersSound t :=
  Hub.completeS_preserves (P := fun g => ∀ t, g.SteersSound t) answers
    (fun _ himage _ t => (hs t).of_eq rfl rfl (himage t)) (fun t word _ hg => Hub.takeAngle_sound hg t word)
    (fun cause _ g hg => Hub.failBoth_sound ((g.raise_steers _ _ _).sound hg) cause)

/-! ## The installation of an APPLY -/

theorem AxleSteer.Sound.clamp {limit : Int} {x : AxleSteer} (hx : x.Sound limit) {new : Int} (hn : 0 ≤ new) :
    AxleSteer.Sound new { x with setpoint := x.setpoint.map (clampTo (-new) new) } := by
  refine ⟨fun y hy => ?_, by simp [hx.held], hx.enabled, hx.failed⟩
  obtain ⟨z, -, rfl⟩ := Option.map_eq_some_iff.mp hy
  exact clampTo_bounds (by omega)

/-- An axle that is not initialised has no setpoint to bound (R50). -/
theorem AxleSteer.Sound.uninitialised {limit : Int} {x : AxleSteer} (hx : x.Sound limit) (hi : x.initialised = false) (new : Int) :
    x.Sound new := by
  refine ⟨fun y hy => ?_, hx.held, hx.enabled, hx.failed⟩
  have hnone := hx.held.symm.trans hi
  simp [hy] at hnone

/-- The clamp of one axle, on an axle in its form under any limit (R52). -/
theorem Hub.clampSteer_sound {h : Hub} {t : Trailing} {limit : Int} (hl : h.SteerLimits) (hx : (h.axleSteer t).Sound limit)
    (hshown : ∀ x, h.steerImage x = (h.axleSteer x).command) : ((h.clampSteer t).axleSteer t).Sound (h.angleMax t) ∧
      ∀ x, (h.clampSteer t).steerImage x = ((h.clampSteer t).axleSteer x).command := by
  have haxle := fun x => h.clampSteer_axleSteer t x
  cases hi : (h.axleSteer t).initialised with
  | false =>
    have hsame : h.clampSteer t = h := by simp [Hub.clampSteer, hi]
    rw [hsame]
    exact ⟨hx.uninitialised hi _, hshown⟩
  | true =>
    have hclamped := hx.clamp (hl t).1
    refine ⟨by rw [haxle, if_pos ⟨rfl, hi⟩]; exact hclamped, fun x => ?_⟩
    simp only [Hub.clampSteer, hi, if_true]
    rw [Hub.writeSteer_steerImage, Hub.writeSteer_axleSteer, Hub.axleSteer_onAxleSteer, Hub.axleSteer_onAxleSteer, if_pos rfl]
    split
    · exact congrArg (SteerCmd.mk · _) hclamped.enabled.symm
    · exact hshown x

/-- The set is loaded, then each setpoint clamped to its limits (R52, R170). -/
theorem Hub.installApply_steers {h : Hub} (hs : ∀ t, h.SteersSound t) :
    h.installApply.SteerLimits ∧ ∀ t, h.installApply.SteersSound t := by
  have hloaded : h.installLoad.SteerLimits := Hub.steerLimits_of_load (h.store.sectors.get .s0) (by simp [Hub.installLoad])
  obtain ⟨hsound3, hshown3⟩ := Hub.clampSteer_sound (h := h.installLoad) (t := .a3) hloaded (hs .a3).sound fun x => (hs x).shown
  have hfirst : (h.installLoad.clampSteer .a3).SteerLimits := hloaded.congr (by simp)
  have hother : (h.installLoad.clampSteer .a3).axleSteer .a4 = h.axleSteer .a4 := by
    rw [Hub.clampSteer_axleSteer, if_neg (by simp)]
    rfl
  obtain ⟨hsound4, hshown4⟩ := Hub.clampSteer_sound (t := .a4) hfirst (by rw [hother]; exact (hs .a4).sound) hshown3
  have halike : ((h.installLoad.clampSteer .a3).clampSteer .a4).SteersAlike h.installApply :=
    .of_units (by simp [Hub.installApply]) (by simp [Hub.installApply])
      (Link.rest_of_body (by simp [Hub.installApply]))
  have hactive : ∀ t, ((h.installLoad.clampSteer .a3).clampSteer .a4).angleMax t = h.installLoad.angleMax t :=
    Hub.angleMax_congr (by simp)
  have hlimits : ((h.installLoad.clampSteer .a3).clampSteer .a4).SteerLimits := hloaded.congr (by simp)
  refine ⟨halike.limits hlimits, halike.sound fun t => ⟨?_, hshown4 t⟩⟩
  rw [hactive]
  cases t with
  | a3 =>
    rw [Hub.clampSteer_axleSteer, if_neg (by simp)]
    exact hsound3
  | a4 =>
    have hangle := Hub.angleMax_congr (h := h.installLoad) (g := h.installLoad.clampSteer .a3) (by simp) .a4
    rw [← hangle]
    exact hsound4

/-! ## All commands -/

theorem Hub.order_rest {f : Service} (hf : ∀ h, (f h).1.link.rest = h.link.rest) (q : Request) (code : Byte) (c : AccessClass)
    (h : Hub) : (h.order q code c f).link.rest = h.link.rest :=
  Hub.order_preserves (P := fun g => g.link.rest = h.link.rest) (fun _ _ _ _ hg => hg) (fun _ _ hg => hg) q code c
    (fun g _ hg => (hf g).trans hg) rfl

theorem Hub.delayedOrder_active (q : Request) (code : Byte) (judge : Hub → Except Reason StoreOp) (h : Hub) :
    (h.delayedOrder q code judge).store.active = h.store.active := by
  refine Hub.delayedOrder_preserves (P := fun g => g.store.active = h.store.active) (fun _ _ _ _ hg => hg) (fun _ _ hg => hg)
    (fun _ _ hg => hg) q code (fun g op _ hg => ?_) rfl
  have hplaced : ∀ p rq, (g.placeDelayed p rq).store.active = g.store.active := fun p rq => by
    unfold Hub.placeDelayed
    (repeat' split) <;> simp [Hub.startSuspended]
  unfold serveDelayed
  (repeat' split) <;> simp [hplaced, hg]

/-- The commands that may write an axle's state or the limits it keeps to. -/
def steersPart : Instr → Bool
  | .powerOnReset | .rstLine | .hubReset _ | .activeSetLoad _ | .steeringTimerExpiry | .chainRefreshComplete _
  | .applyCompletion _ => true
  | _ => false

theorem Hub.after_steers (w : Between) {c : Instr} (hc : steersPart c = false) (h : Hub) : h.SteersAlike (h.after w c) := by
  have hif : ∀ (b : Prop) [Decidable b] {g : Hub}, h.SteersAlike g → h.SteersAlike (if b then g else h) := by
    intro b _ g hg
    split
    · exact hg
    · exact ⟨rfl, fun _ => rfl, fun _ => rfl, rfl⟩
  cases c
  case powerOnReset | rstLine | hubReset | activeSetLoad | steeringTimerExpiry | chainRefreshComplete | applyCompletion =>
    exact Bool.noConfusion hc
  case scanRound raw => exact .of_units (by simp) (by simp) (by simp [Hub.after]; split <;> simp)
  case wheelPulse i dir => exact hif _ (.of_units (by simp) (by simp) (by simp))
  case speedTimerExpiry dir => exact hif _ (.of_units (by simp) (by simp) (Link.rest_of_body (by simp)))
  case quietTimerExpiry => exact hif _ (.of_units (by simp) (by simp) (Link.rest_of_body (by simp)))
  case jointTimerExpiry => exact hif _ (.of_actuators (by simp) (by simp) (by simp))
  case brakeTimerExpiry => exact hif _ (.of_actuators (by simp) (by simp) (by simp))
  case levellingTimerExpiry => exact hif _ (.of_units (by simp) (by simp) (by simp))
  case refreshTimerExpiry => exact hif _ ⟨rfl, fun _ => rfl, fun t => by simp [Hub.steerImage, Link.refresh, Device.send], rfl⟩
  case debounceTimerExpiry d i => exact hif _ (.of_units (by simp) (by simp) (Link.rest_of_body (by simp)))
  case storeReadCompletion depot | storeWriteCompletion depot | storeCloseCompletion depot | storeLockCompletion depot
      | blankTestCompletion depot | storeClearCompletion depot =>
    obtain hs | ⟨hno, -⟩ := h.storeCompletion_steers _ depot
    · exact hs
    · exact absurd hno (by decide)
  case haltOn q => exact .of_units (by simp) (by simp) (Hub.order_rest (fun h => Link.rest_of_body (serveHaltOn_core h).2) ..)
  case haltOff q => exact .of_units (by simp) (by simp) (Hub.order_rest (fun h => Link.rest_of_body (serveHaltOff_core h).2) ..)
  case release q =>
    exact .of_units (by simp) (by simp) (Hub.order_rest (fun h => Link.rest_of_body (serveRelease_core q.payload h).2) ..)
  case withdraw q =>
    exact .of_units (by simp) (by simp) (Hub.order_rest (fun h => Link.rest_of_body (serveWithdraw_core q.payload h).2) ..)
  case kneel q => exact .of_units (by simp) (by simp) (Hub.order_rest (fun h => Link.rest_of_body (serveKneel_core h).2) ..)
  case raise q => exact .of_units (by simp) (by simp) (Hub.order_rest (fun h => Link.rest_of_body (serveRaise_core h).2) ..)
  case fetchSteer q =>
    have hkept : (∀ t, (h.after w (.fetchSteer q)).axleSteer t = h.axleSteer t) ∧
        (h.after w (.fetchSteer q)).steering.timer = h.steering.timer := by
      refine Hub.fetch_preserves (P := fun g => (∀ t, g.axleSteer t = h.axleSteer t) ∧ g.steering.timer = h.steering.timer)
        (fun _ _ _ _ hg => hg) (fun _ _ hg => hg) q _ (fun g hg => ?_) ⟨fun _ => rfl, rfl⟩
      unfold serveSteer
      split <;> exact hg
    exact ⟨by simp, hkept.1, Hub.steerImage_of_rest (by simp), hkept.2⟩
  case storeRead | storeClear | storeWrite | storeClose | storeLock | blankTest | apply =>
    exact .of_units (Hub.delayedOrder_active _ _ _ _) (by simp) (by simp)
  all_goals exact .of_units (by simp) (by simp) (by simp)


/-! ## The invariant -/

theorem Hub.SteersAlike.inv {h g : Hub} (hg : h.SteersAlike g) (hc : g.clock = h.clock) (hi : h.SteerInv) : g.SteerInv := by
  obtain ⟨hlimits, hs, hbefore, hload⟩ := (Hub.steerInv_iff h).mp hi
  refine (Hub.steerInv_iff g).mpr ⟨hg.limits hlimits, hg.sound hs, ?_, ?_⟩ <;> rw [hc]
  · intro hno
    obtain ⟨htimer, hinit⟩ := hbefore hno
    exact ⟨hg.timer.trans htimer, fun t => by rw [hg.axles]; exact hinit t⟩
  · exact hload

theorem Hub.after_steers_clock (w : Between) {c : Instr} (hc : steersPart c = false) (h : Hub) : (h.after w c).clock = h.clock := by
  cases c
  case powerOnReset | rstLine | hubReset | activeSetLoad | steeringTimerExpiry | chainRefreshComplete | applyCompletion =>
    exact Bool.noConfusion hc
  all_goals simp

theorem Hub.steeringPeriod_sound (w : Between) {h : Hub} (hl : h.SteerLimits) (hs : ∀ t, h.SteersSound t) :
    (h.steeringPeriod w).SteerLimits ∧ ∀ t, (h.steeringPeriod w).SteersSound t := by
  have hfirst := Hub.steerAxle_sound hl hs .a3
  obtain ⟨between, hbetween⟩ : ∃ g : Hub, g = { h.steerAxle .a3 with path := (h.steerAxle .a3).pathAfter w.pulses } := ⟨_, rfl⟩
  have hlb : between.SteerLimits := hl.congr (by simp [hbetween])
  have hsb : ∀ t, between.SteersSound t := fun t => (hfirst t).of_eq (by rw [hbetween]) (by rw [hbetween]; rfl) (by rw [hbetween]; rfl)
  have hlast := Hub.steerAxle_sound hlb hsb .a4
  have heq : h.steeringPeriod w = { between.steerAxle .a4 with
      path := h.path
      steering := { (between.steerAxle .a4).steering with
        periods := (between.steerAxle .a4).steering.periods + 1, timer := .started, midway := h.midwayFor w.copies }
      freeCount := h.freeCount + 1 } := by rw [hbetween]; rfl
  refine ⟨hl.congr (by simp), fun t => (hlast t).of_eq ?_ ?_ ?_⟩ <;> rw [heq] <;> rfl

theorem Hub.completeS_timer (answers : PerTrailing (Option (DeviceAnswer SteerCmd Half))) (h : Hub) :
    (h.completeS answers).steering.timer = h.steering.timer :=
  Hub.completeS_preserves (P := fun g => g.steering.timer = h.steering.timer) answers (fun _ _ _ => rfl)
    (fun t word g hg => by
      unfold Hub.takeAngle
      split <;> exact hg)
    (fun cause value g hg => by
      have hone : ∀ (x : Hub) t, (x.failAxle cause t).steering.timer = x.steering.timer := fun x t => by
        unfold Hub.failAxle
        split <;> simp [Hub.onAxleSteer]
      simpa [Hub.failBoth, hone] using hg)

/-- An axle is initialised by the steering period alone (R50). -/
theorem Hub.completeS_initialised (answers : PerTrailing (Option (DeviceAnswer SteerCmd Half))) (h : Hub) (t : Trailing) :
    ((h.completeS answers).axleSteer t).initialised = (h.axleSteer t).initialised :=
  Hub.completeS_preserves (P := fun g => (g.axleSteer t).initialised = (h.axleSteer t).initialised) answers (fun _ _ _ => rfl)
    (fun x word g hg => by
      unfold Hub.takeAngle
      split
      · rw [Hub.axleSteer_onAxleSteer]
        split
        · next heq => subst heq; exact hg
        · exact hg
      · exact hg)
    (fun cause value g hg => by
      have hfail : ∀ x : AxleSteer, (x.fail cause).initialised = x.initialised := fun x => by
        unfold AxleSteer.fail
        split <;> rfl
      have hone : ∀ (x : Hub) y, ((x.failAxle cause y).axleSteer t).initialised = (x.axleSteer t).initialised := fun x y => by
        rw [Hub.failAxle_axleSteer]
        split
        · next heq => rw [hfail, heq]
        · rfl
      rw [Hub.failBoth, hone, hone]
      simpa [Hub.axleSteer] using hg)

theorem Hub.completeLoad_steerInv (levels : PerDoor DoorLevels) {h : Hub} (hi : h.SteerInv) (hl : h.clock.loaded = false) :
    (h.completeLoad levels).SteerInv := by
  obtain ⟨-, hs, hbefore, -⟩ := (Hub.steerInv_iff h).mp hi
  have hactive : (h.completeLoad levels).store.active.get .s0 = (loadSector .s0 (h.store.sectors.get .s0)).1 := by
    have hload : h.installLoad.store.active.get .s0 = (loadSector .s0 (h.store.sectors.get .s0)).1 := by simp [Hub.installLoad]
    rw [Hub.completeLoad_store]
    dsimp only
    split
    · exact hload
    · simpa [PerSector.get_set_ne] using hload
  have haxles : ∀ t, (h.completeLoad levels).axleSteer t = h.axleSteer t := fun t => by
    simp [Hub.completeLoad, Hub.axleSteer, Hub.startTimers]
  have himages : ∀ t, (h.completeLoad levels).steerImage t = h.steerImage t :=
    Hub.steerImage_of_body (by simp [Hub.completeLoad])
  refine (Hub.steerInv_iff _).mpr ⟨Hub.steerLimits_of_load _ hactive, fun t => ⟨?_, ?_⟩, ?_, ?_⟩
  · rw [haxles]; exact (hs t).sound.uninitialised ((hbefore hl).2 t) _
  · rw [haxles, himages]; exact (hs t).shown
  · simp [Hub.completeLoad]
  · simp [Hub.completeLoad]

theorem Hub.steerInv_of_reset {g : Hub} (hl : g.SteerLimits) (hs : g.steering = .atReset) (hk : g.link = .atReset)
    (hc : g.clock = .atReset) : g.SteerInv := by
  obtain ⟨-, hsound, hbefore, hload⟩ := (Hub.steerInv_iff _).mp Hub.atPowerOn_steerInv
  have haxle : ∀ t, g.axleSteer t = Hub.atPowerOn.axleSteer t := fun t => by rw [Hub.axleSteer, hs]; rfl
  have himage : ∀ t, g.steerImage t = Hub.atPowerOn.steerImage t := fun t => by rw [Hub.steerImage, hk]; rfl
  refine (Hub.steerInv_iff g).mpr ⟨hl, fun t => ⟨?_, ?_⟩, ?_, ?_⟩
  · rw [haxle]; exact (hsound t).sound.uninitialised ((hbefore rfl).2 t) _
  · rw [haxle, himage]; exact (hsound t).shown
  · rw [hc, hs]; exact fun _ => ⟨rfl, fun t => by rw [haxle]; exact (hbefore rfl).2 t⟩
  · rw [hc]; exact hload

/-- An APPLY's installation clamps the setpoints; initialised axles stay so, and no others become so (R52). -/
theorem Hub.applyCompletion_steerInv (depot : Bool) {h : Hub} (hi : h.SteerInv) : (h.storeCompletion 0x3E#8 depot).SteerInv := by
  obtain ⟨-, hs, hbefore, hload⟩ := (Hub.steerInv_iff h).mp hi
  obtain halike | ⟨-, hnone, halike⟩ := h.storeCompletion_steers 0x3E#8 depot
  · exact halike.inv (by simp) hi
  · obtain ⟨hlimits, hsound⟩ := Hub.installApply_steers (h := h.readDepot depot) fun t => (hs t).of_eq rfl rfl rfl
    obtain ⟨-, haxle, -, -⟩ := Hub.installApply_spec (h := h.readDepot depot) (Hub.applyRefusal_eq_none.mp hnone).2.2
    refine halike.inv (by simp) ((Hub.steerInv_iff _).mpr ⟨hlimits, hsound, fun hno => ?_, by simpa using hload⟩)
    obtain ⟨htimer, hinit⟩ := hbefore (by simpa using hno)
    refine ⟨?_, fun t => ?_⟩
    · have hclamp : ∀ (x : Hub) t, (x.clampSteer t).steering.timer = x.steering.timer := fun x t => by
        unfold Hub.clampSteer
        extract_lets y
        split <;> simp [Hub.onAxleSteer]
      simpa [Hub.installApply, hclamp] using htimer
    · have hno : ¬((h.readDepot depot).axleSteer t).initialised = true := ne_true_of_eq_false (hinit t)
      rw [haxle, if_neg hno]
      exact hinit t

/-- A tick runs the timer alone, which stands still before the load. -/
theorem Hub.tick_steerInv {h : Hub} (hi : h.SteerInv) : h.tick.SteerInv := by
  have hactive : h.tick.store.active = h.store.active := by
    show h.store.tick.active = _
    unfold Store.tick
    split <;> rfl
  obtain ⟨hlimits, hs, hbefore, hload⟩ := (Hub.steerInv_iff h).mp hi
  exact (Hub.steerInv_iff _).mpr ⟨hlimits.congr hactive, fun t => (hs t).of_eq hactive rfl rfl,
    fun hl => ⟨congrArg (Timer.advance Machine.steeringPeriod) (hbefore hl).1, (hbefore hl).2⟩,
    fun hl => congrArg (Timer.advance loadTime) (hload hl)⟩

/-- Every command keeps the setpoints, enables and images in form. -/
theorem Hub.after_steerInv (w : Between) (c : Instr) {h : Hub} (hi : h.SteerInv) : (h.after w c).SteerInv := by
  obtain ⟨hlimits, hs, hbefore, hload⟩ := (Hub.steerInv_iff h).mp hi
  have hif : ∀ (b : Prop) [Decidable b] {g : Hub}, (b → g.SteerInv) → (if b then g else h).SteerInv := by
    intro b _ g hg
    split
    · next hb => exact hg hb
    · exact hi
  cases hc : steersPart c with
  | false => exact (h.after_steers w hc).inv (Hub.after_steers_clock w hc h) hi
  | true =>
    cases c
    case powerOnReset => exact Hub.steerInv_of_reset (Hub.atPowerOn_steerInv.limits) rfl rfl rfl
    case rstLine => exact Hub.steerInv_of_reset (hlimits.congr rfl) rfl rfl rfl
    case hubReset q =>
      have hsame : ∀ {x g : Hub}, x.SteerInv → g.store = x.store → g.steering = x.steering → g.link = x.link → g.clock = x.clock →
          g.SteerInv := fun hx h1 h2 h3 h4 => (Hub.SteersAlike.of_units (by rw [h1]) h2 (by rw [h3])).inv h4 hx
      exact Hub.hubReset_preserves (P := Hub.SteerInv) (fun _ _ _ _ hg => hsame hg rfl rfl rfl rfl) (fun _ _ hg => hsame hg rfl rfl rfl rfl)
        (fun _ g hg => Hub.steerInv_of_reset (Hub.SteerLimits.congr (h := g) hg.limits rfl) rfl rfl rfl) q hi
    case activeSetLoad x =>
      refine hif _ fun hdue => ?_
      have hno : h.clock.loaded = false := by
        cases hl : h.clock.loaded with
        | false => rfl
        | true => rw [hload hl] at hdue; cases hdue
      exact Hub.completeLoad_steerInv _ (h := h.readDepot x.depot)
        ((Hub.SteersAlike.of_units (h := h) (g := h.readDepot x.depot) rfl rfl rfl).inv rfl hi) hno
    case steeringTimerExpiry =>
      refine hif _ fun hdue => ?_
      have hyes : h.clock.loaded = true := by
        cases hl : h.clock.loaded with
        | true => rfl
        | false => rw [(hbefore hl).1] at hdue; cases hdue
      obtain ⟨hl, hsound⟩ := Hub.steeringPeriod_sound w hlimits hs
      exact (Hub.steerInv_iff _).mpr ⟨hl, hsound, by simp [hyes], by simpa using hload⟩
    case chainRefreshComplete answers =>
      refine hif _ fun _ => ?_
      by_cases ha : ∃ a, answers = .s a
      · obtain ⟨a, rfl⟩ := ha
        refine (Hub.steerInv_iff (h.completeS a)).mpr ⟨hlimits.congr (by simp), Hub.completeS_sound a hs, ?_, by simpa using hload⟩
        intro hno
        obtain ⟨htimer, hinit⟩ := hbefore (by simpa using hno)
        exact ⟨(h.completeS_timer a).trans htimer, fun t => (h.completeS_initialised a t).trans (hinit t)⟩
      · have hkept := h.chainComplete_actuators fun a hs => ha ⟨a, hs⟩
        have hsteering : (h.chainComplete answers).steering = h.steering := by
          cases answers with
          | s a => exact absurd ⟨a, rfl⟩ ha
          | l a => simp [Hub.chainComplete]
          | b a => simp [Hub.chainComplete]
          | j a => simp [Hub.chainComplete]
        exact (Hub.SteersAlike.of_actuators (by simp) hsteering hkept).inv (by simp) hi
    case applyCompletion depot => exact Hub.applyCompletion_steerInv depot hi
    all_goals exact Bool.noConfusion hc

/-- Settles O59: each axle keeps its form through its own work, the failures and the clamp. -/
theorem setpointsStayBounded : Obligations.SetpointsStayBounded :=
  fun _ _ hi hstep => step_induction (P := Hub.SteerInv) (fun _ w c => Hub.after_steerInv w c) (fun _ => Hub.tick_steerInv) hi hstep

end Sys2Proof.Machine
end

section
/-! PROOFS. The steering period of each axle, and what may move a setpoint: O40, O41. -/

namespace Sys2Proof.Machine

theorem hub_of_exec {s t : State} {c : Instr} (h : exec c s = .next t) : t = { s with hub := s.hub.after s.between c } :=
  (Host.Outcome.next.inj ((exec_eq c s).symm.trans h)).symm

/-- A HUB RESET that is not taken touches pins and port units alone (R158). -/
theorem Hub.hubReset_refused_keeps {γ : Type} (π : Hub → γ) {h : Hub} {q : Request} (ht : h.takesReset q = false)
    (hp : ∀ p g h, π (Hub.onPort p g h) = π h) (hd : ∀ g h, π (Hub.onPins g h) = π h) : π (h.hubReset q) = π h := by
  rw [Hub.hubReset_refused ht]
  refine order_keeps π q _ _ h (fun h => ?_) hp hd
  unfold serveHubReset
  split <;> rfl

/-! ## What a work of an axle leaves -/

theorem AxleSteer.fail_of_failed {x : AxleSteer} (hx : x.mode = some .failed) (cause : FailCause) : x.fail cause = x := if_pos hx

theorem Hub.steered_of_failed {h : Hub} {t : Trailing} (hx : (h.axleSteer t).mode = some .failed) : h.steered t = h.axleSteer t :=
  if_pos hx

theorem clampTo_near {r x : Int} (hr : 0 ≤ r) : -r ≤ clampTo (-r) r x ∧ clampTo (-r) r x ≤ r := clampTo_bounds (by omega)

/-- The setpoint of an initialised axle moves by at most the rate limit, and under a halt brake not at all (R38, R45). -/
theorem Hub.steerStages_setpoint {h : Hub} {t : Trailing} (hr : 0 ≤ h.rateMax t) {x : AxleSteer} {a : Int}
    (ha : x.setpoint = some a) : ∃ b, (h.steerStages t x).setpoint = some b ∧ b - a ≤ h.rateMax t ∧ a - b ≤ h.rateMax t ∧
      (h.brake.halt ≠ .released → b = a) := by
  have hnext : ∀ w, h.nextSetpoint t (x.setpoint.getD 0) w - a ≤ h.rateMax t ∧
      a - h.nextSetpoint t (x.setpoint.getD 0) w ≤ h.rateMax t := fun w => by
    have hstep := clampTo_near (x := clampTo (-h.angleMax t) (h.angleMax t) w - a) hr
    rw [ha]
    simp only [Hub.nextSetpoint, Option.getD_some]
    omega
  have hhalt : (h.chooseMode t).1 ≠ .held → h.brake.halt = .released := fun hne => by
    by_contra hno
    exact hne (by simp [Hub.chooseMode, hno])
  unfold Hub.steerStages
  split
  · exact ⟨a, ha, by omega, by omega, fun _ => rfl⟩
  · next hchosen => exact ⟨_, rfl, (hnext 0).1, (hnext 0).2, fun hno => absurd (hhalt (by simp [hchosen])) hno⟩
  · next mode lookup hheld _ hchosen =>
    have hne : mode ≠ .held := hheld
    exact ⟨_, rfl, (hnext _).1, (hnext _).2, fun hno => absurd (hhalt (by simpa [hchosen] using hne)) hno⟩

theorem Hub.steered_setpoint {h : Hub} {t : Trailing} (hr : 0 ≤ h.rateMax t) (hi : (h.axleSteer t).initialised = true) {a : Int}
    (ha : (h.axleSteer t).setpoint = some a) : ∃ b, (h.steered t).setpoint = some b ∧ b - a ≤ h.rateMax t ∧
      a - b ≤ h.rateMax t ∧ (h.brake.halt ≠ .released → b = a) := by
  have hsame : ∃ b, some a = some b ∧ b - a ≤ h.rateMax t ∧ a - b ≤ h.rateMax t ∧ (h.brake.halt ≠ .released → b = a) :=
    ⟨a, rfl, by omega, by omega, fun _ => rfl⟩
  unfold Hub.steered
  extract_lets x tracking
  split
  · exact ha ▸ hsame
  · split
    · exact ha ▸ hsame
    · exact Hub.steerStages_setpoint hr ha

/-! ## What a completion on chain S leaves of an axle -/

/-- Measured angles and failures leave the setpoint, and a failed axle as it failed (R37, R47, R142). -/
theorem Hub.completeS_axle (answers : PerTrailing (Option (DeviceAnswer SteerCmd Half))) (h : Hub) (t : Trailing) :
    ((h.completeS answers).axleSteer t).setpoint = (h.axleSteer t).setpoint ∧
    ((h.axleSteer t).mode = some .failed → ((h.completeS answers).axleSteer t).mode = some .failed ∧
      ((h.completeS answers).axleSteer t).cause = (h.axleSteer t).cause ∧
      ((h.completeS answers).axleSteer t).enable = (h.axleSteer t).enable) := by
  refine Hub.completeS_preserves (P := fun g => (g.axleSteer t).setpoint = (h.axleSteer t).setpoint ∧
    ((h.axleSteer t).mode = some .failed → (g.axleSteer t).mode = some .failed ∧
      (g.axleSteer t).cause = (h.axleSteer t).cause ∧ (g.axleSteer t).enable = (h.axleSteer t).enable)) answers
    (fun _ _ _ => ⟨rfl, fun hf => ⟨hf, rfl, rfl⟩⟩) (fun x word g hg => ?_) fun cause value g hg => ?_
  · unfold Hub.takeAngle
    split
    · rw [Hub.axleSteer_onAxleSteer]
      split
      · next heq => subst heq; exact hg
      · exact hg
    · exact hg
  · have hone : ∀ (f : Hub) x, (f.axleSteer t).setpoint = (h.axleSteer t).setpoint ∧
        ((h.axleSteer t).mode = some .failed → (f.axleSteer t).mode = some .failed ∧
          (f.axleSteer t).cause = (h.axleSteer t).cause ∧ (f.axleSteer t).enable = (h.axleSteer t).enable) →
        ((f.failAxle cause x).axleSteer t).setpoint = (h.axleSteer t).setpoint ∧
        ((h.axleSteer t).mode = some .failed → ((f.failAxle cause x).axleSteer t).mode = some .failed ∧
          ((f.failAxle cause x).axleSteer t).cause = (h.axleSteer t).cause ∧
          ((f.failAxle cause x).axleSteer t).enable = (h.axleSteer t).enable) := fun f x hf => by
      rw [Hub.failAxle_axleSteer]
      split
      · next heq =>
        subst heq
        refine ⟨?_, fun hfailed => by rw [AxleSteer.fail_of_failed (hf.2 hfailed).1]; exact hf.2 hfailed⟩
        rw [← hf.1, AxleSteer.fail]
        split <;> rfl
      · exact hf
    exact hone _ _ (hone _ _ (by simpa [Hub.axleSteer] using hg))

theorem Hub.completeLoad_axleSteer (levels : PerDoor DoorLevels) (h : Hub) (t : Trailing) :
    (h.completeLoad levels).axleSteer t = h.axleSteer t := by
  simp [Hub.completeLoad, Hub.axleSteer, Hub.startTimers]

/-- Settles O41: by the command; a setpoint moves in the period's rate limit, and FAILED is never left. -/
theorem setpointMovesAndFailedStays : Obligations.SetpointMovesAndFailedStays := by
  constructor
  · rintro s t c x a hexec hreset happly hr hi ha
    obtain rfl := hub_of_exec hexec
    have hsame : ∀ {g : Hub}, (g.axleSteer x).setpoint = (s.hub.axleSteer x).setpoint → ∃ b, (g.axleSteer x).setpoint = some b ∧
        b - a ≤ s.hub.rateMax x ∧ a - b ≤ s.hub.rateMax x ∧ (c ≠ .steeringTimerExpiry → b = a) ∧
        (s.hub.brake.halt ≠ .released → b = a) := fun hg => ⟨a, hg.trans ha, by omega, by omega, fun _ => rfl, fun _ => rfl⟩
    cases hc : steersPart c with
    | false => exact hsame (by rw [(s.hub.after_steers _ hc).axles])
    | true =>
      cases c
      case powerOnReset | rstLine => exact Bool.noConfusion hreset
      case applyCompletion depot => exact absurd rfl (happly depot)
      case hubReset q => exact hsame (Hub.hubReset_refused_keeps (fun g => (g.axleSteer x).setpoint) hreset (fun _ _ _ => rfl) fun _ _ => rfl)
      case activeSetLoad inputs =>
        refine hsame ?_
        simp only [Hub.after]
        split
        · rw [Hub.completeLoad_axleSteer]; rfl
        · rfl
      case chainRefreshComplete answers =>
        refine hsame ?_
        simp only [Hub.after]
        split
        · cases answers with
          | s a => exact (s.hub.completeS_axle a x).1
          | l a => simp [Hub.chainComplete, Hub.axleSteer]
          | b a => simp [Hub.chainComplete, Hub.axleSteer]
          | j a => simp [Hub.chainComplete, Hub.axleSteer]
        · rfl
      case steeringTimerExpiry =>
        simp only [Hub.after]
        split
        · rw [Hub.steeringPeriod_axleSteer]
          have hmoved : ∀ p, ∃ b, (({ s.hub with path := p } : Hub).steered x).setpoint = some b ∧ b - a ≤ s.hub.rateMax x ∧
              a - b ≤ s.hub.rateMax x ∧ (Instr.steeringTimerExpiry ≠ .steeringTimerExpiry → b = a) ∧
              (s.hub.brake.halt ≠ .released → b = a) := fun p => by
            obtain ⟨b, hb, hup, hdown, hhalt⟩ := Hub.steered_setpoint (h := { s.hub with path := p }) hr hi ha
            exact ⟨b, hb, hup, hdown, fun hno => absurd rfl hno, hhalt⟩
          cases x with
          | a3 => exact hmoved s.hub.path
          | a4 => exact hmoved _
        · exact hsame rfl
      all_goals exact Bool.noConfusion hc
  · rintro s t c x hexec hreset hfailed
    obtain rfl := hub_of_exec hexec
    have hsame : ∀ {g : Hub}, g.axleSteer x = s.hub.axleSteer x → (g.axleSteer x).mode = some .failed ∧
        (g.axleSteer x).cause = (s.hub.axleSteer x).cause ∧ (g.axleSteer x).enable = (s.hub.axleSteer x).enable := fun hg => by
      rw [hg]; exact ⟨hfailed, rfl, rfl⟩
    cases hc : steersPart c with
    | false => exact hsame ((s.hub.after_steers _ hc).axles x)
    | true =>
      cases c
      case powerOnReset | rstLine => exact Bool.noConfusion hreset
      case applyCompletion depot =>
        obtain halike | ⟨-, hnone, halike⟩ := s.hub.storeCompletion_steers 0x3E#8 depot
        · exact hsame (halike.axles x)
        · obtain ⟨-, haxle, -, -⟩ := Hub.installApply_spec (h := s.hub.readDepot depot) (Hub.applyRefusal_eq_none.mp hnone).2.2
          have hkept : ((s.hub.storeCompletion 0x3E#8 depot).axleSteer x).mode = some .failed ∧
              ((s.hub.storeCompletion 0x3E#8 depot).axleSteer x).cause = (s.hub.axleSteer x).cause ∧
              ((s.hub.storeCompletion 0x3E#8 depot).axleSteer x).enable = (s.hub.axleSteer x).enable := by
            rw [halike.axles, haxle]
            split <;> exact ⟨hfailed, rfl, rfl⟩
          exact hkept
      case hubReset q => exact hsame (Hub.hubReset_refused_keeps (fun g => g.axleSteer x) hreset (fun _ _ _ => rfl) fun _ _ => rfl)
      case activeSetLoad inputs =>
        refine hsame ?_
        simp only [Hub.after]
        split
        · rw [Hub.completeLoad_axleSteer]; rfl
        · rfl
      case chainRefreshComplete answers =>
        simp only [Hub.after]
        split
        · cases answers with
          | s a => exact (s.hub.completeS_axle a x).2 hfailed
          | l a => exact hsame (by simp [Hub.chainComplete, Hub.axleSteer])
          | b a => exact hsame (by simp [Hub.chainComplete, Hub.axleSteer])
          | j a => exact hsame (by simp [Hub.chainComplete, Hub.axleSteer])
        · exact hsame rfl
      case steeringTimerExpiry =>
        refine hsame ?_
        simp only [Hub.after]
        split
        · rw [Hub.steeringPeriod_axleSteer]
          cases x with
          | a3 => exact Hub.steered_of_failed hfailed
          | a4 => exact Hub.steered_of_failed (h := { s.hub with path := s.hub.pathAfter s.between.pulses }) hfailed
        · rfl
      all_goals exact Bool.noConfusion hc

/-! ## The period -/

theorem Hub.steerAxle_eq (t : Trailing) (h : Hub) : h.steerAxle t = { h with
    steering := { (h.steerAxle t).steering with
      periods := h.steering.periods, timer := h.steering.timer, midway := h.steering.midway }
    link := { h.link with actuators := (h.steerAxle t).link.actuators } } := by
  obtain ⟨hsame, -⟩ | hwritten := h.steerAxle_cases t
  · rw [hsame]
  · rw [hwritten]; rfl

/-- A period writes the steering unit and chain S's image alone (R35, R48). -/
theorem Hub.steeringPeriod_eq (w : Between) (h : Hub) : h.steeringPeriod w = { h with
    steering := { (h.steeringPeriod w).steering with
      periods := h.steering.periods + 1, timer := .started, midway := h.midwayFor w.copies }
    link := { h.link with actuators := (h.steeringPeriod w).link.actuators }
    freeCount := h.freeCount + 1 } := by
  have hlast : h.steeringPeriod w = { Hub.steerAxle .a4 { h.steerAxle .a3 with path := (h.steerAxle .a3).pathAfter w.pulses } with
    path := h.path
    steering := { (Hub.steerAxle .a4 { h.steerAxle .a3 with path := (h.steerAxle .a3).pathAfter w.pulses }).steering with
      periods := (Hub.steerAxle .a4 { h.steerAxle .a3 with path := (h.steerAxle .a3).pathAfter w.pulses }).steering.periods + 1
      timer := .started, midway := h.midwayFor w.copies }
    freeCount := h.freeCount + 1 } := rfl
  have hsecond := Hub.steerAxle_eq .a4 { h.steerAxle .a3 with path := (h.steerAxle .a3).pathAfter w.pulses }
  have hfirst := h.steerAxle_eq .a3
  rw [hlast]
  generalize (h.steerAxle .a3).pathAfter w.pulses = path at *
  generalize h.steerAxle .a3 = first at *
  generalize Hub.steerAxle .a4 { first with path := path } = second at *
  rw [hsecond, hfirst]

/-- The mode of R36, in the order of its rows. -/
def Hub.rowMode (h : Hub) (x : Trailing) : SteerMode :=
  if h.brake.halt ≠ .released then .held
  else if (h.sensing.joints.get x.joint).state = .fault then .centring
  else if h.sensing.direction = .reverse ∧ h.sensing.standstill ≠ .yes then .reverse
  else if (h.path.lookup (h.lag x)).isSome then .follow
  else .short

/-- Only FOLLOW keeps a lookup (R36). -/
theorem Hub.chooseMode_eq (h : Hub) (x : Trailing) :
    h.chooseMode x = (h.rowMode x, if h.rowMode x = .follow then h.path.lookup (h.lag x) else none) := by
  have hstanding : h.standing = false ↔ h.sensing.standstill ≠ .yes := by simp [Hub.standing]
  unfold Hub.chooseMode Hub.lagLookup Hub.rowMode
  simp only [hstanding]
  by_cases hb : h.brake.halt ≠ .released
  · simp [hb]
  · by_cases hf : (h.sensing.joints.get x.joint).state = .fault
    · simp [hb, hf]
    · by_cases hd : h.sensing.direction = .reverse ∧ h.sensing.standstill ≠ .yes
      · simp [hb, hf, hd]
      · cases hl : h.path.lookup (h.lag x) <;> simp [hb, hf, hd]

/-- The law of a mode at a lookup (R40 to R42). -/
theorem Hub.steerLaw_eq (h : Hub) (x : Trailing) (mode : SteerMode) (lookup : Option Int) :
    h.steerLaw x mode (if mode = .follow then lookup else none) =
      match mode with
      | .follow => ((h.sensing.joints.get x.joint).value * h.gainK x - lookup.getD 0 * h.gainG x).tdiv 1024
      | .reverse => ((h.sensing.joints.get x.joint).value * h.gainRev x).tdiv 1024
      | _ => ((h.sensing.joints.get x.joint).value * h.gainK x).tdiv 1024 := by
  cases mode <;> rfl

theorem Hub.fadeFactor_eq {h : Hub} {fade : Int} (hf : fade =
    if (h.sensing.speed : Int) ≤ h.vlo then 1024
    else if h.vhi ≤ (h.sensing.speed : Int) then 0
    else ((h.vhi - (h.sensing.speed : Int)) * 1024).tdiv (h.vhi - h.vlo)) : h.fadeFactor = fade.toNat := by
  rw [hf]
  unfold Hub.fadeFactor quot
  extract_lets v
  split
  · rfl
  · split <;> rfl

/-- The tracking check of R46 in its cases. -/
theorem trackingAfter_eq (setpoint measured : Int) (t : Count) :
    trackingAfter setpoint measured t =
      if 300 < (setpoint - measured).natAbs then
        match t with
        | .stopped => .running 0
        | .running n => .running (min 500 (n + 10))
      else .stopped := by
  cases t <;> rfl

/-- Stages 3 to 5 by the mode of R36. -/
theorem Hub.steerStages_eq (h : Hub) (t : Trailing) (x : AxleSteer) : h.steerStages t x =
    match h.rowMode t with
    | .held => { x with mode := some .held, lookup := none, law := none, fade := none }
    | .centring => { x with
        mode := some .centring, lookup := none, law := none, fade := none
        setpoint := some (h.nextSetpoint t (x.setpoint.getD 0) 0) }
    | mode => { x with
        mode := some mode, lookup := if mode = .follow then h.path.lookup (h.lag t) else none
        law := some (h.steerLaw t mode (if mode = .follow then h.path.lookup (h.lag t) else none)), fade := some h.fadeFactor
        setpoint := some (h.nextSetpoint t (x.setpoint.getD 0)
          (quot (h.steerLaw t mode (if mode = .follow then h.path.lookup (h.lag t) else none) * h.fadeFactor) 1024)) } := by
  rw [Hub.steerStages, Hub.chooseMode_eq]
  cases h.rowMode t <;> rfl

/-! ## The five cases of an axle's work -/

theorem Hub.steered_unmeasured {h : Hub} {x : Trailing} (hf : (h.axleSteer x).mode ≠ some .failed)
    (hi : (h.axleSteer x).initialised = false) (hm : (h.axleSteer x).measured = none) : h.steered x = h.axleSteer x := by
  simp [Hub.steered, hf, hi, hm]

/-- Initialisation (R50). -/
theorem Hub.steered_measured {h : Hub} {x : Trailing} (hf : (h.axleSteer x).mode ≠ some .failed)
    (hi : (h.axleSteer x).initialised = false) {m : Int} (hm : (h.axleSteer x).measured = some m) :
    h.steered x = { h.axleSteer x with
      initialised := true, enable := true, tracking := .stopped, mode := some (h.rowMode x)
      setpoint := some (clampTo (-h.angleMax x) (h.angleMax x) m)
      lookup := if h.rowMode x = .follow then h.path.lookup (h.lag x) else none } := by
  simp [Hub.steered, hf, hi, hm, Hub.initialiseAxle, Hub.chooseMode_eq]

/-- The axle's distance from its setpoint, beyond the tracking limit or not (R46). -/
def AxleSteer.far (a : AxleSteer) : Bool := decide (300 < (a.setpoint.getD 0 - a.measured.getD 0).natAbs)

/-- Tracking lost for 500 ms (R46, R47). -/
theorem Hub.steered_lost {h : Hub} {x : Trailing} (hf : (h.axleSteer x).mode ≠ some .failed)
    (hi : (h.axleSteer x).initialised = true) (hfar : (h.axleSteer x).far = true)
    (ht : ∃ n, (h.axleSteer x).tracking = .running n ∧ 490 ≤ n) : h.steered x = { h.axleSteer x with
      mode := some .failed, cause := some .tracking, enable := false, tracking := .running 500 } := by
  obtain ⟨n, hn, hlate⟩ := ht
  have htracking : trackingAfter ((h.axleSteer x).setpoint.getD 0) ((h.axleSteer x).measured.getD 0) (h.axleSteer x).tracking =
      .running 500 := by
    rw [trackingAfter_eq, if_pos (of_decide_eq_true hfar), hn]
    exact congrArg Count.running (by omega)
  simp [Hub.steered, hf, hi, htracking]

/-- Tracking kept, or not lost for long enough: the mode's work (R38, R39, R43 to R46). -/
theorem Hub.steered_tracked {h : Hub} {x : Trailing} (hf : (h.axleSteer x).mode ≠ some .failed)
    (hi : (h.axleSteer x).initialised = true)
    (ht : (h.axleSteer x).far = false ∨ ∀ n, (h.axleSteer x).tracking = .running n → n < 490) :
    h.steered x = h.steerStages x { h.axleSteer x with
      tracking := if (h.axleSteer x).far = false then .stopped
        else match (h.axleSteer x).tracking with
          | .stopped => .running 0
          | .running n => .running (n + 10) } := by
  have htracking : trackingAfter ((h.axleSteer x).setpoint.getD 0) ((h.axleSteer x).measured.getD 0) (h.axleSteer x).tracking =
      if (h.axleSteer x).far = false then .stopped
        else match (h.axleSteer x).tracking with
          | .stopped => .running 0
          | .running n => .running (n + 10) := by
    rw [trackingAfter_eq]
    by_cases hfar : (h.axleSteer x).far = false
    · rw [if_pos hfar, if_neg (of_decide_eq_false hfar)]
    · have hyes : (h.axleSteer x).far = true := by simpa using hfar
      rw [if_neg hfar, if_pos (of_decide_eq_true hyes)]
      cases hn : (h.axleSteer x).tracking with
      | stopped => rfl
      | running n =>
        have hlt := ht.resolve_left hfar n hn
        exact congrArg Count.running (by omega)
  have hgoes : ∀ n, (if (h.axleSteer x).far = false then Count.stopped
      else match (h.axleSteer x).tracking with
        | .stopped => .running 0
        | .running n => .running (n + 10)) = .running n → n ≠ 500 := fun n hn => by
    split at hn
    · cases hn
    · next hfar =>
      split at hn
      · cases hn; decide
      · next k hk =>
        have hlt := ht.resolve_left hfar k hk
        cases hn
        omega
  have hnot : trackingAfter ((h.axleSteer x).setpoint.getD 0) ((h.axleSteer x).measured.getD 0) (h.axleSteer x).tracking ≠
      .running 500 := fun hn => hgoes 500 (htracking.symm.trans hn) rfl
  rw [Hub.steered]
  dsimp only
  rw [if_neg hf, if_pos hi, if_neg hnot, htracking]

/-- Settles O40: A3's work on the path as it is, A4's on the path that the increments between the two leave. -/
theorem steeringPeriod_holds : Obligations.SteeringPeriod := by
  intro s hdue h
  have hexec := exec_of_after (i := .steeringTimerExpiry) (s := s) (g := h.steeringPeriod s.between) (if_pos hdue)
  have heq := h.steeringPeriod_eq s.between
  refine ⟨_, hexec, rfl, ?_, ?_, ?_, ?_, fun x => ?_⟩
  · exact heq.trans (congrArg (fun u => { h with
      steering := u
      link := { h.link with actuators := (h.steeringPeriod s.between).link.actuators }
      freeCount := h.freeCount + 1 }) (congrArg Hub.steering heq).symm)
  · rw [heq]
  · rw [heq]; rfl
  · rw [heq]; rfl
  · intro a b pair sp far lookup mode law v fade move
    obtain ⟨p, hb, hlookup⟩ : ∃ p, b = Hub.steered { h with path := p } x ∧ lookup = p.lookup (h.lag x) := by
      have haxle := h.steeringPeriod_axleSteer s.between x
      cases x with
      | a3 => exact ⟨h.path, haxle, rfl⟩
      | a4 => exact ⟨h.pathAfter s.between.pulses, haxle, rfl⟩
    obtain ⟨g, hg⟩ : ∃ g : Hub, g = { h with path := p } := ⟨_, rfl⟩
    have hlookup : lookup = g.path.lookup (g.lag x) := by rw [hg]; exact hlookup
    have ha : g.axleSteer x = a := by rw [hg]; rfl
    have hmode : mode = g.rowMode x := by rw [Hub.rowMode, ← hlookup, hg]
    have hlaw : law = g.steerLaw x (g.rowMode x) (if g.rowMode x = .follow then g.path.lookup (g.lag x) else none) := by
      rw [Hub.steerLaw_eq, ← hlookup, ← hmode, hg]
      rfl
    have hfade : g.fadeFactor = fade.toNat := Hub.fadeFactor_eq (by subst hg; rfl)
    have hmove : move = g.nextSetpoint x sp := by rw [hg]; rfl
    rw [← hg] at hb
    have hangle : h.angleMax x = g.angleMax x := by rw [hg]; rfl
    have hfareq : far = (g.axleSteer x).far := by rw [ha]; rfl
    have hsp : sp = (g.axleSteer x).setpoint.getD 0 := by rw [ha]
    clear_value b far lookup mode law fade move sp
    subst hb hfareq
    rw [← ha]
    refine ⟨fun hf => Hub.steered_of_failed hf, fun hf hi hm => Hub.steered_unmeasured hf hi hm, fun hf hi m hm => ?_,
      fun hf hi hfar ht => Hub.steered_lost hf hi hfar ht, fun hf hi ht => ?_⟩
    · rw [Hub.steered_measured hf hi hm, hmode, hlookup, hangle]
    · intro tracking
      rw [Hub.steered_tracked hf hi ht, Hub.steerStages_eq, hmode, hlaw, hmove, hlookup, hfade, hsp]
      cases g.rowMode x <;> rfl

end Sys2Proof.Machine
end

section
/-! PROOFS. Conversion and plausibility, and the path memory's travel: O31, O38. -/

namespace Sys2Proof.Machine

/-! ## Conversion (R4, R5) -/

/-- Division truncated toward zero, by its defining bounds (R1). -/
theorem quot_eq_of_bounds {n x : Int} {d : Nat} (hlo : d * x.natAbs ≤ n.natAbs) (hhi : n.natAbs < d * (x.natAbs + 1))
    (hsign : 0 ≤ x * n) : quot n d = x := by
  have habs : (quot n d).natAbs = x.natAbs := by
    unfold quot
    rw [Int.natAbs_tdiv, Int.natAbs_natCast]
    exact Nat.div_eq_of_lt_le (by rwa [Nat.mul_comm]) (by rwa [Nat.mul_comm])
  obtain hn | rfl | hn := Int.lt_trichotomy 0 n
  · have hq : 0 ≤ quot n d := Int.tdiv_nonneg (by omega) (by omega)
    have hx : 0 ≤ x := Int.nonneg_of_mul_nonneg_left hsign hn
    omega
  · have hzero : quot 0 d = 0 := Int.zero_tdiv _
    omega
  · have hq : 0 ≤ quot (-n) d := Int.tdiv_nonneg (by omega) (by omega)
    have hneg : quot (-n) d = -quot n d := Int.neg_tdiv _ _
    have hx : 0 ≤ -x := Int.nonneg_of_mul_nonneg_left (b := -n) (by simpa using hsign) (by omega)
    omega

theorem convert_eq_none (zero span lo hi : Int) (raw : Raw) :
    convert (zero, span) lo hi raw = none ↔ raw.toNat < 205 ∨ 3890 < raw.toNat := by
  unfold convert
  split <;> simp <;> omega

theorem convert_eq_some {zero span lo hi v : Int} {raw : Raw} (hv : convert (zero, span) lo hi raw = some v) :
    v = clampTo lo hi (quot (((raw.toNat : Int) - zero) * span) 2048) := by
  unfold convert at hv
  split at hv
  · exact (Option.some.inj hv).symm
  · cases hv

/-! ## Pairs and single entries (R6 to R9) -/

theorem Pair.take_of_ok {p : Pair} (hp : p.state ≠ .fault) :
    (∀ v, p.take (.agree v) = { p with value := v, state := .ok, unusable := 0, published := true }) ∧
    (∀ v b, p.take (.single v b) = { p with value := v, state := .degraded, unusable := 0, published := true }) ∧
    p.take .unusable = if 3 ≤ p.unusable + 1 then { p with state := .fault, good := 0, unusable := 0 }
      else { p with unusable := p.unusable + 1 } := by
  cases hs : p.state with
  | fault => exact absurd hs hp
  | ok => simp [Pair.take, hs]
  | degraded => simp [Pair.take, hs]

theorem Pair.take_of_fault {p : Pair} (hp : p.state = .fault) :
    (∀ v, p.take (.agree v) = if 50 ≤ p.good + 1 then { p with value := v, state := .ok, good := 0, published := true }
      else { p with good := p.good + 1 }) ∧
    ∀ c, (∀ v, c ≠ .agree v) → p.take c = { p with good := 0 } := by
  refine ⟨fun v => by simp [Pair.take, hp], fun c hc => ?_⟩
  cases c with
  | agree v => exact absurd rfl (hc v)
  | single v b => simp [Pair.take, hp]
  | unusable => simp [Pair.take, hp]

/-- Fewer than 50 agreeing conversions in a row are counted, and no more (R8). -/
theorem Pair.take_agreeing (vs : List Int) {p : Pair} (hp : p.state = .fault) (hlen : p.good + vs.length < 50) :
    (vs.map Conversion.agree).foldl (fun x c => Pair.take c x) p = { p with good := p.good + vs.length } := by
  induction vs generalizing p with
  | nil => rfl
  | cons v vs ih =>
    rw [List.length_cons] at hlen
    have hfirst : p.take (.agree v) = { p with good := p.good + 1 } := by
      rw [(Pair.take_of_fault hp).1, if_neg (by omega)]
    rw [List.map_cons, List.foldl_cons, hfirst, ih (p := { p with good := p.good + 1 }) hp (by dsimp only; omega)]
    simp only [List.length_cons]
    congr 1
    omega

theorem Single.take_of_ok {x : Single} (hx : x.fault = false) :
    (∀ v, x.take (some v) = { x with value := v, invalid := 0 }) ∧
    x.take none = if 3 ≤ x.invalid + 1 then { x with fault := true, invalid := 0, good := 0 }
      else { x with invalid := x.invalid + 1 } := by
  simp [Single.take, hx]

theorem Single.take_of_fault {x : Single} (hx : x.fault = true) :
    (∀ v, x.take (some v) = if 50 ≤ x.good + 1 then { x with value := v, fault := false, good := 0 }
      else { x with good := x.good + 1 }) ∧ x.take none = { x with good := 0 } := by
  simp [Single.take, hx]

/-- Fewer than 50 valid conversions in a row are counted, and no more (R9). -/
theorem Single.take_valid (vs : List Int) {x : Single} (hx : x.fault = true) (hlen : x.good + vs.length < 50) :
    (vs.map some).foldl (fun y v => Single.take v y) x = { x with good := x.good + vs.length } := by
  induction vs generalizing x with
  | nil => rfl
  | cons v vs ih =>
    rw [List.length_cons] at hlen
    have hfirst : x.take (some v) = { x with good := x.good + 1 } := by
      rw [(Single.take_of_fault hx).1, if_neg (by omega)]
    rw [List.map_cons, List.foldl_cons, hfirst, ih (x := { x with good := x.good + 1 }) hx (by dsimp only; omega)]
    simp only [List.length_cons]
    congr 1
    omega

/-- Settles O31: conversion, then pairs, then single entries; the returns from FAULT by their runs of good conversions. -/
theorem conversionsAndPlausibility : Obligations.ConversionsAndPlausibility := by
  refine ⟨fun zero span lo hi raw hle => ⟨convert_eq_none .., fun v hv => ?_⟩,
    ⟨fun tolerance a b ht => ⟨?_, rfl, rfl, rfl⟩, fun p hp => ?_, fun p c hp hc => (Pair.take_of_fault hp).2 c hc,
      fun p vs hp hgood => ⟨fun hlen => ?_, fun last hlen => ?_⟩⟩,
    fun x hx => ?_, fun x hx => (Single.take_of_fault hx).2, fun x vs hx hgood => ⟨fun hlen => ?_, fun last hlen => ?_⟩⟩
  · obtain rfl := convert_eq_some hv
    intro exact
    obtain ⟨hlo, hhi⟩ := clampTo_bounds (x := quot exact 2048) hle
    refine ⟨hlo, hhi, fun x hxlo hxhi hsign => ?_⟩
    have hq : quot exact 2048 = x := quot_eq_of_bounds (d := 2048) hxlo hxhi hsign
    simp only [exact] at hq
    rw [hq, clampTo]
    refine ⟨fun h1 h2 => ?_, fun h1 => ?_, fun h1 => ?_⟩ <;> split_ifs <;> omega
  · simp only [classify, quot]
    exact if_congr (by omega) rfl rfl
  · obtain ⟨hagree, hsingle, hunusable⟩ := Pair.take_of_ok hp
    exact ⟨hagree, hsingle, fun hn => by rw [hunusable, if_neg (by omega)], fun hn => by rw [hunusable, if_pos hn]⟩
  · rw [Pair.take_agreeing vs hp (by omega), hgood, Nat.zero_add]
  · rw [List.map_append, List.foldl_append, Pair.take_agreeing vs hp (by omega), hgood, Nat.zero_add, hlen]
    exact ((Pair.take_of_fault (p := { p with good := 49 }) hp).1 last).trans rfl
  · obtain ⟨hvalid, hinvalid⟩ := Single.take_of_ok hx
    exact ⟨hvalid, fun hn => by rw [hinvalid, if_neg (by omega)], fun hn => by rw [hinvalid, if_pos hn]⟩
  · rw [Single.take_valid vs hx (by omega), hgood, Nat.zero_add]
  · rw [List.map_append, List.foldl_append, Single.take_valid vs hx (by omega), hgood, Nat.zero_add, hlen]
    exact ((Single.take_of_fault (x := { x with good := 49 }) hx).1 last).trans rfl

/-! ## Forward travel (R20 to R22) -/

theorem PathMemory.push_eq (angle : Option Int) {p : PathMemory} (hp : p.samples.length ≤ 256) :
    (p.push angle).samples = (⟨p.pushCount + 1, angle⟩ :: p.samples).take 256 ∧ (p.push angle).r = p.r ∧
      (p.push angle).pushCount = p.pushCount + 1 ∧ (p.push angle).underrun = p.underrun := by
  have hdiscard : p.samples.length = 256 → p.discard.samples = p.samples.dropLast := fun hfull => by
    obtain ⟨x, hx⟩ : ∃ x, p.samples.getLast? = some x := by
      rw [← Option.isSome_iff_exists]
      cases hs : p.samples with
      | nil => simp [hs] at hfull
      | cons y ys => simp
    simp [PathMemory.discard, hx]
  have hkept : p.discard.r = p.r ∧ p.discard.underrun = p.underrun := by
    unfold PathMemory.discard
    split <;> exact ⟨rfl, rfl⟩
  unfold PathMemory.push pathCapacity
  extract_lets room x
  simp only [room, x]
  split
  · next hfull =>
    refine ⟨?_, hkept.1, trivial, hkept.2⟩
    rw [hdiscard (by omega), List.dropLast_eq_take, show p.samples.length = 256 by omega]
    rfl
  · next hroom =>
    refine ⟨?_, rfl, trivial, rfl⟩
    rw [List.take_of_length_le (by simp only [List.length_cons]; omega)]

theorem take_append_take {α : Type} (k : Nat) (l m : List α) : (l ++ m.take k).take k = (l ++ m).take k := by
  rw [List.take_append, List.take_append, List.take_take, Nat.min_eq_left (Nat.sub_le ..)]

/-- The samples that n pushes make, the newest at the head (R20, R21). -/
def PathMemory.pushed (p : PathMemory) (angle : Option Int) (n : Nat) : List Sample :=
  (List.range n).map fun i => ⟨p.pushCount + BitVec.ofNat 32 (n - i), angle⟩

theorem PathMemory.pushes_eq (angle : Option Int) (n : Nat) {p : PathMemory} (hp : p.samples.length ≤ 256) :
    (p.pushes angle n).samples = (p.pushed angle n ++ p.samples).take 256 ∧ (p.pushes angle n).r = p.r ∧
      (p.pushes angle n).pushCount = p.pushCount + BitVec.ofNat 32 n ∧ (p.pushes angle n).underrun = p.underrun := by
  induction n generalizing p with
  | zero => exact ⟨(List.take_of_length_le hp).symm, rfl, by simp [PathMemory.pushes], rfl⟩
  | succ n ih =>
    obtain ⟨hsamples, hr, hcount, hunder⟩ := PathMemory.push_eq angle hp
    obtain ⟨hsamples', hr', hcount', hunder'⟩ := ih (p := p.push angle) (by rw [hsamples]; simp)
    refine ⟨?_, hr'.trans hr, ?_, hunder'.trans hunder⟩
    · have hlist : p.pushed angle (n + 1) = (p.push angle).pushed angle n ++ [⟨p.pushCount + 1, angle⟩] := by
        rw [PathMemory.pushed, List.range_succ, List.map_append]
        refine congrArg₂ _ (List.map_congr_left fun i hi => ?_) ?_
        · have hlt := List.mem_range.mp hi
          rw [hcount, show n + 1 - i = (n - i) + 1 by omega, BitVec.ofNat_add]
          exact congrArg (Sample.mk · angle) (by bv_omega)
        · simp
      rw [PathMemory.pushes, hsamples', hsamples, hlist, take_append_take]
      simp
    · rw [PathMemory.pushes, hcount', hcount, BitVec.ofNat_add, BitVec.add_assoc, BitVec.add_comm (BitVec.ofNat 32 n)]
      rfl

/-! ## Reverse travel (R24, R25) -/

/-- The samples without an angle (R20). -/
def absences (xs : List Sample) : Nat := (xs.filter fun x => x.angle.isNone).length

theorem absences_cons (x : Sample) (xs : List Sample) : absences (x :: xs) = x.absence + absences xs := by
  unfold absences Sample.absence
  rw [List.filter_cons]
  split <;> simp [Nat.add_comm]

/-- The pops that bring a negative r back to 0 or above. -/
def popsFor (r : Int) : Nat := ((-r).toNat + 999) / 1000

/-- Enough samples are held (R24). -/
theorem popWhileNegative_enough (xs : List Sample) {r : Int} (hn : popsFor r ≤ xs.length) (count : Word) (absent : Nat) :
    popWhileNegative xs r count absent = (xs.drop (popsFor r), r + 1000 * popsFor r, count - BitVec.ofNat 32 (popsFor r),
      absent - absences (xs.take (popsFor r))) := by
  induction xs generalizing r count absent with
  | nil =>
    have hzero : popsFor r = 0 := by simpa using hn
    simp [popWhileNegative, hzero, absences]
  | cons x xs ih =>
    rw [popWhileNegative]
    split
    · next hneg =>
      have hnext : popsFor r = popsFor (r + 1000) + 1 := by
        unfold popsFor
        omega
      have hlen : popsFor (r + 1000) ≤ xs.length := by
        rw [hnext, List.length_cons] at hn
        omega
      rw [ih hlen, hnext, List.drop_succ_cons, List.take_succ_cons, absences_cons, BitVec.ofNat_add, Nat.sub_sub]
      refine congrArg₂ _ rfl (congrArg₂ _ ?_ (congrArg₂ _ ?_ rfl))
      · push_cast; ring
      · bv_omega
    · next hpos =>
      have hzero : popsFor r = 0 := by
        unfold popsFor
        omega
      simp [hzero, absences]

/-- The samples do not reach (R25). -/
theorem popWhileNegative_short (xs : List Sample) {r : Int} (hn : xs.length < popsFor r) (count : Word) (absent : Nat) :
    popWhileNegative xs r count absent = ([], r + 1000 * xs.length, count - BitVec.ofNat 32 xs.length, absent - absences xs) ∧
      r + 1000 * xs.length < 0 := by
  induction xs generalizing r count absent with
  | nil =>
    refine ⟨by simp [popWhileNegative, absences], ?_⟩
    unfold popsFor at hn
    simp only [List.length_nil] at hn ⊢
    omega
  | cons x xs ih =>
    have hneg : r < 0 := by
      unfold popsFor at hn
      omega
    have hlen : xs.length < popsFor (r + 1000) := by
      unfold popsFor at hn ⊢
      simp only [List.length_cons] at hn
      omega
    obtain ⟨hrest, hshort⟩ := ih hlen (count - 1) (absent - x.absence)
    rw [popWhileNegative, if_pos hneg, hrest, absences_cons, Nat.sub_sub, List.length_cons, BitVec.ofNat_add]
    refine ⟨congrArg₂ _ rfl (congrArg₂ _ ?_ (congrArg₂ _ ?_ rfl)), ?_⟩
    · push_cast; ring
    · bv_omega
    · push_cast; omega

theorem PathMemory.backward_enough {p : PathMemory} {w : Nat} (hn : popsFor ((p.r : Int) - w) ≤ p.samples.length) :
    p.backward w = ({ p with
      samples := p.samples.drop (popsFor ((p.r : Int) - w)), r := p.r + 1000 * popsFor ((p.r : Int) - w) - w
      pushCount := p.pushCount - BitVec.ofNat 32 (popsFor ((p.r : Int) - w))
      absent := p.absent - absences (p.samples.take (popsFor ((p.r : Int) - w))) }, 0) := by
  have hr : ¬(p.r : Int) - w + 1000 * (popsFor ((p.r : Int) - w) : Int) < 0 := by
    unfold popsFor
    omega
  have htoNat : ((p.r : Int) - w + 1000 * (popsFor ((p.r : Int) - w) : Int)).toNat =
      p.r + 1000 * popsFor ((p.r : Int) - w) - w := by omega
  simp only [PathMemory.backward, popWhileNegative_enough _ hn, if_neg hr, htoNat]

theorem PathMemory.backward_short {p : PathMemory} {w : Nat} (hn : p.samples.length < popsFor ((p.r : Int) - w)) :
    p.backward w = ({ p with
      samples := [], r := 0, pushCount := p.pushCount - BitVec.ofNat 32 p.samples.length
      absent := p.absent - absences p.samples, underrun := true }, w - p.r - 1000 * p.samples.length) := by
  obtain ⟨hpops, hneg⟩ := popWhileNegative_short _ hn p.pushCount p.absent
  have htoNat : (-((p.r : Int) - w + 1000 * (p.samples.length : Int))).toNat = w - p.r - 1000 * p.samples.length := by omega
  simp only [PathMemory.backward, hpops, if_pos hneg, htoNat]

/-- Settles O38: n pushes, and the pops that a way back needs. -/
theorem travelMovesThePath : Obligations.TravelMovesThePath := by
  constructor
  · intro p angle w hp n pushed
    obtain ⟨hsamples, -, hcount, hunder⟩ := PathMemory.pushes_eq angle n hp.depth
    refine ⟨hsamples, rfl, hcount, hunder, fun hroom => ?_⟩
    have hheld : (p.forward angle w).samples = p.pushed angle n ++ p.samples :=
      hsamples.trans (List.take_of_length_le (by simpa [PathMemory.pushed, Nat.add_comm] using hroom))
    have hlen : (p.pushed angle n).length = n := by simp [PathMemory.pushed]
    have hr := hp.r
    have hpops : popsFor (((p.forward angle w).r : Int) - w) = n := by
      simp only [PathMemory.forward, popsFor, n]
      omega
    have habsent : (p.forward angle w).absent = absences (p.pushed angle n) + p.absent := by
      rw [(PathMemory.forward_inv angle w hp).absent, hp.absent, hheld, absences, List.filter_append, List.length_append]
    rw [PathMemory.backward_enough (by rw [hpops, hheld, List.length_append, hlen]; omega), hpops, hheld, habsent]
    simp only [List.drop_left' hlen, List.take_left' hlen]
    have hback : (p.forward angle w).r + 1000 * n - w = p.r := by
      simp only [PathMemory.forward, n]
      omega
    rw [hback, Nat.add_sub_cancel_left]
    have hcount' : (p.forward angle w).pushCount - BitVec.ofNat 32 n = p.pushCount := by
      rw [show (p.forward angle w).pushCount = _ from hcount, BitVec.add_sub_cancel]
    have hunder' : (p.forward angle w).underrun = p.underrun := hunder
    rw [hcount', hunder']
  · intro p w hp n after
    have hpops : popsFor ((p.r : Int) - w) = n := by
      simp only [popsFor, n]
      omega
    refine ⟨fun hn => ?_, fun hn => ?_⟩
    · have hafter : after = _ := PathMemory.backward_enough (by rw [hpops]; exact hn)
      rw [hafter, hpops]
      exact ⟨rfl, rfl, rfl, rfl, rfl⟩
    · have hafter : after = _ := PathMemory.backward_short (by rw [hpops]; exact hn)
      rw [hafter]
      refine ⟨rfl, rfl, rfl, rfl, rfl, ?_⟩
      simp only [n] at hn
      dsimp only
      omega

end Sys2Proof.Machine
end

section
/-! PROOFS. What a step raises of one kind, composed along its operations; travel, direction and standstill: O34 to O37. -/

namespace Sys2Proof.Machine

/-! ## Events of one kind along a step -/

/-- Between two moments of one step the part raises the given events of a kind and no other of it (R162). -/
structure Hub.Sends (kind : EventKind) (raised : List (Nat × Int)) (h g : Hub) : Prop where
  ms      : g.clock.ms = h.clock.ms
  routing : g.events.routing = h.events.routing
  raises  : h.Raises g kind raised

theorem Hub.raises_iff {h g : Hub} {kind : EventKind} {raised : List (Nat × Int)} : h.Raises g kind raised ↔
    ∀ p, g.events.ofKind p kind = (h.events.raiseAll h.clock.ms (raised.map fun x => (kind, x))).ofKind p kind := by
  simp only [Hub.Raises, EventUnit.raiseAll, List.foldl_map]

namespace Hub.Sends
variable {kind : EventKind} {xs ys : List (Nat × Int)} {h g f : Hub}

theorem of_emits {kinds : List EventKind} (he : h.Emits kinds g) (hk : kind ∉ kinds) : Hub.Sends kind [] h g :=
  ⟨he.1, he.routing, fun p => he.ofKind hk p⟩

theorem silent (hc : g.clock = h.clock) (he : g.events = h.events) : Hub.Sends kind [] h g :=
  ⟨by rw [hc], by rw [he], fun p => by rw [he]; rfl⟩

theorem refl (h : Hub) : Hub.Sends kind [] h h := silent rfl rfl

theorem raise (kind : EventKind) (subject : Nat) (value : Int) (h : Hub) :
    Hub.Sends kind [(subject, value)] h (h.raise kind subject value) :=
  ⟨by simp, rfl, fun _ => rfl⟩

theorem raise_of_ne {other : EventKind} (hne : kind ≠ other) (subject : Nat) (value : Int) (h : Hub) :
    Hub.Sends kind [] h (h.raise other subject value) :=
  ⟨by simp, rfl, fun p => EventUnit.raise_ofKind_of_ne hne _ _ _ _ p⟩

theorem trans (hg : Hub.Sends kind xs h g) (gf : Hub.Sends kind ys g f) : Hub.Sends kind (xs ++ ys) h f := by
  refine ⟨gf.ms.trans hg.ms, gf.routing.trans hg.routing, Hub.raises_iff.mpr fun p => ?_⟩
  rw [Hub.raises_iff.mp gf.raises p, hg.ms, List.map_append, EventUnit.raiseAll_append]
  exact EventUnit.raiseAll_ofKind_congr (by rw [hg.routing, EventUnit.raiseAll_routing]) (Hub.raises_iff.mp hg.raises p) _ _

theorem trans_silent (hg : Hub.Sends kind xs h g) (gf : Hub.Sends kind [] g f) : Hub.Sends kind xs h f :=
  List.append_nil xs ▸ hg.trans gf

theorem congr (hg : Hub.Sends kind xs h g) (heq : xs = ys) : Hub.Sends kind ys h g := heq ▸ hg

/-- A fold whose steps raise, each by its element alone. -/
theorem foldl {α : Type} {φ : Hub → α → Hub} {raised : α → List (Nat × Int)} (hf : ∀ h x, Hub.Sends kind (raised x) h (φ h x))
    (l : List α) (h : Hub) : Hub.Sends kind (l.flatMap raised) h (l.foldl φ h) := by
  induction l generalizing h with
  | nil => exact refl h
  | cons x l ih => exact (hf h x).trans (ih _)

/-- What is raised between two moments at which the clock and the queues are those of others. -/
theorem of_eq {h' g' : Hub} (hg : Hub.Sends kind xs h g) (hc : h'.clock = h.clock) (he : h'.events = h.events)
    (gc : g'.clock = g.clock) (ge : g'.events = g.events) : Hub.Sends kind xs h' g' :=
  ⟨by rw [gc, hc]; exact hg.ms, by rw [ge, he]; exact hg.routing, fun p => by rw [ge, hc, he]; exact hg.raises p⟩

end Hub.Sends

/-! ## What each command can raise -/

/-- The kinds of events a command can raise, resets and TAKE apart (R161). -/
def emittedBy : Instr → List EventKind
  | .activeSetLoad _ => [.movePermit]
  | .scanRound _ => .sensorFault :: .airLow :: kneelKinds
  | .wheelPulse _ _ => [.path, .standstill, .doorRelease, .kneelState, .movePermit]
  | .speedTimerExpiry _ => .doorEmergency :: haltKinds
  | .quietTimerExpiry => standstillKinds
  | .jointTimerExpiry => [.jointState]
  | .brakeTimerExpiry => .demandStale :: .haltFault :: haltKinds
  | .levellingTimerExpiry => .slowFill :: kneelKinds
  | .chainRefreshComplete _ => .chainFault :: kneelKinds
  | .debounceTimerExpiry _ _ => .doorState :: .doorEmergency :: haltKinds
  | .haltOn _ | .haltOff _ | .release _ => haltKinds
  | .withdraw _ => releaseKinds
  | .kneel _ | .raise _ => kneelKinds
  | .storeReadCompletion _ | .storeWriteCompletion _ | .storeCloseCompletion _ | .storeLockCompletion _
  | .blankTestCompletion _ | .storeClearCompletion _ | .applyCompletion _ => releaseKinds
  | _ => []

theorem Hub.after_emitted {c : Instr} (hc : beyondRaises c = false) (w : Between) (h : Hub) :
    h.Emits (emittedBy c) (h.after w c) := by
  have hif : ∀ {kinds : List EventKind} {g : Hub} (b : Prop) [Decidable b], h.Emits kinds g →
      h.Emits kinds (if b then g else h) := by
    intro kinds g b _ hg
    split
    · exact hg
    · exact .refl h
  cases c
  case scanRound raw => exact hif _ (Hub.scanRound_emits raw h)
  case wheelPulse i dir => exact hif _ (Hub.wheelPulse_emits dir h)
  case speedTimerExpiry dir => exact hif _ (Hub.speedExpiry_emits dir h)
  case quietTimerExpiry => exact hif _ (Hub.quietExpiry_emits h)
  case jointTimerExpiry => exact hif _ (Hub.jointPeriod_emits h)
  case brakeTimerExpiry => exact hif _ (Hub.brakePeriod_emits h)
  case levellingTimerExpiry => exact hif _ (Hub.levellingPeriod_emits h)
  case chainRefreshComplete answers => exact hif _ (Hub.chainComplete_emits answers h)
  case debounceTimerExpiry d i => exact hif _ (Hub.debounceExpiry_emits d i h)
  case haltOn q => exact Hub.order_emits serveHaltOn_emits q _ _ h
  case haltOff q => exact Hub.order_emits serveHaltOff_emits q _ _ h
  case release q => exact Hub.order_emits (serveRelease_emits _) q _ _ h
  case withdraw q => exact Hub.order_emits (serveWithdraw_emits _) q _ _ h
  case kneel q => exact Hub.order_emits serveKneel_emits q _ _ h
  case raise q => exact Hub.order_emits serveRaise_emits q _ _ h
  case storeReadCompletion | storeWriteCompletion | storeCloseCompletion | storeLockCompletion | blankTestCompletion
      | storeClearCompletion | applyCompletion => exact Hub.storeCompletion_emits _ _ h
  all_goals first | exact Bool.noConfusion hc | exact .silent (by simp) (by simp)

/-- What a command cannot raise, resets and TAKE apart, its queues hold as before; the load and ROUTE WRITE change the
routing table alone beside that (R162, R164). -/
theorem Hub.after_raises_nil {c : Instr} {h : Hub} (hr : resetsPart h c = false) (ht : ∀ q code, c ≠ .take q code) {k : EventKind}
    (hk : k ∉ emittedBy c) (w : Between) : h.Raises (h.after w c) k [] := by
  by_cases hc : beyondRaises c = false
  · exact (Hub.Sends.of_emits (Hub.after_emitted hc w h) hk).raises
  cases c
  case powerOnReset | rstLine => exact Bool.noConfusion hr
  case take q code => exact absurd rfl (ht q code)
  case activeSetLoad x =>
    intro p
    simp only [Hub.after]
    split
    · have hsampled := (Hub.sampleDoors_emits x.doors
        ((((h.readDepot x.depot).onClock fun u => { u with loaded := true, load := .stopped }).installReset.updateRecord).formAccess.startTimers.startLoads.formRideTargets)).ofKind hk p
      refine hsampled.trans ?_
      simp only [Hub.formRideTargets_frame, Hub.startLoads_frame, Hub.startTimers_frame, Hub.formAccess]
      split <;> simp [EventUnit.ofKind]
    · rfl
  case hubReset q =>
    exact fun p => Hub.hubReset_refused_keeps (fun g => g.events.ofKind p k) hr (fun _ _ _ => rfl) fun _ _ => rfl
  case routeWrite q =>
    intro p
    refine order_keeps (fun g => g.events.ofKind p k) q _ _ h (fun g => ?_) (fun _ _ _ => rfl) fun _ _ => rfl
    unfold serveRouteWrite
    (repeat' split) <;> rfl
  all_goals exact absurd rfl hc

/-! ## Sensing over all commands -/

@[simp] theorem Hub.enterStandstill_sensing (h : Hub) : h.enterStandstill.sensing = { h.sensing with standstill := .yes } := by
  unfold Hub.enterStandstill
  extract_lets changed granted
  refine Eq.trans (b := changed.sensing) ?_ rfl
  simp only [Hub.judgeActivities_frame, Hub.judgeAutoHalt_frame, granted]
  split <;> simp

@[simp] theorem Hub.leaveStandstill_sensing (h : Hub) : h.leaveStandstill.sensing = { h.sensing with standstill := .no } := by
  unfold Hub.leaveStandstill
  extract_lets changed
  refine Eq.trans (b := changed.sensing) ?_ rfl
  simp only [Hub.judgeActivities_frame]
  split <;> simp [foldl_keeps Hub.sensing]

/-- The part after a pulse's odometry and path increment (R11). -/
def Hub.counted (dir : Direction) (h : Hub) : Hub := (h.odometry dir).pathIncrement dir h.wp

@[simp] theorem Hub.counted_sensing (dir : Direction) (h : Hub) : (h.counted dir).sensing = h.sensing.countPulse dir h.wp := by
  simp [Hub.counted, Hub.odometry]

/-- A pulse, by the distance it brings and standstill before it (R11, R16). -/
theorem Hub.wheelPulse_eq (dir : Direction) (h : Hub) : h.wheelPulse dir =
    if 500 ≤ h.sensing.distance + h.wp ∧ h.sensing.standstill ≠ .no then (h.counted dir).leaveStandstill else h.counted dir := by
  have hdistance : (h.counted dir).sensing.distance = 500 ↔ 500 ≤ h.sensing.distance + h.wp := by
    rw [Hub.counted_sensing]
    show min 500 (h.sensing.distance + h.wp) = 500 ↔ _
    omega
  have hstandstill : (h.counted dir).sensing.standstill = h.sensing.standstill := by rw [Hub.counted_sensing]; rfl
  have heq : h.wheelPulse dir = if (h.counted dir).sensing.distance = 500 ∧ (h.counted dir).sensing.standstill ≠ .no then
      (h.counted dir).leaveStandstill else h.counted dir := rfl
  rw [heq]
  simp only [hdistance, hstandstill]

/-- A counted pulse in the sensing unit, standstill included (R11, R12, R14 to R16). -/
theorem Hub.wheelPulse_sensing (dir : Direction) (h : Hub) : (h.wheelPulse dir).sensing =
    { h.sensing.countPulse dir h.wp with
      standstill := if 500 ≤ h.sensing.distance + h.wp then .no else h.sensing.standstill } := by
  rw [Hub.wheelPulse_eq]
  split
  · next hboth => rw [Hub.leaveStandstill_sensing, Hub.counted_sensing, if_pos hboth.1]
  · next hnot =>
    have hkept : (if 500 ≤ h.sensing.distance + h.wp then Standstill.no else h.sensing.standstill) = h.sensing.standstill := by
      split
      · next hfar => simpa [hfar, eq_comm] using hnot
      · rfl
    rw [Hub.counted_sensing, hkept]
    rfl

@[simp] theorem Hub.speedExpiry_sensing (dir : Direction) (h : Hub) :
    (h.speedExpiry dir).sensing = h.sensing.closeBucket dir := by
  simp [Hub.speedExpiry, foldl_keeps Hub.sensing]

theorem Hub.quietExpiry_sensing (h : Hub) :
    h.quietExpiry.sensing = { h.sensing with quiet := .stopped, distance := 0, standstill := .yes } := by
  unfold Hub.quietExpiry
  extract_lets quiet
  refine Eq.trans (b := { quiet.sensing with standstill := .yes }) ?_ rfl
  split
  · next hs =>
    have hyes : quiet.sensing.standstill = .yes := by simpa [quiet, Hub.standing] using hs
    rw [← hyes]
  · exact Hub.enterStandstill_sensing quiet

/-- The commands that write the sensing unit. -/
def sensesPart : Instr → Bool
  | .powerOnReset | .rstLine | .hubReset _ | .activeSetLoad _ | .scanRound _ | .wheelPulse _ _ | .speedTimerExpiry _
  | .quietTimerExpiry => true
  | _ => false

theorem Hub.after_sensing_of_not {c : Instr} (hc : sensesPart c = false) (w : Between) (h : Hub) :
    (h.after w c).sensing = h.sensing := by
  cases c <;> first | exact Bool.noConfusion hc | simp

@[simp] theorem Hub.completeLoad_sensing (levels : PerDoor DoorLevels) (h : Hub) : (h.completeLoad levels).sensing =
    { h.sensing with scanTimer := .started, speedTimer := .started, quiet := .started } := by
  simp [Hub.completeLoad, Hub.startTimers]

/-- Settles O35: by the command. -/
theorem travelAndDirection : Obligations.TravelAndDirection := by
  rintro s t c hexec
  obtain rfl := hub_of_exec hexec
  dsimp only
  cases hr : resetsPart s.hub c with
  | true => rw [(after_resetFrom hr s.between).sensing]; rfl
  | false =>
    have hsame : ∀ {g : Hub}, g.sensing = s.hub.sensing → (g.sensing.travel, g.sensing.direction) =
        (s.hub.sensing.travel, s.hub.sensing.direction) := fun hg => by rw [hg]
    rw [if_neg Bool.false_ne_true]
    cases hc : sensesPart c with
    | false =>
      rw [Hub.after_sensing_of_not hc]
      cases c <;> first | rfl | exact Bool.noConfusion hc
    | true =>
      cases c
      case powerOnReset | rstLine => exact Bool.noConfusion hr
      case hubReset q => exact hsame (Hub.hubReset_refused_keeps Hub.sensing hr (fun _ _ _ => rfl) fun _ _ => rfl)
      case activeSetLoad x =>
        simp only [Hub.after]
        split
        · rw [Hub.completeLoad_sensing]; rfl
        · rfl
      case scanRound raw =>
        simp only [Hub.after]
        split
        · rw [Hub.scanRound_sensing]; rfl
        · rfl
      case wheelPulse i dir =>
        simp only [Hub.after]
        split
        · rw [Hub.wheelPulse_sensing]
          cases dir with
          | forward => rfl
          | reverse => exact Prod.ext (BitVec.sub_eq_add_neg ..).symm rfl
        · rfl
      case speedTimerExpiry dir =>
        simp only [Hub.after]
        split
        · rw [Hub.speedExpiry_sensing]; rfl
        · rfl
      case quietTimerExpiry =>
        simp only [Hub.after]
        split
        · rw [Hub.quietExpiry_sensing]
        · rfl
      all_goals exact Bool.noConfusion hc

/-! ## The STANDSTILL events -/

theorem Hub.enterStandstill_sends (h : Hub) : Hub.Sends .standstill [(0, 1)] h h.enterStandstill := by
  unfold Hub.enterStandstill
  extract_lets changed granted
  have hraised : Hub.Sends .standstill [(0, 1)] h changed := (Hub.Sends.raise .standstill 0 1 _).of_eq rfl rfl rfl rfl
  have hgranted : Hub.Sends .standstill [] changed granted := by
    simp only [granted]
    split
    · exact .of_emits (Hub.grantWaiting_emits _) (by decide)
    · exact .refl _
  exact hraised.trans (hgranted.trans ((Hub.Sends.of_emits (Hub.judgeAutoHalt_emits _) (by decide)).trans
    (.of_emits (Hub.judgeActivities_emits _) (by decide))))

theorem Hub.leaveStandstill_sends (h : Hub) : Hub.Sends .standstill [(0, 2)] h h.leaveStandstill := by
  unfold Hub.leaveStandstill
  extract_lets changed
  have hraised : Hub.Sends .standstill [(0, 2)] h changed := (Hub.Sends.raise .standstill 0 2 _).of_eq rfl rfl rfl rfl
  refine hraised.trans (Hub.Sends.trans (xs := []) (ys := []) ?_ (.of_emits (Hub.judgeActivities_emits _) (by decide)))
  split
  · exact Hub.Sends.of_emits ((Hub.stopKneel_emits _ _ changed).mono (kinds' := releaseKinds) (by decide) |>.trans
      (.foldl Hub.withdrawByMotion_emits _ _)) (by decide)
  · exact .refl _

/-- The events of STANDSTILL a change of standstill is to bring (R17). -/
def standstillRaised (old new : Standstill) : List (Nat × Int) :=
  if new = old then [] else [(0, if new = .yes then 1 else 2)]

theorem Hub.wheelPulse_standstill (dir : Direction) (h : Hub) : h.Raises (h.wheelPulse dir) .standstill
    (standstillRaised h.sensing.standstill (h.wheelPulse dir).sensing.standstill) := by
  have hcounted : Hub.Sends .standstill [] h (h.counted dir) :=
    (Hub.Sends.silent (g := h.odometry dir) (by simp) (by simp)).trans (.of_emits (Hub.pathIncrement_emits _ _ _) (by decide))
  rw [Hub.wheelPulse_sensing]
  rw [Hub.wheelPulse_eq]
  split
  · next hboth =>
    have hne : Standstill.no ≠ h.sensing.standstill := Ne.symm hboth.2
    rw [standstillRaised, if_pos hboth.1, if_neg hne]
    exact (hcounted.trans (Hub.leaveStandstill_sends _)).raises
  · next hnot =>
    have hkept : (if 500 ≤ h.sensing.distance + h.wp then Standstill.no else h.sensing.standstill) = h.sensing.standstill := by
      split
      · next hfar => simpa [hfar, eq_comm] using hnot
      · rfl
    rw [hkept, standstillRaised, if_pos rfl]
    exact hcounted.raises

theorem Hub.quietExpiry_standstill (h : Hub) : h.Raises h.quietExpiry .standstill
    (standstillRaised h.sensing.standstill h.quietExpiry.sensing.standstill) := by
  rw [Hub.quietExpiry_sensing]
  unfold Hub.quietExpiry
  extract_lets quiet
  have hquiet : Hub.Sends .standstill [] h quiet := .silent rfl rfl
  split
  · next hs =>
    have hyes : h.sensing.standstill = .yes := by simpa [Hub.standing] using hs
    rw [standstillRaised, if_pos hyes.symm]
    exact hquiet.raises
  · next hs =>
    have hne : Standstill.yes ≠ h.sensing.standstill := fun heq => hs (by simp [Hub.standing, ← heq])
    rw [standstillRaised, if_neg hne]
    exact (hquiet.trans (Hub.enterStandstill_sends quiet)).raises

/-- Only a reset, a pulse and a quiet expiry change standstill (R15, R16). -/
theorem Hub.after_standstill {c : Instr} {h : Hub} (hr : resetsPart h c = false) (hw : ∀ i dir, c ≠ .wheelPulse i dir)
    (hq : c ≠ .quietTimerExpiry) (w : Between) : (h.after w c).sensing.standstill = h.sensing.standstill := by
  cases hc : sensesPart c with
  | false => rw [Hub.after_sensing_of_not hc]
  | true =>
    cases c
    case powerOnReset | rstLine => exact Bool.noConfusion hr
    case hubReset q =>
      exact Hub.hubReset_refused_keeps (fun g => g.sensing.standstill) hr (fun _ _ _ => rfl) fun _ _ => rfl
    case activeSetLoad x =>
      simp only [Hub.after]
      split
      · rw [Hub.completeLoad_sensing]; rfl
      · rfl
    case scanRound raw =>
      simp only [Hub.after]
      split
      · rw [Hub.scanRound_sensing]; rfl
      · rfl
    case wheelPulse i dir => exact absurd rfl (hw i dir)
    case speedTimerExpiry dir =>
      simp only [Hub.after]
      split
      · rw [Hub.speedExpiry_sensing]; rfl
      · rfl
    case quietTimerExpiry => exact absurd rfl hq
    all_goals exact Bool.noConfusion hc

theorem standstill_not_emitted {c : Instr} (hw : ∀ i dir, c ≠ .wheelPulse i dir) (hq : c ≠ .quietTimerExpiry) :
    EventKind.standstill ∉ emittedBy c := by
  cases c
  case wheelPulse i dir => exact absurd rfl (hw i dir)
  case quietTimerExpiry => exact absurd rfl hq
  all_goals simp [emittedBy]

/-- Settles O36: by the three commands that change standstill. -/
theorem standstillChanges : Obligations.StandstillChanges := by
  constructor
  · rintro s t c hexec hr ht
    obtain rfl := hub_of_exec hexec
    show s.hub.Raises (s.hub.after s.between c) .standstill
      (standstillRaised s.hub.sensing.standstill (s.hub.after s.between c).sensing.standstill)
    have hsame : standstillRaised s.hub.sensing.standstill s.hub.sensing.standstill = [] := if_pos rfl
    by_cases hw : ∃ i dir, c = .wheelPulse i dir
    · obtain ⟨i, dir, rfl⟩ := hw
      simp only [Hub.after]
      split
      · exact Hub.wheelPulse_standstill dir s.hub
      · rw [hsame]; exact fun _ => rfl
    · by_cases hq : c = .quietTimerExpiry
      · subst hq
        simp only [Hub.after]
        split
        · exact s.hub.quietExpiry_standstill
        · rw [hsame]; exact fun _ => rfl
      · have hw' : ∀ i dir, c ≠ .wheelPulse i dir := fun i dir hc => hw ⟨i, dir, hc⟩
        rw [Hub.after_standstill hr hw' hq, hsame]
        exact Hub.after_raises_nil hr ht (standstill_not_emitted hw' hq) _
  · rintro s t c hexec hne
    obtain rfl := hub_of_exec hexec
    dsimp only at hne ⊢
    cases hr : resetsPart s.hub c with
    | true => exact .inl ⟨rfl, by rw [(after_resetFrom hr s.between).sensing]; rfl⟩
    | false =>
      refine .inr ?_
      by_cases hw : ∃ i dir, c = .wheelPulse i dir
      · obtain ⟨i, dir, rfl⟩ := hw
        simp only [Hub.after] at hne ⊢
        split at hne
        · next hl =>
          rw [if_pos hl, Hub.wheelPulse_sensing]
          rw [Hub.wheelPulse_sensing] at hne
          have hfar : 500 ≤ s.hub.sensing.distance + s.hub.wp := by
            by_contra hno
            exact hne (if_neg hno)
          exact .inr ⟨i, dir, rfl, hl, hfar, if_pos hfar⟩
        · exact absurd rfl hne
      · by_cases hq : c = .quietTimerExpiry
        · subst hq
          simp only [Hub.after] at hne ⊢
          split at hne
          · next hdue => exact .inl ⟨trivial, hdue, by rw [if_pos hdue, Hub.quietExpiry_sensing]⟩
          · exact absurd rfl hne
        · exact absurd (Hub.after_standstill hr (fun i dir hc => hw ⟨i, dir, hc⟩) hq _) hne

end Sys2Proof.Machine
end

section
/-! PROOFS. Doors, kneel and levelling unit under the changes of standstill, of releases and of handles: O34, O37. -/

namespace Sys2Proof.Machine

/-! ## A fold over the doors -/

/-- A fold that treats each door by itself (R129, R130). -/
theorem Hub.foldl_door {f : Hub → Door → Hub} {φ : Door → DoorHold → DoorHold} {P : Hub → Prop} (hP : ∀ g d, P g → P (f g d))
    (hf : ∀ g d d', P g → (f g d).door d' = if d' = d then φ d (g.door d) else g.door d') {l : List Door} (hn : l.Nodup) {h : Hub}
    (h0 : P h) (d : Door) : (l.foldl f h).door d = if d ∈ l then φ d (h.door d) else h.door d := by
  induction l generalizing h with
  | nil => rfl
  | cons x l ih =>
    obtain ⟨hx, hl⟩ := List.nodup_cons.mp hn
    rw [List.foldl_cons, ih hl (hP h x h0), hf h x d h0]
    by_cases hd : d = x
    · subst hd
      simp [hx]
    · simp [hd]

theorem Door.all_nodup : Door.all.Nodup := by decide

/-- The same over every door. -/
theorem Hub.foldl_doors {f : Hub → Door → Hub} {φ : Door → DoorHold → DoorHold} {P : Hub → Prop} (hP : ∀ g d, P g → P (f g d))
    (hf : ∀ g d d', P g → (f g d).door d' = if d' = d then φ d (g.door d) else g.door d') {h : Hub} (h0 : P h) (d : Door) :
    (Door.all.foldl f h).door d = φ d (h.door d) := by
  rw [Hub.foldl_door hP hf Door.all_nodup h0, if_pos (Door.mem_all d)]

/-! ## Kneel and levelling unit under a release -/

/-- A door condition judged in RIDE or STOPPED hands no auto-raise (R115). -/
theorem Hub.judgeCondition_of_still {h : Hub} (hk : h.kneel.state = .ride ∨ h.kneel.state = .stopped) :
    h.judgeCondition = h.onDoors fun u => { u with condition := h.doorsLocked && h.releasesWithdrawn } := by
  simp only [Hub.judgeCondition]
  split
  · next heq => rw [← heq]; rfl
  · obtain hk | hk := hk <;> simp [Hub.autoRaise, hk]

/-- Nor one that is false (R135). -/
theorem Hub.judgeCondition_of_false {h : Hub} (hc : (h.doorsLocked && h.releasesWithdrawn) = false) :
    h.judgeCondition = h.onDoors fun u => { u with condition := false } := by
  simp only [Hub.judgeCondition, hc]
  split
  · next heq => rw [← heq]; rfl
  · simp

theorem Hub.releasesWithdrawn_of_door {h : Hub} {d : Door} (hd : (h.door d).release ≠ .withdrawn) : h.releasesWithdrawn = false := by
  rw [Hub.releasesWithdrawn, List.all_eq_false]
  exact ⟨d, Door.mem_all d, by simpa using hd⟩

/-- A release other than WITHDRAWN, and any release in RIDE or STOPPED, leaves kneel and levelling unit (R115, R135). -/
theorem Hub.setRelease_kneel {h : Hub} {d : Door} {new : Release}
    (hk : new ≠ .withdrawn ∨ h.kneel.state = .ride ∨ h.kneel.state = .stopped) :
    (h.setRelease d new).kneel = h.kneel ∧ (h.setRelease d new).level = h.level := by
  unfold Hub.setRelease
  split
  · exact ⟨rfl, rfl⟩
  · extract_lets changed
    obtain ⟨g, hg⟩ : ∃ g, g = (changed.driveRelease d (new == .granted)).raiseRelease d := ⟨_, rfl⟩
    have hkneel : g.kneel = h.kneel := by simp [hg, changed]
    have hlevel : g.level = h.level := by simp [hg, changed]
    have hdoor : g.door d = { h.door d with release := new } := by simp [hg, changed, Hub.door]
    rw [← hg]
    have hjudged : g.judgeCondition.kneel = g.kneel ∧ g.judgeCondition.level = g.level := by
      obtain hne | hk := hk
      · rw [Hub.judgeCondition_of_false (by rw [Hub.releasesWithdrawn_of_door (d := d) (by rw [hdoor]; exact hne), Bool.and_false])]
        exact ⟨rfl, rfl⟩
      · rw [Hub.judgeCondition_of_still (by rw [hkneel]; exact hk)]
        exact ⟨rfl, rfl⟩
    exact ⟨by simpa using hjudged.1.trans hkneel, by simpa using hjudged.2.trans hlevel⟩

@[simp] theorem Hub.grantWaiting_kneel (h : Hub) : h.grantWaiting.kneel = h.kneel ∧ h.grantWaiting.level = h.level := by
  unfold Hub.grantWaiting
  refine foldl_preserves (P := fun g : Hub => g.kneel = h.kneel ∧ g.level = h.level) (fun g d hg => ?_) Door.all ⟨rfl, rfl⟩
  split
  · obtain ⟨hk, hl⟩ := Hub.setRelease_kneel (h := g) (d := d) (new := .granted) (.inl (by decide))
    exact ⟨hk.trans hg.1, hl.trans hg.2⟩
  · exact hg

/-- What a WAITING release becomes when releases are granted (R129). -/
def DoorHold.granting (x : DoorHold) : DoorHold := if x.release = .waiting then { x with release := .granted } else x

theorem Hub.grantWaiting_door (h : Hub) (d : Door) : h.grantWaiting.door d = (h.door d).granting :=
  Hub.foldl_doors (φ := fun _ => DoorHold.granting) (P := fun _ => True) (fun _ _ _ => trivial) (fun g d d' _ => by
    unfold DoorHold.granting
    split
    · rw [Hub.setRelease_door]
    · split
      · next heq => rw [heq]
      · rfl) trivial d

/-- What a loss of standstill makes of an enabled door's release (R130). -/
def DoorHold.moved (x : DoorHold) : DoorHold :=
  if x.enabled = false ∨ x.release = .withdrawn then x
  else if x.mark = true then { x with release := .waiting }
  else { x with release := .withdrawn }

theorem Hub.withdrawByMotion_door (h : Hub) (d d' : Door) :
    (h.withdrawByMotion d).door d' = if d' = d then (h.door d).moved else h.door d' := by
  by_cases hne : d' = d
  · subst hne
    rw [if_pos rfl]
    unfold Hub.withdrawByMotion DoorHold.moved
    cases hen : (h.door d').enabled
    · simp
    · have hset : ∀ new, (h.setRelease d' new).door d' = { h.door d' with release := new } := fun new => by
        rw [Hub.setRelease_door, if_pos rfl]
      cases hmark : (h.door d').mark <;> cases hrel : (h.door d').release <;>
        simp only [hset, if_true] <;> generalize h.door d' = x at hen hmark hrel <;> cases x <;> simp_all
  · rw [Hub.withdrawByMotion_other hne, if_neg hne]

theorem Hub.foldl_withdrawByMotion_door (h : Hub) (d : Door) :
    (Door.all.foldl Hub.withdrawByMotion h).door d = (h.door d).moved :=
  Hub.foldl_doors (φ := fun _ => DoorHold.moved) (P := fun _ => True) (fun _ _ _ => trivial) (fun g d d' _ => g.withdrawByMotion_door d d') trivial d

/-- The releases at a loss of standstill leave a kneel unit at rest (R115). -/
theorem Hub.foldl_withdrawByMotion_kneel {h : Hub} (hk : h.kneel.state = .ride ∨ h.kneel.state = .stopped) :
    (Door.all.foldl Hub.withdrawByMotion h).kneel = h.kneel :=
  foldl_preserves (P := fun g : Hub => g.kneel = h.kneel) (fun g d hg => by
    have hset : ∀ new, (g.setRelease d new).kneel = h.kneel := fun new =>
      ((Hub.setRelease_kneel (.inr (by rw [hg]; exact hk))).1).trans hg
    unfold Hub.withdrawByMotion
    (repeat' split) <;> first | exact hg | exact hset _) Door.all rfl


/-! ## The axles' activities -/

theorem Hub.judgeActivity_axleBrake (k k' : Axle) (h : Hub) : (h.judgeActivity k).axleBrake k' =
    if k' = k then
      { h.axleBrake k with
        activity := if h.axleActive k then .on else
          match (h.axleBrake k).activity with
          | .on => .after 500
          | x => x }
    else h.axleBrake k' :=
  Hub.axleBrake_onAxleBrake ..

@[simp] theorem Hub.judgeActivity_axleActive (k k' : Axle) (h : Hub) : (h.judgeActivity k).axleActive k' = h.axleActive k' := rfl

/-- Judging the activities anew sets each axle's by its own circuits (R78). -/
theorem Hub.judgeActivities_axleBrake (k : Axle) (h : Hub) : h.judgeActivities.axleBrake k =
    { h.axleBrake k with
      activity := if h.axleActive k then .on else
        match (h.axleBrake k).activity with
        | .on => .after 500
        | x => x } := by
  cases k <;> simp [Hub.judgeActivities, Axle.all, Hub.judgeActivity_axleBrake]

theorem Hub.axleActive_of_moving {h : Hub} (hs : h.standing = false) (k : Axle) : h.axleActive k = false := by
  simp [Hub.axleActive, hs]

/-! ## A wheel pulse -/

/-- What a pulse raises for the path memory (R25). -/
def pathRaised (dir : Direction) (discarded : Nat) : List (Nat × Int) :=
  if dir = .reverse ∧ discarded ≠ 0 then [(0, (discarded : Int))] else []

theorem Hub.counted_sends_path (dir : Direction) (h : Hub) :
    Hub.Sends .path (pathRaised dir (h.path.backward h.wp).2) h (h.counted dir) := by
  unfold Hub.counted Hub.pathIncrement
  cases dir with
  | forward => exact .silent rfl rfl
  | reverse =>
    rw [show (h.odometry .reverse).path = h.path from (Hub.odometry_frame _ h).2.1]
    unfold pathRaised
    by_cases hd : (h.path.backward h.wp).2 = 0
    · simp only [hd, if_true]
      exact .silent rfl rfl
    · simp only [hd, if_false, ne_eq, not_false_eq_true, and_self, if_true]
      exact (Hub.Sends.raise .path 0 _ _).of_eq rfl rfl rfl rfl

theorem Hub.counted_events (dir : Direction) (h : Hub) : (h.counted dir).events =
    if dir = .reverse ∧ (h.path.backward h.wp).2 ≠ 0 then h.eventsAfter .path 0 (BitVec.ofNat 16 (h.path.backward h.wp).2)
    else h.events := by
  unfold Hub.counted Hub.pathIncrement
  cases dir with
  | forward => rfl
  | reverse =>
    rw [show (h.odometry .reverse).path = h.path from (Hub.odometry_frame _ h).2.1]
    by_cases hd : (h.path.backward h.wp).2 = 0
    · simp only [hd, if_true]
      rfl
    · simp only [hd, if_false, ne_eq, not_false_eq_true, and_self, if_true]
      rfl

theorem Hub.counted_path (dir : Direction) (h : Hub) : (h.counted dir).path =
    match dir with
    | .forward => h.path.forward (if h.sensing.steer.state = .fault then none else some h.sensing.steer.value) h.wp
    | .reverse => (h.path.backward h.wp).1 := by
  unfold Hub.counted Hub.pathIncrement
  cases dir with
  | forward => rfl
  | reverse =>
    rw [show (h.odometry .reverse).path = h.path from (Hub.odometry_frame _ h).2.1]
    by_cases hd : (h.path.backward h.wp).2 = 0 <;> simp [hd]

@[simp] theorem Hub.counted_frame (dir : Direction) (h : Hub) :
    (h.counted dir).clock = h.clock ∧ (h.counted dir).pins = { h.pins with dir := dir } ∧ (h.counted dir).brake = h.brake ∧
    (h.counted dir).level = h.level ∧ (h.counted dir).kneel = h.kneel ∧ (h.counted dir).doors = h.doors ∧
    (h.counted dir).link = h.link := by
  simp [Hub.counted, Hub.odometry]

/-- A loss of standstill from UNSETTLED: the axles' activities alone (R17, R78). -/
theorem Hub.leaveStandstill_of_unsettled {h : Hub} (hs : h.standing = false) : h.leaveStandstill =
    ((h.onSensing fun u => { u with standstill := .no }).raise .standstill 0 2).judgeActivities := by
  unfold Hub.leaveStandstill
  simp [hs]

/-- A loss of standstill from TRUE: the kneel, then the doors, then the activities (R116, R130). -/
theorem Hub.leaveStandstill_of_standing {h : Hub} (hs : h.standing = true) : h.leaveStandstill =
    (Door.all.foldl Hub.withdrawByMotion
      (((h.onSensing fun u => { u with standstill := .no }).raise .standstill 0 2).stopKneel .standstill none)).judgeActivities := by
  unfold Hub.leaveStandstill
  simp [hs]

theorem Hub.stopKneel_state (cause : StopCause) (c : Option Circuit) (h : Hub) : (h.stopKneel cause c).kneel.state =
    match h.kneel.state with
    | .ride => .ride
    | _ => .stopped := by
  unfold Hub.stopKneel
  cases hk : h.kneel.state <;> simp [hk]

theorem Hub.leaveStandstill_kneel {h : Hub} (hs : h.standing = true) : h.leaveStandstill.kneel.state =
    match h.kneel.state with
    | .ride => .ride
    | _ => .stopped := by
  rw [Hub.leaveStandstill_of_standing hs]
  obtain ⟨g, hg⟩ : ∃ g, g = ((h.onSensing fun u => { u with standstill := .no }).raise .standstill 0 2).stopKneel .standstill none :=
    ⟨_, rfl⟩
  have hstate : g.kneel.state = match h.kneel.state with
    | .ride => .ride
    | _ => .stopped := by
    rw [hg, Hub.stopKneel_state]
    rfl
  have hstill : g.kneel.state = .ride ∨ g.kneel.state = .stopped := by
    rw [hstate]
    cases h.kneel.state <;> simp
  rw [← hg]
  simp only [Hub.judgeActivities_frame]
  rw [Hub.foldl_withdrawByMotion_kneel hstill, hstate]

theorem Hub.leaveStandstill_door {h : Hub} (hs : h.standing = true) (d : Door) :
    h.leaveStandstill.door d = (h.door d).moved := by
  rw [Hub.leaveStandstill_of_standing hs]
  have hjudged : ∀ g : Hub, g.judgeActivities.door d = g.door d := fun g => by simp [Hub.door]
  rw [hjudged, Hub.foldl_withdrawByMotion_door, Hub.stopKneel_door]
  rfl

theorem Hub.leaveStandstill_halt (h : Hub) : h.leaveStandstill.brake.halt = h.brake.halt := by
  refine Brake.halt_of_base ?_
  unfold Hub.leaveStandstill
  extract_lets changed
  refine Eq.trans ?_ (show changed.brake.base = h.brake.base from rfl)
  rw [Hub.judgeActivities_base]
  split
  · rw [foldl_keeps Hub.brake _ (fun g d => Hub.withdrawByMotion_brake g d), Hub.stopKneel_base]
  · rfl

/-- Settles O34: the pulse's own work, and the loss of standstill it may bring. -/
theorem wheelPulseCounted : Obligations.WheelPulseCounted := by
  intro s input dir hl
  dsimp only
  have hafter : s.hub.after s.between (.wheelPulse input dir) = s.hub.wheelPulse dir := by
    simp [Hub.after, hl]
  have hpath : (s.hub.wheelPulse dir).path = (s.hub.counted dir).path := Hub.wheelPulse_path dir s.hub
  have hpins : (s.hub.wheelPulse dir).pins = (s.hub.counted dir).pins := Hub.wheelPulse_keeps Hub.pins (by simp) dir s.hub
  obtain ⟨hclock, hdir, hbrake, hlevel, hkneel, hdoors, hlink⟩ := Hub.counted_frame dir s.hub
  refine ⟨_, exec_of_after hafter, rfl, ?_, hpins.trans hdir, hpath.trans (Hub.counted_path dir s.hub), by simp, by simp, by simp,
    by simp, by simp, by simp, by simp, fun hstay => ?_, fun hfar hun => ?_, fun hfar hyes => ?_⟩
  · show (s.hub.wheelPulse dir).sensing = _
    rw [Hub.wheelPulse_sensing]
    cases dir with
    | forward => rfl
    | reverse =>
      simp only [Sensing.countPulse, BitVec.sub_eq_add_neg]
      rfl
  · have heq : s.hub.wheelPulse dir = s.hub.counted dir := by
      rw [Hub.wheelPulse_eq, if_neg (by rintro ⟨hfar, hno⟩; exact hstay.elim (by omega) hno)]
    show (s.hub.wheelPulse dir).kneel = _ ∧ (s.hub.wheelPulse dir).level = _ ∧ (s.hub.wheelPulse dir).brake = _ ∧
      (s.hub.wheelPulse dir).link = _ ∧ (s.hub.wheelPulse dir).doors = _ ∧ (s.hub.wheelPulse dir).events = _
    rw [heq]
    exact ⟨hkneel, hlevel, hbrake, hlink, hdoors, Hub.counted_events dir s.hub⟩
  · have hmoving : (s.hub.counted dir).standing = false := by
      show ((s.hub.counted dir).sensing.standstill == .yes) = false
      rw [Hub.counted_sensing]
      show (s.hub.sensing.standstill == .yes) = false
      rw [hun]; rfl
    obtain ⟨g, hg⟩ : ∃ g, g = ((s.hub.counted dir).onSensing fun u => { u with standstill := .no }).raise .standstill 0 2 := ⟨_, rfl⟩
    have heq : s.hub.wheelPulse dir = g.judgeActivities := by
      rw [Hub.wheelPulse_eq, if_pos ⟨hfar, by rw [hun]; decide⟩, Hub.leaveStandstill_of_unsettled hmoving, hg]
    have hgbrake : g.brake = s.hub.brake := by rw [hg]; exact hbrake
    have hstill : g.standing = false := by rw [hg]; rfl
    have hemits := Hub.wheelPulse_emits dir s.hub
    have hquiet : Hub.Sends .path [] (s.hub.counted dir) (s.hub.wheelPulse dir) := by
      rw [heq]
      refine Hub.Sends.trans (xs := []) (ys := []) (g := g) ?_ (.of_emits (Hub.judgeActivities_emits _) (by decide))
      rw [hg]
      exact (Hub.Sends.raise_of_ne (other := .standstill) (by decide) 0 2 _).of_eq rfl rfl rfl rfl
    have hstandstill := Hub.wheelPulse_standstill dir s.hub
    rw [Hub.wheelPulse_sensing, if_pos hfar, hun] at hstandstill
    have hothers : ∀ kind, kind ≠ .path → kind ≠ .standstill → s.hub.Raises (s.hub.wheelPulse dir) kind [] := by
      intro kind hp hst
      have hcounted : Hub.Sends kind [] s.hub (s.hub.counted dir) :=
        (Hub.Sends.silent (g := s.hub.odometry dir) (by simp) (by simp)).trans
          (.of_emits (Hub.pathIncrement_emits _ _ _) (by simpa using hp))
      have hraised : Hub.Sends kind [] (s.hub.counted dir) g := by
        rw [hg]
        exact (Hub.Sends.raise_of_ne hst 0 2 _).of_eq rfl rfl rfl rfl
      rw [heq]
      exact (hcounted.trans (hraised.trans (.of_emits (Hub.judgeActivities_emits _) (by simp)))).raises
    refine ⟨?_, ?_, ?_, ?_, ?_, fun k => ?_, hemits.routing, ((Hub.counted_sends_path dir s.hub).trans_silent hquiet).raises,
      hstandstill, hothers⟩
    all_goals
      dsimp only
      rw [heq]
    · rw [show g.judgeActivities.kneel = g.kneel by simp, hg]; exact hkneel
    · rw [show g.judgeActivities.level = g.level by simp, hg]; exact hlevel
    · rw [show g.judgeActivities.link = g.link by simp, hg]; exact hlink
    · rw [show g.judgeActivities.doors = g.doors by simp, hg]; exact hdoors
    · exact Brake.eq_of_base ((Hub.judgeActivities_base g).trans (congrArg Brake.base hgbrake))
    · rw [Hub.judgeActivities_axleBrake, Hub.axleActive_of_moving hstill,
        show g.axleBrake k = s.hub.axleBrake k from congrArg (fun b : Brake => b.axles.get k) hgbrake]
      cases (s.hub.axleBrake k).activity <;> rfl
  · have hstanding : (s.hub.counted dir).standing = true := by
      show ((s.hub.counted dir).sensing.standstill == .yes) = true
      rw [Hub.counted_sensing]
      show (s.hub.sensing.standstill == .yes) = true
      rw [hyes]; rfl
    have heq : s.hub.wheelPulse dir = (s.hub.counted dir).leaveStandstill := by
      rw [Hub.wheelPulse_eq, if_pos ⟨hfar, by rw [hyes]; decide⟩]
    dsimp only
    rw [heq]
    refine ⟨(Hub.leaveStandstill_halt _).trans (congrArg Brake.halt hbrake), ?_, fun d => ?_⟩
    · have hstate := Hub.leaveStandstill_kneel hstanding
      rw [hkneel] at hstate
      exact hstate.trans (by cases s.hub.kneel.state <;> rfl)
    · rw [Hub.leaveStandstill_door hstanding, show (s.hub.counted dir).door d = s.hub.door d from
        congrArg (fun u : DoorUnit => u.doors.get d) hdoors]
      rfl


/-! ## A handle that acts -/

@[simp] theorem Hub.judgePermit_kneel (h : Hub) : h.judgePermit.kneel = h.kneel ∧ h.judgePermit.level = h.level := by
  unfold Hub.judgePermit
  split <;> simp

@[simp] theorem Hub.setHalt_kneel (new : HaltState) (h : Hub) :
    (h.setHalt new).kneel = h.kneel ∧ (h.setHalt new).level = h.level := by
  unfold Hub.setHalt
  extract_lets changed
  have hchanged : changed.kneel = h.kneel ∧ changed.level = h.level := ⟨rfl, rfl⟩
  rw [(Hub.judgePermit_kneel _).1, (Hub.judgePermit_kneel _).2]
  split
  · rw [(Hub.grantWaiting_kneel _).1, (Hub.grantWaiting_kneel _).2]
    exact hchanged
  · exact hchanged

@[simp] theorem Hub.requestApply_kneel (h : Hub) : h.requestApply.kneel = h.kneel ∧ h.requestApply.level = h.level := by
  unfold Hub.requestApply
  split <;> simp

/-- A request to apply acts on a RELEASED halt brake alone (R83). -/
theorem Hub.requestApply_brake (h : Hub) : h.requestApply.brake =
    if h.brake.halt = .released then { h.brake with halt := .applying, applying := .running 0, haltFault := false }
    else h.brake := by
  unfold Hub.requestApply
  split
  · rw [Hub.setHalt_brake]; rfl
  · rfl

theorem Hub.requestApply_applied (h : Hub) : h.requestApply.brake.halt = .applied ↔ h.brake.halt = .applied := by
  rw [Hub.requestApply_brake]
  cases hh : h.brake.halt <;> simp [hh]

theorem Hub.handleRelease_ne (h : Hub) : h.handleRelease .withdrawn ≠ .withdrawn := by
  unfold Hub.handleRelease
  dsimp only
  split <;> decide

theorem Hub.handleRelease_congr {h g : Hub} (hs : g.standing = h.standing) (hb : g.brake.halt = .applied ↔ h.brake.halt = .applied)
    (r : Release) : g.handleRelease r = h.handleRelease r := by
  unfold Hub.handleRelease
  simp only [hs, hb]

/-- The units beside doors and lines a handle that acts leaves, but for a request to apply (R131). -/
theorem Hub.handleActs_kept (d : Door) (h : Hub) : (h.handleActs d).kneel = h.kneel ∧ (h.handleActs d).level = h.level ∧
    (h.handleActs d).brake = h.requestApply.brake := by
  unfold Hub.handleActs
  extract_lets fresh asked moved
  have hasked : asked.kneel = h.kneel ∧ asked.level = h.level ∧ asked.brake = h.requestApply.brake := by
    refine ⟨?_, ?_, ?_⟩
    · exact (Hub.requestApply_kneel _).1
    · exact (Hub.requestApply_kneel _).2
    · rw [Hub.requestApply_brake, Hub.requestApply_brake]
      rfl
  have hmoved : moved.kneel = asked.kneel ∧ moved.level = asked.level ∧ moved.brake = asked.brake := by
    simp only [moved]
    split
    · obtain ⟨hk, hl⟩ := Hub.setRelease_kneel (h := asked) (d := d) (.inl asked.handleRelease_ne)
      exact ⟨hk, hl, Hub.setRelease_brake d _ asked⟩
    · split
      · exact ⟨rfl, rfl, rfl⟩
      · exact ⟨rfl, rfl, rfl⟩
  exact ⟨hmoved.1.trans hasked.1, hmoved.2.1.trans hasked.2.1, hmoved.2.2.trans hasked.2.2⟩

/-- A handle that acts marks its door and moves a WITHDRAWN release by R131's table. -/
theorem Hub.handleActs_door (d d' : Door) (h : Hub) : (h.handleActs d).door d' =
    if d' = d then { h.door d with mark := true, release := h.handleRelease (h.door d).release } else h.door d' := by
  unfold Hub.handleActs
  extract_lets fresh asked moved
  have hasked : ∀ x, asked.door x = if x = d then { h.door d with mark := true } else h.door x := fun x => by
    rw [show asked.door x = (h.onDoor d fun y => { y with mark := true }).door x from Hub.requestApply_door _ x]
    exact Hub.door_onDoor ..
  have hrule : asked.handleRelease .withdrawn = h.handleRelease .withdrawn :=
    Hub.handleRelease_congr (Hub.requestApply_standing _) (Hub.requestApply_applied _) _
  have hmark : (asked.door d).release = (h.door d).release := by rw [hasked, if_pos rfl]
  refine Eq.trans (b := moved.door d') rfl ?_
  simp only [moved]
  split
  · next hw =>
    rw [hmark] at hw
    rw [Hub.setRelease_door, hrule, hasked, hasked, hw, if_pos rfl]
    split <;> rfl
  · next hw =>
    rw [hmark] at hw
    have hkept : h.handleRelease (h.door d).release = (h.door d).release := by
      unfold Hub.handleRelease
      split
      · next heq => exact absurd heq hw
      · rfl
    have hsame : ∀ b : Bool, (if b then asked.raiseRelease d else asked).door d' = asked.door d' := fun b => by cases b <;> rfl
    rw [hsame, hasked, hkept]

/-- A handle that acts raises one DOOR_EMERGENCY with 1 (R131). -/
theorem Hub.handleActs_sends (d : Door) (h : Hub) : Hub.Sends .doorEmergency [(d.num, 1)] h (h.handleActs d) := by
  unfold Hub.handleActs
  extract_lets fresh asked moved
  have hasked : Hub.Sends .doorEmergency [] h asked :=
    (Hub.Sends.silent (h := h) (g := h.onDoor d fun x => { x with mark := true }) rfl rfl).trans
      (.of_emits (kind := .doorEmergency) (Hub.requestApply_emits _) (by decide))
  have hmoved : Hub.Sends .doorEmergency [] asked moved := by
    simp only [moved]
    split
    · exact .of_emits (Hub.setRelease_emits _ _ _) (by decide)
    · split
      · exact .of_emits (Hub.raiseRelease_emits _ _) (by decide)
      · exact .refl _
  exact (hasked.trans hmoved).trans (.raise .doorEmergency d.num 1 _)

/-! ## An expiry of the speed timer -/

/-- The handle waits at a speed at which it may act (R132). -/
def Hub.actsAtSpeed (h : Hub) (d : Door) : Bool := (h.door d).atSpeed && decide (h.sensing.speed ≤ h.vEmerg)

/-- What R132 makes of a door whose handle waits at speed. -/
def Hub.actedAtSpeed (h : Hub) (x : DoorHold) : DoorHold :=
  { x with atSpeed := false, mark := true, release := h.handleRelease x.release }

theorem Hub.judgeAtSpeed_of_acts {h : Hub} {d : Door} (ha : h.actsAtSpeed d = true) :
    h.judgeAtSpeed d = (h.onDoor d fun x => { x with atSpeed := false }).handleActs d := by
  simp only [Hub.actsAtSpeed, Bool.and_eq_true, decide_eq_true_eq] at ha
  rw [Hub.judgeAtSpeed, if_pos ha]

theorem Hub.judgeAtSpeed_of_not {h : Hub} {d : Door} (ha : h.actsAtSpeed d = false) : h.judgeAtSpeed d = h := by
  rw [Hub.judgeAtSpeed, if_neg]
  rintro ⟨hat, hspeed⟩
  simp [Hub.actsAtSpeed, hat, hspeed] at ha

theorem Hub.judgeAtSpeed_door (h : Hub) (d d' : Door) : (h.judgeAtSpeed d).door d' =
    if d' = d then (if h.actsAtSpeed d then h.actedAtSpeed (h.door d) else h.door d) else h.door d' := by
  cases ha : h.actsAtSpeed d with
  | false =>
    rw [Hub.judgeAtSpeed_of_not ha]
    by_cases hd : d' = d <;> simp [hd]
  | true =>
    have hset : ∀ x, (h.onDoor d fun y => { y with atSpeed := false }).door x =
        if x = d then { h.door d with atSpeed := false } else h.door x := fun x => Hub.door_onDoor ..
    rw [Hub.judgeAtSpeed_of_acts ha, Hub.handleActs_door, hset, hset, if_pos rfl]
    by_cases hd : d' = d
    · simp only [hd, if_true]
      rfl
    · simp only [hd, if_false]

/-- What the judging of one door leaves for the next (R132). -/
structure Hub.SpeedJudged (h g : Hub) : Prop where
  sensing : g.sensing = h.sensing
  store   : g.store = h.store
  kneel   : g.kneel = h.kneel
  level   : g.level = h.level
  brake   : g.brake = h.brake ∨ g.brake = h.requestApply.brake

theorem Hub.SpeedJudged.refl (h : Hub) : h.SpeedJudged h := ⟨rfl, rfl, rfl, rfl, .inl rfl⟩

theorem Hub.SpeedJudged.applied {h g : Hub} (hj : h.SpeedJudged g) : g.brake.halt = .applied ↔ h.brake.halt = .applied := by
  obtain hb | hb := hj.brake
  · rw [hb]
  · rw [hb]; exact h.requestApply_applied

theorem Hub.SpeedJudged.acted {h g : Hub} (hj : h.SpeedJudged g) (x : DoorHold) : g.actedAtSpeed x = h.actedAtSpeed x := by
  simp only [Hub.actedAtSpeed, Hub.handleRelease_congr (show g.standing = h.standing by simp [Hub.standing, hj.sensing]) hj.applied]

theorem Hub.SpeedJudged.speed {h g : Hub} (hj : h.SpeedJudged g) : g.sensing.speed ≤ g.vEmerg ↔ h.sensing.speed ≤ h.vEmerg := by
  simp only [Hub.vEmerg, Hub.item, hj.sensing, hj.store]

theorem Hub.SpeedJudged.step {h g : Hub} (hj : h.SpeedJudged g) (d : Door) : h.SpeedJudged (g.judgeAtSpeed d) := by
  refine ⟨(by simp [hj.sensing]), (by simp [hj.store]), ?_, ?_, ?_⟩
  all_goals cases ha : g.actsAtSpeed d
  case refine_1.false => rw [Hub.judgeAtSpeed_of_not ha]; exact hj.kneel
  case refine_1.true => rw [Hub.judgeAtSpeed_of_acts ha, (Hub.handleActs_kept d _).1]; exact hj.kneel
  case refine_2.false => rw [Hub.judgeAtSpeed_of_not ha]; exact hj.level
  case refine_2.true => rw [Hub.judgeAtSpeed_of_acts ha, (Hub.handleActs_kept d _).2.1]; exact hj.level
  case refine_3.false => rw [Hub.judgeAtSpeed_of_not ha]; exact hj.brake
  case refine_3.true =>
    rw [Hub.judgeAtSpeed_of_acts ha, (Hub.handleActs_kept d _).2.2]
    refine .inr ?_
    rw [Hub.requestApply_brake, Hub.requestApply_brake]
    show (if g.brake.halt = .released then { g.brake with halt := .applying, applying := .running 0, haltFault := false }
      else g.brake) = _
    obtain hb | hb := hj.brake
    · rw [hb]
    · rw [hb, if_neg h.requestApply_halt, Hub.requestApply_brake]

theorem Hub.judgeAtSpeed_sends (h : Hub) (d : Door) :
    Hub.Sends .doorEmergency (if h.actsAtSpeed d then [(d.num, 1)] else []) h (h.judgeAtSpeed d) := by
  cases ha : h.actsAtSpeed d with
  | false => rw [Hub.judgeAtSpeed_of_not ha]; exact .refl h
  | true =>
    rw [Hub.judgeAtSpeed_of_acts ha]
    exact (Hub.Sends.silent (h := h) (g := h.onDoor d fun x => { x with atSpeed := false }) rfl rfl).trans (Hub.handleActs_sends d _)

theorem Hub.foldl_judgeAtSpeed_sends {l : List Door} (hn : l.Nodup) (h : Hub) :
    Hub.Sends .doorEmergency ((l.filter h.actsAtSpeed).map fun d => ((d.num, 1) : Nat × Int)) h (l.foldl Hub.judgeAtSpeed h) := by
  induction l generalizing h with
  | nil => exact .refl h
  | cons x l ih =>
    obtain ⟨hx, hl⟩ := List.nodup_cons.mp hn
    have hself : h.SpeedJudged (h.judgeAtSpeed x) := (Hub.SpeedJudged.refl h).step x
    have hsame : l.filter (h.judgeAtSpeed x).actsAtSpeed = l.filter h.actsAtSpeed := List.filter_congr fun d hd => by
      have hne : d ≠ x := fun heq => hx (heq ▸ hd)
      simp only [Hub.actsAtSpeed, Hub.judgeAtSpeed_door, if_neg hne, hself.speed]
    refine ((h.judgeAtSpeed_sends x).trans (ih hl (h.judgeAtSpeed x))).congr ?_
    rw [hsame, List.filter_cons]
    cases h.actsAtSpeed x <;> rfl

theorem Hub.foldl_judgeAtSpeed_judged (l : List Door) (h : Hub) : h.SpeedJudged (l.foldl Hub.judgeAtSpeed h) :=
  foldl_preserves (P := fun g : Hub => h.SpeedJudged g) (fun _ d hg => hg.step d) l (.refl h)

theorem Hub.foldl_judgeAtSpeed_door (h : Hub) (d : Door) : (Door.all.foldl Hub.judgeAtSpeed h).door d =
    if h.actsAtSpeed d then h.actedAtSpeed (h.door d) else h.door d := by
  rw [Hub.foldl_doors (P := fun g : Hub => h.SpeedJudged g)
    (φ := fun _ x => if x.atSpeed && decide (h.sensing.speed ≤ h.vEmerg) then h.actedAtSpeed x else x)
    (fun _ d hg => hg.step d) (fun g d d' hg => ?_) (.refl h)]
  · rfl
  · simp only [Hub.judgeAtSpeed_door, Hub.actsAtSpeed, hg.speed, hg.acted]

theorem Hub.foldl_judgeAtSpeed_halt {l : List Door} {d : Door} (hd : d ∈ l) {h : Hub} (ha : h.actsAtSpeed d = true) :
    (l.foldl Hub.judgeAtSpeed h).brake.halt ≠ .released := by
  induction l generalizing h with
  | nil => simp at hd
  | cons x l ih =>
    by_cases hx : d = x
    · subst hx
      have hacted : (h.judgeAtSpeed d).brake.halt ≠ .released := by
        rw [Hub.judgeAtSpeed_of_acts ha, (Hub.handleActs_kept d _).2.2]
        exact Hub.requestApply_halt _
      obtain hb | hb := (Hub.foldl_judgeAtSpeed_judged l (h.judgeAtSpeed d)).brake
      · rw [List.foldl_cons, hb]; exact hacted
      · rw [List.foldl_cons, hb]; exact Hub.requestApply_halt _
    · refine ih ((List.mem_cons.mp hd).resolve_left hx) ?_
      have hself : h.SpeedJudged (h.judgeAtSpeed x) := (Hub.SpeedJudged.refl h).step x
      simpa only [Hub.actsAtSpeed, Hub.judgeAtSpeed_door, if_neg hx, hself.speed] using ha

/-- With no handle that may act an expiry of the speed timer leaves the other units. -/
theorem Hub.foldl_judgeAtSpeed_of_none {h : Hub} (hn : ∀ d, h.actsAtSpeed d = false) (l : List Door) :
    l.foldl Hub.judgeAtSpeed h = h :=
  foldl_preserves (P := fun g : Hub => g = h) (fun g d hg => by rw [hg]; exact Hub.judgeAtSpeed_of_not (hn d)) l rfl


/-! ## An expiry of the quiet timer -/

@[simp] theorem Hub.judgeAutoHalt_kneel (h : Hub) : h.judgeAutoHalt.kneel = h.kneel ∧ h.judgeAutoHalt.level = h.level := by
  unfold Hub.judgeAutoHalt
  split <;> simp

@[simp] theorem Hub.judgeAutoHalt_door (h : Hub) (d : Door) : h.judgeAutoHalt.door d = h.door d := by
  unfold Hub.judgeAutoHalt
  split <;> simp

/-- The doors' positions and enables say whether all are CLOSED_LOCKED (R134). -/
theorem Hub.doorsLocked_of_doors {h g : Hub}
    (hd : ∀ d, (g.door d).enabled = (h.door d).enabled ∧ (g.door d).position = (h.door d).position) :
    g.doorsLocked = h.doorsLocked := by
  simp only [Hub.doorsLocked, hd]

theorem Hub.enterStandstill_kept (h : Hub) : h.enterStandstill.kneel = h.kneel ∧ h.enterStandstill.level = h.level := by
  unfold Hub.enterStandstill
  extract_lets changed granted
  have hgranted : granted.kneel = changed.kneel ∧ granted.level = changed.level := by
    simp only [granted]
    split <;> simp
  simp only [Hub.judgeActivities_frame, (Hub.judgeAutoHalt_kneel granted).1, (Hub.judgeAutoHalt_kneel granted).2, hgranted.1,
    hgranted.2]
  exact ⟨rfl, rfl⟩

/-- Entering standstill grants the waiting releases under an APPLIED halt brake (R129). -/
theorem Hub.enterStandstill_door (h : Hub) (d : Door) : h.enterStandstill.door d =
    if h.brake.halt = .applied ∧ (h.door d).release = .waiting then { h.door d with release := .granted } else h.door d := by
  unfold Hub.enterStandstill
  extract_lets changed granted
  have hjudged : granted.judgeAutoHalt.judgeActivities.door d = granted.door d := by
    rw [← Hub.judgeAutoHalt_door granted d]
    simp [Hub.door]
  have hhalt : changed.brake.halt = h.brake.halt := rfl
  have hdoor : changed.door d = h.door d := rfl
  rw [hjudged]
  simp only [granted, hhalt]
  by_cases ha : h.brake.halt = .applied
  · rw [if_pos ha, Hub.grantWaiting_door, hdoor]
    simp only [DoorHold.granting, ha, true_and]
    rfl
  · simp [ha, hdoor]

/-- Entering standstill applies the halt brake for an open door (R134), and else leaves it. -/
theorem Hub.enterStandstill_halt (h : Hub) : (h.doorsLocked = false → h.enterStandstill.brake.halt ≠ .released) ∧
    (h.brake.halt ≠ .released ∨ h.doorsLocked = true → h.enterStandstill.brake.halt = h.brake.halt) := by
  unfold Hub.enterStandstill
  extract_lets changed granted
  have hbrake : granted.brake = h.brake := by
    simp only [granted]
    split
    · exact (Hub.grantWaiting_brake changed).trans rfl
    · rfl
  have hlocked : granted.doorsLocked = h.doorsLocked := by
    simp only [granted]
    split
    · refine Hub.doorsLocked_of_doors fun d => ?_
      rw [Hub.grantWaiting_door]
      unfold DoorHold.granting
      split <;> exact ⟨rfl, rfl⟩
    · rfl
  have hjudged : granted.judgeAutoHalt.doorsLocked = granted.doorsLocked :=
    Hub.doorsLocked_of_doors fun d => by simp
  have hstanding : granted.standing = true := by
    have hsensing : granted.sensing = changed.sensing := by
      simp only [granted]
      split <;> simp
    simp only [Hub.standing, hsensing]
    rfl
  rw [Brake.halt_of_base (Hub.judgeActivities_base granted.judgeAutoHalt)]
  refine ⟨fun hl => granted.judgeAutoHalt_openHalted ?_ ?_, fun hkeep => ?_⟩
  · simpa [Hub.standing] using hstanding
  · rw [hjudged, hlocked]; exact hl
  · unfold Hub.judgeAutoHalt
    split
    · next hopen =>
      obtain hne | hl := hkeep
      · rw [Hub.requestApply_brake, hbrake, if_neg hne]
      · rw [hlocked, hl] at hopen
        exact absurd hopen.2 (by decide)
    · rw [hbrake]

/-- Settles O37: the timer's own work, the doors judged in turn, and the reactions to standstill. -/
theorem speedAndQuietExpiries : Obligations.SpeedAndQuietExpiries := by
  refine ⟨fun s dir hdue => ?_, fun s hdue => ?_⟩
  · dsimp only
    have hafter : s.hub.after s.between (.speedTimerExpiry dir) = s.hub.speedExpiry dir := by simp [Hub.after, hdue]
    obtain ⟨g, hg⟩ : ∃ g, g = (s.hub.onPins fun u => { u with dir := dir }).onSensing (·.closeBucket dir) := ⟨_, rfl⟩
    have heq : s.hub.speedExpiry dir = Door.all.foldl Hub.judgeAtSpeed g := by rw [hg]; rfl
    obtain ⟨hsensing, hstore, hkneel, hlevel, hbrake⟩ := Hub.foldl_judgeAtSpeed_judged Door.all g
    have hpins : (Door.all.foldl Hub.judgeAtSpeed g).pins = g.pins := foldl_keeps Hub.pins _ (by simp) _ _
    have hdoor : ∀ d, g.door d = s.hub.door d := fun d => by rw [hg]; rfl
    have hspeed : g.sensing.speed = min 25000 (s.hub.sensing.buckets.current + s.hub.sensing.buckets.b1 +
        s.hub.sensing.buckets.b2 + s.hub.sensing.buckets.b3 + s.hub.sensing.buckets.b4) := by rw [hg]; rfl
    have hemerg : g.vEmerg = s.hub.vEmerg := by rw [hg]; rfl
    have hacts : ∀ d, g.actsAtSpeed d = ((s.hub.door d).atSpeed && decide (g.sensing.speed ≤ s.hub.vEmerg)) := fun d => by
      rw [Hub.actsAtSpeed, hdoor, hemerg]
    rw [← hspeed]
    refine ⟨_, exec_of_after (hafter.trans heq), rfl, ?_, ?_, ?_, ?_, ?_, ?_, ?_, ?_, ?_, ?_, fun hnone => ?_, ?_, ?_, ?_, fun d hno => ?_,
      fun hslow d hat => ?_, ?_⟩
    · exact hsensing.trans (by rw [hg]; rfl)
    · exact hpins.trans (by rw [hg]; rfl)
    · rw [← heq]; simp
    · rw [← heq]; simp
    · rw [← heq]; simp
    · rw [← heq]; simp
    · rw [← heq]; simp
    · rw [← heq]; simp
    · rw [← heq]; simp
    · rw [← heq]; simp
    · have hno : ∀ d, g.actsAtSpeed d = false := fun d => by
        rw [hacts]
        obtain hnone | hfast := hnone
        · simp [hnone d]
        · simp [show ¬g.sensing.speed ≤ s.hub.vEmerg by omega]
      dsimp only
      rw [Hub.foldl_judgeAtSpeed_of_none hno, hg]
      exact ⟨rfl, rfl, rfl, rfl, rfl, rfl⟩
    · exact hkneel.trans (by rw [hg]; rfl)
    · exact hlevel.trans (by rw [hg]; rfl)
    · have hgb : g.brake = s.hub.brake := by rw [hg]; rfl
      dsimp only
      rw [Hub.requestApply_brake, hgb] at hbrake
      obtain hb | hb := hbrake
      · rw [hb, if_pos rfl]
      · rw [hb]
        by_cases hr : s.hub.brake.halt = .released
        · rw [if_pos hr, if_neg (by rw [hr]; nofun)]
        · rw [if_neg hr, if_pos rfl]
    · show (Door.all.foldl Hub.judgeAtSpeed g).door d = _
      rw [Hub.foldl_judgeAtSpeed_door, hacts, hno, hdoor]
      rfl
    · have ha : g.actsAtSpeed d = true := by
        rw [hacts, hat]
        simpa using hslow
      refine ⟨?_, Hub.foldl_judgeAtSpeed_halt (Door.mem_all d) ha⟩
      show (Door.all.foldl Hub.judgeAtSpeed g).door d = _
      rw [Hub.foldl_judgeAtSpeed_door, ha, if_pos rfl, hdoor]
      have hrule : ∀ r, g.handleRelease r = s.hub.handleRelease r :=
        Hub.handleRelease_congr (by rw [hg]; rfl) (by rw [hg]; rfl)
      simp only [Hub.actedAtSpeed, hrule]
      unfold Hub.handleRelease
      cases (s.hub.door d).release <;> simp [Hub.standing]
    · have hsends := (Hub.Sends.silent (h := s.hub) (kind := .doorEmergency) (g := g) (by rw [hg]; rfl) (by rw [hg]; rfl)).trans
        (Hub.foldl_judgeAtSpeed_sends Door.all_nodup g)
      have hfilter : Door.all.filter g.actsAtSpeed =
          Door.all.filter fun d => (s.hub.door d).atSpeed && decide ((g.sensing.speed : Int) ≤ s.hub.vEmerg) :=
        List.filter_congr fun d _ => by simp [hacts]
      rw [List.nil_append, hfilter] at hsends
      exact hsends.raises
  · have hafter : s.hub.after s.between .quietTimerExpiry = s.hub.quietExpiry := by simp [Hub.after, hdue]
    obtain ⟨g, hg⟩ : ∃ g, g = s.hub.onSensing fun u => { u with quiet := .stopped, distance := 0 } := ⟨_, rfl⟩
    have heq : s.hub.quietExpiry = if s.hub.standing then g else g.enterStandstill := by rw [hg]; rfl
    have hyes : s.hub.standing = true ↔ s.hub.sensing.standstill = .yes := by simp [Hub.standing]
    refine ⟨_, exec_of_after hafter, rfl, Hub.quietExpiry_sensing _, by simp, by simp, by simp, by simp, by simp, by simp, by simp,
      by simp, by simp, fun hs => ?_, ?_, ?_, fun hs => ?_⟩
    · dsimp only
      rw [heq, if_pos (hyes.mpr hs), hg]
      exact ⟨rfl, rfl, rfl, rfl, rfl, rfl⟩
    · dsimp only
      rw [heq]
      split
      · rw [hg]; rfl
      · rw [(Hub.enterStandstill_kept g).1, hg]; rfl
    · dsimp only
      rw [heq]
      split
      · rw [hg]; rfl
      · rw [(Hub.enterStandstill_kept g).2, hg]; rfl
    · dsimp only
      rw [heq, if_neg (mt hyes.mp hs)]
      obtain ⟨hopen, hkeep⟩ := Hub.enterStandstill_halt g
      have hdoors : ∀ d, g.enterStandstill.door d = _ := g.enterStandstill_door
      rw [hg] at hopen hkeep hdoors ⊢
      exact ⟨hdoors, hopen, hkeep⟩

end Sys2Proof.Machine
end

section
/-! PROOFS. The orders of the halt brake and of the kneel unit, whose states are named whole: O45. -/

namespace Sys2Proof.Machine

/-! ## Answers and updates -/

/-- The move permit judged, where what R136 asks is known. -/
theorem Hub.judgePermit_eq {h : Hub} {b : Bool} (hp : h.permitHolds = b) : h.judgePermit =
    { h with
      doors := { h.doors with permit := b }
      link := { h.link with lines := { h.link.lines with permit := if h.doors.permit = b then h.link.lines.permit else b } }
      events := if h.doors.permit = b then h.events
        else h.events.raise h.clock.ms .movePermit 0 (BitVec.ofInt 16 (if b then 1 else 0)) } := by
  unfold Hub.judgePermit
  rw [hp]
  by_cases hb : h.doors.permit = b
  · simp only [if_pos hb]
    subst hb
    rfl
  · simp only [if_neg hb]
    rfl

/-- A change of the halt state other than to APPLIED, in the whole state (R81, R82, R85, R86, R136). -/
theorem Hub.setHalt_eq {new : HaltState} (hn : new ≠ .applied) {h : Hub} {b : Bool}
    (hp : (h.onBrake fun u => { u with halt := new }).permitHolds = b) : h.setHalt new =
    let raised := h.events.raise h.clock.ms .haltState 0 (BitVec.ofInt 16 new.num)
    { h with
      brake := { h.brake with
        halt := new
        applying := if new = .applying then .running 0 else .stopped
        haltFault := if new = .applying then false else h.brake.haltFault }
      doors := { h.doors with permit := b }
      link := { h.link with lines := { h.link.lines with permit := if h.doors.permit = b then h.link.lines.permit else b } }
      events := if h.doors.permit = b then raised
        else raised.raise h.clock.ms .movePermit 0 (BitVec.ofInt 16 (if b then 1 else 0)) } := by
  unfold Hub.setHalt
  extract_lets changed raised
  rw [if_neg (by simp [hn])]
  exact Hub.judgePermit_eq (h := changed) hp

/-! ## HALT ON and HALT OFF -/

theorem Hub.permitHolds_of_halt {h : Hub} (hh : h.brake.halt ≠ .released) : h.permitHolds = false := by
  simp [Hub.permitHolds, hh]

/-- What HALT OFF asks of the doors and the kneel state (R85). -/
theorem Hub.haltOffInterlocks_iff (h : Hub) : h.haltOffInterlocks = true ↔
    (∀ d, (h.door d).enabled = true → (h.door d).position = .closedLocked ∧ (h.door d).debounced.handle = false) ∧
      (∀ d, (h.door d).release = .withdrawn) ∧ h.kneel.state = .ride := by
  have hall : ∀ p : Door → Bool, Door.all.all p = true ↔ ∀ d, p d = true := fun p => by
    rw [List.all_eq_true]
    exact ⟨fun hp d => hp d (Door.mem_all d), fun hp d _ => hp d⟩
  simp only [Hub.haltOffInterlocks, Hub.doorsLocked, Hub.releasesWithdrawn, Hub.handlesAtRest, Bool.and_eq_true, hall, beq_iff_eq,
    Bool.or_eq_true, Bool.not_eq_true', Bool.and_eq_false_iff]
  constructor
  · rintro ⟨⟨⟨hl, hr⟩, hh⟩, hk⟩
    exact ⟨fun d hen => ⟨(hl d).resolve_left (by simp [hen]), (hh d).resolve_left (by simp [hen])⟩, hr, hk⟩
  · rintro ⟨hd, hr, hk⟩
    refine ⟨⟨⟨fun d => ?_, hr⟩, fun d => ?_⟩, hk⟩
    · cases hen : (h.door d).enabled
      · exact .inl rfl
      · exact .inr (hd d hen).1
    · cases hen : (h.door d).enabled
      · exact .inl rfl
      · exact .inr (hd d hen).2

@[simp] theorem Hub.judged_vEmerg (q : Request) (h : Hub) : (h.judged q).vEmerg = h.vEmerg := rfl

/-- Settles O45: by the halt state, then the speed or the interlocks. -/
theorem haltOrders : Obligations.HaltOrders := by
  refine ⟨fun s q ha => ⟨fun hr => ?_, fun hr hfast => ?_, fun hr hslow => ?_⟩,
    fun s q ha => ⟨fun hr => ?_, fun hr hi => ?_, fun hr hi => ?_⟩⟩
  · exact exec_of_after (Hub.order_of_service ha (by simp [serveHaltOn, hr]))
  · refine exec_of_after (Hub.order_of_service ha ?_)
    simp [serveHaltOn, hr, Nat.not_le.mpr hfast]
  · have hserve : serveHaltOn (s.hub.judged q) = ((s.hub.judged q).setHalt .applying, .done []) := by
      simp [serveHaltOn, hr, hslow]
    refine exec_of_after ((Hub.order_taken q _ _ _ ha).trans ?_)
    rw [hserve, Hub.setHalt_eq (new := .applying) nofun (Hub.permitHolds_of_halt nofun)]
    have hif : ∀ {α : Type} (b : Bool) (x y : α), (if b = false then x else y) = if b then y else x := fun b x y => by cases b <;> rfl
    simp only [hif]
    exact congrArg (fun g : Hub => { g with
      brake := { s.hub.brake with halt := .applying, applying := .running 0, haltFault := false }
      doors := { s.hub.doors with permit := false }
      link := { s.hub.link with lines := { s.hub.link.lines with
        permit := if s.hub.doors.permit then false else s.hub.link.lines.permit } }
      events := if s.hub.doors.permit then (s.hub.eventsAfter .haltState 0 1).raise s.hub.clock.ms .movePermit 0 0
        else s.hub.eventsAfter .haltState 0 1 }) (Hub.judged_reply q _ _ s.hub)
  · exact exec_of_after (Hub.order_of_service ha (by simp [serveHaltOff, hr]))
  · refine exec_of_after (Hub.order_of_service ha ?_)
    have hnot : (s.hub.judged q).haltOffInterlocks = false := by
      rw [← Bool.not_eq_true, Hub.haltOffInterlocks_iff]
      exact hi
    simp [serveHaltOff, hr, hnot]
  · have hheld : (s.hub.judged q).haltOffInterlocks = true := (Hub.haltOffInterlocks_iff _).mpr hi
    have hserve : serveHaltOff (s.hub.judged q) = ((s.hub.judged q).setHalt .released, .done []) := by
      simp [serveHaltOff, hr, hheld]
    refine exec_of_after ((Hub.order_taken q _ _ _ ha).trans ?_)
    have hpermit : ((s.hub.judged q).onBrake fun u => { u with halt := .released }).permitHolds = true := by
      have hsame : ((s.hub.judged q).onBrake fun u => { u with halt := .released }).permitHolds =
          ((s.hub.judged q).haltOffInterlocks && true) := rfl
      rw [hsame, hheld]; rfl
    rw [hserve, Hub.setHalt_eq (new := .released) nofun hpermit]
    exact congrArg (fun g : Hub => { g with
      brake := { s.hub.brake with halt := .released, applying := .stopped }
      doors := { s.hub.doors with permit := true }
      link := { s.hub.link with lines := { s.hub.link.lines with
        permit := if s.hub.doors.permit then s.hub.link.lines.permit else true } }
      events := if s.hub.doors.permit then s.hub.eventsAfter .haltState 0 0
        else (s.hub.eventsAfter .haltState 0 0).raise s.hub.clock.ms .movePermit 0 1 }) (Hub.judged_reply q _ _ s.hub)


/-! ## KNEEL and RAISE -/

/-- What the entry into LOWERING, KNELT or RAISING makes of a circuit: KNEEL_STOPPED goes (R102). -/
def CircuitLevel.unstopped (old : KneelState) (x : CircuitLevel) : CircuitLevel :=
  { x with reason := if old = .stopped ∧ x.reason = .kneelStopped then .none else x.reason }

/-- A change of the kneel state to LOWERING, KNELT or RAISING, in the whole state (R77, R102, R116, R118, R136). -/
theorem Hub.setKneel_eq {new : KneelState} (hr : new ≠ .ride) (hs : new ≠ .stopped) (h : Hub) : h.setKneel new =
    let raised := h.events.raise h.clock.ms .kneelState 0 (BitVec.ofInt 16 new.num)
    { h with
      kneel := { h.kneel with state := new, cause := none, circuit := none, before := none }
      level := { h.level with circuits := h.level.circuits.map (CircuitLevel.unstopped h.kneel.state) }
      brake := { h.brake with kneelFreeze := if h.kneel.state = .ride then .on else h.brake.kneelFreeze }
      doors := { h.doors with permit := false }
      link := { h.link with lines := { h.link.lines with permit := if h.doors.permit then false else h.link.lines.permit } }
      events := if h.doors.permit then raised.raise h.clock.ms .movePermit 0 0 else raised } := by
  have hif : ∀ {α : Type} (b : Bool) (x y : α), (if b = false then x else y) = if b then y else x := fun b x y => by cases b <;> rfl
  have hlevel : ∀ (old : KneelState) (g : Hub), g.levellingTakesKneel old new =
      g.onLevel fun u => { u with circuits := u.circuits.map (CircuitLevel.unstopped old) } := fun old g => by
    cases new <;> first | exact absurd rfl hr | exact absurd rfl hs | rfl
  have hbrake : ∀ (old : KneelState) (g : Hub), g.brakeTakesKneel old new =
      g.onBrake fun u => { u with kneelFreeze := if old = .ride then .on else u.kneelFreeze } := fun old g => by
    rw [Hub.brakeTakesKneel, if_neg hr]
    split <;> rfl
  have hholds : ∀ g : Hub, g.kneel.state = new → g.permitHolds = false := fun g hg => by
    simp [Hub.permitHolds, hg, hr]
  unfold Hub.setKneel
  extract_lets old changed
  have hchanged : changed = (h.onKneel fun u => { u with state := new, cause := none, circuit := none, before := none }).raise
      .kneelState 0 new.num := by
    simp only [changed, if_neg hs]
  rw [hlevel, hbrake, Hub.judgePermit_eq (hholds _ (by rw [hchanged]; rfl)), hchanged]
  simp only [hif]
  rfl

/-- The first circuit of a kind is the one with the lowest number. -/
theorem Circuit.find_least {p : Circuit → Bool} {c : Circuit} (hp : p c = true) (hmin : ∀ c', p c' = true → c.num ≤ c'.num) :
    Circuit.all.find? p = some c := by
  have hsplit : Circuit.all = Circuit.all.take (c.num - 1) ++ c :: Circuit.all.drop c.num := by cases c <;> rfl
  have hbefore : ∀ c' ∈ Circuit.all.take (c.num - 1), c'.num < c.num := by cases c <;> decide
  rw [List.find?_eq_some_iff_append]
  refine ⟨hp, _, _, hsplit, fun c' hc => ?_⟩
  have hlt := hbefore c' hc
  by_contra hno
  have hle := hmin c' (by simpa using hno)
  omega

theorem Hub.excludedInScope_some {h : Hub} {c : Circuit} (hc : h.inScope c = true ∧ (h.circuit c).action = .excluded)
    (hmin : ∀ c', h.inScope c' = true ∧ (h.circuit c').action = .excluded → c.num ≤ c'.num) : h.excludedInScope = some c := by
  rw [Hub.excludedInScope, Hub.scope, List.find?_filter]
  exact Circuit.find_least (by simp [hc]) fun c' hc' => hmin c' (by simpa using hc')

theorem Hub.excludedInScope_none {h : Hub} (hno : ∀ c, ¬(h.inScope c = true ∧ (h.circuit c).action = .excluded)) :
    h.excludedInScope = none := by
  rw [Hub.excludedInScope, Hub.scope, List.find?_filter, List.find?_eq_none]
  intro c _
  simpa using hno c

theorem serveKneel_of_resting {h : Hub} (hk : h.kneel.state = .lowering ∨ h.kneel.state = .knelt) : serveKneel h = (h, .done []) := by
  unfold serveKneel
  obtain hk | hk := hk <;> simp [hk]

theorem serveKneel_of_not {h : Hub} (hk : ¬(h.kneel.state = .lowering ∨ h.kneel.state = .knelt)) : serveKneel h =
    if h.standing = false then (h, .refused .notStandstill [])
    else if h.brake.halt ≠ .applied then (h, .refused .haltNotApplied [])
    else match h.excludedInScope with
      | some c => (h, .refused .circuitExcluded (be1 c.num))
      | none => ((h.writeTargets .kneel).setKneel .lowering, .done []) := by
  unfold serveKneel
  cases hs : h.kneel.state
  case lowering | knelt => simp [hs] at hk
  all_goals rfl

/-- The circuits of a kneel unit that enters LOWERING or RAISING by its order: KNEEL_STOPPED goes, and those in scope take
the target and source of the order (R102, R110 to R112). -/
def Hub.ordered (target : Circuit → Int) (source : TargetSource) (h : Hub) : PerCircuit CircuitLevel :=
  .tab fun c =>
    let x := { h.circuit c with
      reason := if h.kneel.state = .stopped ∧ (h.circuit c).reason = .kneelStopped then .none else (h.circuit c).reason }
    if h.inScope c = true then { x with target := target c, source := source } else x

theorem Hub.writeTargets_unstopped {source : TargetSource} {target : Circuit → Int} {h : Hub}
    (ht : ∀ c, (if source = .kneel then h.trim c - h.kneelDepth else h.trim c) = target c) :
    (h.writeTargets source).level.circuits.map (CircuitLevel.unstopped h.kneel.state) = h.ordered target source := by
  refine PerCircuit.ext_get fun c => ?_
  simp only [Hub.writeTargets, Hub.onLevel, Hub.ordered, PerCircuit.get_map, PerCircuit.get_tab, ht]
  by_cases hc : h.inScope c = true
  · simp only [if_pos hc]; rfl
  · simp only [if_neg hc]; rfl

/-- The whole part after an order that writes targets and leaves the kneel state `new` (R111, R112). -/
theorem Hub.writeTargets_setKneel {source : TargetSource} {new : KneelState} (hr : new ≠ .ride) (hs : new ≠ .stopped)
    {target : Circuit → Int} {h : Hub} (ht : ∀ c, (if source = .kneel then h.trim c - h.kneelDepth else h.trim c) = target c) :
    (h.writeTargets source).setKneel new =
    let raised := h.events.raise h.clock.ms .kneelState 0 (BitVec.ofInt 16 new.num)
    { h with
      kneel := { h.kneel with state := new, cause := none, circuit := none, before := none }
      level := { h.level with circuits := h.ordered target source }
      brake := { h.brake with kneelFreeze := if h.kneel.state = .ride then .on else h.brake.kneelFreeze }
      doors := { h.doors with permit := false }
      link := { h.link with lines := { h.link.lines with permit := if h.doors.permit then false else h.link.lines.permit } }
      events := if h.doors.permit then raised.raise h.clock.ms .movePermit 0 0 else raised } := by
  rw [Hub.setKneel_eq hr hs, show (h.writeTargets source).kneel.state = h.kneel.state from rfl, Hub.writeTargets_unstopped ht]
  rfl

theorem exec_kneel_starts {s : State} {q : Request} (ha : s.hub.admits q.port .passenger = true)
    (hk : ¬(s.hub.kneel.state = .lowering ∨ s.hub.kneel.state = .knelt)) (hs : s.hub.standing = true)
    (hh : s.hub.brake.halt = .applied) (hno : s.hub.excludedInScope = none) :
    exec (.kneel q) s = .next { s with
      hub := { s.hub.answered q 0x2A#8 (.done []) with
        kneel := { s.hub.kneel with state := .lowering, cause := none, circuit := none, before := none }
        level := { s.hub.level with circuits := s.hub.ordered (fun c => s.hub.trim c - s.hub.kneelDepth) .kneel }
        brake := { s.hub.brake with kneelFreeze := if s.hub.kneel.state = .ride then .on else s.hub.brake.kneelFreeze }
        doors := { s.hub.doors with permit := false }
        link := { s.hub.link with lines := { s.hub.link.lines with
          permit := if s.hub.doors.permit then false else s.hub.link.lines.permit } }
        events :=
          if s.hub.doors.permit then (s.hub.eventsAfter .kneelState 0 1).raise s.hub.clock.ms .movePermit 0 0
          else s.hub.eventsAfter .kneelState 0 1 } } := by
  have hserve : serveKneel (s.hub.judged q) = (((s.hub.judged q).writeTargets .kneel).setKneel .lowering, .done []) := by
    have hs' : (s.hub.judged q).standing = true := hs
    have hno' : (s.hub.judged q).excludedInScope = none := hno
    rw [serveKneel_of_not (h := s.hub.judged q) hk, hs', hno']
    simp [hh]
  refine exec_of_after ((Hub.order_taken q _ _ _ ha).trans ?_)
  rw [hserve, Hub.writeTargets_setKneel (source := .kneel) (new := .lowering) nofun nofun (fun _ => if_pos rfl)]
  exact congrArg (fun g : Hub => { g with
    kneel := { s.hub.kneel with state := .lowering, cause := none, circuit := none, before := none }
    level := { s.hub.level with circuits := s.hub.ordered (fun c => s.hub.trim c - s.hub.kneelDepth) .kneel }
    brake := { s.hub.brake with kneelFreeze := if s.hub.kneel.state = KneelState.ride then .on else s.hub.brake.kneelFreeze }
    doors := { s.hub.doors with permit := false }
    link := { s.hub.link with lines := { s.hub.link.lines with
      permit := if s.hub.doors.permit then false else s.hub.link.lines.permit } }
    events :=
      if s.hub.doors.permit then (s.hub.eventsAfter .kneelState 0 1).raise s.hub.clock.ms .movePermit 0 0
      else s.hub.eventsAfter .kneelState 0 1 }) (Hub.judged_reply q _ _ s.hub)

theorem exec_raise_starts {s : State} {q : Request} (ha : s.hub.admits q.port .passenger = true)
    (hk : s.hub.kneel.state ≠ .ride) (hk' : s.hub.kneel.state ≠ .raising) :
    exec (.raise q) s = .next { s with
      hub := { s.hub.answered q 0x2B#8 (.done []) with
        kneel := { s.hub.kneel with state := .raising, cause := none, circuit := none, before := none }
        level := { s.hub.level with circuits := s.hub.ordered s.hub.trim .raise }
        doors := { s.hub.doors with permit := false }
        link := { s.hub.link with lines := { s.hub.link.lines with
          permit := if s.hub.doors.permit then false else s.hub.link.lines.permit } }
        events :=
          if s.hub.doors.permit then (s.hub.eventsAfter .kneelState 0 3).raise s.hub.clock.ms .movePermit 0 0
          else s.hub.eventsAfter .kneelState 0 3 } } := by
  have hserve : serveRaise (s.hub.judged q) = (((s.hub.judged q).writeTargets .raise).setKneel .raising, .done []) := by
    unfold serveRaise
    rw [show (s.hub.judged q).kneel.state = s.hub.kneel.state from rfl]
    cases hst : s.hub.kneel.state
    case ride => exact absurd hst hk
    case raising => exact absurd hst hk'
    all_goals rfl
  refine exec_of_after ((Hub.order_taken q _ _ _ ha).trans ?_)
  rw [hserve, Hub.writeTargets_setKneel (source := .raise) (new := .raising) nofun nofun (fun _ => if_neg nofun),
    show (s.hub.judged q).kneel.state = s.hub.kneel.state from rfl, if_neg hk]
  exact congrArg (fun g : Hub => { g with
    kneel := { s.hub.kneel with state := .raising, cause := none, circuit := none, before := none }
    level := { s.hub.level with circuits := s.hub.ordered s.hub.trim .raise }
    doors := { s.hub.doors with permit := false }
    link := { s.hub.link with lines := { s.hub.link.lines with
      permit := if s.hub.doors.permit then false else s.hub.link.lines.permit } }
    events :=
      if s.hub.doors.permit then (s.hub.eventsAfter .kneelState 0 3).raise s.hub.clock.ms .movePermit 0 0
      else s.hub.eventsAfter .kneelState 0 3 }) (Hub.judged_reply q _ _ s.hub)

/-! ## The auto-raise -/

/-- Auto-raise is on and the body is low (R115). -/
def Hub.mayRaise (h : Hub) : Prop := h.autoRaiseOn = true ∧ (h.kneel.state = .lowering ∨ h.kneel.state = .knelt)

/-- Kneel and levelling unit of `g` are those of `h` after an auto-raise (R110, R115). -/
structure Hub.HasRaised (h g : Hub) : Prop where
  kneel : g.kneel = { h.kneel with state := .raising, cause := none, circuit := none, before := none }
  level : g.level = { h.level with
    circuits := .tab fun c =>
      if h.inScope c = true then { h.circuit c with target := h.trim c, source := .raise } else h.circuit c }

/-- Between two moments of one step a door condition that becomes true, and nothing else, hands the auto-raise (R115, R135). -/
structure Hub.CarriesRaise (h g : Hub) : Prop where
  store  : g.store = h.store
  kept   : ¬(h.mayRaise ∧ h.doors.condition = false ∧ g.doors.condition = true) → g.kneel = h.kneel ∧ g.level = h.level
  raised : h.mayRaise → h.doors.condition = false → g.doors.condition = true → h.HasRaised g

theorem Hub.autoRaise_of_not {h : Hub} (hm : ¬h.mayRaise) : h.autoRaise = h := if_neg hm

theorem Hub.autoRaise_raised {h : Hub} (hm : h.mayRaise) : h.HasRaised h.autoRaise := by
  have hne : h.kneel.state ≠ .stopped := by obtain hk | hk := hm.2 <;> simp [hk]
  rw [show h.autoRaise = (h.writeTargets .raise).setKneel .raising from if_pos hm,
    Hub.writeTargets_setKneel (source := .raise) (new := .raising) (target := h.trim) nofun nofun (fun _ => if_neg nofun)]
  refine ⟨rfl, ?_⟩
  have hcircuits : h.ordered h.trim .raise = .tab fun c =>
      if h.inScope c = true then { h.circuit c with target := h.trim c, source := .raise } else h.circuit c := by
    refine PerCircuit.ext_get fun c => ?_
    simp only [Hub.ordered, PerCircuit.get_tab, hne, false_and, if_false]
  rw [← hcircuits]

namespace Hub.CarriesRaise
variable {h g h' g' : Hub}

/-- Only kneel unit, levelling unit, store and door condition are looked at. -/
theorem of_units (hg : h.CarriesRaise g) (hk : h'.kneel = h.kneel) (hl : h'.level = h.level) (hs : h'.store = h.store)
    (hc : h'.doors.condition = h.doors.condition) (gk : g'.kneel = g.kneel) (gl : g'.level = g.level) (gs : g'.store = g.store)
    (gc : g'.doors.condition = g.doors.condition) : h'.CarriesRaise g' := by
  have hitem : ∀ k n, h'.item k n = h.item k n := fun k n => by rw [Hub.item, Hub.item, hs]
  have hmay : h'.mayRaise ↔ h.mayRaise := by simp only [Hub.mayRaise, Hub.autoRaiseOn, hitem, hk]
  refine ⟨by rw [gs, hs]; exact hg.store, fun hno => ?_, fun hm hf ht => ?_⟩
  · rw [gk, gl, hk, hl]
    exact hg.kept (by rwa [hmay, hc, gc] at hno)
  · obtain ⟨hkneel, hlevel⟩ := hg.raised (hmay.mp hm) (hc.symm.trans hf) (gc.symm.trans ht)
    refine ⟨by rw [gk, hk]; exact hkneel, ?_⟩
    rw [gl, hl, hlevel]
    have hscope : ∀ c, h'.inScope c = h.inScope c := fun c => by
      simp only [Hub.inScope, Hub.onDoorSide, Hub.sideLeft, Hub.scopeSide, hitem]
    have htrim : ∀ c, h'.trim c = h.trim c := fun c => by simp only [Hub.trim, hitem]
    simp only [Hub.circuit, hscope, htrim, hl]

theorem of_same (hk : g.kneel = h.kneel) (hl : g.level = h.level) (hs : g.store = h.store)
    (hc : g.doors.condition = h.doors.condition) : h.CarriesRaise g :=
  ⟨hs, fun _ => ⟨hk, hl⟩, fun _ hf ht => absurd (ht.symm.trans (hc.trans hf)) nofun⟩

end Hub.CarriesRaise

theorem Hub.carriesRaise_judgeCondition (h : Hub) : h.CarriesRaise h.judgeCondition := by
  have hcondition : h.judgeCondition.doors.condition = (h.doorsLocked && h.releasesWithdrawn) := by simp
  by_cases hsame : h.doors.condition = (h.doorsLocked && h.releasesWithdrawn)
  · have heq : h.judgeCondition = h := by rw [Hub.judgeCondition]; exact if_pos hsame
    rw [heq]
    exact .of_same rfl rfl rfl rfl
  · cases hnow : (h.doorsLocked && h.releasesWithdrawn) with
    | false =>
      rw [Hub.judgeCondition_of_false hnow]
      exact ⟨rfl, fun _ => ⟨rfl, rfl⟩, fun _ _ ht => absurd ht (by simp)⟩
    | true =>
      have hfalse : h.doors.condition = false := by simpa [hnow] using hsame
      have heq : h.judgeCondition = (h.onDoors fun u => { u with condition := true }).autoRaise := by
        simp only [Hub.judgeCondition, hnow, hfalse]
        rfl
      have hstore : h.judgeCondition.store = h.store := by simp
      refine ⟨hstore, fun hno => ?_, fun hm _ _ => ?_⟩
      · have hnot : ¬h.mayRaise := fun hm => hno ⟨hm, hfalse, hcondition.trans hnow⟩
        rw [heq, Hub.autoRaise_of_not (h := h.onDoors fun u => { u with condition := true }) hnot]
        exact ⟨rfl, rfl⟩
      · rw [heq]
        obtain ⟨hk, hl⟩ := Hub.autoRaise_raised (h := h.onDoors fun u => { u with condition := true }) hm
        exact ⟨hk, hl⟩

theorem Hub.carriesRaise_setRelease (d : Door) (new : Release) (h : Hub) : h.CarriesRaise (h.setRelease d new) := by
  unfold Hub.setRelease
  split
  · exact .of_same rfl rfl rfl rfl
  · extract_lets changed
    exact (Hub.carriesRaise_judgeCondition ((changed.driveRelease d (new == .granted)).raiseRelease d)).of_units (by simp [changed])
      (by simp [changed]) (by simp [changed]) (by simp [changed]) (by simp) (by simp) (by simp) (by simp)

end Sys2Proof.Machine
end

section
/-! PROOFS. RELEASE and WITHDRAW: O50. -/

namespace Sys2Proof.Machine

/-! ## Masks of doors -/

theorem doorMask_eq_none {payload : List Byte} (hb : ∀ b : Byte, payload = [b] → 31 < b.toNat) : doorMask payload = none := by
  unfold doorMask
  split
  · next b => exact if_neg (by have := hb b rfl; omega)
  · rfl

theorem doorMask_eq_some {payload : List Byte} {b : Byte} (hp : payload = [b]) (hb : b.toNat ≤ 31) :
    doorMask payload = some (b.setWidth 5) := by
  rw [hp]
  exact if_pos hb

theorem inMask_setWidth (b : Byte) (d : Door) : inMask (b.setWidth 5) d = b.getLsbD (d.num - 1) := by
  cases d <;> simp [inMask, Door.num]

theorem maskByte_eq (f : Door → Bool) :
    maskByte f = BitVec.ofNat 8 ((Door.all.map fun d => if f d then 2 ^ (d.num - 1) else 0).sum) := by
  simp [maskByte, Door.all, Door.num, Nat.add_assoc]

theorem setWidth_eq_zero {b : Byte} (hb : b.toNat ≤ 31) : b.setWidth 5 = 0 ↔ b.toNat = 0 := by
  rw [← BitVec.toNat_inj]
  rw [BitVec.toNat_setWidth, show (0 : BitVec 5).toNat = 0 from rfl]
  omega

/-! ## A service that reaches the doors -/

/-- The answer of a service that leaves the port units and the pins (R151, step 8). -/
theorem Hub.reply_access {q : Request} {code : Byte} {a : Answer} {h g : Hub} (hp : g.ports = (h.judged q).ports)
    (hq : g.pins = (h.judged q).pins) : (g.reply q.port code q.tag a).ports = (h.answered q code a).ports ∧
      (g.reply q.port code q.tag a).pins = (h.answered q code a).pins := by
  rw [← Hub.judged_reply]
  exact ⟨by simp only [Hub.reply, Hub.onPort, Hub.onPorts, hp], hq⟩

/-! ## The release lines -/

/-- The line of a door follows its release (R126). -/
def Hub.LineShown (h : Hub) (d : Door) : Prop := h.link.lines.release.get d = ((h.door d).release == .granted)

theorem Hub.setRelease_lineShown {h : Hub} {d' : Door} (hs : h.LineShown d') (d : Door) (new : Release) :
    (h.setRelease d new).LineShown d' := by
  have hdoor : (h.setRelease d new).door d' = if d' = d then { h.door d with release := new } else h.door d' :=
    Hub.setRelease_door d d' new h
  unfold Hub.LineShown
  rw [hdoor]
  unfold Hub.setRelease
  split
  · next hsame =>
    by_cases hd : d' = d
    · subst hd
      rw [if_pos rfl, ← hsame]
      exact hs
    · rw [if_neg hd]
      exact hs
  · extract_lets changed
    rw [Hub.judgePermit_lines, Hub.judgeCondition_releaseLines]
    by_cases hd : d' = d
    · simp [hd, Hub.raiseRelease, Hub.driveRelease]
    · rw [if_neg hd]
      refine Eq.trans ?_ hs
      simp [Hub.raiseRelease, Hub.driveRelease, hd, changed]

theorem Hub.requestApply_lineShown {h : Hub} {d : Door} (hs : h.LineShown d) : h.requestApply.LineShown d := by
  unfold Hub.LineShown
  rw [Hub.requestApply_door]
  refine Eq.trans ?_ hs
  unfold Hub.requestApply Hub.setHalt
  split
  · simp
  · rfl

/-! ## RELEASE -/

/-- What RELEASE makes of a door (R127). -/
def DoorHold.releasing (named applied : Bool) (x : DoorHold) : DoorHold :=
  if named = true ∧ x.enabled = true ∧ x.release = .withdrawn then { x with release := if applied then .granted else .waiting } else x

@[simp] theorem Hub.releaseDoor_brake (mask : DoorMask) (h : Hub) (d : Door) : (h.releaseDoor mask d).brake = h.brake := by
  unfold Hub.releaseDoor
  split <;> simp

theorem Hub.releaseDoor_door (mask : DoorMask) (h : Hub) (d d' : Door) : (h.releaseDoor mask d).door d' =
    if d' = d then (h.door d).releasing (inMask mask d) (h.brake.halt == .applied) else h.door d' := by
  unfold Hub.releaseDoor DoorHold.releasing
  split
  · simp only [Hub.setRelease_door, beq_iff_eq]
  · split
    · next hd => rw [hd]
    · rfl

theorem Hub.foldl_releaseDoor_door (mask : DoorMask) (h : Hub) (d : Door) : (Door.all.foldl (Hub.releaseDoor mask) h).door d =
    (h.door d).releasing (inMask mask d) (h.brake.halt == .applied) :=
  Hub.foldl_doors (φ := fun d x => x.releasing (inMask mask d) (h.brake.halt == .applied)) (P := fun g : Hub => g.brake = h.brake)
    (fun g d hg => by rw [Hub.releaseDoor_brake, hg]) (fun g d d' hg => by rw [Hub.releaseDoor_door, hg]) rfl d

theorem Hub.foldl_releaseDoor_kneel (mask : DoorMask) (h : Hub) : (Door.all.foldl (Hub.releaseDoor mask) h).kneel = h.kneel ∧
    (Door.all.foldl (Hub.releaseDoor mask) h).level = h.level :=
  foldl_preserves (P := fun g : Hub => g.kneel = h.kneel ∧ g.level = h.level) (fun g d hg => by
    unfold Hub.releaseDoor
    split
    · obtain ⟨hk, hl⟩ := Hub.setRelease_kneel (h := g) (d := d) (new := if g.brake.halt = .applied then .granted else .waiting)
        (.inl (by split <;> decide))
      exact ⟨hk.trans hg.1, hl.trans hg.2⟩
    · exact hg) Door.all ⟨rfl, rfl⟩

theorem Hub.foldl_releaseDoor_lineShown {h : Hub} {d : Door} (hs : h.LineShown d) (mask : DoorMask) (l : List Door) :
    (l.foldl (Hub.releaseDoor mask) h).LineShown d :=
  foldl_preserves (P := fun g : Hub => g.LineShown d) (fun g x hg => by
    unfold Hub.releaseDoor
    split
    · exact Hub.setRelease_lineShown hg x _
    · exact hg) l hs

/-- The work of a RELEASE that is taken. -/
def Hub.releaseMask (mask : DoorMask) (h : Hub) : Hub := (Door.all.foldl (Hub.releaseDoor mask) h).requestApply

@[simp] theorem Hub.releaseMask_frame (mask : DoorMask) (h : Hub) :
    (h.releaseMask mask).clock = h.clock ∧ (h.releaseMask mask).pins = h.pins ∧ (h.releaseMask mask).sensing = h.sensing ∧
    (h.releaseMask mask).path = h.path ∧ (h.releaseMask mask).steering = h.steering ∧ (h.releaseMask mask).joints = h.joints ∧
    (h.releaseMask mask).ports = h.ports ∧ (h.releaseMask mask).access = h.access ∧ (h.releaseMask mask).store = h.store ∧
    (h.releaseMask mask).freeCount = h.freeCount ∧ (h.releaseMask mask).kneel = h.kneel ∧ (h.releaseMask mask).level = h.level ∧
    (h.releaseMask mask).link.body = h.link.body := by
  have hkept := Hub.foldl_releaseDoor_kneel mask h
  simp [Hub.releaseMask, foldl_keeps Hub.clock, foldl_keeps Hub.pins, foldl_keeps Hub.sensing, foldl_keeps Hub.path,
    foldl_keeps Hub.steering, foldl_keeps Hub.joints, foldl_keeps Hub.ports, foldl_keeps Hub.access, foldl_keeps Hub.store,
    foldl_keeps Hub.freeCount, hkept, foldl_keeps (fun g : Hub => g.link.body)]

theorem Hub.releaseMask_brake (mask : DoorMask) (h : Hub) : (h.releaseMask mask).brake = h.requestApply.brake := by
  rw [Hub.releaseMask, Hub.requestApply_brake, Hub.requestApply_brake, foldl_keeps Hub.brake _ (Hub.releaseDoor_brake mask)]

theorem Hub.releaseMask_door (mask : DoorMask) (h : Hub) (d : Door) : (h.releaseMask mask).door d =
    (h.door d).releasing (inMask mask d) (h.brake.halt == .applied) := by
  rw [Hub.releaseMask, Hub.requestApply_door, Hub.foldl_releaseDoor_door]

theorem Hub.releaseMask_lineShown {h : Hub} {d : Door} (hs : h.LineShown d) (mask : DoorMask) : (h.releaseMask mask).LineShown d :=
  Hub.requestApply_lineShown (Hub.foldl_releaseDoor_lineShown hs mask _)

/-! ## WITHDRAW -/

/-- What WITHDRAW makes of a door (R128). -/
def DoorHold.withdrawing (named : Bool) (x : DoorHold) : DoorHold :=
  if named = true ∧ x.enabled = true ∧ x.debounced.handle = false then { x with mark := false, release := .withdrawn } else x

@[simp] theorem Hub.withdrawDoor_brake (mask : DoorMask) (h : Hub) (d : Door) : (h.withdrawDoor mask d).brake = h.brake := by
  unfold Hub.withdrawDoor
  split <;> simp

theorem Hub.withdrawDoor_door (mask : DoorMask) (h : Hub) (d d' : Door) : (h.withdrawDoor mask d).door d' =
    if d' = d then (h.door d).withdrawing (inMask mask d) else h.door d' := by
  unfold Hub.withdrawDoor DoorHold.withdrawing
  split
  · have hset : ∀ x, (h.onDoor d fun y => { y with mark := false }).door x =
        if x = d then { h.door d with mark := false } else h.door x := fun x => Hub.door_onDoor ..
    rw [Hub.setRelease_door, hset, hset, if_pos rfl]
    split <;> rfl
  · split
    · next hd => rw [hd]
    · rfl

theorem Hub.foldl_withdrawDoor_door (mask : DoorMask) (h : Hub) (d : Door) :
    (Door.all.foldl (Hub.withdrawDoor mask) h).door d = (h.door d).withdrawing (inMask mask d) :=
  Hub.foldl_doors (φ := fun d x => x.withdrawing (inMask mask d)) (P := fun _ => True) (fun _ _ _ => trivial)
    (fun g d d' _ => Hub.withdrawDoor_door mask g d d') trivial d

theorem Hub.foldl_withdrawDoor_lineShown {h : Hub} {d : Door} (hs : h.LineShown d) (mask : DoorMask) (l : List Door) :
    (l.foldl (Hub.withdrawDoor mask) h).LineShown d :=
  foldl_preserves (P := fun g : Hub => g.LineShown d) (fun g x hg => by
    unfold Hub.withdrawDoor
    split
    · refine Hub.setRelease_lineShown (h := g.onDoor x fun y => { y with mark := false }) ?_ x _
      unfold Hub.LineShown
      refine Eq.trans hg ?_
      rw [Hub.door_onDoor]
      split
      · next heq => rw [heq]
      · rfl
    · exact hg) l hs

/-- With every release WITHDRAWN, none changes (R128). -/
theorem Hub.setRelease_of_withdrawn {h : Hub} (hw : h.releasesWithdrawn = true) (d : Door) : h.setRelease d .withdrawn = h := by
  rw [Hub.releasesWithdrawn, List.all_eq_true] at hw
  exact if_pos (by simpa using hw d (Door.mem_all d))

theorem Hub.setRelease_conditionJudged {h : Hub} (hc : h.ConditionJudged) (d : Door) (new : Release) :
    (h.setRelease d new).ConditionJudged := by
  unfold Hub.setRelease
  split
  · exact hc
  · exact Hub.judgePermit_condition (Hub.judgeCondition_judged _)

/-- A mark has no part in the door condition (R135). -/
theorem Hub.ConditionJudged.unmark {h : Hub} (hc : h.ConditionJudged) (d : Door) (m : Bool) :
    (h.onDoor d fun x => { x with mark := m }).ConditionJudged ∧
      (h.onDoor d fun x => { x with mark := m }).releasesWithdrawn = h.releasesWithdrawn := by
  have hset : ∀ x, (h.onDoor d fun y => { y with mark := m }).door x =
      if x = d then { h.door d with mark := m } else h.door x := fun x => Hub.door_onDoor ..
  have hdoor : ∀ x, ((h.onDoor d fun y => { y with mark := m }).door x).enabled = (h.door x).enabled ∧
      ((h.onDoor d fun y => { y with mark := m }).door x).position = (h.door x).position ∧
      ((h.onDoor d fun y => { y with mark := m }).door x).release = (h.door x).release := fun x => by
    rw [hset]
    split
    · next heq => rw [heq]; exact ⟨rfl, rfl, rfl⟩
    · exact ⟨rfl, rfl, rfl⟩
  have hreleases : (h.onDoor d fun x => { x with mark := m }).releasesWithdrawn = h.releasesWithdrawn := by
    simp only [Hub.releasesWithdrawn, hdoor]
  refine ⟨?_, hreleases⟩
  rw [Hub.ConditionJudged, hreleases, Hub.doorsLocked_of_doors fun x => ⟨(hdoor x).1, (hdoor x).2.1⟩]
  exact hc

/-- Withdrawals one after the other: the door condition, once true, stays, and the auto-raise is handed as it becomes true. -/
structure Hub.WithdrawsFrom (h g : Hub) : Prop where
  judged : g.ConditionJudged
  raise  : h.CarriesRaise g
  stays  : h.doors.condition = true → g.doors.condition = true

theorem Hub.WithdrawsFrom.step {h g : Hub} (hg : h.WithdrawsFrom g) (mask : DoorMask) (d : Door) :
    h.WithdrawsFrom (g.withdrawDoor mask d) := by
  unfold Hub.withdrawDoor
  split
  · obtain ⟨m, hm⟩ : ∃ m, m = g.onDoor d fun x => { x with mark := false } := ⟨_, rfl⟩
    obtain ⟨hjudged, hreleases⟩ := hg.judged.unmark d false
    have hraise : h.CarriesRaise m := hg.raise.of_units rfl rfl rfl rfl (by rw [hm]; rfl) (by rw [hm]; rfl) (by rw [hm]; rfl)
      (by rw [hm]; rfl)
    have hcondition : m.doors.condition = g.doors.condition := by rw [hm]; rfl
    rw [← hm] at hjudged hreleases ⊢
    cases hc : m.doors.condition with
    | true =>
      have hw : m.releasesWithdrawn = true := by
        have heq := hc.symm.trans hjudged
        simp only [eq_comm (a := true), Bool.and_eq_true] at heq
        exact heq.2
      rw [Hub.setRelease_of_withdrawn hw]
      exact ⟨hjudged, hraise, fun _ => hc⟩
    | false =>
      have hfalse : h.doors.condition = false := by
        by_contra hno
        exact absurd (hg.stays (by simpa using hno)) (by rw [← hcondition, hc]; decide)
      obtain ⟨hkneel, hlevel⟩ := hraise.kept (by simp [hc])
      exact ⟨Hub.setRelease_conditionJudged hjudged d _,
        (Hub.carriesRaise_setRelease d .withdrawn m).of_units hkneel.symm hlevel.symm hraise.store.symm (hfalse.trans hc.symm)
          rfl rfl rfl rfl, fun ht => absurd (ht.symm.trans hfalse) nofun⟩
  · exact hg

theorem Hub.foldl_withdrawDoor_raise {h : Hub} (hc : h.ConditionJudged) (mask : DoorMask) (l : List Door) :
    h.CarriesRaise (l.foldl (Hub.withdrawDoor mask) h) :=
  (foldl_preserves (P := fun g : Hub => h.WithdrawsFrom g) (fun _ d hg => hg.step mask d) l
    ⟨hc, .of_same rfl rfl rfl rfl, id⟩).raise

/-- Without the auto-raise a withdrawal leaves kneel and levelling unit (R115). -/
theorem Hub.foldl_withdrawDoor_kneel {h : Hub} (hm : ¬h.mayRaise) (mask : DoorMask) (l : List Door) :
    (l.foldl (Hub.withdrawDoor mask) h).kneel = h.kneel ∧ (l.foldl (Hub.withdrawDoor mask) h).level = h.level := by
  refine (foldl_preserves (P := fun g : Hub => g.store = h.store ∧ g.kneel = h.kneel ∧ g.level = h.level) (fun g d hg => ?_) l
    ⟨rfl, rfl, rfl⟩).2
  obtain ⟨hstore, hkneel, hlevel⟩ := hg
  have hnot : ¬g.mayRaise := by
    simp only [Hub.mayRaise, Hub.autoRaiseOn, Hub.item, hstore, hkneel]
    exact hm
  unfold Hub.withdrawDoor
  split
  · obtain ⟨hs, hkept, -⟩ := Hub.carriesRaise_setRelease d .withdrawn (g.onDoor d fun x => { x with mark := false })
    obtain ⟨hk, hl⟩ := hkept fun hr => hnot hr.1
    exact ⟨hs.trans hstore, hk.trans hkneel, hl.trans hlevel⟩
  · exact ⟨hstore, hkneel, hlevel⟩

/-! ## The orders -/

theorem serveRelease_range {payload : List Byte} (hb : ∀ b : Byte, payload = [b] → b.toNat = 0 ∨ 31 < b.toNat) (h : Hub) :
    serveRelease payload h = (h, .refused .range []) := by
  unfold serveRelease
  cases hm : doorMask payload with
  | none => rfl
  | some mask =>
    obtain ⟨b, hp, hle⟩ : ∃ b : Byte, payload = [b] ∧ b.toNat ≤ 31 := by
      unfold doorMask at hm
      split at hm
      · next b =>
        split at hm
        · next hle => exact ⟨b, rfl, hle⟩
        · cases hm
      · cases hm
    have hzero : b.toNat = 0 := (hb b hp).resolve_right (by omega)
    rw [doorMask_eq_some hp hle] at hm
    cases hm
    exact if_pos ((setWidth_eq_zero hle).mpr hzero)

theorem serveRelease_mask {payload : List Byte} {b : Byte} (hp : payload = [b]) (hlo : 1 ≤ b.toNat) (hhi : b.toNat ≤ 31) (h : Hub) :
    serveRelease payload h =
      if h.standing = false then (h, .refused .notStandstill [])
      else if (Door.all.all fun d => !(inMask (b.setWidth 5) d && (h.door d).enabled)) = true then
        (h, .refused .doorDisabled [h.disabledNamed (b.setWidth 5)])
      else (h.releaseMask (b.setWidth 5), .done [h.disabledNamed (b.setWidth 5)]) := by
  unfold serveRelease
  rw [doorMask_eq_some hp hhi]
  exact if_neg fun hz => by have := (setWidth_eq_zero hhi).mp hz; omega

/-- The byte of the doors a condition holds of, as R127 and R128 answer it. -/
theorem maskByte_named {b : Byte} (f : Door → Bool) : maskByte (fun d => inMask (b.setWidth 5) d && f d) =
    BitVec.ofNat 8 ((Door.all.map fun d => if b.getLsbD (d.num - 1) && f d then 2 ^ (d.num - 1) else 0).sum) := by
  rw [maskByte_eq]
  simp only [inMask_setWidth]

/-- A release order taken, in every unit (R127). -/
theorem release_taken {s : State} {q : Request} (ha : s.hub.admits q.port .passenger = true) {b : Byte} (hp : q.payload = [b])
    (hlo : 1 ≤ b.toNat) (hhi : b.toNat ≤ 31) (hs : s.hub.standing = true)
    (hd : ∃ d, b.getLsbD (d.num - 1) = true ∧ (s.hub.door d).enabled = true) :
    s.hub.after s.between (.release q) = ((s.hub.judged q).releaseMask (b.setWidth 5)).reply q.port 0x28#8 q.tag
      (.done [s.hub.disabledNamed (b.setWidth 5)]) := by
  refine (Hub.order_taken q _ _ _ ha).trans ?_
  have hs' : (s.hub.judged q).standing = true := hs
  have hany : (Door.all.all fun d => !(inMask (b.setWidth 5) d && ((s.hub.judged q).door d).enabled)) ≠ true := by
    obtain ⟨d, hn, hen⟩ := hd
    rw [Ne, List.all_eq_true]
    intro hno
    have hen' : ((s.hub.judged q).door d).enabled = true := hen
    simpa [inMask_setWidth, hn, hen'] using hno d (Door.mem_all d)
  rw [serveRelease_mask hp hlo hhi, hs', if_neg (by decide), if_neg hany]
  rfl

/-- Settles O50: by the mask, standstill and the doors it names. -/
theorem releaseAndWithdrawOrders : Obligations.ReleaseAndWithdrawOrders := by
  refine ⟨fun s q ha => ⟨fun hb => ?_, fun b hp hlo hhi => ⟨fun hs => ?_, fun hs hd => ?_, fun hs hd => ?_⟩⟩,
    fun s q ha => ⟨fun hb => ?_, fun b hp hhi => ?_⟩⟩
  · exact exec_of_after (Hub.order_of_service ha (serveRelease_range hb _))
  · refine exec_of_after (Hub.order_of_service ha ?_)
    have hs' : (s.hub.judged q).standing = false := by simpa [Hub.standing] using hs
    rw [serveRelease_mask hp hlo hhi, hs', if_pos rfl]
  · refine exec_of_after (Hub.order_of_service ha ?_)
    have hs' : (s.hub.judged q).standing = true := by simpa [Hub.standing] using hs
    have hall : (Door.all.all fun d => !(inMask (b.setWidth 5) d && ((s.hub.judged q).door d).enabled)) = true := by
      rw [List.all_eq_true]
      intro d _
      have hdoor : ((s.hub.judged q).door d).enabled = (s.hub.door d).enabled := rfl
      cases hn : b.getLsbD (d.num - 1) with
      | false => simp [inMask_setWidth, hn]
      | true => simp [hdoor, hd d hn]
    rw [serveRelease_mask hp hlo hhi, hs', if_neg (by decide), if_pos hall, Hub.disabledNamed, maskByte_named]
    rfl
  · have hstanding : s.hub.standing = true := by simpa [Hub.standing] using hs
    have hafter := release_taken ha hp hlo hhi hstanding hd
    rw [Hub.disabledNamed, maskByte_named] at hafter
    have hframe := Hub.releaseMask_frame (b.setWidth 5) (s.hub.judged q)
    obtain ⟨hclock, hpins, hsensing, hpath, hsteering, hjoints, hports, haccess, hstore, hfree, hkneel, hlevel, hbody⟩ := hframe
    have haccessed := Hub.reply_access (q := q) (code := 0x28#8) (a := .done [BitVec.ofNat 8
      ((Door.all.map fun d => if b.getLsbD (d.num - 1) && !(s.hub.door d).enabled then 2 ^ (d.num - 1) else 0).sum)]) hports hpins
    refine ⟨_, exec_of_after hafter, rfl, haccessed.1, haccessed.2, fun d => ?_, fun d hline => ?_, ?_, hkneel, hlevel, ?_, hclock,
      hsensing, hpath, hsteering, hjoints, haccess, hstore, hfree⟩
    · refine (Hub.releaseMask_door (b.setWidth 5) (s.hub.judged q) d).trans ?_
      rw [inMask_setWidth]
      simp only [DoorHold.releasing, beq_iff_eq]
      rfl
    · exact Hub.releaseMask_lineShown (h := s.hub.judged q) hline (b.setWidth 5)
    · exact (Hub.releaseMask_brake (b.setWidth 5) (s.hub.judged q)).trans (Hub.requestApply_brake _)
    · exact Link.eq_of_body hbody
  · exact exec_of_after (Hub.order_of_service ha (by rw [serveWithdraw, doorMask_eq_none hb]))
  · have hserve : serveWithdraw q.payload (s.hub.judged q) = (Door.all.foldl (Hub.withdrawDoor (b.setWidth 5)) (s.hub.judged q),
        .done [(s.hub.judged q).keptByHandle (b.setWidth 5)]) := by
      rw [serveWithdraw, doorMask_eq_some hp hhi]
    have hafter : s.hub.after s.between (.withdraw q) = (Door.all.foldl (Hub.withdrawDoor (b.setWidth 5)) (s.hub.judged q)).reply
        q.port 0x29#8 q.tag (.done [(s.hub.judged q).keptByHandle (b.setWidth 5)]) :=
      (Hub.order_taken q _ _ _ ha).trans (by rw [hserve])
    have hkept : (s.hub.judged q).keptByHandle (b.setWidth 5) = BitVec.ofNat 8 ((Door.all.map fun d =>
        if b.getLsbD (d.num - 1) && (s.hub.door d).enabled && (s.hub.door d).debounced.handle then 2 ^ (d.num - 1) else 0).sum) := by
      rw [Hub.keptByHandle, maskByte_eq]
      simp only [inMask_setWidth]
      rfl
    rw [hkept] at hafter
    have haccessed := Hub.reply_access (q := q) (code := 0x29#8) (a := .done [BitVec.ofNat 8 ((Door.all.map fun d =>
        if b.getLsbD (d.num - 1) && (s.hub.door d).enabled && (s.hub.door d).debounced.handle then 2 ^ (d.num - 1) else 0).sum)])
      (g := Door.all.foldl (Hub.withdrawDoor (b.setWidth 5)) (s.hub.judged q)) (h := s.hub) (foldl_keeps Hub.ports _ (by simp) _ _)
      (foldl_keeps Hub.pins _ (by simp) _ _)
    refine ⟨_, exec_of_after hafter, rfl, haccessed.1, haccessed.2, fun d => ?_, fun d hline => ?_, ?_, ?_, fun hno => ?_,
      fun hon hlow hc => ?_, ?_, ?_, ?_, ?_, ?_, ?_, ?_, ?_⟩
    · refine (Hub.foldl_withdrawDoor_door (b.setWidth 5) (s.hub.judged q) d).trans ?_
      rw [inMask_setWidth]
      rfl
    · exact Hub.foldl_withdrawDoor_lineShown (h := s.hub.judged q) hline (b.setWidth 5) _
    · exact foldl_keeps Hub.brake _ (by simp) _ _
    · exact Link.eq_of_body (foldl_keeps (fun g : Hub => g.link.body) _ (by simp) Door.all (s.hub.judged q))
    · refine Hub.foldl_withdrawDoor_kneel (h := s.hub.judged q) (fun hm => ?_) (b.setWidth 5) _
      obtain ⟨hon, hlow⟩ : s.hub.mayRaise := hm
      obtain hoff | ⟨hl, hk⟩ := hno
      · simp [hon] at hoff
      · exact hlow.elim hl hk
    · obtain ⟨-, hkeep, hraised⟩ := Hub.foldl_withdrawDoor_raise (h := s.hub.judged q) hc (b.setWidth 5) Door.all
      refine ⟨fun hno => hkeep fun hr => hno hr.2, fun hr => ?_⟩
      obtain ⟨hk, hl⟩ := hraised ⟨hon, hlow⟩ hr.1 hr.2
      exact ⟨hk, hl⟩
    · exact foldl_keeps Hub.clock _ (by simp) _ _
    · exact foldl_keeps Hub.sensing _ (by simp) _ _
    · exact foldl_keeps Hub.path _ (by simp) _ _
    · exact foldl_keeps Hub.steering _ (by simp) _ _
    · exact foldl_keeps Hub.joints _ (by simp) _ _
    · exact foldl_keeps Hub.access _ (by simp) _ _
    · exact foldl_keeps Hub.store _ (by simp) _ _
    · exact foldl_keeps Hub.freeCount _ (by simp) _ _

end Sys2Proof.Machine
end

section
/-! PROOFS. Each change of the halt state, of the kneel state and of the move permit raises its one event: O46. -/

namespace Sys2Proof.Machine

/-! ## A quantity whose changes are told by one event -/

/-- Between two moments of one step a change of `x` raises one event of the kind with the new value, and no change none. -/
def Hub.Tells {β : Type} [DecidableEq β] (kind : EventKind) (x : Hub → β) (num : β → Int) (h g : Hub) : Prop :=
  Hub.Sends kind (if x g = x h then [] else [(0, num (x g))]) h g

section
variable {β : Type} [DecidableEq β] {kind : EventKind} {x : Hub → β} {num : β → Int} {h g f : Hub}

theorem Hub.Tells.same (hs : Hub.Sends kind [] h g) (hx : x g = x h) : Hub.Tells kind x num h g := by
  rw [Hub.Tells, if_pos hx]
  exact hs

theorem Hub.Tells.changed (hs : Hub.Sends kind [(0, num (x g))] h g) (hx : x g ≠ x h) : Hub.Tells kind x num h g := by
  rw [Hub.Tells, if_neg hx]
  exact hs

theorem Hub.Tells.sends_of_same (ht : Hub.Tells kind x num h g) (hx : x g = x h) : Hub.Sends kind [] h g := by
  rwa [Hub.Tells, if_pos hx] at ht

/-- A quantity that changes in one part of a step at most. -/
theorem Hub.Tells.trans (hg : Hub.Tells kind x num h g) (gf : Hub.Tells kind x num g f) (hx : x g = x h ∨ x f = x g) :
    Hub.Tells kind x num h f := by
  refine (Hub.Sends.trans hg gf).congr ?_
  obtain hx | hx := hx
  · rw [hx]; simp
  · rw [hx]; simp
end

/-! ## Halt state and kneel state under the door unit's operations -/

def Hub.haltState (h : Hub) : HaltState := h.brake.halt
def Hub.kneelState (h : Hub) : KneelState := h.kneel.state

abbrev Hub.TellsHalt : Hub → Hub → Prop := Hub.Tells .haltState Hub.haltState fun x => x.num
abbrev Hub.TellsKneel : Hub → Hub → Prop := Hub.Tells .kneelState Hub.kneelState fun x => x.num

/-- Between two moments of one step the halt brake stays or is applied from RELEASED, the kneel unit stays or is raised from
LOWERING or KNELT, and each change is told (R83, R86, R115, R118). -/
structure Hub.Turns (h g : Hub) : Prop where
  halt       : h.TellsHalt g
  kneel      : h.TellsKneel g
  haltMoves  : g.brake.halt = h.brake.halt ∨ (h.brake.halt = .released ∧ g.brake.halt = .applying)
  kneelMoves : g.kneel.state = h.kneel.state ∨ ((h.kneel.state = .lowering ∨ h.kneel.state = .knelt) ∧ g.kneel.state = .raising)

namespace Hub.Turns
variable {h g f : Hub}

theorem refl (h : Hub) : h.Turns h := ⟨.same (.refl h) rfl, .same (.refl h) rfl, .inl rfl, .inl rfl⟩

theorem trans (hg : h.Turns g) (gf : g.Turns f) : h.Turns f := by
  refine ⟨hg.halt.trans gf.halt ?_, hg.kneel.trans gf.kneel ?_, ?_, ?_⟩
  · obtain hsame | ⟨-, ha⟩ := hg.haltMoves
    · exact .inl hsame
    · obtain hsame | ⟨hr, -⟩ := gf.haltMoves
      · exact .inr hsame
      · exact absurd (ha.symm.trans hr) nofun
  · obtain hsame | ⟨-, hr⟩ := hg.kneelMoves
    · exact .inl hsame
    · obtain hsame | ⟨hl, -⟩ := gf.kneelMoves
      · exact .inr hsame
      · simp [hr] at hl
  · obtain hsame | ⟨hr, ha⟩ := hg.haltMoves
    · obtain hsame' | ⟨hr, ha⟩ := gf.haltMoves
      · exact .inl (hsame'.trans hsame)
      · exact .inr ⟨hsame.symm.trans hr, ha⟩
    · obtain hsame' | ⟨hr', -⟩ := gf.haltMoves
      · exact .inr ⟨hr, hsame'.trans ha⟩
      · exact absurd (ha.symm.trans hr') nofun
  · obtain hsame | ⟨hl, hr⟩ := hg.kneelMoves
    · obtain hsame' | ⟨hl, hr⟩ := gf.kneelMoves
      · exact .inl (hsame'.trans hsame)
      · exact .inr ⟨hsame ▸ hl, hr⟩
    · obtain hsame' | ⟨hl', -⟩ := gf.kneelMoves
      · exact .inr ⟨hl, hsame'.trans hr⟩
      · simp [hr] at hl'

theorem foldl {α : Type} {φ : Hub → α → Hub} (hf : ∀ (h : Hub) (x : α), h.Turns (φ h x)) (l : List α) (h : Hub) : h.Turns (l.foldl φ h) := by
  induction l generalizing h with
  | nil => exact refl h
  | cons x l ih => exact (hf h x).trans (ih _)

/-- An operation that raises no event of either kind and leaves both states. -/
theorem of_emits {kinds : List EventKind} (he : h.Emits kinds g) (hh : .haltState ∉ kinds) (hk : .kneelState ∉ kinds)
    (hb : g.brake.halt = h.brake.halt) (hs : g.kneel.state = h.kneel.state) : h.Turns g :=
  ⟨.same (.of_emits he hh) hb, .same (.of_emits he hk) hs, .inl hb, .inl hs⟩

theorem of_eq (hc : g.clock = h.clock) (he : g.events = h.events) (hb : g.brake.halt = h.brake.halt)
    (hs : g.kneel.state = h.kneel.state) : h.Turns g :=
  ⟨.same (.silent hc he) hb, .same (.silent hc he) hs, .inl hb, .inl hs⟩

/-- A raise of another kind. -/
theorem raise {kind : EventKind} (hh : .haltState ≠ kind) (hk : .kneelState ≠ kind) (subject : Nat) (value : Int) (h : Hub) :
    h.Turns (h.raise kind subject value) :=
  ⟨.same (.raise_of_ne hh subject value h) rfl, .same (.raise_of_ne hk subject value h) rfl, .inl rfl, .inl rfl⟩
end Hub.Turns

theorem Hub.setKneel_sends (new : KneelState) (h : Hub) : Hub.Sends .kneelState [(0, (new.num : Int))] h (h.setKneel new) := by
  unfold Hub.setKneel
  extract_lets old changed
  have hraised : Hub.Sends .kneelState [(0, (new.num : Int))] h changed :=
    (Hub.Sends.silent (h := h) (g := h.onKneel fun u =>
      if new = .stopped then { u with state := new } else { u with state := new, cause := none, circuit := none, before := none })
      rfl rfl).trans (.raise .kneelState 0 new.num _)
  have hlevel : Hub.Sends .kneelState [] changed ((changed.levellingTakesKneel old new).brakeTakesKneel old new) :=
    .silent (by simp) (by simp)
  exact (hraised.trans_silent hlevel).trans_silent (.of_emits (Hub.judgePermit_emits _) (by decide))

theorem Hub.setKneel_tells {new : KneelState} {h : Hub} (hn : new ≠ h.kneel.state) : h.TellsKneel (h.setKneel new) :=
  .changed (by
    rw [Hub.kneelState, Hub.setKneel_state]
    exact Hub.setKneel_sends new h) (by
    rw [Hub.kneelState, Hub.setKneel_state]
    exact hn)

theorem Hub.setKneel_tellsHalt (new : KneelState) (h : Hub) : h.TellsHalt (h.setKneel new) :=
  .same (.of_emits (Hub.setKneel_emits new h) (by decide)) (Hub.setKneel_halt new h)

theorem Hub.turns_judgePermit (h : Hub) : h.Turns h.judgePermit :=
  .of_emits (Hub.judgePermit_emits h) (by decide) (by decide) (by simp) (by simp)

theorem Hub.turns_autoRaise (h : Hub) : h.Turns h.autoRaise := by
  unfold Hub.autoRaise
  split
  · next hm =>
    have hlow : h.kneel.state = .lowering ∨ h.kneel.state = .knelt := hm.2
    have hne : KneelState.raising ≠ (h.writeTargets .raise).kneel.state := by
      show _ ≠ h.kneel.state
      obtain hk | hk := hlow <;> rw [hk] <;> decide
    have hwrite : ∀ kind, Hub.Sends kind [] h (h.writeTargets .raise) := fun _ => .silent rfl rfl
    refine ⟨?_, ?_, .inl (Hub.setKneel_halt _ _), .inr ⟨hlow, Hub.setKneel_state _ _⟩⟩
    · exact Hub.Tells.trans (.same (hwrite _) rfl) (Hub.setKneel_tellsHalt _ _) (.inl rfl)
    · exact Hub.Tells.trans (.same (hwrite _) rfl) (Hub.setKneel_tells hne) (.inl rfl)
  · exact .refl h

theorem Hub.turns_judgeCondition (h : Hub) : h.Turns h.judgeCondition := by
  unfold Hub.judgeCondition
  extract_lets now changed
  have hchanged : h.Turns changed := .of_eq rfl rfl rfl rfl
  split
  · exact .refl h
  · split
    · exact hchanged.trans (Hub.turns_autoRaise changed)
    · exact hchanged

theorem Hub.turns_raiseRelease (d : Door) (h : Hub) : h.Turns (h.raiseRelease d) := .raise (by decide) (by decide) _ _ h

theorem Hub.turns_setRelease (d : Door) (new : Release) (h : Hub) : h.Turns (h.setRelease d new) := by
  unfold Hub.setRelease
  split
  · exact .refl h
  · extract_lets changed
    have hchanged : h.Turns (changed.driveRelease d (new == .granted)) := .of_eq (by simp [changed]) (by simp [changed]) rfl rfl
    exact ((hchanged.trans (Hub.turns_raiseRelease d _)).trans (Hub.turns_judgeCondition _)).trans (Hub.turns_judgePermit _)

theorem Hub.turns_grantWaiting (h : Hub) : h.Turns h.grantWaiting := by
  unfold Hub.grantWaiting
  refine .foldl (fun g d => ?_) _ h
  split
  · exact Hub.turns_setRelease d _ g
  · exact .refl g

/-- A change of the halt state raises one HALT_STATE, and no KNEEL_STATE (R86). -/
theorem Hub.setHalt_sends (new : HaltState) (h : Hub) : Hub.Sends .haltState [(0, (new.num : Int))] h (h.setHalt new) ∧
    Hub.Sends .kneelState [] h (h.setHalt new) := by
  unfold Hub.setHalt
  extract_lets changed
  obtain ⟨m, hm⟩ : ∃ m, m = h.onBrake fun u => { u with
      halt := new
      applying := if new = .applying then .running 0 else .stopped
      haltFault := if new = .applying then false else u.haltFault } := ⟨_, rfl⟩
  have hmoved : ∀ kind, Hub.Sends kind [] h m := fun _ => .silent (by rw [hm]; rfl) (by rw [hm]; rfl)
  have hchanged : changed = m.raise .haltState 0 new.num := by rw [hm]
  obtain ⟨g, hg, hgranted⟩ : ∃ g, g = (if new = .applied ∧ changed.standing = true then changed.grantWaiting else changed) ∧
      changed.Turns g ∧ changed.Emits releaseKinds g ∧ g.kneel = changed.kneel := by
    refine ⟨_, rfl, ?_⟩
    split
    · exact ⟨Hub.turns_grantWaiting changed, Hub.grantWaiting_emits changed, (Hub.grantWaiting_kneel changed).1⟩
    · exact ⟨.refl _, .refl _, rfl⟩
  obtain ⟨hturns, hemits, hkneel⟩ := hgranted
  rw [← hg]
  have hkneelSends : Hub.Sends .kneelState [] changed g := hturns.kneel.sends_of_same (congrArg Kneel.state hkneel)
  have hjudged : ∀ kind, kind ≠ .movePermit → Hub.Sends kind [] g g.judgePermit := fun kind hk =>
    .of_emits (Hub.judgePermit_emits g) (by simpa using hk)
  constructor
  · have hraised : Hub.Sends .haltState [(0, (new.num : Int))] h changed := by
      rw [hchanged]
      exact (hmoved _).trans (.raise .haltState 0 new.num m)
    exact (hraised.trans_silent (.of_emits hemits (by decide))).trans_silent (hjudged _ (by decide))
  · have hraised : Hub.Sends .kneelState [] h changed := by
      rw [hchanged]
      exact (hmoved _).trans (.raise_of_ne (by decide) 0 new.num m)
    exact (hraised.trans_silent hkneelSends).trans_silent (hjudged _ (by decide))

theorem Hub.setHalt_tells {new : HaltState} {h : Hub} (hn : new ≠ h.brake.halt) :
    h.TellsHalt (h.setHalt new) ∧ h.TellsKneel (h.setHalt new) := by
  have hhalt : (h.setHalt new).haltState = new := by rw [Hub.haltState, Hub.setHalt_brake]
  refine ⟨.changed ?_ (by rw [hhalt]; exact hn), .same (Hub.setHalt_sends new h).2 ?_⟩
  · rw [hhalt]
    exact (Hub.setHalt_sends new h).1
  · exact congrArg Kneel.state (Hub.setHalt_kneel new h).1

theorem Hub.turns_requestApply (h : Hub) : h.Turns h.requestApply := by
  unfold Hub.requestApply
  split
  · next hr =>
    obtain ⟨hhalt, hkneel⟩ := Hub.setHalt_tells (h := h) (new := .applying) (by rw [hr]; decide)
    exact ⟨hhalt, hkneel, .inr ⟨hr, by rw [Hub.setHalt_brake]⟩, .inl (congrArg Kneel.state (Hub.setHalt_kneel _ h).1)⟩
  · exact .refl h

theorem Hub.turns_judgeAutoHalt (h : Hub) : h.Turns h.judgeAutoHalt := by
  unfold Hub.judgeAutoHalt
  split
  · exact Hub.turns_requestApply h
  · exact .refl h

theorem Hub.turns_judgeActivities (h : Hub) : h.Turns h.judgeActivities :=
  .of_eq (by simp) (by simp) (Brake.halt_of_base (Hub.judgeActivities_base h)) (by simp)

theorem Hub.turns_enterStandstill (h : Hub) : h.Turns h.enterStandstill := by
  unfold Hub.enterStandstill
  extract_lets changed granted
  have hchanged : h.Turns changed :=
    (Hub.Turns.of_eq (h := h) (g := h.onSensing fun u => { u with standstill := .yes }) rfl rfl rfl rfl).trans
      (.raise (by decide) (by decide) 0 1 _)
  have hgranted : changed.Turns granted := by
    simp only [granted]
    split
    · exact Hub.turns_grantWaiting changed
    · exact .refl changed
  exact ((hchanged.trans hgranted).trans (Hub.turns_judgeAutoHalt granted)).trans (Hub.turns_judgeActivities _)

theorem Hub.turns_withdrawByMotion (h : Hub) (d : Door) : h.Turns (h.withdrawByMotion d) := by
  unfold Hub.withdrawByMotion
  (repeat' split) <;> first | exact .refl h | exact Hub.turns_setRelease d _ h

/-! ## The door inputs, the orders and an APPLY -/

theorem Hub.turns_onDoor (d : Door) (φ : DoorHold → DoorHold) (h : Hub) : h.Turns (h.onDoor d φ) := .of_eq rfl rfl rfl rfl

theorem Hub.turns_handleActs (d : Door) (h : Hub) : h.Turns (h.handleActs d) := by
  unfold Hub.handleActs
  extract_lets fresh asked moved
  have hasked : h.Turns asked := (Hub.turns_onDoor d (fun x => { x with mark := true }) h).trans (Hub.turns_requestApply _)
  have hmoved : asked.Turns moved := by
    simp only [moved]
    split
    · exact Hub.turns_setRelease d _ asked
    · split
      · exact Hub.turns_raiseRelease d asked
      · exact .refl asked
  exact (hasked.trans hmoved).trans (.raise (by decide) (by decide) _ _ _)

theorem Hub.turns_handleChange (d : Door) (h : Hub) : h.Turns (h.handleChange d) := by
  have hraise : ∀ (φ : DoorHold → DoorHold) (v : Int), h.Turns ((h.onDoor d φ).raise .doorEmergency d.num v) := fun φ v =>
    (Hub.turns_onDoor d φ h).trans (.raise (by decide) (by decide) _ _ _)
  unfold Hub.handleChange
  split
  · refine Hub.Turns.trans ?_ (Hub.turns_judgePermit _)
    split
    · unfold Hub.handleActive
      split
      · exact Hub.turns_handleActs d h
      · exact hraise (fun x => { x with atSpeed := true }) 2
    · exact hraise (fun x => { x with atSpeed := false }) 0
  · exact .refl h

theorem Hub.turns_positionChange (d : Door) (h : Hub) : h.Turns (h.positionChange d) := by
  unfold Hub.positionChange
  extract_lets now changed
  have hchanged : h.Turns changed :=
    ((Hub.turns_onDoor d (fun x => { x with position := now }) h).trans
      (.of_eq (g := (h.onDoor d fun x => { x with position := now }).onDoors fun u => { u with changes := u.changes + 1 })
        rfl rfl rfl rfl)).trans (.raise (by decide) (by decide) _ _ _)
  split
  · exact .refl h
  · split
    · exact ((hchanged.trans (Hub.turns_judgeAutoHalt _)).trans (Hub.turns_judgeCondition _)).trans (Hub.turns_judgePermit _)
    · exact hchanged

theorem Hub.turns_debounceExpiry (d : Door) (i : DoorInput) (h : Hub) : h.Turns (h.debounceExpiry d i) := by
  unfold Hub.debounceExpiry
  extract_lets stopped raw taken
  have hstopped : h.Turns stopped := Hub.turns_onDoor d (fun x => { x with timers := x.timers.set i .stopped }) h
  have htaken : h.Turns taken := hstopped.trans (Hub.turns_onDoor d (fun x => { x with debounced := withLevel x.debounced i raw }) _)
  split
  · exact hstopped
  · cases i with
    | closed | lock => exact htaken.trans (Hub.turns_positionChange d _)
    | handle => exact htaken.trans (Hub.turns_handleChange d _)

theorem Hub.turns_judgeAtSpeed (h : Hub) (d : Door) : h.Turns (h.judgeAtSpeed d) := by
  unfold Hub.judgeAtSpeed
  split
  · exact (Hub.turns_onDoor d (fun x => { x with atSpeed := false }) h).trans (Hub.turns_handleActs d _)
  · exact .refl h

theorem Hub.turns_speedExpiry (dir : Direction) (h : Hub) : h.Turns (h.speedExpiry dir) :=
  (Hub.Turns.of_eq (h := h) (g := (h.onPins fun u => { u with dir := dir }).onSensing (·.closeBucket dir)) rfl rfl rfl rfl).trans
    (.foldl Hub.turns_judgeAtSpeed _ _)

theorem Hub.turns_quietExpiry (h : Hub) : h.Turns h.quietExpiry := by
  unfold Hub.quietExpiry
  extract_lets quiet
  have hquiet : h.Turns quiet := .of_eq rfl rfl rfl rfl
  split
  · exact hquiet
  · exact hquiet.trans (Hub.turns_enterStandstill quiet)

theorem Hub.turns_releaseDoor (mask : DoorMask) (h : Hub) (d : Door) : h.Turns (h.releaseDoor mask d) := by
  unfold Hub.releaseDoor
  split
  · exact Hub.turns_setRelease d _ h
  · exact .refl h

theorem Hub.turns_withdrawDoor (mask : DoorMask) (h : Hub) (d : Door) : h.Turns (h.withdrawDoor mask d) := by
  unfold Hub.withdrawDoor
  split
  · exact (Hub.turns_onDoor d (fun x => { x with mark := false }) h).trans (Hub.turns_setRelease d _ _)
  · exact .refl h

theorem serveRelease_turns (payload : List Byte) (h : Hub) : h.Turns (serveRelease payload h).1 := by
  unfold serveRelease
  (repeat' split) <;>
    first
      | exact .refl h
      | exact .trans (.foldl (Hub.turns_releaseDoor _) _ h) (Hub.turns_requestApply _)

theorem serveWithdraw_turns (payload : List Byte) (h : Hub) : h.Turns (serveWithdraw payload h).1 := by
  unfold serveWithdraw
  split
  · exact .refl h
  · exact .foldl (Hub.turns_withdrawDoor _) _ h

theorem Hub.turns_installEnables (h : Hub) : h.Turns h.installEnables := by
  unfold Hub.installEnables
  extract_lets disabled masked
  have hmasked : h.Turns masked := .of_eq rfl rfl rfl rfl
  have hdisable : ∀ (g : Hub) (d : Door), g.Turns (g.disableDoor d) := fun g d =>
    (Hub.turns_onDoor d (fun x => { x with mark := false, atSpeed := false }) g).trans (Hub.turns_setRelease d _ _)
  exact ((hmasked.trans (.foldl hdisable disabled masked)).trans (Hub.turns_judgeCondition _)).trans (Hub.turns_judgePermit _)

theorem Hub.turns_storeCompletion (code : Byte) (depot : Bool) (h : Hub) : h.Turns (h.storeCompletion code depot) := by
  have hinstall : ∀ g : Hub, g.Turns g.installApply := fun g =>
    (Hub.Turns.of_eq (h := g) (g := ((g.installLoad.clampSteer .a3).clampSteer .a4).formRideTargets) (by simp) (by simp)
      (by simp) (by simp)).trans (Hub.turns_installEnables _)
  unfold Hub.storeCompletion
  split
  · next r _ =>
    split
    · extract_lets pins
      have hpins : h.Turns pins := .of_eq rfl rfl rfl rfl
      split
      · exact hpins.trans (.of_eq (by simp) (by simp) (by simp) (by simp))
      · have hfinish : pins.Turns (pins.finishWork r).1 := by
          obtain ⟨-, -, heq⟩ | ⟨-, heq⟩ := Hub.finishWork_cases r pins
          · rw [heq]; exact hinstall pins
          · rw [heq]; exact .of_eq rfl rfl rfl rfl
        rw [Hub.completeOp_eq]
        exact (hpins.trans hfinish).trans (.of_eq (by simp) (by simp) (by simp) (by simp))
    · exact .refl h
  · exact .refl h


/-! ## A kneel that is stopped -/

/-- Between two moments of one step the kneel unit stays or enters STOPPED, and the change is told (R116, R118). -/
structure Hub.Stops (h g : Hub) : Prop where
  kneel : h.TellsKneel g
  moves : g.kneel.state = h.kneel.state ∨ g.kneel.state = .stopped
  still : h.kneel.state = .stopped → g.kneel.state = .stopped

namespace Hub.Stops
variable {h g f : Hub}

theorem trans (hg : h.Stops g) (gf : g.Stops f) : h.Stops f := by
  refine ⟨hg.kneel.trans gf.kneel ?_, ?_, gf.still ∘ hg.still⟩
  · obtain hsame | hs := hg.moves
    · exact .inl hsame
    · exact .inr ((gf.still hs).trans hs.symm)
  · obtain hsame | hs := hg.moves
    · obtain hsame' | hs' := gf.moves
      · exact .inl (hsame'.trans hsame)
      · exact .inr hs'
    · exact .inr (gf.still hs)

theorem of_emits {kinds : List EventKind} (he : h.Emits kinds g) (hk : .kneelState ∉ kinds) (hs : g.kneel.state = h.kneel.state) :
    h.Stops g := ⟨.same (.of_emits he hk) hs, .inl hs, fun h' => hs.trans h'⟩

theorem refl (h : Hub) : h.Stops h := ⟨.same (.refl h) rfl, .inl rfl, id⟩
end Hub.Stops

theorem Hub.stops_stopKneel (cause : StopCause) (c : Option Circuit) (h : Hub) : h.Stops (h.stopKneel cause c) := by
  by_cases hk : h.kneel.state = .ride ∨ h.kneel.state = .stopped
  · rw [Hub.stopKneel_of_still hk]
    exact .refl h
  · have hstate : (h.stopKneel cause c).kneel.state = .stopped := by
      rw [Hub.stopKneel_state]
      cases hs : h.kneel.state <;> simp [hs] at hk ⊢
    have hset : ∀ φ : Kneel → Kneel, (φ h.kneel).state = h.kneel.state → h.TellsKneel ((h.onKneel φ).setKneel .stopped) :=
      fun φ hφ => Hub.Tells.trans (g := h.onKneel φ) (.same (.silent rfl rfl) hφ)
        (Hub.setKneel_tells (h := h.onKneel φ) fun heq => hk (.inr (hφ.symm.trans heq.symm))) (.inl hφ)
    refine ⟨?_, .inr hstate, fun _ => hstate⟩
    unfold Hub.stopKneel
    split
    case h_4 hs | h_5 hs => simp [hs] at hk
    all_goals exact hset (fun u => { u with cause := some cause, circuit := c, before := some u.state }) rfl

theorem Hub.stops_exclude (cs : List Circuit) (add : Causes → Causes) (h : Hub) : h.Stops (h.exclude cs add) := by
  have hstop : ∀ (g : Hub) (c : Circuit), g.Stops (if g.inScope c then g.stopKneel .exclusion (some c) else g) := fun g c => by
    split
    · exact Hub.stops_stopKneel _ _ g
    · exact .refl g
  have hfold : ∀ (l : List Circuit) (g : Hub),
      g.Stops (l.foldl (fun g c => if g.inScope c then g.stopKneel .exclusion (some c) else g) g) := fun l => by
    induction l with
    | nil => exact .refl
    | cons c l ih => exact fun g => (hstop g c).trans (ih _)
  have hsilent : ∀ {g f : Hub}, f.clock = g.clock → f.events = g.events → f.kneel = g.kneel → g.Stops f := fun hc he hk =>
    ⟨.same (.silent hc he) (congrArg Kneel.state hk), .inl (congrArg Kneel.state hk), fun hs => (congrArg Kneel.state hk).trans hs⟩
  unfold Hub.exclude
  extract_lets newly marked out handed
  have hout : h.Stops out := hsilent (by simp [out, marked, foldl_keeps Hub.clock]) (by simp [out, marked, foldl_keeps Hub.events])
    (by simp [out, marked, foldl_keeps Hub.kneel])
  have hhanded : h.Stops handed := hout.trans (hfold newly out)
  exact hhanded.trans (hsilent (by simp) (by simp) (by simp))

theorem Hub.stops_scanRound (raw : ScanResults) (h : Hub) : h.Stops (h.scanRound raw) := by
  unfold Hub.scanRound
  extract_lets old published new raised lost found levelled
  have hraised : h.Stops raised :=
    .of_emits (.trans (.silent (h' := published) rfl rfl) (Hub.raiseRoundFaults_emits h raw published)) (by decide)
      (by simp [raised, published])
  have hfound : ∀ g : Hub, g.Stops (g.heightsRecovered found) := fun g =>
    ⟨.same (.silent (by simp) (by simp)) (by simp [Hub.kneelState]), .inl (by simp), fun hs => by simpa using hs⟩
  have hlevelled : h.Stops levelled := (hraised.trans (Hub.stops_exclude _ _ _)).trans (hfound _)
  split
  · exact hlevelled.trans (.of_emits (Hub.judgeReservoir_emits _ _) (by decide) (by simp))
  · exact hlevelled

theorem Hub.stops_chainComplete (answers : ChainAnswers) (h : Hub) : h.Stops (h.chainComplete answers) := by
  by_cases hl : ∃ a, answers = .l a
  · obtain ⟨a, rfl⟩ := hl
    refine Hub.completeL_preserves (P := fun g : Hub => h.Stops g) a (fun _ _ => ?_) (fun cs add value g hg => ?_)
      fun cs drop g hg => ?_
    · exact ⟨.same (.silent rfl rfl) rfl, .inl rfl, id⟩
    · exact (hg.trans ⟨.same (.raise_of_ne (kind := .kneelState) (other := .chainFault) (by decide) 1 value g) rfl, .inl rfl, id⟩).trans (Hub.stops_exclude cs add _)
    · exact hg.trans ⟨.same (.silent (by simp) (by simp)) (by simp [Hub.kneelState]), .inl (by simp), fun hs => by simpa using hs⟩
  · have hkneel : (h.chainComplete answers).kneel.state = h.kneel.state :=
      (Hub.chainComplete_alike (fun a ha => hl ⟨a, ha⟩) h).kneel
    refine .of_emits (kinds := [.chainFault]) ?_ (by decide) hkneel
    cases answers with
    | l a => exact absurd ⟨a, rfl⟩ hl
    | b a => exact Hub.completeB_emits a h
    | s a => exact Hub.completeS_emits a h
    | j a => exact Hub.completeJ_emits a h

/-- A loss of standstill stops a kneel; the doors then find it at rest (R116; log entry 9). -/
theorem Hub.stops_leaveStandstill (h : Hub) : h.Stops h.leaveStandstill := by
  unfold Hub.leaveStandstill
  extract_lets changed
  have hchanged : h.Stops changed :=
    ⟨Hub.Tells.trans (g := h.onSensing fun u => { u with standstill := .no }) (.same (.silent rfl rfl) rfl)
      (.same (.raise_of_ne (kind := .kneelState) (other := .standstill) (by decide) 0 2 _) rfl) (.inl rfl), .inl rfl, id⟩
  have hdoors : ∀ g : Hub, g.kneel.state = .ride ∨ g.kneel.state = .stopped → g.Stops (Door.all.foldl Hub.withdrawByMotion g) :=
    fun g hk => by
      have hsame : (Door.all.foldl Hub.withdrawByMotion g).kneel = g.kneel := Hub.foldl_withdrawByMotion_kneel hk
      exact ⟨(Hub.Turns.foldl Hub.turns_withdrawByMotion Door.all g).kneel, .inl (congrArg Kneel.state hsame),
        fun hs => (congrArg Kneel.state hsame).trans hs⟩
  have hactivities : ∀ g : Hub, g.Stops g.judgeActivities := fun g =>
    ⟨(Hub.turns_judgeActivities g).kneel, .inl (by simp), fun hs => by simpa using hs⟩
  refine Hub.Stops.trans ?_ (hactivities _)
  split
  · refine (hchanged.trans (Hub.stops_stopKneel .standstill none changed)).trans (hdoors _ ?_)
    rw [Hub.stopKneel_state]
    cases changed.kneel.state <;> simp
  · exact hchanged

theorem Hub.stops_wheelPulse (dir : Direction) (h : Hub) : h.Stops (h.wheelPulse dir) := by
  have hcounted : h.Stops (h.counted dir) :=
    .of_emits (kinds := [.path]) (.trans (.silent (h' := h.odometry dir) (by simp) (by simp)) (Hub.pathIncrement_emits _ _ _))
      (by decide) (by simp)
  rw [Hub.wheelPulse_eq]
  split
  · exact hcounted.trans (Hub.stops_leaveStandstill _)
  · exact hcounted

theorem Hub.wheelPulse_halt (dir : Direction) (h : Hub) : (h.wheelPulse dir).brake.halt = h.brake.halt := by
  rw [Hub.wheelPulse_eq]
  split
  · rw [Hub.leaveStandstill_halt]; simp
  · simp

/-! ## The kneel unit's own changes -/

theorem Hub.judgeCompletion_tells (h : Hub) : h.TellsKneel h.judgeCompletion ∧ h.TellsHalt h.judgeCompletion := by
  have hcount : ∀ {new : KneelState}, new ≠ h.kneel.state →
      h.TellsKneel ((h.onKneel fun u => { u with completions := u.completions + 1 }).setKneel new) ∧
        h.TellsHalt ((h.onKneel fun u => { u with completions := u.completions + 1 }).setKneel new) := fun hn =>
    ⟨Hub.Tells.trans (g := h.onKneel fun u => { u with completions := u.completions + 1 }) (.same (.silent rfl rfl) rfl)
      (Hub.setKneel_tells hn) (.inl rfl),
      Hub.Tells.trans (g := h.onKneel fun u => { u with completions := u.completions + 1 }) (.same (.silent rfl rfl) rfl)
        (Hub.setKneel_tellsHalt _ _) (.inl rfl)⟩
  have hsame : h.TellsKneel h ∧ h.TellsHalt h := ⟨.same (.refl h) rfl, .same (.refl h) rfl⟩
  unfold Hub.judgeCompletion
  split
  · next hk =>
    split
    · exact hcount (by rw [hk]; decide)
    · exact hsame
  · next hk =>
    split
    · exact hcount (by rw [hk]; decide)
    · exact hsame
  all_goals exact hsame

theorem Hub.levellingWork_emits (h : Hub) : h.Emits [.slowFill] h.levellingWork := by
  unfold Hub.levellingWork
  refine Hub.Emits.trans (Hub.levellingStops_emits h) (.silent ?_ ?_)
  · simp [foldl_keeps Hub.clock]
  · simp [foldl_keeps Hub.events]

theorem Hub.levellingPeriod_tells (h : Hub) : h.TellsKneel h.levellingPeriod ∧ h.TellsHalt h.levellingPeriod := by
  have hwork := h.levellingWork_alike
  obtain ⟨hkneel, hhalt⟩ := Hub.judgeCompletion_tells h.levellingWork
  have hend : ∀ g : Hub, h.TellsKneel g → h.TellsHalt g →
      h.TellsKneel (g.onLevel fun u => { u with periods := u.periods + 1, timer := .started }) ∧
        h.TellsHalt (g.onLevel fun u => { u with periods := u.periods + 1, timer := .started }) := fun g hk hh =>
    ⟨Hub.Tells.trans hk (.same (.silent rfl rfl) rfl) (.inr rfl), Hub.Tells.trans hh (.same (.silent rfl rfl) rfl) (.inr rfl)⟩
  rw [Hub.levellingPeriod_eq]
  exact hend _ (Hub.Tells.trans (.same (.of_emits h.levellingWork_emits (by decide)) hwork.kneel) hkneel (.inl hwork.kneel))
    (Hub.Tells.trans (.same (.of_emits h.levellingWork_emits (by decide)) hwork.halt) hhalt (.inl hwork.halt))

/-- An order of the kneel unit that is taken changes its state (R111, R112). -/
theorem Hub.writeTargets_setKneel_tells {source : TargetSource} {new : KneelState} {h : Hub} (hn : new ≠ h.kneel.state) :
    h.TellsKneel ((h.writeTargets source).setKneel new) ∧ h.TellsHalt ((h.writeTargets source).setKneel new) :=
  ⟨Hub.Tells.trans (g := h.writeTargets source) (.same (.silent rfl rfl) rfl) (Hub.setKneel_tells hn) (.inl rfl),
    Hub.Tells.trans (g := h.writeTargets source) (.same (.silent rfl rfl) rfl) (Hub.setKneel_tellsHalt _ _) (.inl rfl)⟩

theorem serveKneel_tells (h : Hub) : h.TellsKneel (serveKneel h).1 ∧ h.TellsHalt (serveKneel h).1 := by
  have hsame : h.TellsKneel h ∧ h.TellsHalt h := ⟨.same (.refl h) rfl, .same (.refl h) rfl⟩
  by_cases hk : h.kneel.state = .lowering ∨ h.kneel.state = .knelt
  · rw [serveKneel_of_resting hk]; exact hsame
  · rw [serveKneel_of_not hk]
    split
    · exact hsame
    · split
      · exact hsame
      · split
        · exact hsame
        · exact Hub.writeTargets_setKneel_tells fun heq => hk (.inl heq.symm)

theorem serveRaise_tells (h : Hub) : h.TellsKneel (serveRaise h).1 ∧ h.TellsHalt (serveRaise h).1 := by
  have hsame : h.TellsKneel h ∧ h.TellsHalt h := ⟨.same (.refl h) rfl, .same (.refl h) rfl⟩
  unfold serveRaise
  split
  case h_1 | h_2 => exact hsame
  case h_3 hk | h_4 hk | h_5 hk => exact Hub.writeTargets_setKneel_tells (by rw [hk]; decide)


/-! ## The move permit -/

def Hub.movePermit (h : Hub) : Bool := h.doors.permit
def permitNum (b : Bool) : Int := if b then 1 else 0

abbrev Hub.TellsPermit : Hub → Hub → Prop := Hub.Tells .movePermit Hub.movePermit permitNum

/-- An active move permit is one that R136 grants. -/
def Hub.PermitSound (h : Hub) : Prop := h.doors.permit = true → h.permitHolds = true

/-- Between two moments of one step the move permit stays or falls, and the change is told (R136). -/
structure Hub.Falls (h g : Hub) : Prop where
  tells : h.TellsPermit g
  down  : g.doors.permit = true → h.doors.permit = true

/-- It stays or rises, and is then one that R136 grants. -/
structure Hub.Rises (h g : Hub) : Prop where
  tells : h.TellsPermit g
  up    : h.doors.permit = true → g.doors.permit = true
  sound : g.PermitSound

theorem Hub.DoorInv.permitSound {h : Hub} (hi : h.DoorInv) : h.PermitSound := by
  intro hp
  cases hl : h.clock.loaded with
  | true => exact (hi.permit hl).symm.trans hp
  | false => exact absurd ((hi.before hl).1.symm.trans hp) nofun

namespace Hub.Falls
variable {h g f : Hub}

theorem refl (h : Hub) : h.Falls h := ⟨.same (.refl h) rfl, id⟩

theorem trans (hg : h.Falls g) (gf : g.Falls f) : h.Falls f := by
  refine ⟨hg.tells.trans gf.tells ?_, hg.down ∘ gf.down⟩
  cases hp : g.doors.permit with
  | true => exact .inl (hp.trans (hg.down hp).symm)
  | false =>
    refine .inr (Eq.trans ?_ hp.symm)
    have := gf.down
    cases hf : f.doors.permit with
    | true => exact absurd (hp.symm.trans (gf.down hf)) nofun
    | false => exact hf

theorem of_emits {kinds : List EventKind} (he : h.Emits kinds g) (hk : .movePermit ∉ kinds) (hp : g.doors.permit = h.doors.permit) :
    h.Falls g := ⟨.same (.of_emits he hk) hp, fun hg => hp.symm.trans hg⟩

theorem of_eq (hc : g.clock = h.clock) (he : g.events = h.events) (hp : g.doors.permit = h.doors.permit) : h.Falls g :=
  ⟨.same (.silent hc he) hp, fun hg => hp.symm.trans hg⟩

theorem raise {kind : EventKind} (hk : .movePermit ≠ kind) (subject : Nat) (value : Int) (h : Hub) :
    h.Falls (h.raise kind subject value) := ⟨.same (.raise_of_ne hk subject value h) rfl, id⟩

theorem foldl {α : Type} {φ : Hub → α → Hub} (hf : ∀ (h : Hub) (x : α), h.Falls (φ h x)) (l : List α) (h : Hub) :
    h.Falls (l.foldl φ h) := by
  induction l generalizing h with
  | nil => exact refl h
  | cons x l ih => exact (hf h x).trans (ih _)

/-- From an inactive permit nothing falls. -/
theorem rises (hf : h.Falls g) (hp : h.doors.permit = false) : h.Rises g :=
  ⟨hf.tells, fun ht => absurd (hp.symm.trans ht) nofun, fun ht => absurd (hp.symm.trans (hf.down ht)) nofun⟩
end Hub.Falls

namespace Hub.Rises
variable {h g f : Hub}

theorem refl (hs : h.PermitSound) : h.Rises h := ⟨.same (.refl h) rfl, id, hs⟩

theorem trans (hg : h.Rises g) (gf : g.Rises f) : h.Rises f := by
  refine ⟨hg.tells.trans gf.tells ?_, gf.up ∘ hg.up, gf.sound⟩
  cases hp : g.doors.permit with
  | true => exact .inr ((gf.up hp).trans hp.symm)
  | false =>
    refine .inl (Eq.trans hp ?_)
    cases hh : h.doors.permit with
    | true => exact absurd (hp.symm.trans (hg.up hh)) nofun
    | false => exact hh.symm

theorem foldl {α : Type} {φ : Hub → α → Hub} (hf : ∀ (h : Hub) (x : α), h.PermitSound → h.Rises (φ h x)) (l : List α) {h : Hub}
    (hs : h.PermitSound) : h.Rises (l.foldl φ h) := by
  induction l generalizing h with
  | nil => exact refl hs
  | cons x l ih => exact (hf h x hs).trans (ih (hf h x hs).sound)

/-- What R136 looks at stays, and no event of the kind is raised. -/
theorem of_same (hs : h.PermitSound) (he : Hub.Sends .movePermit [] h g) (hp : g.doors.permit = h.doors.permit)
    (hh : g.permitHolds = h.permitHolds) : h.Rises g :=
  ⟨.same he hp, fun ht => hp.trans ht, fun ht => hh.trans (hs (hp.symm.trans ht))⟩
end Hub.Rises

theorem Hub.judgePermit_tells (h : Hub) : h.TellsPermit h.judgePermit := by
  unfold Hub.judgePermit
  split
  · exact .same (.refl h) rfl
  · next hne =>
    obtain ⟨m, hm⟩ : ∃ m, m = (h.onDoors fun u => { u with permit := h.permitHolds }).drivePermit h.permitHolds := ⟨_, rfl⟩
    have hx : (m.raise .movePermit 0 (if h.permitHolds then 1 else 0)).movePermit = h.permitHolds := by rw [hm]; rfl
    rw [← hm]
    refine .changed ?_ (by rw [hx]; exact Ne.symm hne)
    rw [hx]
    exact (Hub.Sends.silent (h := h) (g := m) (by rw [hm]; rfl) (by rw [hm]; rfl)).trans (.raise .movePermit 0 _ m)

theorem Hub.falls_judgePermit {h : Hub} (hp : h.permitHolds = false) : h.Falls h.judgePermit :=
  ⟨h.judgePermit_tells, fun ht => by simp [hp] at ht⟩

/-- A permit judged after a stretch that leaves it inactive. -/
theorem Hub.rises_judgePermit {h g : Hub} (hg : h.Falls g) (hp : h.doors.permit = false) : h.Rises g.judgePermit := by
  have hfalse : g.doors.permit = false := by
    cases ht : g.doors.permit with
    | true => exact absurd (hp.symm.trans (hg.down ht)) nofun
    | false => rfl
  exact ⟨hg.tells.trans g.judgePermit_tells (.inl (hfalse.trans hp.symm)), fun ht => absurd (hp.symm.trans ht) nofun,
    fun ht => (g.judgePermit_judged.symm.trans ht)⟩

theorem Hub.permitHolds_of_kneel {h : Hub} (hk : h.kneel.state ≠ .ride) : h.permitHolds = false := by
  simp [Hub.permitHolds, hk]

theorem Hub.permitHolds_of_release {h : Hub} {d : Door} (hd : (h.door d).release ≠ .withdrawn) : h.permitHolds = false := by
  simp [Hub.permitHolds, Hub.releasesWithdrawn_of_door hd]

/-- A change of the kneel state tells the permit once (R117). -/
theorem Hub.setKneel_tellsPermit (new : KneelState) (h : Hub) : h.TellsPermit (h.setKneel new) ∧
    (new ≠ .ride → h.Falls (h.setKneel new)) := by
  obtain ⟨m, hm, hkneel, hpermit, hsends⟩ : ∃ m : Hub, h.setKneel new = m.judgePermit ∧ m.kneel.state = new ∧
      m.doors.permit = h.doors.permit ∧ Hub.Sends .movePermit [] h m := by
    unfold Hub.setKneel
    extract_lets old changed
    refine ⟨_, rfl, ?_, by simp [changed], ?_⟩
    · have hstate := h.setKneel_state new
      unfold Hub.setKneel at hstate
      simpa only [Hub.judgePermit_kneel] using hstate
    · have hchanged : Hub.Sends .movePermit [] h changed :=
        (Hub.Sends.silent (h := h) (g := h.onKneel fun u =>
          if new = .stopped then { u with state := new } else { u with state := new, cause := none, circuit := none, before := none })
          rfl rfl).trans (.raise_of_ne (by decide) 0 new.num _)
      exact hchanged.trans (.silent (by simp) (by simp))
  have htells : h.TellsPermit (h.setKneel new) := by
    rw [hm]
    exact Hub.Tells.trans (.same hsends hpermit) m.judgePermit_tells (.inl hpermit)
  refine ⟨htells, fun hr => ⟨htells, fun ht => ?_⟩⟩
  rw [hm, Hub.judgePermit_doors] at ht
  exact absurd ((Hub.permitHolds_of_kneel (by rw [hkneel]; exact hr)).symm.trans ht) nofun

theorem Hub.falls_autoRaise (h : Hub) : h.Falls h.autoRaise := by
  unfold Hub.autoRaise
  split
  · exact (Hub.Falls.of_eq (h := h) (g := h.writeTargets .raise) rfl rfl rfl).trans ((Hub.setKneel_tellsPermit .raising _).2 nofun)
  · exact .refl h

theorem Hub.falls_judgeCondition (h : Hub) : h.Falls h.judgeCondition := by
  unfold Hub.judgeCondition
  extract_lets now changed
  have hchanged : h.Falls changed := .of_eq rfl rfl rfl
  split
  · exact .refl h
  · split
    · exact hchanged.trans (Hub.falls_autoRaise changed)
    · exact hchanged

theorem Hub.falls_raiseRelease (d : Door) (h : Hub) : h.Falls (h.raiseRelease d) := .raise (by decide) _ _ h

/-- A release changed, before the permit is judged. -/
theorem Hub.setRelease_split {h : Hub} {d : Door} {new : Release} (hne : (h.door d).release ≠ new) :
    ∃ m : Hub, h.setRelease d new = m.judgePermit ∧ h.Falls m ∧ (m.door d).release = new ∧
      (m.brake = h.brake) := by
  refine ⟨((((h.onDoor d fun x => { x with release := new }).onDoors fun u =>
      { u with changes := u.changes + 1 }).driveRelease d (new == .granted)).raiseRelease d).judgeCondition, if_neg hne, ?_, ?_, ?_⟩
  · refine Hub.Falls.trans (g := (((h.onDoor d fun x => { x with release := new }).onDoors fun u =>
      { u with changes := u.changes + 1 }).driveRelease d (new == .granted)).raiseRelease d) ?_ (Hub.falls_judgeCondition _)
    exact (Hub.Falls.of_eq (h := h) (g := ((h.onDoor d fun x => { x with release := new }).onDoors fun u =>
      { u with changes := u.changes + 1 }).driveRelease d (new == .granted)) rfl rfl rfl).trans (Hub.falls_raiseRelease d _)
  · simp [Hub.raiseRelease, Hub.door]
  · simp [Hub.raiseRelease]

theorem Hub.falls_setRelease {d : Door} {new : Release} {h : Hub} (hn : new ≠ .withdrawn ∨ h.brake.halt ≠ .released) :
    h.Falls (h.setRelease d new) := by
  by_cases hne : (h.door d).release = new
  · rw [show h.setRelease d new = h from if_pos hne]
    exact .refl h
  · obtain ⟨m, heq, hm, hdoor, hbrake⟩ := Hub.setRelease_split hne
    rw [heq]
    refine hm.trans (Hub.falls_judgePermit ?_)
    obtain hn | hb := hn
    · exact Hub.permitHolds_of_release (by rw [hdoor]; exact hn)
    · exact Hub.permitHolds_of_halt (by rw [hbrake]; exact hb)

theorem Hub.rises_setRelease {h : Hub} (hs : h.PermitSound) (d : Door) (new : Release) (hw : new = .withdrawn ∨ (h.door d).release ≠ .withdrawn) :
    h.Rises (h.setRelease d new) := by
  by_cases hne : (h.door d).release = new
  · rw [show h.setRelease d new = h from if_pos hne]
    exact .refl hs
  · obtain ⟨m, heq, hm, -, -⟩ := Hub.setRelease_split hne
    have hmoved : (h.door d).release ≠ .withdrawn := hw.elim (fun hw hr => hne (hr.trans hw.symm)) id
    rw [heq]
    refine Hub.rises_judgePermit hm ?_
    cases hp : h.doors.permit with
    | true => exact absurd ((Hub.permitHolds_of_release hmoved).symm.trans (hs hp)) nofun
    | false => rfl

theorem Hub.falls_grantWaiting (h : Hub) : h.Falls h.grantWaiting := by
  unfold Hub.grantWaiting
  refine .foldl (fun g d => ?_) _ h
  split
  · exact Hub.falls_setRelease (.inl nofun)
  · exact .refl g

/-- A change of the halt state tells the permit once (R81, R136). -/
theorem Hub.setHalt_tellsPermit (new : HaltState) (h : Hub) : h.TellsPermit (h.setHalt new) ∧
    (new ≠ .released → h.Falls (h.setHalt new)) := by
  unfold Hub.setHalt
  extract_lets changed
  have hchanged : h.Falls changed :=
    (Hub.Falls.of_eq (h := h) (g := h.onBrake fun u => { u with
      halt := new
      applying := if new = .applying then .running 0 else .stopped
      haltFault := if new = .applying then false else u.haltFault }) rfl rfl rfl).trans (.raise (by decide) 0 new.num _)
  by_cases hg : new = .applied ∧ changed.standing = true
  · rw [if_pos hg]
    have hhalt : changed.grantWaiting.brake.halt ≠ .released := by
      rw [Hub.grantWaiting_brake]
      show new ≠ .released
      rw [hg.1]; decide
    have hfalls := (hchanged.trans (Hub.falls_grantWaiting changed)).trans (Hub.falls_judgePermit (Hub.permitHolds_of_halt hhalt))
    exact ⟨hfalls.tells, fun _ => hfalls⟩
  · rw [if_neg hg]
    refine ⟨hchanged.tells.trans changed.judgePermit_tells (.inl rfl), fun hr => ?_⟩
    exact hchanged.trans (Hub.falls_judgePermit (Hub.permitHolds_of_halt (show changed.brake.halt ≠ _ from hr)))

theorem Hub.falls_requestApply (h : Hub) : h.Falls h.requestApply := by
  unfold Hub.requestApply
  split
  · exact (Hub.setHalt_tellsPermit .applying h).2 nofun
  · exact .refl h

theorem Hub.falls_judgeAutoHalt (h : Hub) : h.Falls h.judgeAutoHalt := by
  unfold Hub.judgeAutoHalt
  split
  · exact Hub.falls_requestApply h
  · exact .refl h

theorem Hub.falls_enterStandstill (h : Hub) : h.Falls h.enterStandstill := by
  unfold Hub.enterStandstill
  extract_lets changed granted
  have hchanged : h.Falls changed :=
    (Hub.Falls.of_eq (h := h) (g := h.onSensing fun u => { u with standstill := .yes }) rfl rfl rfl).trans (.raise (by decide) 0 1 _)
  have hgranted : changed.Falls granted := by
    simp only [granted]
    split
    · exact Hub.falls_grantWaiting changed
    · exact .refl changed
  exact ((hchanged.trans hgranted).trans (Hub.falls_judgeAutoHalt granted)).trans (.of_eq (by simp) (by simp) (by simp))

theorem Hub.falls_onDoor (d : Door) (φ : DoorHold → DoorHold) (h : Hub) : h.Falls (h.onDoor d φ) := .of_eq rfl rfl rfl

theorem Hub.falls_handleActs (d : Door) (h : Hub) : h.Falls (h.handleActs d) := by
  unfold Hub.handleActs
  extract_lets fresh asked moved
  have hasked : h.Falls asked := (Hub.falls_onDoor d (fun x => { x with mark := true }) h).trans (Hub.falls_requestApply _)
  have hmoved : asked.Falls moved := by
    simp only [moved]
    split
    · exact Hub.falls_setRelease (.inl asked.handleRelease_ne)
    · split
      · exact Hub.falls_raiseRelease d asked
      · exact .refl asked
  exact (hasked.trans hmoved).trans (.raise (by decide) _ _ _)

theorem Hub.falls_speedExpiry (dir : Direction) (h : Hub) : h.Falls (h.speedExpiry dir) := by
  have hstep : ∀ (g : Hub) (d : Door), g.Falls (g.judgeAtSpeed d) := fun g d => by
    unfold Hub.judgeAtSpeed
    split
    · exact (Hub.falls_onDoor d (fun x => { x with atSpeed := false }) g).trans (Hub.falls_handleActs d _)
    · exact .refl g
  exact (Hub.Falls.of_eq (h := h) (g := (h.onPins fun u => { u with dir := dir }).onSensing (·.closeBucket dir)) rfl rfl rfl).trans
    (.foldl hstep _ _)

theorem Hub.falls_quietExpiry (h : Hub) : h.Falls h.quietExpiry := by
  unfold Hub.quietExpiry
  extract_lets quiet
  have hquiet : h.Falls quiet := .of_eq rfl rfl rfl
  split
  · exact hquiet
  · exact hquiet.trans (Hub.falls_enterStandstill quiet)

theorem serveRelease_falls (payload : List Byte) (h : Hub) : h.Falls (serveRelease payload h).1 := by
  have hstep : ∀ (mask : DoorMask) (g : Hub) (d : Door), g.Falls (g.releaseDoor mask d) := fun mask g d => by
    unfold Hub.releaseDoor
    split
    · exact Hub.falls_setRelease (.inl (by split <;> decide))
    · exact .refl g
  unfold serveRelease
  (repeat' split) <;>
    first
      | exact .refl h
      | exact .trans (.foldl (hstep _) _ h) (Hub.falls_requestApply _)

/-- A mark has no part in the permit (R136). -/
theorem Hub.permitHolds_onDoor {φ : DoorHold → DoorHold} {d : Door} {h : Hub} (hen : (φ (h.door d)).enabled = (h.door d).enabled)
    (hpos : (φ (h.door d)).position = (h.door d).position) (hrel : (φ (h.door d)).release = (h.door d).release)
    (hha : (φ (h.door d)).debounced.handle = (h.door d).debounced.handle) : (h.onDoor d φ).permitHolds = h.permitHolds := by
  have hdoor : ∀ x, ((h.onDoor d φ).door x).enabled = (h.door x).enabled ∧ ((h.onDoor d φ).door x).position = (h.door x).position ∧
      ((h.onDoor d φ).door x).release = (h.door x).release ∧
      ((h.onDoor d φ).door x).debounced.handle = (h.door x).debounced.handle := fun x => by
    rw [Hub.door_onDoor]
    split
    · next heq => rw [heq]; exact ⟨hen, hpos, hrel, hha⟩
    · exact ⟨rfl, rfl, rfl, rfl⟩
  have hunits : (h.onDoor d φ).kneel = h.kneel ∧ (h.onDoor d φ).brake = h.brake := ⟨rfl, rfl⟩
  simp only [Hub.permitHolds, Hub.doorsLocked, Hub.releasesWithdrawn, Hub.handlesAtRest, hdoor, hunits]

theorem Hub.rises_withdrawDoor (mask : DoorMask) (h : Hub) (d : Door) (hs : h.PermitSound) : h.Rises (h.withdrawDoor mask d) := by
  unfold Hub.withdrawDoor
  split
  · have hmark : h.Rises (h.onDoor d fun x => { x with mark := false }) :=
      .of_same hs (.silent rfl rfl) rfl (Hub.permitHolds_onDoor rfl rfl rfl rfl)
    exact hmark.trans (Hub.rises_setRelease hmark.sound d _ (.inl rfl))
  · exact .refl hs

theorem serveWithdraw_rises (payload : List Byte) (h : Hub) (hs : h.PermitSound) : h.Rises (serveWithdraw payload h).1 := by
  unfold serveWithdraw
  split
  · exact .refl hs
  · exact .foldl (Hub.rises_withdrawDoor _) _ hs

theorem Hub.rises_withdrawByMotion (h : Hub) (d : Door) (hs : h.PermitSound) : h.Rises (h.withdrawByMotion d) := by
  unfold Hub.withdrawByMotion
  split
  · split
    · exact .refl hs
    · exact .refl hs
    · next hrel _ => exact Hub.rises_setRelease hs d _ (.inr (by rw [hrel]; decide))
    · exact Hub.rises_setRelease hs d _ (.inl rfl)
  · exact .refl hs

theorem Hub.falls_stopKneel (cause : StopCause) (c : Option Circuit) (h : Hub) : h.Falls (h.stopKneel cause c) := by
  have hset : ∀ φ : Kneel → Kneel, h.Falls ((h.onKneel φ).setKneel .stopped) := fun φ =>
    (Hub.Falls.of_eq (h := h) (g := h.onKneel φ) rfl rfl rfl).trans ((Hub.setKneel_tellsPermit .stopped _).2 nofun)
  unfold Hub.stopKneel
  split
  case h_4 | h_5 => exact .refl h
  all_goals exact hset fun u => { u with cause := some cause, circuit := c, before := some u.state }

/-- A kneel in progress has the permit inactive already. -/
theorem Hub.rises_stopKneel {h : Hub} (hs : h.PermitSound) (cause : StopCause) (c : Option Circuit) : h.Rises (h.stopKneel cause c) := by
  by_cases hk : h.kneel.state = .ride ∨ h.kneel.state = .stopped
  · rw [Hub.stopKneel_of_still hk]
    exact .refl hs
  · refine (Hub.falls_stopKneel cause c h).rises ?_
    cases hp : h.doors.permit with
    | true => exact absurd ((Hub.permitHolds_of_kneel fun hr => hk (.inl hr)).symm.trans (hs hp)) nofun
    | false => rfl

/-- A loss of standstill: a kneel in progress has the permit inactive already (R116, R130, R136). -/
theorem Hub.rises_leaveStandstill {h : Hub} (hs : h.PermitSound) : h.Rises h.leaveStandstill := by
  unfold Hub.leaveStandstill
  extract_lets changed
  have hchanged : h.Rises changed :=
    (Hub.Rises.of_same (g := h.onSensing fun u => { u with standstill := .no }) hs (.silent rfl rfl) rfl rfl).trans
      (.of_same hs (.raise_of_ne (by decide) 0 2 _) rfl rfl)
  have hactivities : ∀ g : Hub, g.PermitSound → g.Rises g.judgeActivities := fun g hg =>
    .of_same hg (.silent (by simp) (by simp)) (by simp)
      (Hub.permitHolds_congr (by simp) (by simp) (Brake.halt_of_base (Hub.judgeActivities_base g)))
  have hmoved : ∀ {g : Hub}, h.Rises g → h.Rises g.judgeActivities := fun hg => hg.trans (hactivities _ hg.sound)
  refine hmoved ?_
  split
  · have hstopped := hchanged.trans (Hub.rises_stopKneel hchanged.sound .standstill none)
    exact hstopped.trans (.foldl Hub.rises_withdrawByMotion _ hstopped.sound)
  · exact hchanged

theorem Hub.wheelPulse_tellsPermit (dir : Direction) {h : Hub} (hs : h.PermitSound) : h.TellsPermit (h.wheelPulse dir) := by
  have hcounted : h.Rises (h.counted dir) :=
    .of_same hs ((Hub.Sends.silent (g := h.odometry dir) (by simp) (by simp)).trans
      (.of_emits (Hub.pathIncrement_emits _ _ _) (by decide))) (by simp)
      (Hub.permitHolds_congr (by simp) (by simp) (by simp))
  rw [Hub.wheelPulse_eq]
  split
  · exact (hcounted.trans (Hub.rises_leaveStandstill hcounted.sound)).tells
  · exact hcounted.tells


theorem Hub.falls_exclude (cs : List Circuit) (add : Causes → Causes) (h : Hub) : h.Falls (h.exclude cs add) := by
  have hstop : ∀ (g : Hub) (c : Circuit), g.Falls (if g.inScope c then g.stopKneel .exclusion (some c) else g) := fun g c => by
    split
    · exact Hub.falls_stopKneel _ _ g
    · exact .refl g
  unfold Hub.exclude
  extract_lets newly marked out handed
  have hout : h.Falls out := .of_eq (by simp [out, marked, foldl_keeps Hub.clock]) (by simp [out, marked, foldl_keeps Hub.events])
    (by simp [out, marked, foldl_keeps Hub.doors])
  have hhanded : h.Falls handed := hout.trans (.foldl hstop newly out)
  exact hhanded.trans (.of_eq (by simp) (by simp) (by simp))

theorem Hub.falls_scanRound (raw : ScanResults) (h : Hub) : h.Falls (h.scanRound raw) := by
  unfold Hub.scanRound
  extract_lets old published new raised lost found levelled
  have hraised : h.Falls raised :=
    .of_emits (.trans (.silent (h' := published) rfl rfl) (Hub.raiseRoundFaults_emits h raw published)) (by decide)
      (by simp [raised, published])
  have hfound : ∀ g : Hub, g.Falls (g.heightsRecovered found) := fun g => .of_eq (by simp) (by simp) (by simp)
  have hlevelled : h.Falls levelled := (hraised.trans (Hub.falls_exclude _ _ _)).trans (hfound _)
  split
  · exact hlevelled.trans (.of_emits (Hub.judgeReservoir_emits _ _) (by decide) (by simp))
  · exact hlevelled

theorem Hub.falls_chainComplete (answers : ChainAnswers) (h : Hub) : h.Falls (h.chainComplete answers) := by
  by_cases hl : ∃ a, answers = .l a
  · obtain ⟨a, rfl⟩ := hl
    refine Hub.completeL_preserves (P := fun g : Hub => h.Falls g) a (fun _ _ => .of_eq rfl rfl rfl) (fun cs add value g hg => ?_)
      fun cs drop g hg => hg.trans (.of_eq (by simp) (by simp) (by simp))
    exact (hg.trans (.raise (kind := .chainFault) (by decide) 1 value g)).trans (Hub.falls_exclude cs add _)
  · have hdoors := (Hub.chainComplete_alike (fun a ha => hl ⟨a, ha⟩) h).doors
    refine .of_emits (kinds := [.chainFault]) ?_ (by decide) (congrArg DoorUnit.permit hdoors)
    cases answers with
    | l a => exact absurd ⟨a, rfl⟩ hl
    | b a => exact Hub.completeB_emits a h
    | s a => exact Hub.completeS_emits a h
    | j a => exact Hub.completeJ_emits a h

theorem Hub.levellingPeriod_tellsPermit (h : Hub) : h.TellsPermit h.levellingPeriod := by
  have hwork := h.levellingWork_alike
  have hpermit : h.levellingWork.doors.permit = h.doors.permit := congrArg DoorUnit.permit hwork.doors
  have hcount : ∀ (new : KneelState) (g : Hub),
      g.TellsPermit ((g.onKneel fun u => { u with completions := u.completions + 1 }).setKneel new) := fun new g =>
    Hub.Tells.trans (g := g.onKneel fun u => { u with completions := u.completions + 1 }) (.same (.silent rfl rfl) rfl)
      (Hub.setKneel_tellsPermit new _).1 (.inl rfl)
  have hjudge : ∀ g : Hub, g.TellsPermit g.judgeCompletion := fun g => by
    unfold Hub.judgeCompletion
    (repeat' split) <;> first | exact .same (.refl g) rfl | exact hcount _ g
  have hend : ∀ g : Hub, h.TellsPermit g →
      h.TellsPermit (g.onLevel fun u => { u with periods := u.periods + 1, timer := .started }) := fun g hg =>
    Hub.Tells.trans hg (.same (.silent rfl rfl) rfl) (.inr rfl)
  rw [Hub.levellingPeriod_eq]
  exact hend _ (Hub.Tells.trans (.same (.of_emits h.levellingWork_emits (by decide)) hpermit) (hjudge _) (.inl hpermit))

/-! ## The brake period -/

/-- The halt confirmation applies the halt brake at most, and tells it (R84, R86). -/
theorem Hub.confirmHalt_tells (h : Hub) : h.TellsHalt h.confirmHalt ∧ h.TellsKneel h.confirmHalt ∧ h.Falls h.confirmHalt ∧
    h.confirmHalt.kneel = h.kneel ∧ (h.confirmHalt.brake.halt = h.brake.halt ∨
      (h.brake.halt = .applying ∧ h.confirmHalt.brake.halt = .applied)) := by
  unfold Hub.confirmHalt
  split
  · next ha =>
    split
    · obtain ⟨hhalt, hkneel⟩ := Hub.setHalt_tells (h := h) (new := .applied) (by rw [ha]; decide)
      exact ⟨hhalt, hkneel, (Hub.setHalt_tellsPermit .applied h).2 nofun, (Hub.setHalt_kneel .applied h).1,
        .inr ⟨ha, by rw [Hub.setHalt_brake]⟩⟩
    · next k _ =>
      extract_lets time timed
      have htimed : ∀ kind, Hub.Sends kind [] h timed := fun _ => .silent rfl rfl
      split
      · have hfault : ∀ kind, kind ≠ .haltFault →
            Hub.Sends kind [] h ((timed.onBrake fun u => { u with haltFault := true }).raise .haltFault 0 k.num) := fun kind hk =>
          ((htimed kind).trans (.silent (g := timed.onBrake fun u => { u with haltFault := true }) rfl rfl)).trans
            (.raise_of_ne hk 0 _ _)
        exact ⟨.same (hfault _ (by decide)) rfl, .same (hfault _ (by decide)) rfl, ⟨.same (hfault _ (by decide)) rfl, id⟩, rfl, .inl rfl⟩
      · exact ⟨.same (htimed _) rfl, .same (htimed _) rfl, ⟨.same (htimed _) rfl, id⟩, rfl, .inl rfl⟩
  · exact ⟨.same (.refl h) rfl, .same (.refl h) rfl, .refl h, rfl, .inl rfl⟩

theorem Hub.brakePeriod_tells (h : Hub) : h.TellsHalt h.brakePeriod ∧ h.TellsKneel h.brakePeriod ∧ h.Falls h.brakePeriod ∧
    (h.brakePeriod.brake.halt = h.brake.halt ∨ (h.brake.halt = .applying ∧ h.brakePeriod.brake.halt = .applied)) := by
  obtain ⟨g, hg⟩ : ∃ g, g = h.takeDemands.setModes.runLoads.formService := ⟨_, rfl⟩
  have hbefore : h.ReadsAlike g := hg ▸ h.brakeLoads_alike
  have hemits : h.Emits [.demandStale] g := by
    rw [hg]
    exact (Hub.takeDemands_emits h).trans (.silent (by simp) (by simp))
  obtain ⟨hhalt, hkneel, hfalls, hsame, hmoves⟩ := g.confirmHalt_tells
  have hcommand := g.confirmHalt.command_alike
  have hend : ∀ kind, Hub.Sends kind [] g.confirmHalt h.brakePeriod := fun kind => by
    rw [Hub.brakePeriod, ← hg]
    exact .silent (by simp) (by simp)
  have halt : h.brakePeriod.brake.halt = g.confirmHalt.brake.halt := by
    rw [Hub.brakePeriod, ← hg]
    exact hcommand.halt
  have hstate : h.brakePeriod.kneel.state = g.confirmHalt.kneel.state := by
    rw [Hub.brakePeriod, ← hg]
    exact hcommand.kneel
  have hpermit : h.brakePeriod.doors.permit = g.confirmHalt.doors.permit := by
    rw [Hub.brakePeriod, ← hg]
    exact congrArg DoorUnit.permit hcommand.doors
  have hkneelSame : h.TellsKneel g.confirmHalt :=
    Hub.Tells.trans (.same (.of_emits hemits (by decide)) hbefore.kneel) hkneel (.inl hbefore.kneel)
  refine ⟨?_, ?_, ?_, ?_⟩
  · exact Hub.Tells.trans (Hub.Tells.trans (.same (.of_emits hemits (by decide)) hbefore.halt) hhalt (.inl hbefore.halt))
      (.same (hend _) halt) (.inr halt)
  · exact Hub.Tells.trans hkneelSame (.same (hend _) hstate) (.inr hstate)
  · exact (Hub.Falls.trans (.of_emits hemits (by decide) (congrArg DoorUnit.permit hbefore.doors)) hfalls).trans
      ⟨.same (hend _) hpermit, fun ht => hpermit.symm.trans ht⟩
  · rw [halt, ← hbefore.halt]
    exact hmoves

/-! ## The door inputs and an APPLY -/

theorem Hub.handleChange_tellsPermit (d : Door) (h : Hub) : h.TellsPermit (h.handleChange d) := by
  unfold Hub.handleChange
  split
  · have hother : ∀ (φ : DoorHold → DoorHold) (v : Int),
        h.TellsPermit ((h.onDoor d φ).raise .doorEmergency d.num v).judgePermit := fun φ v =>
      Hub.Tells.trans ((Hub.falls_onDoor d φ h).trans (.raise (by decide) _ _ _)).tells (Hub.judgePermit_tells _) (.inl rfl)
    split
    · unfold Hub.handleActive
      split
      · have hhalt : (h.handleActs d).brake.halt ≠ .released := by
          rw [(Hub.handleActs_kept d h).2.2]
          exact h.requestApply_halt
        exact ((Hub.falls_handleActs d h).trans (Hub.falls_judgePermit (Hub.permitHolds_of_halt hhalt))).tells
      · exact hother (fun x => { x with atSpeed := true }) 2
    · exact hother (fun x => { x with atSpeed := false }) 0
  · exact .same (.refl h) rfl

/-- A position that changes under an active permit leaves CLOSED_LOCKED (R136). -/
theorem Hub.positionChange_tellsPermit {d : Door} {h : Hub} (hp : h.PermitSound) : h.TellsPermit (h.positionChange d) := by
  unfold Hub.positionChange
  extract_lets now changed
  have hchanged : h.Falls changed :=
    (Hub.Falls.of_eq (h := h) (g := (h.onDoor d fun x => { x with position := now }).onDoors fun u =>
      { u with changes := u.changes + 1 }) rfl rfl rfl).trans (.raise (by decide) _ _ _)
  split
  · exact .same (.refl h) rfl
  · next hne =>
    split
    · next hen =>
      have hjudged := (hchanged.trans (Hub.falls_judgeAutoHalt changed)).trans (Hub.falls_judgeCondition _)
      cases hpermit : h.doors.permit with
      | false => exact (Hub.rises_judgePermit hjudged hpermit).tells
      | true =>
        have hlocked : h.doorsLocked = true := by
          have := hp hpermit
          simp only [Hub.permitHolds, Bool.and_eq_true] at this
          exact this.1.1.1.1
        have hclosed : (h.door d).position = .closedLocked := by
          rw [Hub.doorsLocked, List.all_eq_true] at hlocked
          simpa [hen] using hlocked d (Door.mem_all d)
        have hdoor : changed.judgeAutoHalt.judgeCondition.door d = { h.door d with position := now } := by
          rw [Hub.judgeCondition_door, Hub.judgeAutoHalt_door]
          simp [changed, Hub.door]
        refine (hjudged.trans (Hub.falls_judgePermit ?_)).tells
        have hopen : changed.judgeAutoHalt.judgeCondition.doorsLocked = false := by
          rw [Hub.doorsLocked, List.all_eq_false]
          refine ⟨d, Door.mem_all d, ?_⟩
          rw [hdoor]
          simpa [hen] using fun heq => hne (hclosed.trans heq.symm)
        simp [Hub.permitHolds, hopen]
    · exact hchanged.tells

theorem Hub.debounceExpiry_tellsPermit (d : Door) (i : DoorInput) {h : Hub} (hp : h.PermitSound) :
    h.TellsPermit (h.debounceExpiry d i) := by
  unfold Hub.debounceExpiry
  extract_lets stopped raw taken
  have htaken : h.Falls taken :=
    (Hub.falls_onDoor d (fun x => { x with timers := x.timers.set i .stopped }) h).trans
      (Hub.falls_onDoor d (fun x => { x with debounced := withLevel x.debounced i raw }) _)
  have hsound : i ≠ .handle → taken.PermitSound := fun hi hpt => by
    have hholds : taken.permitHolds = h.permitHolds :=
      (Hub.permitHolds_onDoor (h := stopped) (φ := fun x => { x with debounced := withLevel x.debounced i raw }) rfl rfl rfl
        (by cases i <;> first | rfl | exact absurd rfl hi)).trans
        (Hub.permitHolds_onDoor (h := h) (φ := fun x => { x with timers := x.timers.set i .stopped }) rfl rfl rfl rfl)
    rw [hholds]
    exact hp hpt
  split
  · exact (Hub.falls_onDoor d (fun x => { x with timers := x.timers.set i .stopped }) h).tells
  · cases i with
    | closed | lock => exact Hub.Tells.trans htaken.tells (Hub.positionChange_tellsPermit (hsound nofun)) (.inl rfl)
    | handle => exact Hub.Tells.trans htaken.tells (Hub.handleChange_tellsPermit d taken) (.inl rfl)

/-- An APPLY installs under an APPLIED halt brake, where no permit stands (R136, R170). -/
theorem Hub.falls_installApply {h : Hub} (hb : h.brake.halt = .applied) : h.Falls h.installApply := by
  unfold Hub.installApply Hub.installEnables
  extract_lets disabled masked
  have hmasked : h.Falls masked :=
    (Hub.Falls.of_eq (h := h) (g := ((h.installLoad.clampSteer .a3).clampSteer .a4).formRideTargets) (by simp) (by simp)
      (by simp)).trans (.of_eq rfl rfl rfl)
  have hhalt : masked.brake = h.brake := by simp [masked]
  have hfold : masked.Falls (disabled.foldl Hub.disableDoor masked) ∧ (disabled.foldl Hub.disableDoor masked).brake = h.brake := by
    refine foldl_preserves (P := fun g : Hub => masked.Falls g ∧ g.brake = h.brake) (fun g d hg => ?_) disabled ⟨.refl _, hhalt⟩
    obtain ⟨hf, hbrake⟩ := hg
    have hset : ((g.onDoor d fun x => { x with mark := false, atSpeed := false }).brake.halt) ≠ .released := by
      show g.brake.halt ≠ .released
      rw [hbrake, hb]; decide
    exact ⟨(hf.trans (Hub.falls_onDoor d (fun x => { x with mark := false, atSpeed := false }) g)).trans
      (Hub.falls_setRelease (.inr hset)), (Hub.setRelease_brake d _ _).trans hbrake⟩
  refine ((hmasked.trans hfold.1).trans (Hub.falls_judgeCondition _)).trans (Hub.falls_judgePermit (Hub.permitHolds_of_halt ?_))
  have hcondition : ∀ g : Hub, g.judgeCondition.brake = g.brake := fun g => by simp
  rw [hcondition, hfold.2, hb]
  decide

theorem Hub.falls_storeCompletion (code : Byte) (depot : Bool) (h : Hub) : h.Falls (h.storeCompletion code depot) := by
  unfold Hub.storeCompletion
  split
  · next r _ =>
    split
    · extract_lets pins
      have hpins : h.Falls pins := .of_eq rfl rfl rfl
      split
      · exact hpins.trans (.of_eq (by simp) (by simp) (by simp))
      · have hfinish : pins.Falls (pins.finishWork r).1 := by
          obtain ⟨-, hnone, heq⟩ | ⟨-, heq⟩ := Hub.finishWork_cases r pins
          · rw [heq]; exact Hub.falls_installApply (Hub.applyRefusal_eq_none.mp hnone).2.1
          · rw [heq]; exact .of_eq rfl rfl rfl
        rw [Hub.completeOp_eq]
        exact (hpins.trans hfinish).trans (.of_eq (by simp) (by simp) (by simp))
    · exact .refl h
  · exact .refl h


/-! ## Over all commands -/

theorem Hub.chainComplete_halt (answers : ChainAnswers) (h : Hub) : (h.chainComplete answers).brake.halt = h.brake.halt := by
  by_cases hl : ∃ a, answers = .l a
  · obtain ⟨a, rfl⟩ := hl
    exact Hub.completeL_preserves (P := fun g : Hub => g.brake.halt = h.brake.halt) a (fun _ _ => rfl)
      (fun cs add value g hg => (Brake.halt_of_base (Hub.exclude_base cs add _)).trans hg) fun cs drop g hg => by simpa using hg
  · exact (Hub.chainComplete_alike (fun a ha => hl ⟨a, ha⟩) h).halt

/-- What a service tells, its order tells: the answer itself reaches the port unit and the pins alone. -/
theorem Hub.order_tells {β : Type} [DecidableEq β] {kind : EventKind} {x : Hub → β} {num : β → Int} {I : Hub → Prop}
    (hx : ∀ g k : Hub, k.brake = g.brake → k.kneel = g.kneel → k.doors = g.doors → x k = x g) {f : Service}
    (hf : ∀ g, I g → Hub.Tells kind x num g (f g).1) (q : Request) (code : Byte) (c : AccessClass) {h : Hub} (hi : I (h.judged q)) :
    Hub.Tells kind x num h (h.order q code c f) := by
  have hjudged : x (h.judged q) = x h := hx _ _ rfl rfl rfl
  have hserved : Hub.Tells kind x num (h.judged q) (whenLoaded (whenAllowed q.port c f) (h.judged q)).1 := by
    unfold whenLoaded whenAllowed
    split
    · split
      · exact hf _ hi
      · exact .same (.silent rfl rfl) (hx _ _ rfl rfl rfl)
    · exact .same (.refl _) rfl
  rw [Hub.order, Hub.exchange_eq]
  have hreply : ∀ (a : Answer) (g : Hub), Hub.Tells kind x num h g → Hub.Tells kind x num h (g.reply q.port code q.tag a) :=
    fun a g hg =>
      have hsame : x (g.reply q.port code q.tag a) = x g := hx _ _ rfl rfl rfl
      Hub.Tells.trans hg (.same (.silent rfl rfl) hsame) (.inr hsame)
  exact hreply _ _ (Hub.Tells.trans (g := h.judged q) (.same (.silent rfl rfl) hjudged) hserved (.inl hjudged))

/-- The three quantities told over one step. -/
structure Hub.Told (h g : Hub) : Prop where
  halt   : h.TellsHalt g
  kneel  : h.TellsKneel g
  permit : h.PermitSound → h.TellsPermit g

theorem Hub.Told.of_turns {h g : Hub} (ht : h.Turns g) (hp : h.PermitSound → h.TellsPermit g) : h.Told g := ⟨ht.halt, ht.kneel, hp⟩

theorem Hub.Told.refl (h : Hub) : h.Told h := ⟨.same (.refl h) rfl, .same (.refl h) rfl, fun _ => .same (.refl h) rfl⟩

theorem Hub.order_told {f : Service} (hhalt : ∀ g : Hub, g.TellsHalt (f g).1) (hkneel : ∀ g : Hub, g.TellsKneel (f g).1)
    (hpermit : ∀ g : Hub, g.PermitSound → g.TellsPermit (f g).1) (q : Request) (code : Byte) (c : AccessClass) (h : Hub) :
    h.Told (h.order q code c f) :=
  ⟨Hub.order_tells (I := fun _ => True) (fun _ _ hb _ _ => congrArg Brake.halt hb) (fun g _ => hhalt g) q code c trivial,
    Hub.order_tells (I := fun _ => True) (fun _ _ _ hk _ => congrArg Kneel.state hk) (fun g _ => hkneel g) q code c trivial,
    fun hs => Hub.order_tells (I := Hub.PermitSound) (fun _ _ _ _ hd => congrArg DoorUnit.permit hd) hpermit q code c hs⟩

theorem serveHaltOn_turns (h : Hub) : h.Turns (serveHaltOn h).1 ∧ h.Falls (serveHaltOn h).1 := by
  unfold serveHaltOn
  split
  · next hr =>
    split
    · have heq : h.setHalt .applying = h.requestApply := by rw [Hub.requestApply, if_pos hr]
      dsimp only
      rw [heq]
      exact ⟨Hub.turns_requestApply h, Hub.falls_requestApply h⟩
    · exact ⟨.refl h, .refl h⟩
  · exact ⟨.refl h, .refl h⟩

theorem serveHaltOff_told (h : Hub) : h.Told (serveHaltOff h).1 := by
  unfold serveHaltOff
  split
  · exact .refl h
  · next hne =>
    split
    · obtain ⟨hhalt, hkneel⟩ := Hub.setHalt_tells (h := h) (new := .released) (Ne.symm hne)
      exact ⟨hhalt, hkneel, fun _ => (Hub.setHalt_tellsPermit .released h).1⟩
    · exact .refl h

theorem Hub.writeTargets_setKneel_tellsPermit (source : TargetSource) (new : KneelState) (h : Hub) :
    h.TellsPermit ((h.writeTargets source).setKneel new) :=
  Hub.Tells.trans (g := h.writeTargets source) (.same (.silent rfl rfl) rfl) (Hub.setKneel_tellsPermit new _).1 (.inl rfl)

theorem serveKneel_tellsPermit (h : Hub) : h.TellsPermit (serveKneel h).1 := by
  unfold serveKneel
  (repeat' split) <;> first | exact .same (.refl h) rfl | exact Hub.writeTargets_setKneel_tellsPermit _ _ h

theorem serveRaise_tellsPermit (h : Hub) : h.TellsPermit (serveRaise h).1 := by
  unfold serveRaise
  split <;> first | exact .same (.refl h) rfl | exact Hub.writeTargets_setKneel_tellsPermit _ _ h

/-- The commands with a part in the halt state, the kneel state or the move permit. -/
def movesStates : Instr → Bool
  | .scanRound _ | .wheelPulse _ _ | .speedTimerExpiry _ | .quietTimerExpiry | .brakeTimerExpiry | .levellingTimerExpiry
  | .chainRefreshComplete _ | .debounceTimerExpiry _ _ | .haltOn _ | .haltOff _ | .release _ | .withdraw _ | .kneel _ | .raise _
  | .storeReadCompletion _ | .storeWriteCompletion _ | .storeCloseCompletion _ | .storeLockCompletion _ | .blankTestCompletion _
  | .storeClearCompletion _ | .applyCompletion _ => true
  | _ => false

theorem Hub.after_told {c : Instr} (hc : movesStates c = true) (w : Between) (h : Hub) : h.Told (h.after w c) := by
  have hif : ∀ {b : Prop} [Decidable b] {g : Hub}, h.Told g → h.Told (if b then g else h) := by
    intro b _ g hg
    split
    · exact hg
    · exact .refl h
  have hstop : ∀ {g : Hub}, h.Stops g → g.brake.halt = h.brake.halt → .haltState ∉ emittedBy c → beyondRaises c = false →
      h.after w c = g → (h.PermitSound → h.TellsPermit g) → h.Told (h.after w c) := fun hs hb hk hraises heq hp => by
    have hemits := Hub.after_emitted hraises w h
    rw [heq] at hemits ⊢
    exact ⟨.same (.of_emits hemits hk) hb, hs.kneel, hp⟩
  cases c
  case scanRound raw =>
    obtain heq | heq : h.after w (.scanRound raw) = h.scanRound raw ∨ h.after w (.scanRound raw) = h := by
      simp only [Hub.after]
      split <;> simp
    · exact hstop (Hub.stops_scanRound raw h) (Brake.halt_of_base (h.doorStep_scanRound raw).2.2) (by simp [emittedBy]) rfl heq
        fun _ => (Hub.falls_scanRound raw h).tells
    · rw [heq]; exact .refl h
  case wheelPulse i dir =>
    obtain heq | heq : h.after w (.wheelPulse i dir) = h.wheelPulse dir ∨ h.after w (.wheelPulse i dir) = h := by
      simp only [Hub.after]
      split <;> simp
    · exact hstop (Hub.stops_wheelPulse dir h) (h.wheelPulse_halt dir) (by simp [emittedBy]) rfl heq
        fun hs => Hub.wheelPulse_tellsPermit dir hs
    · rw [heq]; exact .refl h
  case chainRefreshComplete answers =>
    obtain heq | heq : h.after w (.chainRefreshComplete answers) = h.chainComplete answers ∨
        h.after w (.chainRefreshComplete answers) = h := by
      simp only [Hub.after]
      split <;> simp
    · exact hstop (Hub.stops_chainComplete answers h) (Hub.chainComplete_halt answers h) (by simp [emittedBy]) rfl heq
        fun _ => (Hub.falls_chainComplete answers h).tells
    · rw [heq]; exact .refl h
  case speedTimerExpiry dir => exact hif (.of_turns (Hub.turns_speedExpiry dir h) fun _ => (Hub.falls_speedExpiry dir h).tells)
  case quietTimerExpiry => exact hif (.of_turns (Hub.turns_quietExpiry h) fun _ => (Hub.falls_quietExpiry h).tells)
  case brakeTimerExpiry =>
    obtain ⟨hhalt, hkneel, hfalls, -⟩ := h.brakePeriod_tells
    exact hif ⟨hhalt, hkneel, fun _ => hfalls.tells⟩
  case levellingTimerExpiry =>
    obtain ⟨hkneel, hhalt⟩ := h.levellingPeriod_tells
    exact hif ⟨hhalt, hkneel, fun _ => h.levellingPeriod_tellsPermit⟩
  case debounceTimerExpiry d i =>
    exact hif (.of_turns (Hub.turns_debounceExpiry d i h) fun hs => Hub.debounceExpiry_tellsPermit d i hs)
  case haltOn q =>
    exact Hub.order_told (fun g => (serveHaltOn_turns g).1.halt) (fun g => (serveHaltOn_turns g).1.kneel)
      (fun g _ => (serveHaltOn_turns g).2.tells) q _ _ h
  case haltOff q =>
    exact Hub.order_told (fun g => (serveHaltOff_told g).halt) (fun g => (serveHaltOff_told g).kneel)
      (fun g => (serveHaltOff_told g).permit) q _ _ h
  case release q =>
    exact Hub.order_told (fun g => (serveRelease_turns _ g).halt) (fun g => (serveRelease_turns _ g).kneel)
      (fun g _ => (serveRelease_falls _ g).tells) q _ _ h
  case withdraw q =>
    exact Hub.order_told (fun g => (serveWithdraw_turns _ g).halt) (fun g => (serveWithdraw_turns _ g).kneel)
      (fun g hs => (serveWithdraw_rises _ g hs).tells) q _ _ h
  case kneel q =>
    exact Hub.order_told (fun g => (serveKneel_tells g).2) (fun g => (serveKneel_tells g).1) (fun g _ => serveKneel_tellsPermit g) q _ _ h
  case raise q =>
    exact Hub.order_told (fun g => (serveRaise_tells g).2) (fun g => (serveRaise_tells g).1) (fun g _ => serveRaise_tellsPermit g) q _ _ h
  case storeReadCompletion | storeWriteCompletion | storeCloseCompletion | storeLockCompletion | blankTestCompletion
      | storeClearCompletion | applyCompletion =>
    exact .of_turns (Hub.turns_storeCompletion _ _ h) fun _ => (Hub.falls_storeCompletion _ _ h).tells
  all_goals exact Bool.noConfusion hc


/-- The three quantities the other commands leave, the resets and the load's permit apart. -/
theorem Hub.after_states_of_not {c : Instr} {h : Hub} (hr : resetsPart h c = false) (hc : movesStates c = false) (w : Between) :
    (h.after w c).brake.halt = h.brake.halt ∧ (h.after w c).kneel.state = h.kneel.state ∧
      ((∀ x, c ≠ .activeSetLoad x) → (h.after w c).doors.permit = h.doors.permit) := by
  cases c
  case powerOnReset | rstLine => exact Bool.noConfusion hr
  case hubReset q =>
    have hkeeps : ∀ {γ : Type} (π : Hub → γ), (∀ (g : Hub) p φ, π (g.onPort p φ) = π g) → (∀ (g : Hub) φ, π (g.onPins φ) = π g) →
        π (h.after w (.hubReset q)) = π h := fun π hp hq =>
      Hub.hubReset_refused_keeps π hr (fun p φ g => hp g p φ) fun φ g => hq g φ
    exact ⟨hkeeps (fun g => g.brake.halt) (fun _ _ _ => rfl) fun _ _ => rfl,
      hkeeps (fun g => g.kneel.state) (fun _ _ _ => rfl) fun _ _ => rfl,
      fun _ => hkeeps (fun g => g.doors.permit) (fun _ _ _ => rfl) fun _ _ => rfl⟩
  case activeSetLoad x =>
    refine ⟨?_, ?_, fun hx => absurd rfl (hx x)⟩
    · simp only [Hub.after]
      split
      · simp [Hub.completeLoad, Hub.sampleDoors, Hub.startLoads, Hub.startTimers]
      · rfl
    · simp only [Hub.after]
      split
      · simp [Hub.completeLoad, Hub.sampleDoors, Hub.startLoads, Hub.startTimers]
      · rfl
  case doorInputChange d i level =>
    simp only [Hub.after]
    split <;> exact ⟨rfl, rfl, fun _ => rfl⟩
  all_goals first | exact Bool.noConfusion hc | simp

/-- The load judges the permit once, by the routing table it forms (R136, R164; log entry 25). -/
theorem Hub.completeLoad_permit (levels : PerDoor DoorLevels) (h : Hub) :
    ({ h with events := { h.events with routing := (h.completeLoad levels).events.routing } } : Hub).Raises (h.completeLoad levels)
      .movePermit (if (h.completeLoad levels).doors.permit = h.doors.permit then []
        else [(0, permitNum (h.completeLoad levels).doors.permit)]) := by
  obtain ⟨g, hg⟩ : ∃ g, g = ((((h.onClock fun u => { u with loaded := true, load := .stopped }).installReset.updateRecord).formAccess
      |>.startTimers).startLoads).formRideTargets := ⟨_, rfl⟩
  have heq : h.completeLoad levels = g.sampleDoors levels := by rw [hg]; rfl
  obtain ⟨m, hm, hpermit, hclock, hevents⟩ : ∃ m : Hub, g.sampleDoors levels = m.judgePermit ∧ m.doors.permit = g.doors.permit ∧
      m.clock = g.clock ∧ m.events = g.events := ⟨_, rfl, rfl, rfl, rfl⟩
  have hms : m.clock.ms = h.clock.ms := by
    rw [hclock, hg]
    simp only [Hub.formRideTargets_frame, Hub.startLoads_frame, Hub.startTimers_frame, Hub.formAccess]
    split <;> simp
  have hrouted : m.events = { h.events with routing := m.events.routing } := by
    rw [hevents, hg]
    simp only [Hub.formRideTargets_frame, Hub.startLoads_frame, Hub.startTimers_frame, Hub.formAccess]
    split <;> simp
  have hsame : m.doors.permit = h.doors.permit := by
    rw [hpermit, hg]
    simp only [Hub.formRideTargets_frame, Hub.startLoads_frame, Hub.startTimers_frame, Hub.formAccess]
    split <;> simp
  have htells := m.judgePermit_tells
  have hrouting : m.judgePermit.events.routing = m.events.routing := htells.routing
  rw [heq, hm, hrouting, ← hrouted, ← hsame]
  have hraises := htells.raises
  unfold Hub.Raises at hraises ⊢
  rw [← hms]
  exact hraises

theorem Hub.after_permit {c : Instr} {h : Hub} (hr : resetsPart h c = false) (ht : ∀ q code, c ≠ .take q code) (hs : h.PermitSound)
    (w : Between) : ({ h with events := { h.events with routing := (h.after w c).events.routing } } : Hub).Raises (h.after w c)
      .movePermit (if (h.after w c).doors.permit = h.doors.permit then [] else [(0, permitNum (h.after w c).doors.permit)]) := by
  cases hc : movesStates c with
  | true =>
    have htells := (Hub.after_told hc w h).permit hs
    have hrouting : (h.after w c).events.routing = h.events.routing := htells.routing
    rw [hrouting]
    exact htells.raises
  | false =>
    by_cases hload : ∃ x, c = .activeSetLoad x
    · obtain ⟨x, rfl⟩ := hload
      have hafter : h.after w (.activeSetLoad x) = (h.readDepot x.depot).completeLoad x.doors ∨ h.after w (.activeSetLoad x) = h := by
        simp only [Hub.after]
        split <;> simp
      obtain heq | heq := hafter
      · rw [heq]
        exact Hub.completeLoad_permit x.doors (h.readDepot x.depot)
      · rw [heq, if_pos rfl]
        exact fun _ => rfl
    · rw [if_pos ((Hub.after_states_of_not hr hc w).2.2 fun x hx => hload ⟨x, hx⟩)]
      have hkinds : .movePermit ∉ emittedBy c := by
        cases c <;> first | exact Bool.noConfusion hc | exact absurd ⟨_, rfl⟩ hload | (simp [emittedBy])
      exact Hub.after_raises_nil hr ht hkinds w

theorem Hub.levellingPeriod_halt (h : Hub) : h.levellingPeriod.brake.halt = h.brake.halt := by
  have hcount : ∀ (new : KneelState) (g : Hub),
      ((g.onKneel fun u => { u with completions := u.completions + 1 }).setKneel new).brake.halt = g.brake.halt := fun new g =>
    Hub.setKneel_halt new _
  have hjudge : ∀ g : Hub, g.judgeCompletion.brake.halt = g.brake.halt := fun g => by
    unfold Hub.judgeCompletion
    (repeat' split) <;> first | rfl | exact hcount _ g
  have hlevel : ∀ (φ : Levelling → Levelling) (g : Hub), (g.onLevel φ).brake = g.brake := fun _ _ => rfl
  rw [Hub.levellingPeriod_eq, hlevel, hjudge, h.levellingWork_alike.halt]

theorem Hub.installApply_brake (h : Hub) : h.installApply.brake = h.brake := by
  have hdisable : ∀ (g : Hub) (d : Door), (g.disableDoor d).brake = g.brake := fun g d => Hub.setRelease_brake d _ _
  unfold Hub.installApply Hub.installEnables
  extract_lets disabled masked
  have hmasked : masked.brake = h.brake := by simp [masked]
  have hcondition : ∀ g : Hub, g.judgeCondition.judgePermit.brake = g.brake := fun g => by simp
  rw [hcondition, foldl_keeps Hub.brake _ hdisable, hmasked]

theorem Hub.storeCompletion_halt (code : Byte) (depot : Bool) (h : Hub) :
    (h.storeCompletion code depot).brake.halt = h.brake.halt := by
  unfold Hub.storeCompletion
  split
  · next r _ =>
    split
    · extract_lets pins
      have hpins : pins.brake = h.brake := rfl
      split
      · simp [hpins]
      · have hfinish : (pins.finishWork r).1.brake = pins.brake := by
          obtain ⟨-, -, heq⟩ | ⟨-, heq⟩ := Hub.finishWork_cases r pins
          · rw [heq, Hub.installApply_brake]
          · rw [heq]
        rw [Hub.completeOp_eq]
        simp [hfinish, hpins]
    · rfl
  · rfl

/-- The halt state over a command, resets apart (R81). -/
theorem Hub.after_halt {c : Instr} {h : Hub} (hr : resetsPart h c = false) (w : Between) :
    (h.after w c).brake.halt = h.brake.halt ∨
    (h.brake.halt = .released ∧ (h.after w c).brake.halt = .applying ∧
      ((∃ q, c = .haltOn q) ∨ (∃ q, c = .release q) ∨ (∃ d i, c = .debounceTimerExpiry d i) ∨
        (∃ dir, c = .speedTimerExpiry dir) ∨ c = .quietTimerExpiry)) ∨
    (h.brake.halt = .applying ∧ (h.after w c).brake.halt = .applied ∧ c = .brakeTimerExpiry) ∨
    ((h.after w c).brake.halt = .released ∧ ∃ q, c = .haltOff q) := by
  cases hc : movesStates c with
  | false => exact .inl (Hub.after_states_of_not hr hc w).1
  | true =>
    have hturns : ∀ {g : Hub}, h.Turns g → g.brake.halt = h.brake.halt ∨ (h.brake.halt = .released ∧ g.brake.halt = .applying) :=
      fun hg => hg.haltMoves
    have hif : ∀ {b : Prop} [Decidable b] {g : Hub}, h.Turns g → h.Turns (if b then g else h) := by
      intro b _ g hg
      split
      · exact hg
      · exact .refl h
    have horder : ∀ {f : Service}, (∀ g : Hub, g.Turns (f g).1) → ∀ q code cl, h.Turns (h.order q code cl f) := fun hf q code cl =>
      Hub.order_preserves (P := fun g : Hub => h.Turns g) (fun _ _ _ _ hg => hg.trans (.of_eq rfl rfl rfl rfl))
        (fun _ _ hg => hg.trans (.of_eq rfl rfl rfl rfl)) q code cl (fun g _ hg => hg.trans (hf g)) (.refl h)
    cases c
    case haltOn q =>
      exact (hturns (horder (fun g => (serveHaltOn_turns g).1) q _ _)).imp_right fun hm => .inl ⟨hm.1, hm.2, .inl ⟨q, rfl⟩⟩
    case release q =>
      exact (hturns (horder (serveRelease_turns _) q _ _)).imp_right fun hm => .inl ⟨hm.1, hm.2, .inr (.inl ⟨q, rfl⟩)⟩
    case debounceTimerExpiry d i =>
      exact (hturns (hif (Hub.turns_debounceExpiry d i h))).imp_right fun hm =>
        .inl ⟨hm.1, hm.2, .inr (.inr (.inl ⟨d, i, rfl⟩))⟩
    case speedTimerExpiry dir =>
      exact (hturns (hif (Hub.turns_speedExpiry dir h))).imp_right fun hm => .inl ⟨hm.1, hm.2, .inr (.inr (.inr (.inl ⟨dir, rfl⟩)))⟩
    case quietTimerExpiry =>
      exact (hturns (hif (Hub.turns_quietExpiry h))).imp_right fun hm => .inl ⟨hm.1, hm.2, .inr (.inr (.inr (.inr rfl)))⟩
    case brakeTimerExpiry =>
      simp only [Hub.after]
      split
      · obtain hsame | ⟨ha, hd⟩ := h.brakePeriod_tells.2.2.2
        · exact .inl hsame
        · exact .inr (.inr (.inl ⟨ha, hd, trivial⟩))
      · exact .inl rfl
    case haltOff q =>
      have hmoves : (h.after w (.haltOff q)).brake.halt = h.brake.halt ∨ (h.after w (.haltOff q)).brake.halt = .released :=
        Hub.order_preserves (P := fun g : Hub => g.brake.halt = h.brake.halt ∨ g.brake.halt = .released) (fun _ _ _ _ hg => hg)
          (fun _ _ hg => hg) q _ _ (fun g _ hg => by
            unfold serveHaltOff
            split
            · exact hg
            · split
              · exact .inr (by rw [Hub.setHalt_brake])
              · exact hg) (.inl rfl)
      exact hmoves.imp_right fun hm => .inr (.inr ⟨hm, q, rfl⟩)
    case withdraw q =>
      exact .inl (order_keeps (fun g : Hub => g.brake.halt) q _ _ h (fun g => by
        unfold serveWithdraw
        split
        · rfl
        · exact congrArg Brake.halt (foldl_keeps Hub.brake _ (by simp) _ _)) (fun _ _ _ => rfl) fun _ _ => rfl)
    case kneel q =>
      exact .inl (order_keeps (fun g : Hub => g.brake.halt) q _ _ h (fun g => by
        unfold serveKneel
        (repeat' split) <;> first | rfl | exact Hub.setKneel_halt _ _) (fun _ _ _ => rfl) fun _ _ => rfl)
    case raise q =>
      exact .inl (order_keeps (fun g : Hub => g.brake.halt) q _ _ h (fun g => by
        unfold serveRaise
        split <;> first | rfl | exact Hub.setKneel_halt _ _) (fun _ _ _ => rfl) fun _ _ => rfl)
    case scanRound raw =>
      refine .inl ?_
      simp only [Hub.after]
      split
      · exact Brake.halt_of_base (h.doorStep_scanRound raw).2.2
      · rfl
    case wheelPulse i dir =>
      refine .inl ?_
      simp only [Hub.after]
      split
      · exact h.wheelPulse_halt dir
      · rfl
    case chainRefreshComplete answers =>
      refine .inl ?_
      simp only [Hub.after]
      split
      · exact Hub.chainComplete_halt answers h
      · rfl
    case levellingTimerExpiry =>
      refine .inl ?_
      simp only [Hub.after]
      split
      · exact Hub.levellingPeriod_halt h
      · rfl
    case storeReadCompletion | storeWriteCompletion | storeCloseCompletion | storeLockCompletion | blankTestCompletion
        | storeClearCompletion | applyCompletion =>
      exact .inl (Hub.storeCompletion_halt _ _ h)
    all_goals exact Bool.noConfusion hc

/-- Settles O46: each operation tells its own change, and within a command a quantity changes once. -/
theorem haltStateChanges : Obligations.HaltStateChanges := by
  refine ⟨fun s t c hexec hr ht => ?_, fun s t c hexec hne => ?_⟩
  · obtain rfl := hub_of_exec hexec
    have hnil : ∀ kind, kind ∉ emittedBy c → s.hub.Raises (s.hub.after s.between c) kind [] := fun kind hk =>
      Hub.after_raises_nil hr ht hk s.between
    have htold : s.hub.TellsHalt (s.hub.after s.between c) ∨ ((s.hub.after s.between c).brake.halt = s.hub.brake.halt ∧
        s.hub.Raises (s.hub.after s.between c) .haltState []) := by
      cases hc : movesStates c with
      | true => exact .inl (Hub.after_told hc s.between s.hub).halt
      | false =>
        refine .inr ⟨(Hub.after_states_of_not hr hc s.between).1, hnil _ ?_⟩
        cases c <;> first | exact Bool.noConfusion hc | simp [emittedBy]
    have hkneel : s.hub.TellsKneel (s.hub.after s.between c) ∨ ((s.hub.after s.between c).kneel.state = s.hub.kneel.state ∧
        s.hub.Raises (s.hub.after s.between c) .kneelState []) := by
      cases hc : movesStates c with
      | true => exact .inl (Hub.after_told hc s.between s.hub).kneel
      | false =>
        refine .inr ⟨(Hub.after_states_of_not hr hc s.between).2.1, hnil _ ?_⟩
        cases c <;> first | exact Bool.noConfusion hc | simp [emittedBy]
    refine ⟨?_, ?_, fun hi => Hub.after_permit hr ht hi.permitSound s.between⟩
    · have hnum : ∀ x : HaltState, (x.num : Int) = match x with
          | .released => 0
          | .applying => 1
          | .applied => 2 := fun x => by cases x <;> rfl
      dsimp only
      obtain htold | ⟨hsame, hnone⟩ := htold
      · have hraises := htold.raises
        simp only [Hub.haltState, hnum] at hraises
        exact hraises
      · rw [if_pos hsame]
        exact hnone
    · have hnum : ∀ x : KneelState, (x.num : Int) = match x with
          | .ride => 0
          | .lowering => 1
          | .knelt => 2
          | .raising => 3
          | .stopped => 4 := fun x => by cases x <;> rfl
      dsimp only
      obtain htold | ⟨hsame, hnone⟩ := hkneel
      · have hraises := htold.raises
        simp only [Hub.kneelState, hnum] at hraises
        exact hraises
      · rw [if_pos hsame]
        exact hnone
  · obtain rfl := hub_of_exec hexec
    cases hr : resetsPart s.hub c with
    | true =>
      refine .inr (.inr ⟨?_, .inl rfl⟩)
      exact congrArg Brake.halt (after_resetFrom hr s.between).brake
    | false =>
      obtain hsame | hmoves := Hub.after_halt hr s.between (h := s.hub)
      · exact absurd hsame hne
      · obtain hon | hconfirmed | ⟨hoff, hq⟩ := hmoves
        · exact .inl hon
        · exact .inr (.inl hconfirmed)
        · exact .inr (.inr ⟨hoff, .inr hq⟩)

end Sys2Proof.Machine
end

section
/-! PROOFS. The door unit's events and its change count over all commands, and the door inputs: O51. -/

namespace Sys2Proof.Machine

/-! ## What is told of a door -/

/-- What position, release and mark of a door tell in a step (R124, R126, R131). -/
def movedDoor (h g : Hub) (d : Door) : Bool := decide ((g.door d).position ≠ (h.door d).position)
def releasedDoor (h g : Hub) (d : Door) : Bool := decide ((g.door d).release ≠ (h.door d).release)
def reportedDoor (h g : Hub) (d : Door) : Bool :=
  decide ((g.door d).release ≠ (h.door d).release) || ((g.door d).mark && !(h.door d).mark)

def movedEvent (g : Hub) (d : Door) : Nat × Int := (d.num, (g.door d).position.num)
def reportedEvent (g : Hub) (d : Door) : Nat × Int := (d.num, (g.door d).release.num + if (g.door d).mark then 4 else 0)

/-- Position, release and mark of a door are those of another moment. -/
def DoorHold.Alike (x y : DoorHold) : Prop := y.position = x.position ∧ y.release = x.release ∧ y.mark = x.mark

theorem DoorHold.Alike.refl (x : DoorHold) : x.Alike x := ⟨rfl, rfl, rfl⟩

theorem DoorHold.Alike.trans {x y z : DoorHold} (hy : x.Alike y) (hz : y.Alike z) : x.Alike z :=
  ⟨hz.1.trans hy.1, hz.2.1.trans hy.2.1, hz.2.2.trans hy.2.2⟩

theorem Hub.alike_of_doors {h g : Hub} (hd : g.doors = h.doors) (d : Door) : (h.door d).Alike (g.door d) := by
  rw [show g.door d = h.door d by rw [Hub.door, hd, Hub.door]]
  exact .refl _

/-- Between two moments of one step only the doors listed change position, release or mark; each change is counted and told in
the order of the list (R122, R124, R126, R131). -/
structure Hub.Reports (l : List Door) (h g : Hub) : Prop where
  others  : ∀ d, d ∉ l → (h.door d).Alike (g.door d)
  changes : g.doors.changes = h.doors.changes +
    BitVec.ofNat 16 ((l.filter (movedDoor h g)).length + (l.filter (releasedDoor h g)).length)
  moved   : Hub.Sends .doorState ((l.filter (movedDoor h g)).map (movedEvent g)) h g
  told    : Hub.Sends .doorRelease ((l.filter (reportedDoor h g)).map (reportedEvent g)) h g

theorem movedDoor_congr {h g h' g' : Hub} {d : Door} (hh : (h.door d).Alike (h'.door d)) (hg : (g.door d).Alike (g'.door d)) :
    movedDoor h' g' d = movedDoor h g d ∧ releasedDoor h' g' d = releasedDoor h g d ∧
      reportedDoor h' g' d = reportedDoor h g d ∧ movedEvent g' d = movedEvent g d ∧ reportedEvent g' d = reportedEvent g d := by
  obtain ⟨hpos, hrel, hmark⟩ := hh
  obtain ⟨gpos, grel, gmark⟩ := hg
  simp only [movedDoor, releasedDoor, reportedDoor, movedEvent, reportedEvent, hpos, hrel, hmark, gpos, grel, gmark, and_self]

theorem movedDoor_of_alike {h g : Hub} {d : Door} (ha : (h.door d).Alike (g.door d)) :
    movedDoor h g d = false ∧ releasedDoor h g d = false ∧ reportedDoor h g d = false := by
  obtain ⟨hpos, hrel, hmark⟩ := ha
  simp [movedDoor, releasedDoor, reportedDoor, hpos, hrel, hmark]

namespace Hub.Reports
variable {l m : List Door} {h g f : Hub}

theorem none (hd : ∀ d, (h.door d).Alike (g.door d)) (hc : g.doors.changes = h.doors.changes)
    (hs : ∀ kind, kind = .doorState ∨ kind = .doorRelease → Hub.Sends kind [] h g) : Hub.Reports [] h g :=
  ⟨fun d _ => hd d, by simp [hc], hs _ (.inl rfl), hs _ (.inr rfl)⟩

theorem of_emits {kinds : List EventKind} (he : h.Emits kinds g) (hs : .doorState ∉ kinds) (hr : .doorRelease ∉ kinds)
    (hd : g.doors.doors = h.doors.doors) (hc : g.doors.changes = h.doors.changes) : Hub.Reports [] h g :=
  none (fun d => by rw [show g.door d = h.door d by rw [Hub.door, hd, Hub.door]]; exact .refl _) hc fun kind hk =>
    .of_emits he (hk.elim (fun heq => heq ▸ hs) fun heq => heq ▸ hr)

theorem refl (h : Hub) : Hub.Reports [] h h := none (fun _ => .refl _) rfl fun _ _ => .refl h

theorem trans (hg : Hub.Reports l h g) (gf : Hub.Reports m g f) (hlm : ∀ d ∈ l, d ∉ m) : Hub.Reports (l ++ m) h f := by
  have hfirst : ∀ d ∈ l, movedDoor h f d = movedDoor h g d ∧ releasedDoor h f d = releasedDoor h g d ∧
      reportedDoor h f d = reportedDoor h g d ∧ movedEvent f d = movedEvent g d ∧ reportedEvent f d = reportedEvent g d :=
    fun d hd => movedDoor_congr (.refl _) (gf.others d (hlm d hd))
  have hsecond : ∀ d ∈ m, movedDoor h f d = movedDoor g f d ∧ releasedDoor h f d = releasedDoor g f d ∧
      reportedDoor h f d = reportedDoor g f d := fun d hd => by
    have hsame := hg.others d fun hl => hlm d hl hd
    obtain ⟨h1, h2, h3, -⟩ := movedDoor_congr (h := h) (h' := g) (g := f) (g' := f) hsame (.refl _)
    exact ⟨h1.symm, h2.symm, h3.symm⟩
  have hmoved : (l ++ m).filter (movedDoor h f) = l.filter (movedDoor h g) ++ m.filter (movedDoor g f) := by
    rw [List.filter_append, List.filter_congr fun d hd => (hfirst d hd).1, List.filter_congr fun d hd => (hsecond d hd).1]
  have hreleased : (l ++ m).filter (releasedDoor h f) = l.filter (releasedDoor h g) ++ m.filter (releasedDoor g f) := by
    rw [List.filter_append, List.filter_congr fun d hd => (hfirst d hd).2.1, List.filter_congr fun d hd => (hsecond d hd).2.1]
  have hreported : (l ++ m).filter (reportedDoor h f) = l.filter (reportedDoor h g) ++ m.filter (reportedDoor g f) := by
    rw [List.filter_append, List.filter_congr fun d hd => (hfirst d hd).2.2.1, List.filter_congr fun d hd => (hsecond d hd).2.2]
  refine ⟨fun d hd => ?_, ?_, ?_, ?_⟩
  · rw [List.mem_append, not_or] at hd
    exact (hg.others d hd.1).trans (gf.others d hd.2)
  · rw [gf.changes, hg.changes, hmoved, hreleased, List.length_append, List.length_append]
    apply BitVec.eq_of_toNat_eq
    simp only [BitVec.toNat_add, BitVec.toNat_ofNat]
    omega
  · refine (hg.moved.trans gf.moved).congr ?_
    rw [hmoved, List.map_append]
    congr 1
    exact List.map_congr_left fun d hd => (hfirst d (List.mem_of_mem_filter hd)).2.2.2.1.symm
  · refine (hg.told.trans gf.told).congr ?_
    rw [hreported, List.map_append]
    congr 1
    exact List.map_congr_left fun d hd => (hfirst d (List.mem_of_mem_filter hd)).2.2.2.2.symm

theorem before (hg : Hub.Reports [] h g) (gf : Hub.Reports m g f) : Hub.Reports m h f := hg.trans gf (by simp)

theorem after (hg : Hub.Reports l h g) (gf : Hub.Reports [] g f) : Hub.Reports l h f := List.append_nil l ▸ hg.trans gf (by simp)

theorem foldl {φ : Hub → Door → Hub} {I : Hub → Prop} (hφ : ∀ (g : Hub) (d : Door), I g → Hub.Reports [d] g (φ g d) ∧ I (φ g d))
    {l : List Door} (hn : l.Nodup) {h : Hub} (hi : I h) : Hub.Reports l h (l.foldl φ h) := by
  induction l generalizing h with
  | nil => exact refl h
  | cons x l ih =>
    obtain ⟨hx, hl⟩ := List.nodup_cons.mp hn
    obtain ⟨hstep, hi'⟩ := hφ h x hi
    exact hstep.trans (ih hl hi') (by simpa using hx)

end Hub.Reports

/-- A list filtered by what holds of its part alone. -/
theorem filter_of_sublist {α : Type} {p : α → Bool} {l m : List α} (hs : l.Sublist m) (hn : m.Nodup)
    (hp : ∀ x ∈ m, x ∉ l → p x = false) : m.filter p = l.filter p := by
  induction hs with
  | slnil => rfl
  | cons x hs ih =>
    obtain ⟨hx, hm⟩ := List.nodup_cons.mp hn
    rw [List.filter_cons, hp x (by simp) fun hl => hx (hs.subset hl)]
    exact ih hm fun y hy hl => hp y (by simp [hy]) hl
  | cons_cons x hs ih =>
    obtain ⟨hx, hm⟩ := List.nodup_cons.mp hn
    rw [List.filter_cons, List.filter_cons, ih hm fun y hy hl => hp y (by simp [hy]) (by
      rw [List.mem_cons, not_or]
      exact ⟨fun heq => hx (heq ▸ hy), hl⟩)]

/-- A report on some of the doors is one on all of them. -/
theorem Hub.Reports.all {l : List Door} {h g : Hub} (hg : Hub.Reports l h g) (hl : l.Sublist Door.all) : Hub.Reports Door.all h g := by
  have hfilter : ∀ p : Door → Bool, (∀ d, d ∉ l → p d = false) → Door.all.filter p = l.filter p := fun p hp =>
    filter_of_sublist hl Door.all_nodup fun d _ hd => hp d hd
  have hm := hfilter (movedDoor h g) fun d hd => (movedDoor_of_alike (hg.others d hd)).1
  have hr := hfilter (releasedDoor h g) fun d hd => (movedDoor_of_alike (hg.others d hd)).2.1
  have ht := hfilter (reportedDoor h g) fun d hd => (movedDoor_of_alike (hg.others d hd)).2.2
  exact ⟨fun d hd => absurd (Door.mem_all d) hd, by rw [hm, hr]; exact hg.changes, by rw [hm]; exact hg.moved,
    by rw [ht]; exact hg.told⟩

theorem Door.singleton_sublist (d : Door) : [d].Sublist Door.all := by cases d <;> decide

/-! ## The operations on one door -/

/-- Nothing is told yet; of door `d` the mark may differ. -/
structure Hub.Untold (d : Door) (h g : Hub) : Prop where
  others   : ∀ d', d' ≠ d → (h.door d').Alike (g.door d')
  position : (g.door d).position = (h.door d).position
  release  : (g.door d).release = (h.door d).release
  changes  : g.doors.changes = h.doors.changes
  silent   : ∀ kind, kind = .doorState ∨ kind = .doorRelease → Hub.Sends kind [] h g

theorem Hub.reports_judged (h : Hub) : Hub.Reports [] h h.judgeCondition.judgePermit :=
  (Hub.Reports.of_emits (Hub.judgeCondition_emits h) (by decide) (by decide) (by simp) (by simp)).before
    (.of_emits (Hub.judgePermit_emits _) (by decide) (by decide) (by simp) (by simp))

/-- A release set where the mark may have changed before; a mark that is set has its release change with it (R126, R131). -/
theorem Hub.Untold.setRelease {d : Door} {h g : Hub} (hu : Hub.Untold d h g) {new : Release}
    (hm : (g.door d).mark = true → (h.door d).mark = true ∨ (h.door d).release ≠ new) : Hub.Reports [d] h (g.setRelease d new) := by
  by_cases hne : (g.door d).release = new
  · rw [show g.setRelease d new = g from if_pos hne]
    have hpos : movedDoor h g d = false := by simp [movedDoor, hu.position]
    have hrel : releasedDoor h g d = false := by simp [releasedDoor, hu.release]
    have htold : reportedDoor h g d = false := by
      cases hmark : (g.door d).mark with
      | false => simp [reportedDoor, hu.release, hmark]
      | true =>
        have hkept := (hm hmark).resolve_right fun hno => hno (hu.release.symm.trans hne)
        simp [reportedDoor, hu.release, hkept]
    refine ⟨fun d' hd => hu.others d' (by simpa using hd), ?_, ?_, ?_⟩
    · simp [hpos, hrel, hu.changes]
    · simpa [hpos] using hu.silent _ (.inl rfl)
    · simpa [htold] using hu.silent _ (.inr rfl)
  · obtain ⟨c, hc⟩ : ∃ c, c = ((g.onDoor d fun x => { x with release := new }).onDoors fun u => { u with changes := u.changes + 1 }).driveRelease
        d (new == .granted) := ⟨_, rfl⟩
    have heq : g.setRelease d new = (c.raiseRelease d).judgeCondition.judgePermit := by
      rw [hc]
      exact if_neg hne
    have hdoor : ∀ d', (c.raiseRelease d).door d' = if d' = d then { g.door d with release := new } else g.door d' := fun d' => by
      simp [hc, Hub.raiseRelease, Hub.door, PerDoor.get_set]
    have hself : (c.raiseRelease d).door d = { g.door d with release := new } := by rw [hdoor, if_pos rfl]
    have hchanged : (h.door d).release ≠ new := fun hr => hne (hu.release.trans hr)
    have hpos : movedDoor h (c.raiseRelease d) d = false := by simp [movedDoor, hself, hu.position]
    have hrel : releasedDoor h (c.raiseRelease d) d = true := by simpa [releasedDoor, hself] using Ne.symm hchanged
    have htold : reportedDoor h (c.raiseRelease d) d = true := by simp [reportedDoor, hself, Ne.symm hchanged]
    have hsilent : ∀ kind, kind = .doorState ∨ kind = .doorRelease → Hub.Sends kind [] h c := fun kind hk =>
      (hu.silent kind hk).trans (.silent (by rw [hc]; rfl) (by rw [hc]; rfl))
    have hcd : c.door d = { g.door d with release := new } := by simp [hc, Hub.door]
    have hreport : Hub.Reports [d] h (c.raiseRelease d) := by
      refine ⟨fun d' hd => ?_, ?_, ?_, ?_⟩
      · have hd : d' ≠ d := by simpa using hd
        rw [hdoor, if_neg hd]
        exact hu.others d' hd
      · have hcount : (c.raiseRelease d).doors.changes = g.doors.changes + 1 := by rw [hc]; rfl
        rw [hcount, hu.changes]
        simp [hpos, hrel]
      · have hraise : Hub.Sends .doorState [] c (c.raiseRelease d) := .raise_of_ne (by decide) _ _ _
        simpa [hpos] using (hsilent _ (.inl rfl)).trans hraise
      · have hraise : Hub.Sends .doorRelease [reportedEvent (c.raiseRelease d) d] c (c.raiseRelease d) := by
          rw [reportedEvent, hself]
          have hraised := Hub.Sends.raise .doorRelease d.num ((c.door d).release.num + if (c.door d).mark then 4 else 0) c
          rw [hcd] at hraised
          unfold Hub.raiseRelease
          rw [hcd]
          exact hraised
        simpa [htold] using (hsilent _ (.inr rfl)).trans hraise
    rw [heq]
    exact hreport.after (Hub.reports_judged _)

theorem Hub.Untold.refl (d : Door) (h : Hub) : Hub.Untold d h h := ⟨fun _ _ => .refl _, rfl, rfl, rfl, fun _ _ => .refl h⟩

theorem Hub.reports_setRelease (d : Door) (new : Release) (h : Hub) : Hub.Reports [d] h (h.setRelease d new) :=
  (Hub.Untold.refl d h).setRelease .inl

/-- A change of a door that leaves position and release. -/
theorem Hub.Untold.onDoor {d : Door} {φ : DoorHold → DoorHold} (hp : ∀ x, (φ x).position = x.position)
    (hr : ∀ x, (φ x).release = x.release) (h : Hub) : Hub.Untold d h (h.onDoor d φ) := by
  have hdoor : ∀ x, (h.onDoor d φ).door x = if x = d then φ (h.door d) else h.door x := fun x => Hub.door_onDoor ..
  refine ⟨fun d' hd => ?_, ?_, ?_, rfl, fun _ _ => .silent rfl rfl⟩
  · rw [hdoor, if_neg hd]
    exact .refl _
  · rw [hdoor, if_pos rfl, hp]
  · rw [hdoor, if_pos rfl, hr]

/-- A change of a door that leaves position, release and mark is not told. -/
theorem Hub.reports_onDoor {d : Door} {φ : DoorHold → DoorHold} (hφ : ∀ x : DoorHold, x.Alike (φ x)) (h : Hub) :
    Hub.Reports [] h (h.onDoor d φ) := by
  refine .none (fun x => ?_) rfl fun _ _ => .silent rfl rfl
  rw [Hub.door_onDoor]
  split
  · next heq => rw [heq]; exact hφ _
  · exact .refl _

theorem Hub.reports_raise {kind : EventKind} (hs : .doorState ≠ kind) (hr : .doorRelease ≠ kind) (subject : Nat) (value : Int)
    (h : Hub) : Hub.Reports [] h (h.raise kind subject value) :=
  .none (fun _ => .refl _) rfl fun _ hk => .raise_of_ne (hk.elim (fun heq => heq ▸ hs) fun heq => heq ▸ hr) _ _ _

theorem Hub.reports_grantWaiting (h : Hub) : Hub.Reports Door.all h h.grantWaiting := by
  unfold Hub.grantWaiting
  refine Hub.Reports.foldl (I := fun _ => True) (fun g d _ => ⟨?_, trivial⟩) Door.all_nodup trivial
  split
  · exact Hub.reports_setRelease d _ g
  · exact (Hub.Untold.refl d g).setRelease (new := (g.door d).release) .inl |> fun hr => by
      rwa [show g.setRelease d (g.door d).release = g from if_pos rfl] at hr

theorem Hub.reports_self (d : Door) (h : Hub) : Hub.Reports [d] h h := by
  have hr := Hub.reports_setRelease d (h.door d).release h
  rwa [show h.setRelease d (h.door d).release = h from if_pos rfl] at hr

/-- A change of the halt state grants waiting releases at most, and only to APPLIED (R129). -/
theorem Hub.reports_setHalt (new : HaltState) (h : Hub) : Hub.Reports Door.all h (h.setHalt new) ∧
    (new ≠ .applied → Hub.Reports [] h (h.setHalt new)) := by
  unfold Hub.setHalt
  extract_lets changed
  have hchanged : Hub.Reports [] h changed :=
    (Hub.Reports.none (h := h) (g := h.onBrake fun u => { u with
      halt := new
      applying := if new = .applying then .running 0 else .stopped
      haltFault := if new = .applying then false else u.haltFault }) (fun _ => .refl _) rfl fun _ _ => .silent rfl rfl).before
      (Hub.reports_raise (by decide) (by decide) 0 new.num _)
  have hpermit : ∀ g : Hub, Hub.Reports [] g g.judgePermit := fun g =>
    .of_emits (Hub.judgePermit_emits g) (by decide) (by decide) (by simp) (by simp)
  by_cases hg : new = .applied ∧ changed.standing = true
  · rw [if_pos hg]
    exact ⟨(hchanged.before (Hub.reports_grantWaiting changed)).after (hpermit _), fun hn => absurd hg.1 hn⟩
  · rw [if_neg hg]
    have hnone := hchanged.before (hpermit changed)
    exact ⟨hnone.all (List.nil_sublist _), fun _ => hnone⟩

theorem Hub.reports_requestApply (h : Hub) : Hub.Reports [] h h.requestApply := by
  unfold Hub.requestApply
  split
  · exact (Hub.reports_setHalt .applying h).2 nofun
  · exact .refl h

theorem Hub.reports_judgeAutoHalt (h : Hub) : Hub.Reports [] h h.judgeAutoHalt := by
  unfold Hub.judgeAutoHalt
  split
  · exact Hub.reports_requestApply h
  · exact .refl h

theorem Hub.reports_enterStandstill (h : Hub) : Hub.Reports Door.all h h.enterStandstill := by
  unfold Hub.enterStandstill
  extract_lets changed granted
  have hchanged : Hub.Reports [] h changed :=
    (Hub.Reports.none (h := h) (g := h.onSensing fun u => { u with standstill := .yes }) (fun _ => .refl _) rfl
      fun _ _ => .silent rfl rfl).before (Hub.reports_raise (by decide) (by decide) 0 1 _)
  have hgranted : Hub.Reports Door.all changed granted := by
    simp only [granted]
    split
    · exact Hub.reports_grantWaiting changed
    · exact (Hub.Reports.refl changed).all (List.nil_sublist _)
  exact ((hchanged.before hgranted).after (Hub.reports_judgeAutoHalt granted)).after
    (.of_emits (Hub.judgeActivities_emits _) (by decide) (by decide) (by simp) (by simp))

theorem Hub.reports_withdrawByMotion (h : Hub) (d : Door) : Hub.Reports [d] h (h.withdrawByMotion d) := by
  unfold Hub.withdrawByMotion
  (repeat' split) <;> first | exact Hub.reports_self d h | exact Hub.reports_setRelease d _ h

theorem Hub.reports_leaveStandstill (h : Hub) : Hub.Reports Door.all h h.leaveStandstill := by
  unfold Hub.leaveStandstill
  extract_lets changed
  have hchanged : Hub.Reports [] h changed :=
    (Hub.Reports.none (h := h) (g := h.onSensing fun u => { u with standstill := .no }) (fun _ => .refl _) rfl
      fun _ _ => .silent rfl rfl).before (Hub.reports_raise (by decide) (by decide) 0 2 _)
  refine Hub.Reports.after ?_ (.of_emits (Hub.judgeActivities_emits _) (by decide) (by decide) (by simp) (by simp))
  split
  · have hstopped : Hub.Reports [] changed (changed.stopKneel .standstill none) :=
      .of_emits (Hub.stopKneel_emits _ _ _) (by decide) (by decide) (by simp) (by simp)
    exact (hchanged.before hstopped).before
      (.foldl (I := fun _ => True) (fun g d _ => ⟨Hub.reports_withdrawByMotion g d, trivial⟩) Door.all_nodup trivial)
  · exact hchanged.all (List.nil_sublist _)

theorem Hub.reports_wheelPulse (dir : Direction) (h : Hub) : Hub.Reports Door.all h (h.wheelPulse dir) := by
  have hcounted : Hub.Reports [] h (h.counted dir) :=
    .of_emits (kinds := [.path]) (.trans (.silent (h' := h.odometry dir) (by simp) (by simp)) (Hub.pathIncrement_emits _ _ _))
      (by decide) (by decide) (by simp) (by simp)
  rw [Hub.wheelPulse_eq]
  split
  · exact hcounted.before (Hub.reports_leaveStandstill _)
  · exact hcounted.all (List.nil_sublist _)


/-! ## Handles, positions, orders and APPLY -/

theorem Hub.Untold.after {d : Door} {h g f : Hub} (hu : Hub.Untold d h g) (gf : Hub.Reports [] g f) : Hub.Untold d h f := by
  have hsame : ∀ x, (g.door x).Alike (f.door x) := fun x => gf.others x (by simp)
  have hcount := gf.changes
  simp only [List.filter_nil, List.length_nil, Nat.add_zero, BitVec.add_zero] at hcount
  refine ⟨fun d' hd => (hu.others d' hd).trans (hsame d'), (hsame d).1.trans hu.position, (hsame d).2.1.trans hu.release,
    hcount.trans hu.changes, fun kind hk => (hu.silent kind hk).trans ?_⟩
  obtain rfl | rfl := hk
  · exact gf.moved
  · exact gf.told

theorem Hub.reports_handleActs (d : Door) (h : Hub) : Hub.Reports [d] h (h.handleActs d) := by
  unfold Hub.handleActs
  extract_lets fresh asked moved
  have hasked : Hub.Untold d h asked :=
    (Hub.Untold.onDoor (φ := fun x => { x with mark := true }) (fun _ => rfl) (fun _ => rfl) h).after (Hub.reports_requestApply _)
  have hmark : (asked.door d).mark = true := by
    rw [show asked.door d = (h.onDoor d fun x => { x with mark := true }).door d from Hub.requestApply_door _ d]
    rw [Hub.door_onDoor, if_pos rfl]
  refine Hub.Reports.after (g := moved) ?_ (Hub.reports_raise (by decide) (by decide) _ _ _)
  simp only [moved]
  split
  · next hw => exact hasked.setRelease fun _ => .inr fun heq => asked.handleRelease_ne (heq.symm.trans (hasked.release.symm.trans hw))
  · next hw =>
    have hpos : ∀ g : Hub, g.door d = asked.door d → movedDoor h g d = false ∧ releasedDoor h g d = false := fun g hg =>
      ⟨by simp [movedDoor, hg, hasked.position], by simp [releasedDoor, hg, hasked.release]⟩
    have hothers : ∀ d', d' ∉ [d] → (h.door d').Alike (asked.door d') := fun d' hd => hasked.others d' (by simpa using hd)
    cases hfresh : fresh with
    | true =>
      rw [if_pos rfl]
      have hdoor : (asked.raiseRelease d).door d = asked.door d := rfl
      obtain ⟨h1, h2⟩ := hpos (asked.raiseRelease d) hdoor
      have hnew : (h.door d).mark = false := by simpa [fresh] using hfresh
      have h3 : reportedDoor h (asked.raiseRelease d) d = true := by simp [reportedDoor, hdoor, hmark, hnew]
      refine ⟨hothers, by simpa [h1, h2] using hasked.changes, ?_, ?_⟩
      · have hraise : Hub.Sends .doorState [] asked (asked.raiseRelease d) := .raise_of_ne (by decide) _ _ _
        simpa [h1] using (hasked.silent _ (.inl rfl)).trans hraise
      · have hraise : Hub.Sends .doorRelease [reportedEvent (asked.raiseRelease d) d] asked (asked.raiseRelease d) := .raise _ _ _ _
        simpa [h3] using (hasked.silent _ (.inr rfl)).trans hraise
    | false =>
      rw [if_neg Bool.false_ne_true]
      obtain ⟨h1, h2⟩ := hpos asked rfl
      have hold : (h.door d).mark = true := by simpa [fresh] using hfresh
      have h3 : reportedDoor h asked d = false := by simp [reportedDoor, hasked.release, hold]
      exact ⟨hothers, by simpa [h1, h2] using hasked.changes, by simpa [h1] using hasked.silent _ (.inl rfl),
        by simpa [h3] using hasked.silent _ (.inr rfl)⟩

theorem Hub.reports_judgeAtSpeed (h : Hub) (d : Door) : Hub.Reports [d] h (h.judgeAtSpeed d) := by
  unfold Hub.judgeAtSpeed
  split
  · exact (Hub.reports_onDoor (φ := fun x => { x with atSpeed := false }) (fun x => .refl x) h).before (Hub.reports_handleActs d _)
  · exact Hub.reports_self d h

theorem Hub.reports_speedExpiry (dir : Direction) (h : Hub) : Hub.Reports Door.all h (h.speedExpiry dir) :=
  (Hub.Reports.none (h := h) (g := (h.onPins fun u => { u with dir := dir }).onSensing (·.closeBucket dir)) (fun _ => .refl _) rfl
    fun _ _ => .silent rfl rfl).before
    (.foldl (I := fun _ => True) (fun g d _ => ⟨Hub.reports_judgeAtSpeed g d, trivial⟩) Door.all_nodup trivial)

theorem Hub.reports_quietExpiry (h : Hub) : Hub.Reports Door.all h h.quietExpiry := by
  unfold Hub.quietExpiry
  extract_lets quiet
  have hquiet : Hub.Reports [] h quiet := .none (fun _ => .refl _) rfl fun _ _ => .silent rfl rfl
  split
  · exact hquiet.all (List.nil_sublist _)
  · exact hquiet.before (Hub.reports_enterStandstill quiet)

theorem Hub.reports_handleChange (d : Door) (h : Hub) : Hub.Reports [d] h (h.handleChange d) := by
  have hraise : ∀ (φ : DoorHold → DoorHold) (v : Int), (∀ x : DoorHold, x.Alike (φ x)) →
      Hub.Reports [d] h ((h.onDoor d φ).raise .doorEmergency d.num v) := fun φ v hφ =>
    (Hub.reports_self d h).after ((Hub.reports_onDoor hφ h).before (Hub.reports_raise (by decide) (by decide) _ _ _))
  unfold Hub.handleChange
  split
  · refine Hub.Reports.after ?_ (.of_emits (Hub.judgePermit_emits _) (by decide) (by decide) (by simp) (by simp))
    split
    · unfold Hub.handleActive
      split
      · exact Hub.reports_handleActs d h
      · exact hraise (fun x => { x with atSpeed := true }) 2 fun x => .refl x
    · exact hraise (fun x => { x with atSpeed := false }) 0 fun x => .refl x
  · exact Hub.reports_self d h

theorem Hub.reports_positionChange (d : Door) (h : Hub) : Hub.Reports [d] h (h.positionChange d) := by
  unfold Hub.positionChange
  extract_lets now changed
  split
  · exact Hub.reports_self d h
  · next hne =>
    obtain ⟨c, hc⟩ : ∃ c, c = (h.onDoor d fun x => { x with position := now }).onDoors fun u => { u with changes := u.changes + 1 } :=
      ⟨_, rfl⟩
    have hchanged : changed = c.raise .doorState d.num now.num := by rw [hc]
    have hdoor : ∀ d', changed.door d' = if d' = d then { h.door d with position := now } else h.door d' := fun d' => by
      rw [hchanged, hc]
      exact Hub.door_onDoor d d' (fun x => { x with position := now }) h
    have hself : changed.door d = { h.door d with position := now } := by rw [hdoor, if_pos rfl]
    have h1 : movedDoor h changed d = true := by simpa [movedDoor, hself] using Ne.symm hne
    have h2 : releasedDoor h changed d = false := by simp [releasedDoor, hself]
    have h3 : reportedDoor h changed d = false := by simp [reportedDoor, hself]
    have hsilent : ∀ kind, Hub.Sends kind [] h c := fun _ => .silent (by rw [hc]; rfl) (by rw [hc]; rfl)
    have hreport : Hub.Reports [d] h changed := by
      refine ⟨fun d' hd => ?_, ?_, ?_, ?_⟩
      · rw [hdoor, if_neg (by simpa using hd)]
        exact .refl _
      · have hcount : changed.doors.changes = h.doors.changes + 1 := by rw [hchanged, hc]; rfl
        simp [hcount, h1, h2]
      · have hraise : Hub.Sends .doorState [movedEvent changed d] c changed := by
          rw [movedEvent, hself, hchanged]
          exact .raise _ _ _ _
        simpa [h1] using (hsilent _).trans hraise
      · have hraise : Hub.Sends .doorRelease [] c changed := by
          rw [hchanged]
          exact .raise_of_ne (by decide) _ _ _
        simpa [h3] using (hsilent _).trans hraise
    split
    · exact (hreport.after (Hub.reports_judgeAutoHalt changed)).after (Hub.reports_judged _)
    · exact hreport

theorem Hub.reports_debounceExpiry (d : Door) (i : DoorInput) (h : Hub) : Hub.Reports Door.all h (h.debounceExpiry d i) := by
  unfold Hub.debounceExpiry
  extract_lets stopped raw taken
  have hstopped : Hub.Reports [] h stopped :=
    Hub.reports_onDoor (φ := fun x => { x with timers := x.timers.set i .stopped }) (fun x => .refl x) h
  have htaken : Hub.Reports [] h taken := hstopped.before
    (Hub.reports_onDoor (φ := fun x => { x with debounced := withLevel x.debounced i raw }) (fun x => .refl x) _)
  split
  · exact hstopped.all (List.nil_sublist _)
  · cases i with
    | closed | lock => exact (htaken.before (Hub.reports_positionChange d _)).all (Door.singleton_sublist d)
    | handle => exact (htaken.before (Hub.reports_handleChange d _)).all (Door.singleton_sublist d)

theorem serveRelease_reports (payload : List Byte) (h : Hub) : Hub.Reports Door.all h (serveRelease payload h).1 := by
  have hstep : ∀ (mask : DoorMask) (g : Hub) (d : Door), Hub.Reports [d] g (g.releaseDoor mask d) := fun mask g d => by
    unfold Hub.releaseDoor
    split
    · exact Hub.reports_setRelease d _ g
    · exact Hub.reports_self d g
  have hnone := (Hub.Reports.refl h).all (List.nil_sublist _)
  unfold serveRelease
  (repeat' split) <;>
    first
      | exact hnone
      | exact (Hub.Reports.foldl (I := fun _ => True) (fun g d _ => ⟨hstep _ g d, trivial⟩) Door.all_nodup trivial).after
          (Hub.reports_requestApply _)

theorem serveWithdraw_reports (payload : List Byte) (h : Hub) : Hub.Reports Door.all h (serveWithdraw payload h).1 := by
  have hstep : ∀ (mask : DoorMask) (g : Hub) (d : Door), Hub.Reports [d] g (g.withdrawDoor mask d) := fun mask g d => by
    unfold Hub.withdrawDoor
    split
    · refine (Hub.Untold.onDoor (φ := fun x => { x with mark := false }) (fun _ => rfl) (fun _ => rfl) g).setRelease fun hm => ?_
      rw [Hub.door_onDoor, if_pos rfl] at hm
      cases hm
    · exact Hub.reports_self d g
  unfold serveWithdraw
  split
  · exact (Hub.Reports.refl h).all (List.nil_sublist _)
  · exact Hub.Reports.foldl (I := fun _ => True) (fun g d _ => ⟨hstep _ g d, trivial⟩) Door.all_nodup trivial

/-- An APPLY clears the marks of the doors it disables before it withdraws their releases (log entry 10). -/
theorem Hub.reports_installApply (h : Hub) : Hub.Reports Door.all h h.installApply := by
  have hstep : ∀ (g : Hub) (d : Door), Hub.Reports [d] g (g.disableDoor d) := fun g d => by
    unfold Hub.disableDoor
    refine (Hub.Untold.onDoor (φ := fun x => { x with mark := false, atSpeed := false }) (fun _ => rfl) (fun _ => rfl) g).setRelease
      fun hm => ?_
    rw [Hub.door_onDoor, if_pos rfl] at hm
    cases hm
  unfold Hub.installApply Hub.installEnables
  extract_lets disabled masked
  have hmasked : Hub.Reports [] h masked := by
    obtain ⟨m, hm⟩ : ∃ m, m = ((h.installLoad.clampSteer .a3).clampSteer .a4).formRideTargets := ⟨_, rfl⟩
    have hdoors : m.doors = h.doors := by simp [hm]
    refine .none (fun d => ?_) ?_ fun kind _ => .silent ?_ ?_
    · have hmd : m.door d = h.door d := by rw [Hub.door, hdoors, Hub.door]
      have hmask : masked.door d = { m.door d with enabled := m.maskEnables d } := by simp [masked, Hub.door, hm]
      rw [hmask, ← hmd]
      exact ⟨rfl, rfl, rfl⟩
    · have hchanges : masked.doors.changes = m.doors.changes := by rw [hm]; rfl
      rw [hchanges, hdoors]
    · have hclock : masked.clock = m.clock := by rw [hm]; rfl
      rw [hclock, hm]
      simp
    · have hevents : masked.events = m.events := by rw [hm]; rfl
      rw [hevents, hm]
      simp
  have hfold : Hub.Reports disabled masked (disabled.foldl Hub.disableDoor masked) :=
    Hub.Reports.foldl (I := fun _ => True) (fun g d _ => ⟨hstep g d, trivial⟩) (Door.all_nodup.sublist List.filter_sublist) trivial
  exact ((hmasked.before (hfold.all List.filter_sublist)).after (Hub.reports_judged _))

theorem Hub.reports_storeCompletion (code : Byte) (depot : Bool) (h : Hub) : Hub.Reports Door.all h (h.storeCompletion code depot) := by
  have hnone : ∀ g : Hub, Hub.Reports Door.all g g := fun g => (Hub.Reports.refl g).all (List.nil_sublist _)
  have hsilent : ∀ {g f : Hub}, f.clock = g.clock → f.events = g.events → f.doors = g.doors → Hub.Reports [] g f :=
    fun hc he hd => .none (Hub.alike_of_doors hd) (by rw [hd]) fun _ _ => .silent hc he
  unfold Hub.storeCompletion
  split
  · next r _ =>
    split
    · extract_lets pins
      have hpins : Hub.Reports [] h pins := hsilent rfl rfl rfl
      split
      · exact (hpins.before (hsilent (by simp) (by simp) (by simp))).all (List.nil_sublist _)
      · have hfinish : Hub.Reports Door.all pins (pins.finishWork r).1 := by
          obtain ⟨-, -, heq⟩ | ⟨-, heq⟩ := Hub.finishWork_cases r pins
          · rw [heq]; exact Hub.reports_installApply pins
          · rw [heq]
            exact (hsilent (g := pins) (f := { pins with store := (pins.finishWork r).1.store }) rfl rfl rfl).all (List.nil_sublist _)
        rw [Hub.completeOp_eq]
        exact (hpins.before hfinish).after (hsilent (by simp) (by simp) (by simp))
    · exact hnone h
  · exact hnone h

theorem Hub.reports_brakePeriod (h : Hub) : Hub.Reports Door.all h h.brakePeriod := by
  obtain ⟨g, hg⟩ : ∃ g, g = h.takeDemands.setModes.runLoads.formService := ⟨_, rfl⟩
  have hbefore : Hub.Reports [] h g := by
    refine .of_emits (kinds := [.demandStale]) ?_ (by decide) (by decide) ?_ ?_
    · rw [hg]; exact (Hub.takeDemands_emits h).trans (.silent (by simp) (by simp))
    · rw [hg]; exact congrArg DoorUnit.doors h.brakeLoads_alike.doors
    · rw [hg]; exact congrArg DoorUnit.changes h.brakeLoads_alike.doors
  have hconfirm : Hub.Reports Door.all g g.confirmHalt := by
    unfold Hub.confirmHalt
    split
    · split
      · exact (Hub.reports_setHalt .applied g).1
      · next k _ =>
        extract_lets time timed
        have htimed : Hub.Reports [] g timed := .none (fun _ => .refl _) rfl fun _ _ => .silent rfl rfl
        split
        · have hfault : Hub.Reports [] timed (timed.onBrake fun u => { u with haltFault := true }) :=
            .none (fun _ => .refl _) rfl fun _ _ => .silent rfl rfl
          exact ((htimed.before hfault).before (Hub.reports_raise (by decide) (by decide) 0 _ _)).all (List.nil_sublist _)
        · exact htimed.all (List.nil_sublist _)
    · exact (Hub.Reports.refl g).all (List.nil_sublist _)
  have hend : Hub.Reports [] g.confirmHalt h.brakePeriod := by
    have hdoors : h.brakePeriod.doors = g.confirmHalt.doors := by
      rw [Hub.brakePeriod, ← hg]
      exact g.confirmHalt.command_alike.doors
    refine .none (Hub.alike_of_doors hdoors) (by rw [hdoors]) fun kind _ => ?_
    rw [Hub.brakePeriod, ← hg]
    exact .silent (by simp) (by simp)
  exact (hbefore.before hconfirm).after hend


/-! ## Over all commands -/

theorem Hub.exclude_doorHolds (cs : List Circuit) (add : Causes → Causes) (h : Hub) :
    (h.exclude cs add).doors.doors = h.doors.doors ∧ (h.exclude cs add).doors.changes = h.doors.changes := by
  have hstop : ∀ (g : Hub) (c : Circuit),
      (if g.inScope c then g.stopKneel .exclusion (some c) else g).doors.doors = g.doors.doors ∧
        (if g.inScope c then g.stopKneel .exclusion (some c) else g).doors.changes = g.doors.changes := fun g c => by
    split <;> simp
  unfold Hub.exclude
  extract_lets newly marked out handed
  have hout : out.doors = h.doors := by simp [out, marked, foldl_keeps Hub.doors]
  have hhanded : handed.doors.doors = out.doors.doors ∧ handed.doors.changes = out.doors.changes :=
    ⟨foldl_keeps (fun g : Hub => g.doors.doors) _ (fun g c => (hstop g c).1) _ _,
      foldl_keeps (fun g : Hub => g.doors.changes) _ (fun g c => (hstop g c).2) _ _⟩
  simpa [hout] using hhanded

theorem Hub.scanRound_doorHolds (raw : ScanResults) (h : Hub) :
    (h.scanRound raw).doors.doors = h.doors.doors ∧ (h.scanRound raw).doors.changes = h.doors.changes := by
  unfold Hub.scanRound
  extract_lets old published new raised lost found levelled
  have hraised : raised.doors = h.doors := by simp [raised, published]
  have hlevelled : levelled.doors.doors = h.doors.doors ∧ levelled.doors.changes = h.doors.changes := by
    obtain ⟨hd, hc⟩ := Hub.exclude_doorHolds lost (fun x => { x with height := true }) raised
    simp [levelled, hd, hc, hraised]
  split
  · simpa using hlevelled
  · exact hlevelled

theorem Hub.chainComplete_doorHolds (answers : ChainAnswers) (h : Hub) :
    (h.chainComplete answers).doors.doors = h.doors.doors ∧ (h.chainComplete answers).doors.changes = h.doors.changes := by
  by_cases hl : ∃ a, answers = .l a
  · obtain ⟨a, rfl⟩ := hl
    refine Hub.completeL_preserves (P := fun g : Hub => g.doors.doors = h.doors.doors ∧ g.doors.changes = h.doors.changes) a
      (fun _ _ => ⟨rfl, rfl⟩) (fun cs add value g hg => ?_) fun cs drop g hg => by simpa using hg
    obtain ⟨hd, hc⟩ := Hub.exclude_doorHolds cs add (g.raise .chainFault 1 value)
    exact ⟨hd.trans hg.1, hc.trans hg.2⟩
  · have hdoors := (Hub.chainComplete_alike (fun a ha => hl ⟨a, ha⟩) h).doors
    rw [hdoors]
    exact ⟨rfl, rfl⟩

theorem Hub.levellingPeriod_doorHolds (h : Hub) :
    h.levellingPeriod.doors.doors = h.doors.doors ∧ h.levellingPeriod.doors.changes = h.doors.changes := by
  have hjudge : ∀ g : Hub, g.judgeCompletion.doors.doors = g.doors.doors ∧ g.judgeCompletion.doors.changes = g.doors.changes :=
    fun g => by
      unfold Hub.judgeCompletion
      (repeat' split) <;> simp
  have hlevel : ∀ (φ : Levelling → Levelling) (g : Hub), (g.onLevel φ).doors = g.doors := fun _ _ => rfl
  rw [Hub.levellingPeriod_eq, hlevel, (hjudge _).1, (hjudge _).2, h.levellingWork_alike.doors]
  exact ⟨rfl, rfl⟩

/-- What a service reports, its order reports. -/
theorem Hub.order_reports {f : Service} (hf : ∀ g : Hub, Hub.Reports Door.all g (f g).1) (q : Request) (code : Byte) (c : AccessClass)
    (h : Hub) : Hub.Reports Door.all h (h.order q code c f) := by
  have hsilent : ∀ {g k : Hub}, k.clock = g.clock → k.events = g.events → k.doors = g.doors → Hub.Reports [] g k :=
    fun hc he hd => .none (Hub.alike_of_doors hd) (by rw [hd]) fun _ _ => .silent hc he
  have hserved : Hub.Reports Door.all (h.judged q) (whenLoaded (whenAllowed q.port c f) (h.judged q)).1 := by
    unfold whenLoaded whenAllowed
    split
    · split
      · exact hf _
      · exact (hsilent (g := h.judged q) (k := (h.judged q).onPort q.port fun u => { u with denied := u.denied + 1 }) rfl rfl rfl).all
          (List.nil_sublist _)
    · exact (Hub.Reports.refl _).all (List.nil_sublist _)
  have hreply : ∀ (a : Answer) (g : Hub), Hub.Reports Door.all h g → Hub.Reports Door.all h (g.reply q.port code q.tag a) :=
    fun a g hg => hg.after (hsilent rfl rfl rfl)
  rw [Hub.order, Hub.exchange_eq]
  exact hreply _ _ ((hsilent (g := h) (k := h.judged q) rfl rfl rfl).before hserved)

theorem serveHaltOn_reports (h : Hub) : Hub.Reports Door.all h (serveHaltOn h).1 := by
  have hnone := (Hub.Reports.refl h).all (List.nil_sublist _)
  unfold serveHaltOn
  (repeat' split) <;> first | exact hnone | exact (Hub.reports_setHalt _ h).1

theorem serveHaltOff_reports (h : Hub) : Hub.Reports Door.all h (serveHaltOff h).1 := by
  have hnone := (Hub.Reports.refl h).all (List.nil_sublist _)
  unfold serveHaltOff
  (repeat' split) <;> first | exact hnone | exact (Hub.reports_setHalt _ h).1

theorem Hub.reports_writeAndSetKneel (source : TargetSource) (new : KneelState) (h : Hub) :
    Hub.Reports Door.all h ((h.writeTargets source).setKneel new) := by
  refine (Hub.Reports.of_emits (h := h) (.trans (.silent (h' := h.writeTargets source) rfl rfl) (Hub.setKneel_emits new _)) (by decide)
    (by decide) ?_ ?_).all (List.nil_sublist _)
  · rw [(Hub.setKneel_doors new _).1]; rfl
  · rw [(Hub.setKneel_doors new _).2.2]; rfl

theorem serveKneel_reports (h : Hub) : Hub.Reports Door.all h (serveKneel h).1 := by
  have hnone := (Hub.Reports.refl h).all (List.nil_sublist _)
  unfold serveKneel
  (repeat' split) <;> first | exact hnone | exact Hub.reports_writeAndSetKneel _ _ h

theorem serveRaise_reports (h : Hub) : Hub.Reports Door.all h (serveRaise h).1 := by
  have hnone := (Hub.Reports.refl h).all (List.nil_sublist _)
  unfold serveRaise
  split <;> first | exact hnone | exact Hub.reports_writeAndSetKneel _ _ h

/-- Every command's reports, the resets, the load, TAKE and ROUTE WRITE apart (R122, R124, R126, R131). -/
theorem Hub.after_reports {c : Instr} {h : Hub} (hr : resetsPart h c = false) (hl : ∀ x, c ≠ .activeSetLoad x)
    (ht : ∀ q code, c ≠ .take q code) (hw : ∀ q, c ≠ .routeWrite q) (w : Between) : Hub.Reports Door.all h (h.after w c) := by
  have hif : ∀ {b : Prop} [Decidable b] {g : Hub}, Hub.Reports Door.all h g → Hub.Reports Door.all h (if b then g else h) := by
    intro b _ g hg
    split
    · exact hg
    · exact (Hub.Reports.refl h).all (List.nil_sublist _)
  have hemits : ∀ {kinds : List EventKind} {g : Hub}, h.Emits kinds g → .doorState ∉ kinds → .doorRelease ∉ kinds →
      g.doors.doors = h.doors.doors ∧ g.doors.changes = h.doors.changes → Hub.Reports Door.all h g := fun he hs hr hd =>
    (Hub.Reports.of_emits he hs hr hd.1 hd.2).all (List.nil_sublist _)
  cases c
  case powerOnReset | rstLine => exact Bool.noConfusion hr
  case activeSetLoad x => exact absurd rfl (hl x)
  case take q code => exact absurd rfl (ht q code)
  case scanRound raw => exact hif (hemits (Hub.scanRound_emits raw h) (by decide) (by decide) (h.scanRound_doorHolds raw))
  case chainRefreshComplete answers =>
    exact hif (hemits (Hub.chainComplete_emits answers h) (by decide) (by decide) (h.chainComplete_doorHolds answers))
  case levellingTimerExpiry => exact hif (hemits h.levellingPeriod_emits (by decide) (by decide) h.levellingPeriod_doorHolds)
  case wheelPulse i dir => exact hif (h.reports_wheelPulse dir)
  case speedTimerExpiry dir => exact hif (h.reports_speedExpiry dir)
  case quietTimerExpiry => exact hif h.reports_quietExpiry
  case brakeTimerExpiry => exact hif h.reports_brakePeriod
  case debounceTimerExpiry d i => exact hif (h.reports_debounceExpiry d i)
  case haltOn q => exact Hub.order_reports serveHaltOn_reports q _ _ h
  case haltOff q => exact Hub.order_reports serveHaltOff_reports q _ _ h
  case release q => exact Hub.order_reports (serveRelease_reports _) q _ _ h
  case withdraw q => exact Hub.order_reports (serveWithdraw_reports _) q _ _ h
  case kneel q => exact Hub.order_reports serveKneel_reports q _ _ h
  case raise q => exact Hub.order_reports serveRaise_reports q _ _ h
  case storeReadCompletion | storeWriteCompletion | storeCloseCompletion | storeLockCompletion | blankTestCompletion
      | storeClearCompletion | applyCompletion => exact Hub.reports_storeCompletion _ _ h
  case jointTimerExpiry => exact hif (hemits h.jointPeriod_emits (by decide) (by decide) (by simp))
  case doorInputChange d i level =>
    exact hif ((Hub.reports_onDoor (φ := fun x => { x with raw := withLevel x.raw i level, timers := x.timers.set i .started })
      (fun x => .refl x) h).all (List.nil_sublist _))
  case routeWrite q => exact absurd rfl (hw q)
  case hubReset q =>
    have hkeeps : ∀ {γ : Type} (π : Hub → γ), (∀ (g : Hub) p φ, π (g.onPort p φ) = π g) → (∀ (g : Hub) φ, π (g.onPins φ) = π g) →
        π (h.after w (.hubReset q)) = π h := fun π hp hq =>
      Hub.hubReset_refused_keeps π hr (fun p φ g => hp g p φ) fun φ g => hq g φ
    have hdoors := hkeeps Hub.doors (fun _ _ _ => rfl) fun _ _ => rfl
    exact (Hub.Reports.none (Hub.alike_of_doors hdoors) (by rw [hdoors]) fun _ _ =>
      .silent (hkeeps Hub.clock (fun _ _ _ => rfl) fun _ _ => rfl) (hkeeps Hub.events (fun _ _ _ => rfl) fun _ _ => rfl)).all
        (List.nil_sublist _)
  all_goals exact (Hub.Reports.none (Hub.alike_of_doors (by simp)) (by simp) fun _ _ => .silent (by simp) (by simp)).all (List.nil_sublist _)

/-- The reports of a command in the terms of O51. -/
theorem Hub.Reports.spelt {h g : Hub} (hr : Hub.Reports Door.all h g) :
    let moved := Door.all.filter fun d => decide ((g.door d).position ≠ (h.door d).position)
    let released := Door.all.filter fun d => decide ((g.door d).release ≠ (h.door d).release)
    let reported := Door.all.filter fun d => decide ((g.door d).release ≠ (h.door d).release) || ((g.door d).mark && !(h.door d).mark)
    g.doors.changes = h.doors.changes + BitVec.ofNat 16 (moved.length + released.length) ∧
    h.Raises g .doorState (moved.map (movedEvent g)) ∧ h.Raises g .doorRelease (reported.map (reportedEvent g)) :=
  ⟨hr.changes, hr.moved.raises, hr.told.raises⟩


/-! ## An expiry of a debounce timer -/

/-- The part once a debounce timer has taken the raw level (R123). -/
def Hub.debounced (d : Door) (i : DoorInput) (h : Hub) : Hub :=
  h.onDoor d fun x => { x with
    timers := x.timers.set i .stopped, debounced := withLevel x.debounced i (levelOf (h.door d).raw i) }

theorem Hub.debounceExpiry_of_eq {d : Door} {i : DoorInput} {h : Hub} (he : levelOf (h.door d).debounced i = levelOf (h.door d).raw i) :
    h.debounceExpiry d i = h.onDoor d fun x => { x with timers := x.timers.set i .stopped } := by
  unfold Hub.debounceExpiry
  exact if_pos he

theorem Hub.debounceExpiry_of_ne {d : Door} {i : DoorInput} {h : Hub} (hn : levelOf (h.door d).debounced i ≠ levelOf (h.door d).raw i) :
    h.debounceExpiry d i = if i = .handle then (h.debounced d i).handleChange d else (h.debounced d i).positionChange d := by
  have htaken : (h.onDoor d fun x => { x with timers := x.timers.set i .stopped }).onDoor d (fun x => { x with
      debounced := withLevel x.debounced i (levelOf (h.door d).raw i) }) = h.debounced d i := Hub.onDoor_onDoor ..
  unfold Hub.debounceExpiry
  extract_lets stopped raw taken
  rw [if_neg hn, ← htaken]
  cases i <;> rfl

theorem Hub.debounced_door (d : Door) (i : DoorInput) (h : Hub) (d' : Door) : (h.debounced d i).door d' =
    if d' = d then { h.door d with
      timers := (h.door d).timers.set i .stopped, debounced := withLevel (h.door d).debounced i (levelOf (h.door d).raw i) }
    else h.door d' :=
  Hub.door_onDoor ..

/-! ### A change of position -/

theorem Hub.positionChange_door (d d' : Door) (h : Hub) : (h.positionChange d).door d' =
    if d' = d then { h.door d with position := positionOf (h.door d).debounced } else h.door d' := by
  unfold Hub.positionChange
  extract_lets now changed
  have hdoor : changed.door d' = if d' = d then { h.door d with position := now } else h.door d' :=
    Hub.door_onDoor d d' (fun x => { x with position := now }) h
  split
  · next heq =>
    split
    · next hd => rw [hd, ← show (h.door d).position = positionOf (h.door d).debounced from heq]
    · rfl
  · split
    · rw [Hub.judgePermit_door, Hub.judgeCondition_door, Hub.judgeAutoHalt_door, hdoor]
    · exact hdoor

/-- A position that changes at standstill with an enabled door not CLOSED_LOCKED asks for the halt brake (R134). -/
def Hub.positionAsks (d : Door) (h : Hub) : Prop :=
  (h.door d).enabled = true ∧ (h.positionChange d).door d ≠ h.door d ∧ h.standing = true ∧ (h.positionChange d).doorsLocked = false

theorem Hub.positionChange_brake (d : Door) (h : Hub) : (h.positionAsks d → (h.positionChange d).brake = h.requestApply.brake) ∧
    (¬h.positionAsks d → (h.positionChange d).brake = h.brake) := by
  have hmoved : (h.positionChange d).door d ≠ h.door d ↔ (h.door d).position ≠ positionOf (h.door d).debounced := by
    rw [Hub.positionChange_door, if_pos rfl]
    refine not_congr ⟨fun heq => ?_, fun heq => ?_⟩
    · exact (congrArg DoorHold.position heq).symm
    · rw [← heq]
  unfold Hub.positionAsks
  rw [hmoved]
  by_cases hpos : (h.door d).position = positionOf (h.door d).debounced
  · rw [show h.positionChange d = h from if_pos hpos]
    exact ⟨fun ha => absurd hpos ha.2.1, fun _ => rfl⟩
  · obtain ⟨c, hc⟩ : ∃ c, c = ((h.onDoor d fun x => { x with position := positionOf (h.door d).debounced }).onDoors fun u =>
        { u with changes := u.changes + 1 }).raise .doorState d.num (positionOf (h.door d).debounced).num := ⟨_, rfl⟩
    have heq : h.positionChange d = if (h.door d).enabled then c.judgeAutoHalt.judgeCondition.judgePermit else c := by
      rw [hc]
      exact if_neg hpos
    have hlocked : (h.positionChange d).doorsLocked = c.doorsLocked := Hub.doorsLocked_of_doors fun d' => by
      rw [heq]
      split
      · rw [Hub.judgePermit_door, Hub.judgeCondition_door, Hub.judgeAutoHalt_door]
        exact ⟨rfl, rfl⟩
      · exact ⟨rfl, rfl⟩
    have hbrake : c.brake = h.brake := by rw [hc]; rfl
    have hstanding : c.standing = h.standing := by rw [hc]; rfl
    have happly : c.requestApply.brake = h.requestApply.brake := by rw [Hub.requestApply_brake, Hub.requestApply_brake, hbrake]
    rw [hlocked, heq]
    cases hen : (h.door d).enabled with
    | false => exact ⟨fun ha => absurd ha.1 nofun, fun _ => hbrake⟩
    | true =>
      rw [if_pos rfl]
      have hjudged : c.judgeAutoHalt.judgeCondition.judgePermit.brake = c.judgeAutoHalt.brake := by simp
      rw [hjudged]
      unfold Hub.judgeAutoHalt
      rw [hstanding]
      constructor
      · rintro ⟨-, -, hs, hl⟩
        rw [if_pos ⟨hs, hl⟩, happly]
      · intro hno
        rw [if_neg fun hboth => hno ⟨rfl, hpos, hboth⟩, hbrake]

theorem Hub.requestApply_condition (h : Hub) : h.requestApply.doors.condition = h.doors.condition := by
  unfold Hub.requestApply
  split
  · simp [Hub.setHalt]
  · rfl

theorem Hub.judgeAutoHalt_condition (h : Hub) : h.judgeAutoHalt.doors.condition = h.doors.condition := by
  unfold Hub.judgeAutoHalt
  split
  · exact Hub.requestApply_condition h
  · rfl

theorem Hub.carriesRaise_positionChange (d : Door) (h : Hub) : h.CarriesRaise (h.positionChange d) := by
  unfold Hub.positionChange
  extract_lets now changed
  have hchanged : changed.kneel = h.kneel ∧ changed.level = h.level ∧ changed.store = h.store ∧
      changed.doors.condition = h.doors.condition := ⟨rfl, rfl, rfl, rfl⟩
  obtain ⟨hkneel, hlevel, hstore, hcondition⟩ := hchanged
  split
  · exact .of_same rfl rfl rfl rfl
  · split
    · obtain ⟨hk, hl⟩ := Hub.judgeAutoHalt_kneel changed
      refine (Hub.carriesRaise_judgeCondition changed.judgeAutoHalt).of_units (hkneel.symm.trans hk.symm) (hlevel.symm.trans hl.symm)
        (by simp [hstore]) (hcondition.symm.trans (Hub.judgeAutoHalt_condition changed).symm) (by simp) (by simp) (by simp) (by simp)
    · exact .of_same hkneel hlevel hstore hcondition

/-- A disabled door's position acts on nothing else (R125). -/
theorem Hub.positionChange_of_disabled {d : Door} {h : Hub} (hen : (h.door d).enabled = false) :
    h.positionChange d = { h with
      events := (h.positionChange d).events
      doors := { h.doors with doors := (h.positionChange d).doors.doors, changes := (h.positionChange d).doors.changes } } ∧
    ∀ kind, kind ≠ .doorState → Hub.Sends kind [] h (h.positionChange d) := by
  unfold Hub.positionChange
  extract_lets now changed
  split
  · exact ⟨rfl, fun _ _ => .refl h⟩
  · rw [hen, if_neg Bool.false_ne_true]
    refine ⟨rfl, fun kind hk => ?_⟩
    exact (Hub.Sends.silent (h := h) (g := (h.onDoor d fun x => { x with position := now }).onDoors fun u =>
      { u with changes := u.changes + 1 }) rfl rfl).trans (.raise_of_ne hk _ _ _)

/-! ### A change of a handle -/

/-- What a change of the handle makes of an enabled door (R131 to R133). -/
def Hub.handled (d : Door) (h : Hub) : DoorHold :=
  if (h.door d).debounced.handle then
    if h.sensing.speed ≤ h.vEmerg then { h.door d with mark := true, release := h.handleRelease (h.door d).release }
    else { h.door d with atSpeed := true }
  else { h.door d with atSpeed := false }

theorem Hub.handleChange_of_disabled {d : Door} {h : Hub} (hen : (h.door d).enabled = false) : h.handleChange d = h := by
  unfold Hub.handleChange
  rw [hen, if_neg Bool.false_ne_true]

theorem Hub.handleChange_of_acts {d : Door} {h : Hub} (hen : (h.door d).enabled = true) (hh : (h.door d).debounced.handle = true)
    (hs : h.sensing.speed ≤ h.vEmerg) : h.handleChange d = (h.handleActs d).judgePermit := by
  unfold Hub.handleChange Hub.handleActive
  rw [if_pos hen, if_pos hh, if_pos hs]

theorem Hub.handleChange_of_waits {d : Door} {h : Hub} (hen : (h.door d).enabled = true) (hh : (h.door d).debounced.handle = true)
    (hs : ¬h.sensing.speed ≤ h.vEmerg) :
    h.handleChange d = ((h.onDoor d fun x => { x with atSpeed := true }).raise .doorEmergency d.num 2).judgePermit := by
  unfold Hub.handleChange Hub.handleActive
  rw [if_pos hen, if_pos hh, if_neg hs]

theorem Hub.handleChange_of_reset {d : Door} {h : Hub} (hen : (h.door d).enabled = true) (hh : (h.door d).debounced.handle = false) :
    h.handleChange d = ((h.onDoor d fun x => { x with atSpeed := false }).raise .doorEmergency d.num 0).judgePermit := by
  unfold Hub.handleChange Hub.handleInactive
  rw [if_pos hen, hh, if_neg Bool.false_ne_true]

theorem Hub.handleChange_door {d : Door} {h : Hub} (hen : (h.door d).enabled = true) (d' : Door) : (h.handleChange d).door d' =
    if d' = d then h.handled d else h.door d' := by
  unfold Hub.handled
  cases hh : (h.door d).debounced.handle with
  | false =>
    rw [Hub.handleChange_of_reset hen hh, Hub.judgePermit_door, if_neg Bool.false_ne_true]
    exact Hub.door_onDoor d d' (fun x => { x with atSpeed := false }) h
  | true =>
    rw [if_pos rfl]
    by_cases hs : h.sensing.speed ≤ h.vEmerg
    · rw [Hub.handleChange_of_acts hen hh hs, Hub.judgePermit_door, Hub.handleActs_door, if_pos hs]
    · rw [Hub.handleChange_of_waits hen hh hs, Hub.judgePermit_door, if_neg hs]
      exact Hub.door_onDoor d d' (fun x => { x with atSpeed := true }) h

theorem Hub.handleChange_brake (d : Door) (h : Hub) : (h.handleChange d).brake =
    if (h.door d).enabled = true ∧ (h.door d).debounced.handle = true ∧ h.sensing.speed ≤ h.vEmerg then h.requestApply.brake
    else h.brake := by
  cases hen : (h.door d).enabled with
  | false => rw [Hub.handleChange_of_disabled hen, if_neg (by simp)]
  | true =>
    cases hh : (h.door d).debounced.handle with
    | false =>
      rw [Hub.handleChange_of_reset hen hh, if_neg (by simp)]
      simp
    | true =>
      by_cases hs : h.sensing.speed ≤ h.vEmerg
      · rw [Hub.handleChange_of_acts hen hh hs, if_pos ⟨rfl, rfl, hs⟩, ← (Hub.handleActs_kept d h).2.2]
        simp
      · rw [Hub.handleChange_of_waits hen hh hs, if_neg fun hall => hs hall.2.2]
        simp

theorem Hub.handleChange_sends {d : Door} {h : Hub} (hen : (h.door d).enabled = true) : Hub.Sends .doorEmergency
    [(d.num, if (h.door d).debounced.handle = false then 0 else if h.sensing.speed ≤ h.vEmerg then 1 else 2)] h (h.handleChange d) := by
  have hpermit : ∀ g : Hub, Hub.Sends .doorEmergency [] g g.judgePermit := fun g => .of_emits (Hub.judgePermit_emits g) (by decide)
  have hraise : ∀ (φ : DoorHold → DoorHold) (v : Int),
      Hub.Sends .doorEmergency [(d.num, v)] h ((h.onDoor d φ).raise .doorEmergency d.num v).judgePermit := fun φ v =>
    ((Hub.Sends.silent (h := h) (g := h.onDoor d φ) rfl rfl).trans (.raise .doorEmergency d.num v _)).trans_silent (hpermit _)
  cases hh : (h.door d).debounced.handle with
  | false =>
    rw [Hub.handleChange_of_reset hen hh]
    exact hraise (fun x => { x with atSpeed := false }) 0
  | true =>
    by_cases hs : h.sensing.speed ≤ h.vEmerg
    · rw [Hub.handleChange_of_acts hen hh hs]
      simpa [hs] using (Hub.handleActs_sends d h).trans_silent (hpermit _)
    · rw [Hub.handleChange_of_waits hen hh hs]
      simpa [hs] using hraise (fun x => { x with atSpeed := true }) 2

theorem Hub.carriesRaise_handleActs (d : Door) (h : Hub) : h.CarriesRaise (h.handleActs d) := by
  unfold Hub.handleActs
  extract_lets fresh asked moved
  have hasked : asked.kneel = h.kneel ∧ asked.level = h.level ∧ asked.store = h.store ∧
      asked.doors.condition = h.doors.condition :=
    ⟨(Hub.requestApply_kneel _).1, (Hub.requestApply_kneel _).2, by simp [asked], Hub.requestApply_condition _⟩
  obtain ⟨hk, hl, hs, hc⟩ := hasked
  have hmoved : h.CarriesRaise moved := by
    simp only [moved]
    split
    · exact (Hub.carriesRaise_setRelease d _ asked).of_units hk.symm hl.symm hs.symm hc.symm rfl rfl rfl rfl
    · split
      · exact .of_same hk hl hs hc
      · exact .of_same hk hl hs hc
  exact hmoved.of_units rfl rfl rfl rfl rfl rfl rfl rfl

theorem Hub.carriesRaise_handleChange (d : Door) (h : Hub) : h.CarriesRaise (h.handleChange d) := by
  have hpermit : ∀ {g : Hub}, h.CarriesRaise g → h.CarriesRaise g.judgePermit := fun hg =>
    hg.of_units rfl rfl rfl rfl (by simp) (by simp) (by simp) (by simp)
  cases hen : (h.door d).enabled with
  | false => rw [Hub.handleChange_of_disabled hen]; exact .of_same rfl rfl rfl rfl
  | true =>
    cases hh : (h.door d).debounced.handle with
    | false => rw [Hub.handleChange_of_reset hen hh]; exact hpermit (.of_same rfl rfl rfl rfl)
    | true =>
      by_cases hs : h.sensing.speed ≤ h.vEmerg
      · rw [Hub.handleChange_of_acts hen hh hs]; exact hpermit (Hub.carriesRaise_handleActs d h)
      · rw [Hub.handleChange_of_waits hen hh hs]; exact hpermit (.of_same rfl rfl rfl rfl)

theorem Hub.handleChange_other {d d' : Door} (hd : d' ≠ d) (h : Hub) : (h.handleChange d).door d' = h.door d' := by
  cases hen : (h.door d).enabled with
  | false => rw [Hub.handleChange_of_disabled hen]
  | true => rw [Hub.handleChange_door hen, if_neg hd]

/-- Levels, timers, position and enable are no business of the handle. -/
theorem Hub.handleChange_kept (d : Door) (h : Hub) : ((h.handleChange d).door d).raw = (h.door d).raw ∧
    ((h.handleChange d).door d).debounced = (h.door d).debounced ∧ ((h.handleChange d).door d).timers = (h.door d).timers ∧
    ((h.handleChange d).door d).enabled = (h.door d).enabled ∧ ((h.handleChange d).door d).position = (h.door d).position := by
  cases hen : (h.door d).enabled with
  | false =>
    rw [Hub.handleChange_of_disabled hen]
    exact ⟨rfl, rfl, rfl, hen, rfl⟩
  | true =>
    rw [Hub.handleChange_door hen, if_pos rfl]
    unfold Hub.handled
    (repeat' split) <;> exact ⟨rfl, rfl, rfl, hen, rfl⟩

theorem Hub.doorsLocked_eq_false (h : Hub) :
    h.doorsLocked = false ↔ ∃ d, (h.door d).enabled = true ∧ (h.door d).position ≠ .closedLocked := by
  rw [Hub.doorsLocked, List.all_eq_false]
  constructor
  · rintro ⟨d, -, hd⟩
    simp only [Bool.or_eq_true, Bool.not_eq_true', beq_iff_eq, not_or, Bool.not_eq_false] at hd
    exact ⟨d, hd⟩
  · rintro ⟨d, hen, hpos⟩
    exact ⟨d, Door.mem_all d, by simp [hen, hpos]⟩

/-! ### The obligation -/

/-- Settles O51: the reports of every command, and an expiry of a debounce timer by what changed. -/
theorem doorInputs : Obligations.DoorInputs := by
  refine ⟨fun s t c hexec hr hl ht => ?_, fun s d i level hloaded hne => ?_, fun s d i hdue => ?_⟩
  · obtain rfl := hub_of_exec hexec
    have hposition : ∀ (g : Hub) (d : Door), movedEvent g d = (d.num, match (g.door d).position with
        | .closedLocked => 0
        | .closed => 1
        | .opened => 2
        | .switchFault => 3) := fun g d => by
      unfold movedEvent
      cases (g.door d).position <;> rfl
    have hrelease : ∀ (g : Hub) (d : Door), reportedEvent g d = ((d.num, (match (g.door d).release with
        | .withdrawn => 0
        | .waiting => 1
        | .granted => 2) + if (g.door d).mark then 4 else 0) : Nat × Int) := fun g d => by
      unfold reportedEvent
      cases (g.door d).release <;> rfl
    by_cases hw : ∃ q, c = .routeWrite q
    · obtain ⟨q, rfl⟩ := hw
      have hdoors : (s.hub.after s.between (.routeWrite q)).doors = s.hub.doors := by simp
      have hnil : ∀ kind, s.hub.Raises (s.hub.after s.between (.routeWrite q)) kind [] := fun kind =>
        Hub.after_raises_nil rfl ht (by simp [emittedBy]) s.between
      have hdoor : ∀ d, (s.hub.after s.between (.routeWrite q)).door d = s.hub.door d := fun d => by rw [Hub.door, hdoors, Hub.door]
      simp only [hdoor, hdoors, ne_eq, not_true_eq_false, decide_false, Bool.and_not_self, Bool.or_self]
      refine ⟨by simp, by simpa using hnil _, by simpa using hnil _⟩
    · obtain ⟨hcount, hmoved, htold⟩ := (Hub.after_reports hr hl ht (fun q hq => hw ⟨q, hq⟩) s.between).spelt
      rw [List.map_congr_left fun d _ => hposition _ d] at hmoved
      rw [List.map_congr_left fun d _ => hrelease _ d] at htold
      exact ⟨hcount, hmoved, htold⟩
  · refine exec_of_after ?_
    simp only [Hub.after]
    rw [if_pos ⟨hloaded, hne⟩]
    rfl
  · have hafter : s.hub.after s.between (.debounceTimerExpiry d i) = s.hub.debounceExpiry d i := by simp [Hub.after, hdue]
    dsimp only
    refine ⟨fun heq => ?_, fun hne => ?_⟩
    · refine exec_of_after (hafter.trans ?_)
      rw [Hub.debounceExpiry_of_eq heq]
      rfl
    · obtain ⟨m, hm⟩ : ∃ m, m = s.hub.debounced d i := ⟨_, rfl⟩
      have heq := hafter.trans (Hub.debounceExpiry_of_ne hne)
      rw [← hm] at heq
      have hmd : ∀ d', m.door d' = if d' = d then { s.hub.door d with
          timers := (s.hub.door d).timers.set i .stopped
          debounced := withLevel (s.hub.door d).debounced i (levelOf (s.hub.door d).raw i) } else s.hub.door d' := fun d' => by
        rw [hm]; exact Hub.debounced_door d i s.hub d'
      have hself : m.door d = { s.hub.door d with
          timers := (s.hub.door d).timers.set i .stopped
          debounced := withLevel (s.hub.door d).debounced i (levelOf (s.hub.door d).raw i) } := by rw [hmd, if_pos rfl]
      have hbody : (s.hub.debounceExpiry d i).link.body = s.hub.link.body := (Hub.debounceExpiry_core d i s.hub).2
      have hraise : s.hub.CarriesRaise (s.hub.debounceExpiry d i) := by
        rw [← hafter, heq]
        split
        · exact (Hub.carriesRaise_handleChange d m).of_units (by rw [hm]; rfl) (by rw [hm]; rfl) (by rw [hm]; rfl) (by rw [hm]; rfl)
            rfl rfl rfl rfl
        · exact (Hub.carriesRaise_positionChange d m).of_units (by rw [hm]; rfl) (by rw [hm]; rfl) (by rw [hm]; rfl) (by rw [hm]; rfl)
            rfl rfl rfl rfl
      rw [hafter] at heq
      have hkept : s.hub.autoRaiseOn = false ∨ (s.hub.kneel.state ≠ .lowering ∧ s.hub.kneel.state ≠ .knelt) →
          (s.hub.debounceExpiry d i).kneel = s.hub.kneel ∧ (s.hub.debounceExpiry d i).level = s.hub.level := fun hno =>
        hraise.kept fun hr => by
          obtain ⟨⟨hon, hlow⟩, -⟩ := hr
          obtain hoff | ⟨hl, hk⟩ := hno
          · simp [hon] at hoff
          · exact hlow.elim hl hk
      have hlink := Link.eq_of_body hbody
      have hmen : (m.door d).enabled = (s.hub.door d).enabled := by rw [hself]
      have hmrel : (m.door d).release = (s.hub.door d).release := by rw [hself]
      have hmmark : (m.door d).mark = (s.hub.door d).mark := by rw [hself]
      have hmat : (m.door d).atSpeed = (s.hub.door d).atSpeed := by rw [hself]
      have hmpos : (m.door d).position = (s.hub.door d).position := by rw [hself]
      have hsensing : m.sensing = s.hub.sensing := by rw [hm]; rfl
      have hemerg : m.vEmerg = s.hub.vEmerg := by rw [hm]; rfl
      have hbrake : m.brake = s.hub.brake := by rw [hm]; rfl
      have hsilent : ∀ kind, Hub.Sends kind [] s.hub m := fun _ => .silent (by rw [hm]; rfl) (by rw [hm]; rfl)
      have hrequest : m.requestApply.brake = s.hub.requestApply.brake := by
        rw [Hub.requestApply_brake, Hub.requestApply_brake, hbrake]
      have hasked : ∀ {asks : Prop} {b : Brake}, (asks → b = s.hub.requestApply.brake) → (¬asks → b = s.hub.brake) →
          (asks → s.hub.brake.halt = .released →
            b = { s.hub.brake with halt := .applying, applying := .running 0, haltFault := false }) ∧
          (¬asks ∨ s.hub.brake.halt ≠ .released → b = s.hub.brake) := by
        intro asks b hyes hno
        refine ⟨fun ha hr => ?_, fun hkeep => ?_⟩
        · rw [hyes ha, Hub.requestApply_brake, if_pos hr]
        · by_cases ha : asks
          · rw [hyes ha, Hub.requestApply_brake, if_neg (hkeep.resolve_left fun hn => hn ha)]
          · exact hno ha
      refine ⟨_, exec_of_after hafter, rfl, ?_⟩
      dsimp only
      by_cases hi : i = .handle
      · subst hi
        rw [if_pos rfl] at heq
        obtain ⟨hraw, hdeb, htimers, henabled, hposition⟩ := Hub.handleChange_kept d m
        rw [hself] at hraw hdeb htimers henabled hposition
        have hmh : (m.door d).debounced.handle = levelOf (s.hub.door d).raw .handle := by rw [hself]; rfl
        rw [heq] at hkept hraise hlink ⊢
        refine ⟨hraw, hdeb, htimers, henabled, fun d' hd => ?_, ?_, fun _ hno => absurd rfl hno, fun hen _ => ?_, ?_, hlink, hkept,
          fun hon hlow _ => ⟨fun hno => hraise.kept fun hr => hno hr.2, fun hr =>
            ⟨(hraise.raised ⟨hon, hlow⟩ hr.1 hr.2).kneel, (hraise.raised ⟨hon, hlow⟩ hr.1 hr.2).level⟩⟩, fun hno => absurd rfl hno, fun _ => ⟨hposition, ?_⟩, ?_⟩
        · rw [Hub.handleChange_other hd, hmd, if_neg hd]
        · rw [if_pos rfl]
          have hb := Hub.handleChange_brake d m
          rw [hmen, hmh, hsensing, hemerg, hrequest, hbrake] at hb
          refine hasked (fun ha => ?_) fun hno => ?_
          · rw [hb, if_pos ha]
          · rw [hb, if_neg hno]
        · have hoff : (m.door d).enabled = false := by rw [hself]; exact hen
          rw [Hub.handleChange_of_disabled hoff, hm]
          rfl
        · cases hen : (s.hub.door d).enabled with
          | false =>
            have hoff : (m.door d).enabled = false := by rw [hself]; exact hen
            rw [Hub.handleChange_of_disabled hoff, if_neg (by simp)]
            exact (hsilent _).raises
          | true =>
            have hon : (m.door d).enabled = true := by rw [hself]; exact hen
            have hsends := (hsilent _).trans (Hub.handleChange_sends hon)
            rw [hmh, hsensing, hemerg] at hsends
            rw [if_pos ⟨rfl, rfl⟩]
            exact hsends.raises
        · have hhandled : (s.hub.door d).enabled = true → (m.handleChange d).door d = m.handled d := fun hen => by
            rw [Hub.handleChange_door (hmen.trans hen), if_pos rfl]
          have hrule : ∀ r, m.handleRelease r = match r with
              | .withdrawn => if s.hub.sensing.standstill = .yes ∧ s.hub.brake.halt = .applied then .granted else .waiting
              | y => y := fun r => by
            rw [Hub.handleRelease_congr (h := s.hub) (by simp only [Hub.standing, hsensing]) (by rw [hbrake])]
            unfold Hub.handleRelease
            cases r <;> simp [Hub.standing]
          refine ⟨fun hen hraw hslow => ?_, fun hen hraw hfast => ?_, fun hen hraw => ?_⟩
          all_goals rw [hhandled hen, Hub.handled, hmh, hraw]
          · rw [if_pos rfl, if_pos (by rw [hsensing, hemerg]; exact hslow)]
            exact ⟨rfl, hmat, by rw [← hmrel]; exact hrule _⟩
          · rw [if_pos rfl, if_neg (by rw [hsensing, hemerg]; omega)]
            exact ⟨rfl, hmmark, hmrel⟩
          · rw [if_neg Bool.false_ne_true]
            exact ⟨rfl, hmmark, hmrel⟩
        · rw [← heq]
          simp
      · rw [if_neg hi] at heq
        have hdoor := fun d' => Hub.positionChange_door d d' m
        rw [heq] at hkept hraise hlink ⊢
        have hposd : (m.positionChange d).door d = { m.door d with position := positionOf (m.door d).debounced } := by
          rw [hdoor, if_pos rfl]
        refine ⟨?_, ?_, ?_, ?_, fun d' hd => ?_, ?_, fun hen _ => ?_, fun _ hh => absurd hh hi, ?_, hlink, hkept,
          fun hon hlow _ => ⟨fun hno => hraise.kept fun hr => hno hr.2, fun hr =>
            ⟨(hraise.raised ⟨hon, hlow⟩ hr.1 hr.2).kneel, (hraise.raised ⟨hon, hlow⟩ hr.1 hr.2).level⟩⟩, fun _ => ?_,
          fun hh => absurd hh hi, ?_⟩
        · rw [hposd, hself]
        · rw [hposd, hself]
          cases i <;> rfl
        · rw [hposd, hself]
        · rw [hposd, hself]
        · rw [hdoor, if_neg hd, hmd, if_neg hd]
        · rw [if_neg hi]
          have hasks : m.positionAsks d ↔ (s.hub.door d).enabled = true ∧
              ((m.positionChange d).door d).position ≠ (s.hub.door d).position ∧ s.hub.sensing.standstill = .yes ∧
              ∃ d', ((m.positionChange d).door d').enabled = true ∧ ((m.positionChange d).door d').position ≠ .closedLocked := by
            have hmoved : (m.positionChange d).door d ≠ m.door d ↔
                ((m.positionChange d).door d).position ≠ (s.hub.door d).position := by
              rw [hposd, ← hmpos]
              refine not_congr ⟨fun he => congrArg DoorHold.position he, fun he => ?_⟩
              rw [show positionOf (m.door d).debounced = (m.door d).position from he]
            have hstanding : m.standing = true ↔ s.hub.sensing.standstill = .yes := by simp [Hub.standing, hsensing]
            rw [Hub.positionAsks, hmen, hmoved, hstanding, Hub.doorsLocked_eq_false]
          obtain ⟨hyes, hno⟩ := Hub.positionChange_brake d m
          exact hasked (fun ha => (hyes (hasks.mpr ha)).trans hrequest) fun hn => (hno (mt hasks.mp hn)).trans hbrake
        · obtain ⟨hstate, hsends⟩ := Hub.positionChange_of_disabled (h := m) (d := d) (hmen.trans hen)
          refine ⟨?_, fun kind hk => ((hsilent kind).trans (hsends kind hk)).raises⟩
          rw [hm] at hstate ⊢
          exact hstate
        · rw [if_neg fun hb => hi hb.1]
          exact ((hsilent _).trans (.of_emits (Hub.positionChange_emits d m) (by decide))).raises
        · rw [hposd]
          exact ⟨by unfold positionOf; rfl, hmmark, hmat, hmrel⟩
        · rw [← heq]
          simp

end Sys2Proof.Machine
end

section
/-! PROOFS. What the moves of the action states leave of the levelling unit, and a scan round: O32, O33. -/

namespace Sys2Proof.Machine

/-! ## The levelling unit without action states, slots and queue -/

/-- A circuit without its action state, persistence count and hold reason: ring, height, target, error and causes. -/
def CircuitLevel.measured (x : CircuitLevel) : CircuitLevel := { x with action := .hold, count := 0, reason := .none }

/-- The levelling unit without what moves with the action states: cut, section heights and the circuits' measures stay. -/
def Levelling.measured (u : Levelling) : Levelling :=
  { u with circuits := u.circuits.map CircuitLevel.measured, slots := .fill none, queue := [], grants := 0 }

theorem Levelling.measured_circuit {u v : Levelling} (hm : u.measured = v.measured) (c : Circuit) :
    (u.circuits.get c).measured = (v.circuits.get c).measured := by
  simpa [Levelling.measured] using congrArg (fun w : Levelling => w.circuits.get c) hm

theorem Levelling.cut_of_measured {u v : Levelling} (hm : u.measured = v.measured) :
    u.cut = v.cut ∧ u.cutCause = v.cutCause :=
  ⟨show u.measured.cut = v.measured.cut by rw [hm], show u.measured.cutCause = v.measured.cutCause by rw [hm]⟩

@[simp] theorem Hub.writeValves_measured (h : Hub) : h.writeValves.level.measured = h.level.measured := rfl

@[simp] theorem Hub.releaseSlot_measured (c : Circuit) (h : Hub) : (h.releaseSlot c).level.measured = h.level.measured := rfl

@[simp] theorem Hub.leaveQueue_measured (c : Circuit) (h : Hub) : (h.leaveQueue c).level.measured = h.level.measured := rfl

theorem Hub.onCircuit_measured {g : CircuitLevel → CircuitLevel} (hg : ∀ x, (g x).measured = x.measured) (c : Circuit)
    (h : Hub) : (h.onCircuit c g).level.measured = h.level.measured := by
  rw [Levelling.measured, Levelling.measured]
  congr 1
  refine PerCircuit.ext_get fun c' => ?_
  rw [PerCircuit.get_map, PerCircuit.get_map, Hub.onCircuit_level_circuits, PerCircuit.get_set]
  split
  · next heq => rw [heq]; exact hg _
  · rfl

@[simp] theorem Hub.setAction_measured (c : Circuit) (a : Action) (h : Hub) :
    (h.setAction c a).level.measured = h.level.measured := by
  rw [Hub.setAction_level]
  exact Hub.onCircuit_measured (g := fun x => { x with action := a }) (fun _ => rfl) c h

@[simp] theorem Hub.toHold_measured (c : Circuit) (h : Hub) : (h.toHold c).level.measured = h.level.measured := by
  rw [Hub.toHold, Hub.setAction_measured, Hub.leaveQueue_measured, Hub.releaseSlot_measured]

@[simp] theorem Hub.takeOut_measured (h : Hub) (c : Circuit) : (h.takeOut c).level.measured = h.level.measured := by
  rw [Hub.takeOut, Hub.setAction_measured,
    Hub.onCircuit_measured (g := fun x => { x with count := 0, reason := .none }) fun _ => rfl]
  rfl

@[simp] theorem Hub.stopCircuit_measured (h : Hub) (c : Circuit) : (h.stopCircuit c).level.measured = h.level.measured := by
  have hreason : ∀ g : Hub, (g.onCircuit c fun x => { x with reason := .kneelStopped }).level.measured = g.level.measured :=
    Hub.onCircuit_measured (g := fun x => { x with reason := .kneelStopped }) (fun _ => rfl) c
  unfold Hub.stopCircuit
  split <;> simp [hreason]

@[simp] theorem Hub.grantHead_measured (h : Hub) : h.grantHead.level.measured = h.level.measured := by
  obtain ⟨heq, -⟩ | ⟨i, e, rest, -, -, -, heq⟩ := h.grantHead_cases <;> rw [heq]
  rw [Hub.setAction_measured]
  rfl

@[simp] theorem Hub.grant_measured (h : Hub) : h.grant.level.measured = h.level.measured := by simp [Hub.grant]

@[simp] theorem Hub.grantIfFreed_measured (before after : PerSlot (Option HeldSlot)) (h : Hub) :
    (h.grantIfFreed before after).level.measured = h.level.measured := by
  unfold Hub.grantIfFreed
  split <;> simp

/-- The entry into STOPPED leaves targets and errors as they are (R116). -/
@[simp] theorem Hub.setKneel_stopped_measured (h : Hub) : (h.setKneel .stopped).level.measured = h.level.measured := by
  simp [Hub.setKneel, Hub.levellingTakesKneel, foldl_keeps (fun g : Hub => g.level.measured)]

@[simp] theorem Hub.stopKneel_measured (cause : StopCause) (c : Option Circuit) (h : Hub) :
    (h.stopKneel cause c).level.measured = h.level.measured := by
  unfold Hub.stopKneel
  split <;> simp

@[simp] theorem Hub.backToQueue_measured (h : Hub) (x : HeldSlot) : (h.backToQueue x).level.measured = h.level.measured := by
  rw [Hub.backToQueue, Hub.setAction_measured]
  rfl

/-- A circuit's measures apart from its causes. -/
def CircuitLevel.marked (add : Causes → Causes) (x : CircuitLevel) : CircuitLevel := { x with causes := add x.causes }

/-- What an exclusion leaves of the unit: the marked causes, and the rest but the moves of the action states (R103). -/
theorem Hub.exclude_circuit (cs : List Circuit) {add : Causes → Causes} (hadd : ∀ x, add (add x) = add x) (h : Hub)
    (c : Circuit) : ((h.exclude cs add).circuit c).measured =
      (if c ∈ cs then (h.circuit c).marked add else h.circuit c).measured := by
  unfold Hub.exclude
  extract_lets newly marked out handed
  have hmarked : marked.circuit c = if c ∈ cs then (h.circuit c).marked add else h.circuit c :=
    Hub.foldl_causes_circuit add hadd cs h c
  rw [← hmarked]
  refine Levelling.measured_circuit ?_ c
  have hhanded : handed.level.measured = out.level.measured :=
    foldl_keeps (fun g : Hub => g.level.measured) _ (fun g c => by split <;> simp) _ _
  have hout : out.level.measured = marked.level.measured :=
    foldl_keeps (fun g : Hub => g.level.measured) _ Hub.takeOut_measured _ _
  simp [hhanded, hout]

/-- An exclusion leaves the air cut (R103). -/
theorem Hub.exclude_cut (cs : List Circuit) (add : Causes → Causes) (h : Hub) :
    (h.exclude cs add).level.cut = h.level.cut ∧ (h.exclude cs add).level.cutCause = h.level.cutCause := by
  unfold Hub.exclude
  extract_lets newly marked out handed
  have hhanded : handed.level.measured = out.level.measured :=
    foldl_keeps (fun g : Hub => g.level.measured) _ (fun g c => by split <;> simp) _ _
  have hout : out.level.measured = marked.level.measured :=
    foldl_keeps (fun g : Hub => g.level.measured) _ Hub.takeOut_measured _ _
  have hmarked : marked.level = { h.level with circuits := marked.level.circuits } := Hub.foldl_onCircuit_level _ cs h
  obtain ⟨hcut, hcause⟩ := Levelling.cut_of_measured
    (u := ((handed.grantIfFreed h.level.slots out.level.slots).writeValves).level) (v := marked.level) (by simp [hhanded, hout])
  exact ⟨hcut.trans (by rw [hmarked]), hcause.trans (by rw [hmarked])⟩

/-- An exclusion of no circuit writes the valves alone. -/
theorem Hub.exclude_nil (add : Causes → Causes) (h : Hub) : h.exclude [] add = h.writeValves := by
  simp [Hub.exclude, Hub.grantIfFreed]


/-! ## A scan round (R2, R3, R103) -/

/-- The circuits whose height entry enters FAULT in a round. -/
def Hub.heightsLost (raw : ScanResults) (h : Hub) : List Circuit :=
  Circuit.all.filter fun c => !(h.sensing.heights.get c).fault && ((h.published raw).heights.get c).fault

/-- The circuits whose height entry leaves FAULT in a round. -/
def Hub.heightsFound (raw : ScanResults) (h : Hub) : List Circuit :=
  Circuit.all.filter fun c => (h.sensing.heights.get c).fault && !((h.published raw).heights.get c).fault

theorem Hub.mem_heightsLost {raw : ScanResults} {h : Hub} {c : Circuit} : c ∈ h.heightsLost raw ↔
    (h.sensing.heights.get c).fault = false ∧ ((h.published raw).heights.get c).fault = true := by
  simp [Hub.heightsLost]

theorem Hub.mem_heightsFound {raw : ScanResults} {h : Hub} {c : Circuit} : c ∈ h.heightsFound raw ↔
    (h.sensing.heights.get c).fault = true ∧ ((h.published raw).heights.get c).fault = false := by
  simp [Hub.heightsFound]

theorem Hub.heightsLost_eq_nil {raw : ScanResults} {h : Hub}
    (hnone : ∀ c, ((h.published raw).heights.get c).fault = true → (h.sensing.heights.get c).fault = true) :
    h.heightsLost raw = [] := by
  refine List.eq_nil_iff_forall_not_mem.mpr fun c hc => ?_
  obtain ⟨hold, hnew⟩ := Hub.mem_heightsLost.mp hc
  exact Bool.noConfusion (hold.symm.trans (hnone c hnew))

/-- The part after a round's publication and its SENSOR_FAULT events. -/
def Hub.reported (raw : ScanResults) (h : Hub) : Hub := Hub.raiseRoundFaults h raw (h.onSensing fun _ => h.published raw)

/-- The part after a round's exclusions and returns. -/
def Hub.roundLevelled (raw : ScanResults) (h : Hub) : Hub :=
  ((h.reported raw).exclude (h.heightsLost raw) fun x => { x with height := true }).heightsRecovered (h.heightsFound raw)

theorem Hub.scanRound_eq (raw : ScanResults) (h : Hub) : h.scanRound raw =
    if h.sensing.singlesDue then (h.roundLevelled raw).judgeReservoir h.sensing.reservoir else h.roundLevelled raw := by
  have hsensing : (h.onSensing fun _ => h.published raw).sensing = h.published raw := rfl
  simp only [Hub.scanRound, hsensing, Hub.roundLevelled, Hub.reported, Hub.heightsLost, Hub.heightsFound]

@[simp] theorem Hub.reported_units (raw : ScanResults) (h : Hub) : (h.reported raw).clock = h.clock ∧
    (h.reported raw).sensing = h.published raw ∧ (h.reported raw).level = h.level ∧ (h.reported raw).kneel = h.kneel ∧
    (h.reported raw).doors = h.doors ∧ (h.reported raw).link = h.link ∧ (h.reported raw).store = h.store := by
  simp [Hub.reported]

theorem Hub.heightsRecovered_circuit (cs : List Circuit) (h : Hub) (c : Circuit) : (h.heightsRecovered cs).circuit c =
    if c ∈ cs then { h.circuit c with
      ring := [], height := none, error := none, causes := { (h.circuit c).causes with height := false } }
    else h.circuit c := by
  have hemptied : ∀ (cs : List Circuit) (h : Hub),
      (cs.foldl (fun h c => h.onCircuit c fun x => { x with ring := [], height := none, error := none }) h).circuit c =
        if c ∈ cs then { h.circuit c with ring := [], height := none, error := none } else h.circuit c := by
    intro cs
    induction cs with
    | nil => simp
    | cons d cs ih =>
      intro h
      rw [List.foldl_cons, ih, Hub.circuit_onCircuit]
      by_cases hd : c = d
      · subst hd
        by_cases hmem : c ∈ cs <;> simp [hmem]
      · simp [hd]
  rw [Hub.heightsRecovered, Hub.clearCause, Hub.foldl_causes_circuit (fun x => { x with height := false }) fun _ => rfl, hemptied]
  split <;> rfl

@[simp] theorem Hub.judgeReservoir_measured (old : Single) (h : Hub) (c : Circuit) :
    ((h.judgeReservoir old).circuit c).measured = (h.circuit c).measured := by
  have hcut : ∀ cause, ((h.beginCut cause).circuit c).measured = (h.circuit c).measured := fun cause => by
    unfold Hub.beginCut
    extract_lets cut
    refine Levelling.measured_circuit (v := cut.level) ?_ c
    simp only [Hub.raise_frame, Hub.writeValves_measured]
    exact foldl_keeps (fun g : Hub => g.level.measured) _ Hub.backToQueue_measured _ _
  unfold Hub.judgeReservoir
  extract_lets new
  (repeat' split) <;> first
    | rfl
    | exact hcut _
    | exact Levelling.measured_circuit (Hub.grant_measured (h.onLevel fun u => { u with cut := false })) c


/-- An exclusion leaves the door unit but for the move permit (R116, R136). -/
theorem Hub.exclude_doors (cs : List Circuit) (add : Causes → Causes) (h : Hub) :
    (h.exclude cs add).doors = { h.doors with permit := (h.exclude cs add).doors.permit } := by
  obtain ⟨hdoors, hchanges⟩ := h.exclude_doorHolds cs add
  have hcondition : (h.exclude cs add).doors.condition = h.doors.condition := by
    unfold Hub.exclude
    extract_lets newly marked out handed
    have hhanded : handed.doors.condition = out.doors.condition :=
      foldl_keeps (fun g : Hub => g.doors.condition) _ (fun g c => by split <;> simp) _ _
    simp [hhanded, out, marked, foldl_keeps Hub.doors]
  dsimp only
  rw [← hdoors, ← hchanges, ← hcondition]

@[simp] theorem Hub.roundLevelled_units (raw : ScanResults) (h : Hub) :
    (h.roundLevelled raw).clock = h.clock ∧ (h.roundLevelled raw).sensing = h.published raw ∧
    (h.roundLevelled raw).store = h.store := by
  simp [Hub.roundLevelled]

theorem Hub.roundLevelled_doors (raw : ScanResults) (h : Hub) :
    (h.roundLevelled raw).doors = { h.doors with permit := (h.roundLevelled raw).doors.permit } := by
  have hdoors := (h.reported raw).exclude_doors (h.heightsLost raw) fun x => { x with height := true }
  simpa [Hub.roundLevelled] using hdoors

/-- A round in which no height is lost stays within the levelling unit, the valves and the axles' activity (R103). -/
theorem Hub.roundLevelled_of_kept {raw : ScanResults} {h : Hub} (hnone : h.heightsLost raw = []) :
    (h.roundLevelled raw).kneel = h.kneel ∧ (h.roundLevelled raw).doors = h.doors ∧
    (h.roundLevelled raw).link.lines = h.link.lines := by
  simp [Hub.roundLevelled, hnone, Hub.exclude_nil, Hub.writeValves]

theorem Hub.scanRound_doors (raw : ScanResults) (h : Hub) :
    (h.scanRound raw).doors = { h.doors with permit := (h.scanRound raw).doors.permit } := by
  have hlevelled := h.roundLevelled_doors raw
  rw [Hub.scanRound_eq]
  split
  · rw [((h.roundLevelled raw).judgeReservoir_lines _).2.1]
    exact hlevelled
  · exact hlevelled

theorem Hub.scanRound_of_kept {raw : ScanResults} {h : Hub} (hnone : h.heightsLost raw = []) :
    (h.scanRound raw).kneel = h.kneel ∧ (h.scanRound raw).doors = h.doors ∧ (h.scanRound raw).link.lines = h.link.lines := by
  obtain ⟨hkneel, hdoors, hlines⟩ := Hub.roundLevelled_of_kept hnone
  rw [Hub.scanRound_eq]
  split
  · obtain ⟨hk, hd, hl, -⟩ := (h.roundLevelled raw).judgeReservoir_lines h.sensing.reservoir
    exact ⟨hk.trans hkneel, hd.trans hdoors, hl.trans hlines⟩
  · exact ⟨hkneel, hdoors, hlines⟩

/-- A circuit's measures after a round: the mark of a lost height, the emptied ring of a found one (R91, R103). -/
theorem Hub.scanRound_circuit (raw : ScanResults) (h : Hub) (c : Circuit) : ((h.scanRound raw).circuit c).measured =
    (if c ∈ h.heightsFound raw then { h.circuit c with
        ring := [], height := none, error := none, causes := { (h.circuit c).causes with height := false } }
      else if c ∈ h.heightsLost raw then (h.circuit c).marked fun x => { x with height := true }
      else h.circuit c).measured := by
  have hlevelled : ((h.scanRound raw).circuit c).measured = ((h.roundLevelled raw).circuit c).measured := by
    rw [Hub.scanRound_eq]
    split
    · exact Hub.judgeReservoir_measured _ _ c
    · rfl
  have hexcluded := Hub.exclude_circuit (h.heightsLost raw) (add := fun x => { x with height := true }) (fun _ => rfl)
    (h.reported raw) c
  have hcircuit : (h.reported raw).circuit c = h.circuit c := by simp [Hub.circuit]
  rw [hcircuit] at hexcluded
  have hkept : ∀ (x y : CircuitLevel) (p : Prop) [Decidable p], x.measured = y.measured →
      (if p then { x with ring := [], height := none, error := none, causes := { x.causes with height := false } } else x).measured
        = (if p then { y with ring := [], height := none, error := none, causes := { y.causes with height := false } } else y).measured := by
    intro x y p _ hxy
    split
    · simp only [CircuitLevel.measured, CircuitLevel.mk.injEq] at hxy ⊢
      simp [hxy]
    · exact hxy
  rw [hlevelled, Hub.roundLevelled, Hub.heightsRecovered_circuit, hkept _ _ _ hexcluded]
  split
  · next hfound =>
    have hlost : c ∉ h.heightsLost raw := fun hlost =>
      Bool.noConfusion ((Hub.mem_heightsLost.mp hlost).1.symm.trans (Hub.mem_heightsFound.mp hfound).1)
    rw [if_neg hlost]
  · rfl

/-- Settles O32. -/
theorem scanRoundPublishes : Obligations.ScanRoundPublishes := by
  intro s raw hdue h u pair single
  have hsensing : (h.scanRound raw).sensing = h.published raw := Hub.scanRound_sensing raw h
  refine ⟨{ s with hub := h.scanRound raw }, by simp only [exec, execScanRound, if_pos hdue]; rfl, rfl, ?_, ?_⟩
  · have hsingle : ∀ entry lo hi x y, single entry lo hi x y = h.singleAfter entry lo hi x y := fun entry lo hi x y => by
      simp [single, u, h, Hub.singleAfter, Sensing.singlesDue]
    simp only [hsensing, hsingle]
    rfl
  · refine ⟨by simp, by simp, by simp, by simp, by simp, by simp, by simp, by simp, by simp, h.scanRound_doors raw,
      Brake.eq_of_base (h.doorStep_scanRound raw).2.2, ?_, fun hnone => ?_, fun hinv c hold hnew => ?_⟩
    · have hlink := Link.eq_of_rest (h.scanRound_rest raw)
      refine hlink.trans ?_
      rw [hlink]
    · exact Hub.scanRound_of_kept (Hub.heightsLost_eq_nil fun c hc => hnone c (hsensing ▸ hc))
    · have hnew' : ((h.published raw).heights.get c).fault = true := hsensing ▸ hnew
      have hcircuit := h.scanRound_circuit raw c
      rw [if_neg fun hf => Bool.noConfusion (hold.symm.trans (Hub.mem_heightsFound.mp hf).1),
        if_pos (Hub.mem_heightsLost.mpr ⟨hold, hnew'⟩)] at hcircuit
      have hcauses : ((h.scanRound raw).circuit c).causes.height = true := congrArg (fun x => x.causes.height) hcircuit
      exact ⟨(Hub.scanRound_inv raw hinv).1.excluded c (by simp [Causes.any, Hub.circuit] at hcauses ⊢; simp [hcauses]), hcauses⟩


/-! ## SENSOR_FAULT (R10) -/

/-- What a pair raises of SENSOR_FAULT, by what its first result was (R10). -/
def pairFaults (subject : Nat) (entry : Int) (a : Option Int) (old new : Pair) : List (Nat × Int) :=
  if old.state = .ok ∧ new.state = .degraded then [(subject, if a = none then entry else entry + 1)]
  else if old.state ≠ .fault ∧ new.state = .fault then [(subject, entry)]
  else []

/-- What a single entry raises of SENSOR_FAULT (R10). -/
def singleFaults (subject : Nat) (entry : Int) (old new : Single) : List (Nat × Int) :=
  if old.fault = false ∧ new.fault = true then [(subject, entry)] else []

/-- A pair enters DEGRADED by a conversion of which one result is invalid (R6, R7). -/
theorem Pair.take_degraded {c : Conversion} {old : Pair} (hold : old.state = .ok) (hnew : (old.take c).state = .degraded) :
    ∃ v aInvalid, c = .single v aInvalid := by
  cases c with
  | single v aInvalid => exact ⟨v, aInvalid, rfl⟩
  | agree v => simp [Pair.take, hold] at hnew
  | unusable =>
    simp only [Pair.take, hold] at hnew
    split at hnew <;> simp_all

/-- A SINGLE conversion names the invalid sensor (R6). -/
theorem classify_single {tolerance : Int} {a b : Option Int} {v : Int} {aInvalid : Bool}
    (hc : classify tolerance a b = .single v aInvalid) : aInvalid = decide (a = none) := by
  cases a <;> cases b
  case some.some x y =>
    simp only [classify] at hc
    split at hc <;> cases hc
  all_goals cases hc <;> rfl

theorem Hub.raisePairFault_sends (subject entry : Nat) (tolerance : Int) (a b : Option Int) {old new : Pair}
    (hnew : new = old.take (classify tolerance a b)) (g : Hub) :
    Hub.Sends .sensorFault (pairFaults subject entry a old new) g
      (g.raisePairFault subject entry (classify tolerance a b) old new) := by
  unfold Hub.raisePairFault pairFaults
  split
  · next hboth =>
    obtain ⟨v, aInvalid, hc⟩ := Pair.take_degraded hboth.1 (hnew ▸ hboth.2)
    have hnone := classify_single hc
    rw [hc]
    refine (Hub.Sends.raise .sensorFault subject _ g).congr ?_
    cases a <;> simp_all
  · split
    · exact Hub.Sends.raise _ _ _ _
    · exact .refl g

theorem Hub.raiseSingleFault_sends (subject entry : Nat) (old new : Single) (g : Hub) :
    Hub.Sends .sensorFault (singleFaults subject entry old new) g (g.raiseSingleFault subject entry old new) := by
  unfold Hub.raiseSingleFault singleFaults
  split
  · exact Hub.Sends.raise _ _ _ _
  · exact .refl g

/-- The SENSOR_FAULT events of a round, in the order of their entries within a group (R10; log entry 13). -/
def Hub.roundFaults (raw : ScanResults) (h : Hub) : List (Nat × Int) :=
  let old := h.sensing
  let new := h.published raw
  let pair (subject entry : Nat) (limit : Int) (x : RawPair) (a b : Pair) : List (Nat × Int) :=
    pairFaults subject entry (convert (h.zeroSpan entry) (-limit) limit x.a) a b
  pair 1 0 4500 raw.steer old.steer new.steer
    ++ (Joint.all.flatMap fun j =>
      pair (1 + j.num) (jointEntry j) 5500 (raw.joints.get j) (old.joints.get j) (new.joints.get j))
    ++ (Circuit.all.flatMap fun c => singleFaults 4 (heightEntry c) (old.heights.get c) (new.heights.get c))
    ++ (Circuit.all.flatMap fun c => singleFaults 5 (bellowsEntry c) (old.bellows.get c) (new.bellows.get c))
    ++ singleFaults 7 reservoirEntry old.reservoir new.reservoir
    ++ Axle.all.flatMap fun k => singleFaults 6 (brakeEntry k) (old.brakes.get k) (new.brakes.get k)

theorem Hub.reported_sends (raw : ScanResults) (h : Hub) :
    Hub.Sends .sensorFault (h.roundFaults raw) h (h.reported raw) := by
  have hpublished : Hub.Sends .sensorFault [] h (h.onSensing fun _ => h.published raw) := .silent rfl rfl
  unfold Hub.reported Hub.raiseRoundFaults
  extract_lets old new steer pairs heights bellows reservoir
  have h1 : Hub.Sends .sensorFault _ _ steer := Hub.raisePairFault_sends 1 0 150 _ _ rfl _
  have h2 : Hub.Sends .sensorFault _ steer pairs := Hub.Sends.foldl (fun g j =>
    Hub.raisePairFault_sends (1 + j.num) (jointEntry j) 200 _ _ (by simp [new, Hub.published, old]; rfl) g) Joint.all steer
  have h3 : Hub.Sends .sensorFault _ pairs heights := Hub.Sends.foldl (fun g c =>
    Hub.raiseSingleFault_sends 4 (heightEntry c) (old.heights.get c) (new.heights.get c) g) Circuit.all pairs
  have h4 : Hub.Sends .sensorFault _ heights bellows := Hub.Sends.foldl (fun g c =>
    Hub.raiseSingleFault_sends 5 (bellowsEntry c) (old.bellows.get c) (new.bellows.get c) g) Circuit.all heights
  have h5 : Hub.Sends .sensorFault _ bellows reservoir := Hub.raiseSingleFault_sends 7 reservoirEntry old.reservoir new.reservoir bellows
  have h6 := Hub.Sends.foldl (fun g k =>
    Hub.raiseSingleFault_sends 6 (brakeEntry k) (old.brakes.get k) (new.brakes.get k) g) Axle.all reservoir
  exact (hpublished.trans (((((h1.trans h2).trans h3).trans h4).trans h5).trans h6)).congr rfl


/-! ## The queue at the beginning and at the end of an air cut (R99, R100) -/

theorem headOfClass_filter (x : QueueEntry) (q : List QueueEntry) (n : Nat) :
    (headOfClass x q).filter (fun e => e.cls == n) = (if x.cls = n then [x] else []) ++ q.filter fun e => e.cls == n := by
  have hsplit : ((q.filter fun e => decide (e.cls < x.cls)).filter fun e => e.cls == n) =
      if n < x.cls then q.filter fun e => e.cls == n else [] := by
    rw [List.filter_filter]
    split
    · next hlt => exact List.filter_congr fun e _ => by by_cases he : e.cls = n <;> simp [he, hlt]
    · next hge =>
      exact List.filter_eq_nil_iff.mpr fun e _ => by
        simp only [Bool.and_eq_true, beq_iff_eq, decide_eq_true_eq, not_and]
        omega
  have hrest : ((q.filter fun e => decide (x.cls ≤ e.cls)).filter fun e => e.cls == n) =
      if n < x.cls then [] else q.filter fun e => e.cls == n := by
    rw [List.filter_filter]
    split
    · next hlt =>
      exact List.filter_eq_nil_iff.mpr fun e _ => by
        simp only [Bool.and_eq_true, beq_iff_eq, decide_eq_true_eq, not_and]
        omega
    · next hge =>
      exact List.filter_congr fun e _ => by
        by_cases he : e.cls = n
        · simp [he, Nat.not_lt.mp hge]
        · simp [he]
  rw [headOfClass, List.filter_append, List.filter_cons, hsplit, hrest]
  by_cases hx : x.cls = n
  · simp [hx]
  · by_cases hlt : n < x.cls <;> simp [hx, hlt]

/-- The holders sent back stand before the entries of their class, the last sent one first (R99). -/
theorem Hub.foldl_backToQueue_queue (l : List HeldSlot) (h : Hub) (n : Nat) :
    (l.foldl Hub.backToQueue h).level.queue.filter (fun e => e.cls == n) =
      ((l.reverse.filter fun x => x.cls == n).map fun x => ⟨x.circuit, x.cls⟩) ++ h.level.queue.filter fun e => e.cls == n := by
  induction l generalizing h with
  | nil => rfl
  | cons x l ih =>
    have hqueue : (h.backToQueue x).level.queue = headOfClass ⟨x.circuit, x.cls⟩ h.level.queue := by
      simp [Hub.backToQueue, Hub.releaseSlot]
    rw [List.foldl_cons, ih, hqueue, headOfClass_filter, List.reverse_cons, List.filter_append, List.map_append,
      List.append_assoc]
    by_cases hx : x.cls = n <;> simp [hx]

theorem insertByAge_sorted (next : Half) (x : HeldSlot) {l : List HeldSlot}
    (hl : l.Pairwise fun a b => next - a.grant ≤ next - b.grant) :
    (insertByAge next x l).Pairwise fun a b => next - a.grant ≤ next - b.grant := by
  induction l with
  | nil => exact List.pairwise_singleton _ _
  | cons y l ih =>
    obtain ⟨hy, hl⟩ := List.pairwise_cons.mp hl
    rw [insertByAge]
    split
    · next hle =>
      refine List.pairwise_cons.mpr ⟨fun z hz => ?_, List.pairwise_cons.mpr ⟨hy, hl⟩⟩
      rcases List.mem_cons.mp hz with rfl | hz
      · exact hle
      · exact BitVec.le_trans hle (hy z hz)
    · next hgt =>
      refine List.pairwise_cons.mpr ⟨fun z hz => ?_, ih hl⟩
      rcases List.mem_cons.mp ((insertByAge_perm next x l).mem_iff.mp hz) with rfl | hz
      · exact (BitVec.le_total _ _).resolve_left hgt
      · exact hy z hz

/-- The holders stand by the age of their grants (R99; log entry 14). -/
theorem Levelling.latestFirst_sorted (u : Levelling) :
    u.latestFirst.Pairwise fun a b => u.grants - a.grant ≤ u.grants - b.grant := by
  unfold Levelling.latestFirst
  refine foldl_preserves (P := fun l : List HeldSlot => l.Pairwise fun a b => u.grants - a.grant ≤ u.grants - b.grant)
    (fun acc i hacc => ?_) _ List.Pairwise.nil
  split
  · exact insertByAge_sorted _ _ hacc
  · exact hacc

theorem Levelling.mem_latestFirst {u : Levelling} {x : HeldSlot} : x ∈ u.latestFirst ↔ ∃ i, u.slots.get i = some x := by
  rw [u.latestFirst_perm.mem_iff]
  simp

/-- A grant to a free slot takes the queue's head (R97). -/
theorem Hub.grantHead_takes {h : Hub} (hcut : h.level.cut = false) (hfree : 0 < h.level.vacant) :
    h.grantHead.level.queue = h.level.queue.drop 1 ∧
    h.level.vacant ≤ h.grantHead.level.vacant + 1 ∧
    (∀ c, (h.circuit c).action = .fill → (h.grantHead.circuit c).action = .fill) ∧
    ∀ e ∈ h.level.queue.take 1, (h.grantHead.circuit e.circuit).action = .fill := by
  have hslots : ¬∀ i, h.level.slots.get i ≠ none := fun hfull => by
    have hzero : h.level.vacant = 0 := List.count_eq_zero.mpr fun hmem => by
      obtain ⟨i, -, hi⟩ := List.mem_map.mp hmem
      exact hfull i (Option.map_eq_none_iff.mp hi)
    omega
  obtain ⟨heq, hcase⟩ | ⟨i, e, rest, -, -, hqueue, heq⟩ := h.grantHead_cases
  · have hempty : h.level.queue = [] := ((hcase.resolve_left (by simp [hcut])).resolve_right hslots)
    rw [heq, hempty]
    exact ⟨rfl, Nat.le_succ _, fun _ => id, fun e he => absurd he List.not_mem_nil⟩
  · have hrest : h.grantHead.level.queue = rest := by rw [heq]; simp
    have hact : ∀ c, (h.grantHead.circuit c).action = if c = e.circuit then .fill else (h.circuit c).action := fun c => by
      rw [heq, Hub.setAction_circuit]
      split <;> rfl
    have hholder : ∀ j, h.grantHead.level.holder j = if j = i then some e.circuit else h.level.holder j := fun j => by
      rw [heq, Levelling.holder]
      simp only [Hub.setAction_level, Hub.onCircuit_level_slots, Hub.onLevel, PerSlot.get_set]
      split <;> rfl
    refine ⟨by rw [hrest, hqueue]; rfl, ?_, fun c hc => by rw [hact]; split <;> simp [hc], fun e' he' => ?_⟩
    · simp only [Levelling.vacant, FillSlot.all, List.map_cons, List.map_nil, List.count_cons, List.count_nil, hholder]
      cases i <;> simp <;> (repeat' split) <;> omega
    · rw [hqueue] at he'
      rw [hact, List.mem_singleton.mp he', if_pos rfl]


/-- The end of a cut grants the three slots to the head of the queue (R97, R100). -/
theorem Hub.grant_takes {h : Hub} (hcut : h.level.cut = false) (hfree : ∀ i, h.level.slots.get i = none) :
    h.grant.level.queue = h.level.queue.drop 3 ∧
    ∀ e ∈ h.level.queue.take 3, (h.grant.circuit e.circuit).action = .fill := by
  have hvacant : h.level.vacant = 3 := by simp [Levelling.vacant, Levelling.holder, FillSlot.all, hfree]
  obtain ⟨hq1, hv1, hkeep1, ht1⟩ := Hub.grantHead_takes hcut (by omega)
  obtain ⟨hq2, hv2, hkeep2, ht2⟩ := Hub.grantHead_takes (h := h.grantHead) (by simpa) (by omega)
  obtain ⟨hq3, -, hkeep3, ht3⟩ := Hub.grantHead_takes (h := h.grantHead.grantHead) (by simpa) (by omega)
  refine ⟨?_, fun e he => ?_⟩
  · rw [Hub.grant, hq3, hq2, hq1, List.drop_drop, List.drop_drop]
  · rw [hq1] at ht2
    rw [hq2, hq1, List.drop_drop] at ht3
    have hsplit : h.level.queue.take 3 = h.level.queue.take 1 ++ ((h.level.queue.drop 1).take 1 ++ (h.level.queue.drop 2).take 1) := by
      cases hq : h.level.queue with
      | nil => rfl
      | cons a q => cases q with
        | nil => rfl
        | cons b q => cases q <;> rfl
    rw [hsplit, List.mem_append, List.mem_append] at he
    obtain he | he | he := he
    · exact hkeep3 _ (hkeep2 _ (ht1 e he))
    · exact hkeep3 _ (ht2 e he)
    · exact ht3 e he

/-! ## The reservoir's judging, case by case (R99, R100) -/

section
variable {old : Single} {h : Hub}

theorem Hub.judgeReservoir_starts (hcut : h.level.cut = false)
    (hcase : (old.fault = false ∧ h.sensing.reservoir.fault = true) ∨
      (h.sensing.reservoir.fault = false ∧ h.sensing.reservoir.value < h.presCut)) :
    h.judgeReservoir old = h.beginCut (if h.sensing.reservoir.fault then .sensor else .lowPressure) := by
  unfold Hub.judgeReservoir
  extract_lets new
  obtain ⟨hold, hnew⟩ | ⟨hnew, hlow⟩ := hcase
  · simp [hcut, new, hnew, hold]
  · simp [hcut, new, hnew, hlow]

theorem Hub.judgeReservoir_lifts (hcut : h.level.cut = true) (hnew : h.sensing.reservoir.fault = false)
    (hmin : h.presMin ≤ h.sensing.reservoir.value) :
    h.judgeReservoir old = (h.onLevel fun u => { u with cut := false }).grant.writeValves := by
  simp [Hub.judgeReservoir, hcut, hnew, hmin]

theorem Hub.judgeReservoir_sensor (hcut : h.level.cut = true) (hold : old.fault = false)
    (hnew : h.sensing.reservoir.fault = true) (hcause : h.level.cutCause ≠ .sensor) :
    h.judgeReservoir old = (h.onLevel fun u => { u with cutCause := .sensor }).raise .airLow 0 2 := by
  simp [Hub.judgeReservoir, hcut, hold, hnew, hcause]

theorem Hub.judgeReservoir_low (hcut : h.level.cut = true) (hnew : h.sensing.reservoir.fault = false)
    (hmin : h.sensing.reservoir.value < h.presMin) (hcause : h.level.cutCause = .start) :
    h.judgeReservoir old = (h.onLevel fun u => { u with cutCause := .lowPressure }).raise .airLow 0 3 := by
  simp [Hub.judgeReservoir, hcut, hnew, Int.not_le.mpr hmin, hcause]

theorem Hub.judgeReservoir_recovered (hcut : h.level.cut = true) (hnew : h.sensing.reservoir.fault = false)
    (hmin : h.sensing.reservoir.value < h.presMin) (hcause : h.level.cutCause ≠ .start) (hold : old.fault = true) :
    h.judgeReservoir old = h.onLevel fun u => { u with cutCause := .lowPressure } := by
  simp [Hub.judgeReservoir, hcut, hnew, Int.not_le.mpr hmin, hcause, hold]

theorem Hub.judgeReservoir_else
    (hstarts : ¬(h.level.cut = false ∧ ((old.fault = false ∧ h.sensing.reservoir.fault = true) ∨
      (h.sensing.reservoir.fault = false ∧ h.sensing.reservoir.value < h.presCut))))
    (hlifts : ¬(h.level.cut = true ∧ h.sensing.reservoir.fault = false ∧ h.presMin ≤ h.sensing.reservoir.value))
    (hsensor : ¬(h.level.cut = true ∧ old.fault = false ∧ h.sensing.reservoir.fault = true ∧ h.level.cutCause ≠ .sensor))
    (hlow : ¬(h.level.cut = true ∧ h.sensing.reservoir.fault = false ∧ h.sensing.reservoir.value < h.presMin ∧
      h.level.cutCause = .start))
    (hrecovered : ¬(h.level.cut = true ∧ h.sensing.reservoir.fault = false ∧ h.sensing.reservoir.value < h.presMin ∧
      h.level.cutCause ≠ .start ∧ old.fault = true)) : h.judgeReservoir old = h := by
  unfold Hub.judgeReservoir
  extract_lets new
  split
  · next hcut =>
    split
    · next hnew => exact if_neg fun hboth => hsensor ⟨hcut, hboth.1, hnew, hboth.2⟩
    · next hnew =>
      have hnew' : h.sensing.reservoir.fault = false := by simpa [new] using hnew
      split
      · next hmin => exact absurd ⟨hcut, hnew', hmin⟩ hlifts
      · next hmin =>
        split
        · next hcause => exact absurd ⟨hcut, hnew', Int.not_le.mp hmin, hcause⟩ hlow
        · next hcause => exact if_neg fun hold => hrecovered ⟨hcut, hnew', Int.not_le.mp hmin, hcause, hold⟩
  · next hcut =>
    have hcut' : h.level.cut = false := by simpa using hcut
    split
    · next hnew =>
      split
      · rfl
      · next hold => exact absurd ⟨hcut', .inl ⟨by simpa using hold, hnew⟩⟩ hstarts
    · next hnew => exact if_neg fun hlow => hstarts ⟨hcut', .inr ⟨by simpa [new] using hnew, hlow⟩⟩

end


/-! ## What a round brings of the cut (R99, R100) -/

/-- Up to the judging of the reservoir a round leaves cut and configuration, and raises no AIR_LOW. -/
theorem Hub.roundLevelled_cut (raw : ScanResults) (h : Hub) : (h.roundLevelled raw).level.cut = h.level.cut ∧
    (h.roundLevelled raw).level.cutCause = h.level.cutCause ∧ (h.roundLevelled raw).presCut = h.presCut ∧
    (h.roundLevelled raw).presMin = h.presMin := by
  have hfound : ∀ g : Hub, (g.heightsRecovered (h.heightsFound raw)).level =
      { g.level with circuits := (g.heightsRecovered (h.heightsFound raw)).level.circuits } := fun g => by
    unfold Hub.heightsRecovered Hub.clearCause
    rw [Hub.foldl_onCircuit_level, Hub.foldl_onCircuit_level]
  have hstore : (h.roundLevelled raw).store = h.store := by simp
  obtain ⟨hcut, hcause⟩ := (h.reported raw).exclude_cut (h.heightsLost raw) fun x => { x with height := true }
  have hlevel : (h.reported raw).level = h.level := by simp
  rw [hlevel] at hcut hcause
  refine ⟨?_, ?_, by simp only [Hub.presCut, Hub.item, hstore], by simp only [Hub.presMin, Hub.item, hstore]⟩
  · rw [Hub.roundLevelled, hfound]; exact hcut
  · rw [Hub.roundLevelled, hfound]; exact hcause

theorem Hub.roundLevelled_queue {raw : ScanResults} {h : Hub} (hnone : h.heightsLost raw = []) :
    (h.roundLevelled raw).level.slots = h.level.slots ∧ (h.roundLevelled raw).level.queue = h.level.queue ∧
    (h.roundLevelled raw).level.grants = h.level.grants := by
  have hlevel : (h.roundLevelled raw).level = { h.level with circuits := (h.roundLevelled raw).level.circuits } := by
    rw [Hub.roundLevelled, hnone, Hub.exclude_nil]
    unfold Hub.heightsRecovered Hub.clearCause
    rw [Hub.foldl_onCircuit_level, Hub.foldl_onCircuit_level]
    simp
  rw [hlevel]
  exact ⟨rfl, rfl, rfl⟩

theorem Hub.roundLevelled_sends (raw : ScanResults) (h : Hub) (kind : EventKind) (hk : kind ∉ kneelKinds) :
    Hub.Sends kind [] (h.reported raw) (h.roundLevelled raw) :=
  (Hub.Sends.of_emits (Hub.exclude_emits (h.heightsLost raw) (fun x => { x with height := true }) (h.reported raw)) hk).trans_silent
    (.silent (by simp [Hub.roundLevelled]) (by simp [Hub.roundLevelled]))

/-- The whole of a round's SENSOR_FAULT events (R10). -/
theorem Hub.scanRound_sensorFaults (raw : ScanResults) (h : Hub) :
    Hub.Sends .sensorFault (h.roundFaults raw) h (h.scanRound raw) := by
  have hlevelled := (h.reported_sends raw).trans_silent (h.roundLevelled_sends raw _ (by decide))
  rw [Hub.scanRound_eq]
  split
  · exact hlevelled.trans_silent (.of_emits (Hub.judgeReservoir_emits _ _) (by decide))
  · exact hlevelled

theorem Hub.roundLevelled_noAirLow (raw : ScanResults) (h : Hub) : Hub.Sends .airLow [] h (h.roundLevelled raw) :=
  (Hub.Sends.of_emits (kind := .airLow) (h := h) (.trans (.silent (h' := h.onSensing fun _ => h.published raw) rfl rfl)
    (Hub.raiseRoundFaults_emits h raw _)) (by decide)).trans (h.roundLevelled_sends raw .airLow (by decide))

/-- The cut takes another cause, with its AIR_LOW (R99, R100). -/
theorem Hub.cutCause_sends (cause : CutCause) (value : Int) (g : Hub) : Hub.Sends .airLow [(0, value)] g
    ((g.onLevel fun u => { u with cutCause := cause }).raise .airLow 0 value) :=
  (Hub.Sends.silent (h := g) (g := g.onLevel fun u => { u with cutCause := cause }) rfl rfl).trans (.raise .airLow 0 value _)

/-- The beginning of a cut: every holder is back in the queue, and AIR_LOW says why (R99). -/
theorem Hub.beginCut_spec (cause : CutCause) (h : Hub) :
    (h.beginCut cause).level.cut = true ∧ (h.beginCut cause).level.cutCause = cause ∧
    Hub.Sends .airLow [(0, cause.eventValue)] h (h.beginCut cause) ∧
    ∀ n, (h.beginCut cause).level.queue.filter (fun e => e.cls == n) =
      ((h.level.latestFirst.reverse.filter fun x => x.cls == n).map fun x => ⟨x.circuit, x.cls⟩)
        ++ h.level.queue.filter fun e => e.cls == n := by
  unfold Hub.beginCut
  extract_lets cut
  have hcut : cut.level.cut = true ∧ cut.level.cutCause = cause ∧ cut.level.queue = h.level.queue := ⟨rfl, rfl, rfl⟩
  have hsilent : Hub.Sends .airLow [] h (h.level.latestFirst.foldl Hub.backToQueue cut).writeValves :=
    .silent (by simp [cut, foldl_keeps Hub.clock]) (by simp [cut, foldl_keeps Hub.events])
  obtain ⟨hyes, hcause, hqueue⟩ := hcut
  clear_value cut
  obtain ⟨hyes', hcause'⟩ := Levelling.cut_of_measured
    (foldl_keeps (fun g : Hub => g.level.measured) _ Hub.backToQueue_measured h.level.latestFirst cut)
  refine ⟨by simpa using hyes'.trans hyes, by simpa using hcause'.trans hcause,
    hsilent.trans (.raise .airLow 0 cause.eventValue _), fun n => ?_⟩
  simpa [hqueue] using Hub.foldl_backToQueue_queue h.level.latestFirst cut n

/-- Settles O33. -/
theorem sensorFaultsAndAirCut : Obligations.SensorFaultsAndAirCut := by
  intro s raw hdue hinv h old
  have hsensing : (h.scanRound raw).sensing = h.published raw := Hub.scanRound_sensing raw h
  refine ⟨{ s with hub := h.scanRound raw }, by simp only [exec, execScanRound, if_pos hdue]; rfl, rfl, ?_⟩
  intro new
  have hnew : new = h.published raw := hsensing
  refine ⟨?_, fun c hold hfound => ?_, ?_⟩
  · intro pair single
    refine ((h.scanRound_sensorFaults raw).congr ?_).raises
    rw [hnew]
    simp only [Hub.roundFaults, pair, single, pairFaults, singleFaults, Joint.all, List.flatMap_cons, List.flatMap_nil,
      List.append_nil, List.append_assoc]
    rfl
  · have hcircuit := h.scanRound_circuit raw c
    rw [if_pos (Hub.mem_heightsFound.mpr ⟨hold, hnew ▸ hfound⟩)] at hcircuit
    exact ⟨congrArg CircuitLevel.ring hcircuit, congrArg CircuitLevel.height hcircuit, congrArg CircuitLevel.error hcircuit,
      congrArg (fun x => x.causes.height) hcircuit⟩
  · intro u v judged was now value starts lifts sensor low recovered
    obtain ⟨hcut, hcause, hpresCut, hpresMin⟩ := h.roundLevelled_cut raw
    have hnone : Hub.Sends .airLow [] h (h.roundLevelled raw) := h.roundLevelled_noAirLow raw
    have hlevelled : (h.roundLevelled raw).sensing = new := by rw [hnew]; simp
    have hjudged : judged → h.scanRound raw = (h.roundLevelled raw).judgeReservoir old.reservoir := fun hj => by
      rw [Hub.scanRound_eq, if_pos (by simpa [judged, Sensing.singlesDue] using hj)]
    have hlost : (∀ c, (new.heights.get c).fault = true → (old.heights.get c).fault = true) → h.heightsLost raw = [] :=
      fun hkept => Hub.heightsLost_eq_nil fun c hc => hkept c (hnew ▸ hc)
    obtain ⟨g, hg⟩ : ∃ g, g = h.roundLevelled raw := ⟨_, rfl⟩
    have hqueue := Hub.roundLevelled_queue (raw := raw) (h := h)
    rw [← hg] at hcut hcause hpresCut hpresMin hnone hlevelled hjudged hqueue
    have hvinv : v.Inv := (Hub.scanRound_inv raw hinv).1
    refine ⟨fun ⟨hj, hno, hcase⟩ => ?_, fun ⟨hj, hyes, hok, hmin⟩ => ?_, fun ⟨hj, hyes, hwas, hnow, hne⟩ => ?_,
      fun ⟨hj, hyes, hok, hmin, hstart⟩ => ?_, fun ⟨hj, hyes, hok, hmin, hne, hwas⟩ => ?_, fun h1 h2 h3 h4 h5 => ?_⟩
    · have heq := (hjudged hj).trans (Hub.judgeReservoir_starts (old := old.reservoir) (h := g) (hcut.trans hno)
        (by rw [hlevelled, hpresCut]; exact hcase))
      obtain ⟨hcut', hcause', hsends, hfilter⟩ := g.beginCut_spec (if g.sensing.reservoir.fault then .sensor else .lowPressure)
      rw [← heq] at hcut' hcause' hsends hfilter
      refine ⟨hcut', hcause'.trans (by rw [hlevelled]), ((hnone.trans hsends).congr ?_).raises, hvinv.cutFree hcut', fun hkept => ?_⟩
      · rw [hlevelled]
        obtain hb | hb := Bool.eq_false_or_eq_true now <;> simp only [now] at hb <;> simp [now, hb, CutCause.eventValue]
      · obtain ⟨hslots, hq, hgrants⟩ := hqueue (hlost hkept)
        refine ⟨g.level.latestFirst.reverse, fun x => ?_, ?_, fun n => ?_⟩
        · rw [List.mem_reverse, Levelling.mem_latestFirst, hslots]
        · have hsorted := g.level.latestFirst_sorted
          rw [hgrants] at hsorted
          exact List.pairwise_reverse.mpr hsorted
        · exact (hfilter n).trans (by rw [hq])
    · have heq := (hjudged hj).trans (Hub.judgeReservoir_lifts (old := old.reservoir) (h := g) (hcut.trans hyes)
        (by rw [hlevelled]; exact hok) (by rw [hlevelled, hpresMin]; exact hmin))
      obtain ⟨hcut', hcause'⟩ := Levelling.cut_of_measured (Hub.grant_measured (g.onLevel fun u => { u with cut := false }))
      have hv : v = (g.onLevel fun u => { u with cut := false }).grant.level :=
        (congrArg Hub.level heq).trans (Hub.writeValves_level _)
      refine ⟨hv ▸ hcut', ?_, ?_, fun hkept => ?_⟩
      · rw [hv]; exact hcause'.trans hcause
      · refine (hnone.trans_silent (.silent ?_ ?_)).raises <;> simp [heq]
      · obtain ⟨hslots, hq, -⟩ := hqueue (hlost hkept)
        obtain ⟨hdrop, htake⟩ := Hub.grant_takes (h := g.onLevel fun u => { u with cut := false }) rfl fun i => by
          rw [Hub.onLevel, hslots]
          exact hinv.cutFree hyes i
        have hq' : (g.onLevel fun u => { u with cut := false }).level.queue = u.queue := hq
        rw [hq'] at hdrop htake
        refine ⟨hv ▸ hdrop, fun e he => ?_⟩
        have hact := htake e he
        rw [Hub.circuit, ← hv] at hact
        exact hact
    · have heq := (hjudged hj).trans (Hub.judgeReservoir_sensor (old := old.reservoir) (h := g) (hcut.trans hyes) hwas
        (by rw [hlevelled]; exact hnow) (by rw [hcause]; exact hne))
      have hv : v = { g.level with cutCause := .sensor } := (congrArg Hub.level heq).trans (by simp)
      refine ⟨hv ▸ hcut.trans hyes, by rw [hv], ?_⟩
      rw [heq]
      exact (hnone.trans (Hub.cutCause_sends .sensor 2 g)).raises
    · have heq := (hjudged hj).trans (Hub.judgeReservoir_low (old := old.reservoir) (h := g) (hcut.trans hyes)
        (by rw [hlevelled]; exact hok) (by rw [hlevelled, hpresMin]; exact hmin) (by rw [hcause]; exact hstart))
      have hv : v = { g.level with cutCause := .lowPressure } := (congrArg Hub.level heq).trans (by simp)
      refine ⟨hv ▸ hcut.trans hyes, by rw [hv], ?_⟩
      rw [heq]
      exact (hnone.trans (Hub.cutCause_sends .lowPressure 3 g)).raises
    · have heq := (hjudged hj).trans (Hub.judgeReservoir_recovered (old := old.reservoir) (h := g) (hcut.trans hyes)
        (by rw [hlevelled]; exact hok) (by rw [hlevelled, hpresMin]; exact hmin) (by rw [hcause]; exact hne) hwas)
      have hv : v = { g.level with cutCause := .lowPressure } := congrArg Hub.level heq
      refine ⟨hv ▸ hcut.trans hyes, by rw [hv], ?_⟩
      rw [heq]
      exact (hnone.trans_silent (.silent rfl rfl)).raises
    · have heq : h.scanRound raw = g := by
        by_cases hj : judged
        · refine (hjudged hj).trans (Hub.judgeReservoir_else ?_ ?_ ?_ ?_ ?_) <;>
            rw [hcut] <;> simp only [hlevelled, hcause, hpresCut, hpresMin]
          · exact fun hx => h1 ⟨hj, hx⟩
          · exact fun hx => h2 ⟨hj, hx⟩
          · exact fun hx => h3 ⟨hj, hx⟩
          · exact fun hx => h4 ⟨hj, hx⟩
          · exact fun hx => h5 ⟨hj, hx⟩
        · rw [Hub.scanRound_eq, if_neg (by simpa [judged, Sensing.singlesDue] using hj), hg]
      have hv : v = g.level := congrArg Hub.level heq
      refine ⟨hv ▸ hcut, hv ▸ hcause, ?_⟩
      rw [heq]
      exact hnone.raises

end Sys2Proof.Machine
end

section
/-! PROOFS. A brake period, stage by stage: O43, O44. -/

namespace Sys2Proof.Machine

/-! ## Stage 1: the demand (R71 to R73) -/

/-- The part after a demand is taken, the drive state not yet handed on (R72). -/
def Hub.demandTaken (p : Port) (d : Demand) (others : Nat) (h : Hub) : Hub :=
  (h.onPorts fun v => v.map fun u => { u with posted := none }).onBrake fun u =>
    { Brake.takeDemand p d u with superseded := min 255 (u.superseded + others) }

theorem Hub.takeDemands_some {h : Hub} {p : Port} {d : Demand} {others : List (Port × Demand)}
    (hp : h.postedDemands = (p, d) :: others) : h.takeDemands =
      if (h.demandTaken p d others.length).brake.drive = h.brake.drive then h.demandTaken p d others.length
      else (h.demandTaken p d others.length).judgeTorque := by
  simp only [Hub.takeDemands, hp]
  rfl

theorem Hub.takeDemands_none {h : Hub} (hp : h.postedDemands = []) : h.takeDemands = h.ageDemand := by
  simp only [Hub.takeDemands, hp]

/-- The posted demand of highest priority is the one taken, the others are counted (R71, R72). -/
theorem Hub.postedDemands_of_first {h : Hub} {p : Port} {d : Demand} (hp : (h.port p).posted = some d)
    (hfirst : ∀ p', storePriority p' < storePriority p → (h.port p').posted = none) :
    ∃ others, h.postedDemands = (p, d) :: others ∧
      others.length = (Port.all.filter fun p' => p' != p && ((h.port p').posted).isSome).length := by
  have hs := hfirst .s
  have hb := hfirst .b
  simp only [Hub.postedDemands, portOrder, Port.all]
  cases p
  case s =>
    cases hb' : (h.port .b).posted <;> cases hm' : (h.port .m).posted <;> simp [hp, hb', hm']
  case b =>
    cases hm' : (h.port .m).posted <;> simp [hp, hm', hs (by decide)]
  case m => simp [hp, hs (by decide), hb (by decide)]

theorem Hub.postedDemands_eq_nil {h : Hub} : h.postedDemands = [] ↔ ∀ p, (h.port p).posted = none := by
  simp only [Hub.postedDemands, List.filterMap_eq_nil_iff, Option.map_eq_none_iff]
  exact ⟨fun hp p => hp p (by cases p <;> decide), fun hp p _ => hp p⟩

@[simp] theorem Hub.judgeTorque_brake (h : Hub) : h.judgeTorque.brake = h.brake := by
  unfold Hub.judgeTorque
  extract_lets cut judged
  split <;> rfl

/-- What the demand stage leaves of the brake unit. -/
theorem Hub.takeDemands_brake (h : Hub) : h.takeDemands.brake.kneelFreeze = h.brake.kneelFreeze ∧
    h.takeDemands.brake.axles = h.brake.axles ∧ h.takeDemands.brake.halt = h.brake.halt ∧
    h.takeDemands.brake.applying = h.brake.applying ∧ h.takeDemands.brake.haltFault = h.brake.haltFault ∧
    h.takeDemands.brake.periods = h.brake.periods := by
  cases hp : h.postedDemands with
  | nil =>
    rw [Hub.takeDemands_none hp]
    unfold Hub.ageDemand
    extract_lets age aged
    split <;> exact ⟨rfl, rfl, rfl, rfl, rfl, rfl⟩
  | cons x others =>
    have hbrake : h.takeDemands.brake = (h.demandTaken x.1 x.2 others.length).brake := by
      rw [Hub.takeDemands_some hp]
      split
      · rfl
      · exact Hub.judgeTorque_brake _
    rw [hbrake]
    exact ⟨rfl, rfl, rfl, rfl, rfl, rfl⟩

theorem Hub.takeDemands_ports (h : Hub) (p : Port) : h.takeDemands.port p = { h.port p with posted := none } := by
  cases hp : h.postedDemands with
  | nil =>
    have hports : h.ageDemand.ports = h.ports := by simp
    rw [Hub.takeDemands_none hp, Hub.port, hports, ← (Hub.postedDemands_eq_nil.mp hp p)]
    rfl
  | cons x others =>
    rw [Hub.takeDemands_some hp]
    have htaken : (h.demandTaken x.1 x.2 others.length).port p = { h.port p with posted := none } := by
      cases p <;> rfl
    split
    · exact htaken
    · have hports : (h.demandTaken x.1 x.2 others.length).judgeTorque.ports = (h.demandTaken x.1 x.2 others.length).ports := by simp
      rw [Hub.port, hports]
      exact htaken

/-- A demand taken into use (R72). -/
theorem Hub.takeDemands_taken {h : Hub} {p : Port} {d : Demand} (hp : (h.port p).posted = some d)
    (hfirst : ∀ p', storePriority p' < storePriority p → (h.port p').posted = none) :
    h.takeDemands.brake = { Brake.takeDemand p d h.brake with superseded := min 255 (h.brake.superseded +
      (Port.all.filter fun p' => p' != p && ((h.port p').posted).isSome).length) } ∧
    h.takeDemands.events = h.events := by
  obtain ⟨others, hposted, hlength⟩ := Hub.postedDemands_of_first hp hfirst
  rw [Hub.takeDemands_some hposted, ← hlength]
  split
  · exact ⟨rfl, rfl⟩
  · refine ⟨Hub.judgeTorque_brake _, ?_⟩
    simp
    rfl

theorem statusOf_stale (t : Nat) : statusOf (.running t) = .stale ↔ 300 ≤ t := by
  simp only [statusOf]
  by_cases h1 : t ≤ 100
  · simp only [if_pos h1, reduceCtorEq, false_iff]
    omega
  · by_cases h2 : t < 300
    · simp only [if_neg h1, if_pos h2, reduceCtorEq, false_iff]
      omega
    · simp only [if_neg h1, if_neg h2, true_iff]
      omega

/-- A period without a demand (R73). -/
theorem Hub.takeDemands_aged {h : Hub} (hp : ∀ p, (h.port p).posted = none) :
    h.takeDemands.brake = { h.brake with age := ageAfter h.brake.age, status := statusOf (ageAfter h.brake.age) } ∧
    Hub.Sends .demandStale (if statusOf (ageAfter h.brake.age) = .stale ∧ h.brake.age ≠ ageAfter h.brake.age then
      [(0, (((h.brake.lastSeq.map BitVec.toNat).getD 0 : Nat) : Int))] else []) h h.takeDemands := by
  rw [Hub.takeDemands_none (Hub.postedDemands_eq_nil.mpr hp)]
  unfold Hub.ageDemand
  extract_lets age aged
  have hsilent : Hub.Sends .demandStale [] h aged := .silent rfl rfl
  split
  · exact ⟨rfl, hsilent.trans (.raise _ _ _ _)⟩
  · exact ⟨rfl, hsilent⟩

/-! ## Stages 2 to 4: modes, loads and service pressures -/

/-- The part after the stages before the halt confirmation. -/
def Hub.brakeFormed (h : Hub) : Hub := h.takeDemands.setModes.runLoads.formService

/-- The service pressure of an axle whose mode and load are formed (R79). -/
def Hub.servicePressure (h : Hub) (k : Axle) (a : AxleBrake) : Nat :=
  match a.mode, h.brake.status with
  | .backup, _ => 0
  | .electronic, .fresh => (quot (quot (a.load * h.brake.decel) 1000) (h.brakeFactor k)).toNat
  | .electronic, .holding => a.service
  | .electronic, .none => 0
  | .electronic, .stale => 0

/-- An axle after those stages, by the part after the demand (R74 to R79). -/
def Hub.formedAxle (h : Hub) (k : Axle) : AxleBrake :=
  let loaded := h.loadStage h.brake.kneelFreeze.run k { h.axleBrake k with mode := h.axleModeNow k }
  { loaded with service := h.servicePressure k loaded }

theorem Hub.brakeFormed_eq (h : Hub) : h.brakeFormed = { h.takeDemands with brake := { h.takeDemands.brake with
    kneelFreeze := h.takeDemands.brake.kneelFreeze.run, axles := h.brakeFormed.brake.axles } } := by
  unfold Hub.brakeFormed
  generalize h.takeDemands = g
  rfl

theorem Hub.brakeFormed_axle (h : Hub) (k : Axle) : h.brakeFormed.axleBrake k = h.takeDemands.formedAxle k := by
  unfold Hub.brakeFormed
  generalize h.takeDemands = g
  cases k <;> rfl

/-! ## Stages 5 and 6: halt confirmation and commands -/

/-- The part after the halt confirmation. -/
def Hub.brakeConfirmed (h : Hub) : Hub := h.brakeFormed.confirmHalt

theorem Hub.brakePeriod_eq (h : Hub) : h.brakePeriod =
    h.brakeConfirmed.command.onBrake fun u => { u with periods := u.periods + 1, timer := .started } := rfl

/-- What the halt confirmation leaves of the brake unit (R84). -/
theorem Hub.confirmHalt_brake (h : Hub) : h.confirmHalt.brake = { h.brake with
    halt := h.confirmHalt.brake.halt, applying := h.confirmHalt.brake.applying
    haltFault := h.confirmHalt.brake.haltFault } := by
  unfold Hub.confirmHalt
  split
  · split
    · rw [Hub.setHalt_brake]
    · extract_lets time timed
      split <;> rfl
  · rfl

theorem Hub.foldl_writeModulator (f : Axle → ModCmd) (h : Hub) :
    Axle.all.foldl (fun g k => g.writeModulator k (f k)) h = { h with link := { h.link with
      modulators := .tab fun k => { h.link.modulators.get k with image := f k } } } := by
  generalize f = f
  rfl

theorem Hub.command_eq (h : Hub) : h.command = { h with
    brake := { h.brake with axles := .tab fun k => h.commandStage k (h.axleBrake k) }
    link := { h.link with modulators := .tab fun k => { h.link.modulators.get k with
      image := ⟨(h.axleBrake k).mode, (h.commandStage k (h.axleBrake k)).command⟩ } } } := by
  unfold Hub.command
  extract_lets formed
  have haxle : ∀ k, formed.axleBrake k = h.commandStage k (h.axleBrake k) := fun k => PerAxle.get_tab _ k
  rw [Hub.foldl_writeModulator]
  simp only [haxle]
  rfl

/-! ## The halt confirmation (R84) -/

theorem Hub.confirmed_iff {h : Hub} {k : Axle} : h.confirmed k = true ↔
    (h.sensing.brakes.get k).fault = false ∧ h.phaltMin ≤ (h.sensing.brakes.get k).value := by
  simp [Hub.confirmed]

theorem Hub.firstUnconfirmed_none {h : Hub} : h.firstUnconfirmed = none ↔ ∀ k, h.haltAxle k = true → h.confirmed k = true := by
  rw [Hub.firstUnconfirmed, List.find?_eq_none]
  simp

theorem Hub.firstUnconfirmed_some {h : Hub} {k : Axle} (hk : h.haltAxle k = true) (hno : ¬h.confirmed k = true)
    (hleast : ∀ k', k'.num < k.num → h.haltAxle k' = true → h.confirmed k' = true) : h.firstUnconfirmed = some k := by
  have hbefore : ∀ k', k'.num < k.num → (h.haltAxle k' && !h.confirmed k') = false := fun k' hk' => by
    by_cases ha : h.haltAxle k' = true
    · simp [hleast k' hk' ha]
    · simp [ha]
  have hself : (h.haltAxle k && !h.confirmed k) = true := by simp [hk, hno]
  have h1 := hbefore .a1
  have h2 := hbefore .a2
  have h3 := hbefore .a3
  unfold Hub.firstUnconfirmed Axle.all
  cases k
  case a1 => simp only [List.find?_cons, hself]
  case a2 => simp only [List.find?_cons, h1 (by decide), hself]
  case a3 => simp only [List.find?_cons, h1 (by decide), h2 (by decide), hself]
  case a4 => simp only [List.find?_cons, h1 (by decide), h2 (by decide), h3 (by decide), hself]

theorem Hub.confirmHalt_of_not {h : Hub} (ha : h.brake.halt ≠ .applying) : h.confirmHalt = h := if_neg ha

theorem Hub.confirmHalt_of_all {h : Hub} (ha : h.brake.halt = .applying) (hall : h.firstUnconfirmed = none) :
    h.confirmHalt = h.setHalt .applied := by
  simp only [Hub.confirmHalt, if_pos ha, hall]

/-- A period without a confirmation (R84). -/
theorem Hub.confirmHalt_of_some {h : Hub} {n : Nat} {k : Axle} (ha : h.brake.halt = .applying)
    (ht : h.brake.applying = .running n) (hk : h.firstUnconfirmed = some k) :
    h.confirmHalt.brake = { h.brake with
      applying := .running (min 1500 (n + 5)), haltFault := h.brake.haltFault || decide (1500 ≤ n + 5) } ∧
    h.confirmHalt.doors = h.doors ∧
    Hub.Sends .haltState [] h h.confirmHalt ∧
    Hub.Sends .haltFault (if 1500 ≤ n + 5 ∧ h.brake.haltFault = false then [(0, (k.num : Int))] else []) h h.confirmHalt := by
  unfold Hub.confirmHalt
  simp only [if_pos ha, hk, ht, applyingAfter]
  obtain ⟨g, hg⟩ : ∃ g, g = h.onBrake fun u => { u with applying := .running (min 1500 (n + 5)) } := ⟨_, rfl⟩
  have hbrake : g.brake = { h.brake with applying := .running (min 1500 (n + 5)) } := by rw [hg]; rfl
  have hdoors : g.doors = h.doors := by rw [hg]; rfl
  have hsilent : ∀ kind, Hub.Sends kind [] h g := fun _ => .silent (by rw [hg]; rfl) (by rw [hg]; rfl)
  rw [← hg]
  clear hg
  have hmin : min 1500 (n + 5) = 1500 ↔ 1500 ≤ n + 5 := by omega
  simp only [hmin]
  split
  · next hboth =>
    have hfault : ∀ kind, Hub.Sends kind [] h (g.onBrake fun u => { u with haltFault := true }) := fun kind =>
      (hsilent kind).trans (.silent rfl rfl)
    refine ⟨?_, by simpa using hdoors, (hfault _).trans (.raise_of_ne (by decide) 0 k.num _), (hfault _).trans (.raise _ 0 k.num _)⟩
    simp [hbrake, hboth.1, Hub.onBrake]
  · next hnot =>
    refine ⟨?_, hdoors, hsilent _, hsilent _⟩
    rw [hbrake]
    by_cases h1 : 1500 ≤ n + 5
    · have : h.brake.haltFault = true := by simpa [h1] using hnot
      simp [this]
    · simp [h1]

/-- The confirmation applies the halt brake and grants the waiting releases at standstill (R84, R129). -/
theorem Hub.setHalt_applied_door (h : Hub) (d : Door) : (h.setHalt .applied).door d =
    if h.sensing.standstill = .yes then (h.door d).granting else h.door d := by
  unfold Hub.setHalt
  extract_lets changed
  rw [Hub.judgePermit_door]
  have hdoor : changed.door d = h.door d := by simp [changed, Hub.door]
  have hstanding : changed.standing = true ↔ h.sensing.standstill = .yes := by simp [changed, Hub.standing]
  by_cases hs : h.sensing.standstill = .yes
  · rw [if_pos ⟨rfl, hstanding.mpr hs⟩, if_pos hs, Hub.grantWaiting_door, hdoor]
  · rw [if_neg fun hboth => hs (hstanding.mp hboth.2), if_neg hs, hdoor]

/-! ## The whole period, as to demand and halt brake -/

/-- The stages between demand and confirmation leave what the confirmation reads. -/
theorem Hub.brakeFormed_reads (h : Hub) : h.brakeFormed.firstUnconfirmed = h.firstUnconfirmed ∧
    h.brakeFormed.brake.halt = h.brake.halt ∧ h.brakeFormed.brake.applying = h.brake.applying ∧
    h.brakeFormed.brake.haltFault = h.brake.haltFault ∧ h.brakeFormed.doors = h.doors ∧
    h.brakeFormed.sensing = h.sensing := by
  obtain ⟨-, -, hhalt, happlying, hfault, -⟩ := h.takeDemands_brake
  have hsensing : h.brakeFormed.sensing = h.sensing := by simp [Hub.brakeFormed]
  have hstore : h.brakeFormed.store = h.store := by simp [Hub.brakeFormed]
  have hdoors : h.brakeFormed.doors = h.doors := by simp [Hub.brakeFormed]
  refine ⟨?_, ?_, ?_, ?_, hdoors, hsensing⟩
  · have haxle : ∀ k, h.brakeFormed.haltAxle k = h.haltAxle k := fun k => by simp only [Hub.haltAxle, Hub.item, hstore]
    have hmin : h.brakeFormed.phaltMin = h.phaltMin := by simp only [Hub.phaltMin, Hub.item, hstore]
    have hconfirmed : ∀ k, h.brakeFormed.confirmed k = h.confirmed k := fun k => by
      rw [Hub.confirmed, Hub.confirmed, hsensing, hmin]
    simp only [Hub.firstUnconfirmed, haxle, hconfirmed]
  · rw [Hub.brakeFormed_eq]; exact hhalt
  · rw [Hub.brakeFormed_eq]; exact happlying
  · rw [Hub.brakeFormed_eq]; exact hfault

theorem Hub.brakeFormed_sends {kind : EventKind} {xs : List (Nat × Int)} {h : Hub}
    (hs : Hub.Sends kind xs h h.takeDemands) : Hub.Sends kind xs h h.brakeFormed :=
  hs.trans_silent (.silent (by simp [Hub.brakeFormed]) (by simp [Hub.brakeFormed]))

/-- The command stage and the end of the period leave demand, halt brake, doors and events. -/
theorem Hub.brakePeriod_end (h : Hub) : h.brakePeriod.brake = { h.brakeConfirmed.brake with
      axles := h.brakePeriod.brake.axles, periods := h.brake.periods + 1, timer := .started } ∧
    h.brakePeriod.doors = h.brakeConfirmed.doors ∧ h.brakePeriod.ports = h.takeDemands.ports ∧
    ∀ kind, Hub.Sends kind [] h.brakeConfirmed h.brakePeriod := by
  have hperiods : h.brakeConfirmed.brake.periods = h.brake.periods := by
    rw [Hub.brakeConfirmed, Hub.confirmHalt_brake, Hub.brakeFormed_eq]
    exact h.takeDemands_brake.2.2.2.2.2
  rw [Hub.brakePeriod_eq, ← hperiods]
  refine ⟨?_, by simp, by simp [Hub.brakeConfirmed, Hub.brakeFormed], fun kind => .silent (by simp) (by simp)⟩
  rw [Hub.command_eq]
  rfl

/-- The demand of a period is that of its first stage (R71 to R73). -/
theorem Hub.brakePeriod_demand (h : Hub) : h.brakePeriod.brake.decel = h.takeDemands.brake.decel ∧
    h.brakePeriod.brake.drive = h.takeDemands.brake.drive ∧ h.brakePeriod.brake.lastSeq = h.takeDemands.brake.lastSeq ∧
    h.brakePeriod.brake.lastPort = h.takeDemands.brake.lastPort ∧
    h.brakePeriod.brake.superseded = h.takeDemands.brake.superseded ∧ h.brakePeriod.brake.age = h.takeDemands.brake.age ∧
    h.brakePeriod.brake.status = h.takeDemands.brake.status := by
  obtain ⟨hbrake, -⟩ := h.brakePeriod_end
  rw [hbrake, Hub.brakeConfirmed, Hub.confirmHalt_brake, Hub.brakeFormed_eq]
  exact ⟨rfl, rfl, rfl, rfl, rfl, rfl, rfl⟩


/-- Settles O43. -/
theorem brakePeriodDemandAndHalt : Obligations.BrakePeriodDemandAndHalt := by
  intro s hdue h posted confirmed
  have hconfirmed : ∀ k, confirmed k ↔ h.confirmed k = true := fun k => Hub.confirmed_iff.symm
  obtain ⟨hdecel, hdrive, hseq, hport, hsuper, hage, hstatus⟩ := h.brakePeriod_demand
  obtain ⟨hbrake, hdoors, hports, hend⟩ := h.brakePeriod_end
  obtain ⟨hfirst, hhalt, happlying, hfault, hformed, hsensing⟩ := h.brakeFormed_reads
  have hformedStale : ∀ {xs}, Hub.Sends .demandStale xs h h.takeDemands → h.Raises h.brakePeriod .demandStale xs := fun hs =>
    (((Hub.brakeFormed_sends hs).trans_silent (.of_emits (Hub.confirmHalt_emits _) (by decide))).trans_silent (hend _)).raises
  have hquiet : ∀ kind, kind ≠ .demandStale → Hub.Sends kind [] h h.brakeFormed := fun kind hk =>
    Hub.brakeFormed_sends (.of_emits (Hub.takeDemands_emits h) (by simpa using hk))
  have hheld : ∀ {kind xs}, kind ≠ .demandStale → Hub.Sends kind xs h.brakeFormed h.brakeConfirmed →
      h.Raises h.brakePeriod kind xs := fun hk hs => (((hquiet _ hk).trans hs).trans_silent (hend _)).raises
  refine ⟨{ s with hub := h.brakePeriod }, by simp only [exec, execBrakeTimerExpiry, if_pos hdue]; rfl, rfl, fun p => ?_,
    fun p d hp hleast => ?_, fun hnone => ?_, fun ha => ?_, fun ha hall => ?_, fun n k ha ht hk hno hleast => ?_⟩
  · exact (congrArg (fun v : PerPort PortUnit => v.get p) hports).trans (h.takeDemands_ports p)
  · obtain ⟨htaken, hevents⟩ := Hub.takeDemands_taken hp hleast
    rw [htaken] at hdecel hdrive hseq hport hsuper hage hstatus
    exact ⟨hdecel, hdrive, hseq, hport, hage, hstatus, hsuper, hformedStale (.silent (by simp) hevents)⟩
  · obtain ⟨haged, hstale⟩ := Hub.takeDemands_aged hnone
    rw [haged] at hdecel hdrive hseq hport hsuper hage hstatus
    refine ⟨hdecel, hdrive, hseq, hport, hsuper, fun hstopped => ?_, fun n hn => ?_⟩
    · rw [hstopped] at hage hstatus hstale
      exact ⟨hage, hstatus, hformedStale (hstale.congr (by simp [ageAfter]))⟩
    · intro age
      have hafter : ageAfter h.brake.age = .running age := by
        rw [hn]
        simp only [ageAfter, age]
        split <;> rfl
      rw [hafter] at hage hstatus hstale
      refine ⟨hage, hstatus, fun hlt hge seq hsome => hformedStale (hstale.congr ?_), fun hor => hformedStale (hstale.congr ?_)⟩
      · have hold : statusOf (.running age) = .stale := (statusOf_stale age).mpr (by simp only [age, if_pos hlt]; exact hge)
        have hne : h.brake.age ≠ .running age := by
          rw [hn]
          simp [age, hlt]
        rw [if_pos ⟨hold, hne⟩, hsome]
        rfl
      · refine if_neg fun hboth => ?_
        obtain ⟨hold, hne⟩ := hboth
        have hlong := (statusOf_stale age).mp hold
        rcases hor with hlt | hge
        · simp only [age, if_pos (show n < 300 by omega)] at hlong
          omega
        · exact hne (by rw [hn]; simp [age, Nat.not_lt.mpr hge])
  · have hsame : h.brakeConfirmed = h.brakeFormed := Hub.confirmHalt_of_not (by rw [hhalt]; exact ha)
    rw [hsame] at hbrake
    refine ⟨(congrArg Brake.halt hbrake).trans hhalt, (congrArg Brake.applying hbrake).trans happlying,
      (congrArg Brake.haltFault hbrake).trans hfault, ?_, ?_⟩ <;>
    exact hheld (by decide) (hsame ▸ .refl _)
  · have happlied : h.brakeConfirmed = h.brakeFormed.setHalt .applied := Hub.confirmHalt_of_all (hhalt.trans ha)
      (hfirst.trans (Hub.firstUnconfirmed_none.mpr fun k hk => (hconfirmed k).mp (hall k hk)))
    rw [happlied, Hub.setHalt_brake] at hbrake
    refine ⟨congrArg Brake.halt hbrake, congrArg Brake.applying hbrake, ?_, ?_, fun d => ?_⟩
    · exact hheld (by decide) (happlied ▸ .of_emits (Hub.setHalt_emits _ _) (by decide))
    · exact hheld (by decide) (happlied ▸ (Hub.setHalt_sends .applied _).1)
    · have hdoor : h.brakePeriod.door d = (h.brakeFormed.setHalt .applied).door d := by rw [Hub.door, hdoors, happlied, Hub.door]
      refine hdoor.trans ?_
      rw [Hub.setHalt_applied_door, hsensing, Hub.door, hformed]
      by_cases hs : h.sensing.standstill = .yes
      · rw [if_pos hs]
        by_cases hw : (h.door d).release = .waiting
        · rw [if_pos ⟨hs, hw⟩]
          exact if_pos hw
        · rw [if_neg fun hboth => hw hboth.2]
          exact if_neg hw
      · rw [if_neg hs, if_neg fun hboth => hs hboth.1]
        rfl
  · have hsome : h.brakeFormed.firstUnconfirmed = some k := hfirst.trans (Hub.firstUnconfirmed_some hk
      (fun hyes => hno ((hconfirmed k).mpr hyes)) fun k' hk' ha' => (hconfirmed k').mp (hleast k' hk' ha'))
    obtain ⟨htimed, hkept, hstate, hraised⟩ := Hub.confirmHalt_of_some (hhalt.trans ha) (happlying.trans ht) hsome
    rw [hfault] at hraised
    have hhaltFault : h.brakePeriod.brake.haltFault = (h.brake.haltFault || decide (1500 ≤ n + 5)) := by
      rw [hbrake, Hub.brakeConfirmed, htimed, hfault]
    refine ⟨?_, ?_, hdoors.trans (hkept.trans hformed), hheld (by decide) hstate, fun hclear hlong => ⟨?_, ?_⟩,
      fun hor => ⟨?_, ?_⟩⟩
    · exact (congrArg Brake.halt hbrake).trans ((congrArg Brake.halt htimed).trans (hhalt.trans ha))
    · exact (congrArg Brake.applying hbrake).trans (congrArg Brake.applying htimed)
    · rw [hhaltFault]; simp [hlong]
    · exact hheld (by decide) (hraised.congr (if_pos ⟨hlong, hclear⟩))
    · rw [hhaltFault]
      rcases hor with hset | hshort
      · simp [hset]
      · simp [Nat.not_le.mpr hshort]
    · refine hheld (by decide) (hraised.congr (if_neg fun hboth => ?_))
      rcases hor with hset | hshort
      · exact Bool.noConfusion (hset.symm.trans hboth.2)
      · omega

end Sys2Proof.Machine
end

section
/-! PROOFS. The freezes of the axle loads over all commands, and the commands of a brake period: O44. -/

namespace Sys2Proof.Machine

/-! ## An axle's activity along a step (R78) -/

/-- Every axle's activity freeze is on exactly while the axle is active (R78). -/
def Hub.ActivityJudged (h : Hub) : Prop := ∀ k, (h.axleBrake k).activity = .on ↔ h.axleActive k = true

theorem Hub.axleActive_iff {h : Hub} {k : Axle} : h.axleActive k = true ↔ h.sensing.standstill = .yes ∧
    ∃ c, (c = k.left ∨ c = k.right) ∧ ((h.circuit c).action = .fill ∨ (h.circuit c).action = .vent) := by
  simp [Hub.axleActive, Hub.standing, or_and_right, exists_or]

theorem Hub.axleActive_congr {h g : Hub} (hs : g.standing = h.standing) (ha : ∀ c, (g.circuit c).action = (h.circuit c).action)
    (k : Axle) : g.axleActive k = h.axleActive k := by
  simp only [Hub.axleActive, hs, ha]

/-- Between two moments of a step neither the action states nor the axles' activities change. -/
structure Hub.ActsAlike (h g : Hub) : Prop where
  standing : g.standing = h.standing
  action   : ∀ c, (g.circuit c).action = (h.circuit c).action
  activity : ∀ k, (g.axleBrake k).activity = (h.axleBrake k).activity

/-- Between two moments of a step the axles' activities follow the action states: an axle that stops being active goes to
the after-time, and one that is active at neither end stays or comes from an activity in between (R78). -/
structure Hub.Shifts (h g : Hub) : Prop where
  judged : h.ActivityJudged → g.ActivityJudged
  ends   : h.ActivityJudged → ∀ k, h.axleActive k = true → g.axleActive k = false → (g.axleBrake k).activity = .after 500
  rest   : h.ActivityJudged → ∀ k, h.axleActive k = false → g.axleActive k = false →
    (g.axleBrake k).activity = (h.axleBrake k).activity ∨ (g.axleBrake k).activity = .after 500

/-- A part of a step made of changes of action states, each judged at once, and of operations that leave them. -/
inductive Hub.Works : Hub → Hub → Prop
  | alike {h g : Hub} (hg : h.ActsAlike g) : Hub.Works h g
  | act (h : Hub) (c : Circuit) (a : Action) : Hub.Works h (h.setAction c a)
  | trans {h g f : Hub} (hg : Hub.Works h g) (gf : Hub.Works g f) : Hub.Works h f

/-- In such a part no axle becomes active. -/
structure Hub.Calms (h g : Hub) : Prop where
  works : h.Works g
  fewer : ∀ k, g.axleActive k = true → h.axleActive k = true
  kept  : h.ActivityJudged → ∀ k, h.axleActive k = false → (g.axleBrake k).activity = (h.axleBrake k).activity

/-- In such a part no axle stops being active. -/
structure Hub.Stirs (h g : Hub) : Prop where
  works : h.Works g
  more : ∀ k, h.axleActive k = true → g.axleActive k = true
  kept : h.ActivityJudged → ∀ k, g.axleActive k = false → (g.axleBrake k).activity = (h.axleBrake k).activity

namespace Hub.ActsAlike
variable {h g f : Hub}

theorem refl (h : Hub) : h.ActsAlike h := ⟨rfl, fun _ => rfl, fun _ => rfl⟩

theorem trans (hg : h.ActsAlike g) (gf : g.ActsAlike f) : h.ActsAlike f :=
  ⟨gf.standing.trans hg.standing, fun c => (gf.action c).trans (hg.action c), fun k => (gf.activity k).trans (hg.activity k)⟩

theorem active (hg : h.ActsAlike g) (k : Axle) : g.axleActive k = h.axleActive k := Hub.axleActive_congr hg.standing hg.action k

theorem of_core (hs : g.standing = h.standing) (hl : g.level.core = h.level.core) (hb : g.brake.axles = h.brake.axles) :
    h.ActsAlike g :=
  ⟨hs, fun c => (congrArg CircuitLevel.action (Levelling.core_circuit hl c) :), fun k => by rw [Hub.axleBrake, hb, Hub.axleBrake]⟩

theorem shifts (hg : h.ActsAlike g) : h.Shifts g := by
  refine ⟨fun hj k => ?_, fun _ k ha hn => ?_, fun _ k _ _ => .inl (hg.activity k)⟩
  · rw [hg.activity, hg.active]
    exact hj k
  · rw [hg.active, ha] at hn
    cases hn

theorem calms (hg : h.ActsAlike g) : h.Calms g :=
  { works := .alike hg, fewer := fun k ha => hg.active k ▸ ha, kept := fun _ k _ => hg.activity k }

theorem stirs (hg : h.ActsAlike g) : h.Stirs g :=
  { works := .alike hg, more := fun k ha => (hg.active k).trans ha, kept := fun _ k _ => hg.activity k }

end Hub.ActsAlike

theorem Hub.Shifts.trans {h g f : Hub} (hg : h.Shifts g) (gf : g.Shifts f) : h.Shifts f := by
  refine ⟨gf.judged ∘ hg.judged, fun hj k ha hn => ?_, fun hj k ha hn => ?_⟩
  · cases hk : g.axleActive k with
    | true => exact gf.ends (hg.judged hj) k hk hn
    | false =>
      obtain hsame | hafter := gf.rest (hg.judged hj) k hk hn
      · exact hsame.trans (hg.ends hj k ha hk)
      · exact hafter
  · cases hk : g.axleActive k with
    | true => exact .inr (gf.ends (hg.judged hj) k hk hn)
    | false =>
      obtain hsame | hafter := gf.rest (hg.judged hj) k hk hn
      · exact (hg.rest hj k ha hk).imp hsame.trans hsame.trans
      · exact .inr hafter

/-- An action state that has its axle active (R78). -/
def Action.moves (a : Action) : Bool := a == .fill || a == .vent

theorem Hub.axleActive_eq (h : Hub) (k : Axle) :
    h.axleActive k = (h.standing && ((h.circuit k.left).action.moves || (h.circuit k.right).action.moves)) := by
  simp [Hub.axleActive, Action.moves]

/-- A freeze whose activity is not there, or has just ended (R78). -/
def Freeze.ended : Freeze → Freeze
  | .on => .after 500
  | x => x

theorem Freeze.ended_of_off {x : Freeze} (hx : x ≠ .on) : x.ended = x := by
  cases x <;> first | rfl | exact absurd rfl hx

theorem Freeze.ended_ne_on (x : Freeze) : x.ended ≠ .on := by cases x <;> exact nofun

/-- A change of an action state judges its axle at once. -/
theorem Hub.setAction_activity (c : Circuit) (a : Action) (h : Hub) (k : Axle) : ((h.setAction c a).axleBrake k).activity =
    if k = c.axle then (if (h.setAction c a).axleActive k then .on else (h.axleBrake k).activity.ended)
    else (h.axleBrake k).activity := by
  rw [Hub.setAction, Hub.judgeActivity_axleBrake]
  split
  · next heq => subst heq; rfl
  · rfl

theorem Hub.setAction_active_other {c : Circuit} {k : Axle} (hk : k ≠ c.axle) (a : Action) (h : Hub) :
    (h.setAction c a).axleActive k = h.axleActive k := by
  have hne : k.left ≠ c ∧ k.right ≠ c := by
    revert hk
    cases k <;> cases c <;> decide
  have hstanding : (h.setAction c a).standing = h.standing := by simp [Hub.standing]
  rw [Hub.axleActive_eq, Hub.axleActive_eq, hstanding, Hub.setAction_circuit, Hub.setAction_circuit, if_neg hne.1, if_neg hne.2]

theorem Hub.shifts_setAction (c : Circuit) (a : Action) (h : Hub) : h.Shifts (h.setAction c a) := by
  refine ⟨fun hj k => ?_, fun hj k ha hn => ?_, fun hj k ha hn => ?_⟩ <;> rw [Hub.setAction_activity]
  · split
    · cases hk : (h.setAction c a).axleActive k with
      | true => simp
      | false =>
        simpa using Freeze.ended_ne_on _
    · next hne => rw [Hub.setAction_active_other hne]; exact hj k
  · split
    · rw [hn, (hj k).mpr ha]; rfl
    · next hne => rw [Hub.setAction_active_other hne, ha] at hn; cases hn
  · split
    · have hoff : (h.axleBrake k).activity ≠ .on := fun hon => Bool.noConfusion (ha.symm.trans ((hj k).mp hon))
      left
      rw [hn, if_neg nofun, Freeze.ended_of_off hoff]
    · exact .inl rfl

theorem Hub.Works.shifts {h g : Hub} (hw : h.Works g) : h.Shifts g := by
  induction hw with
  | alike hg => exact hg.shifts
  | act h c a => exact Hub.shifts_setAction c a h
  | trans _ _ ihg ihf => exact ihg.trans ihf

theorem Hub.Calms.trans {h g f : Hub} (hg : h.Calms g) (gf : g.Calms f) : h.Calms f :=
  { works := hg.works.trans gf.works
    fewer := fun k ha => hg.fewer k (gf.fewer k ha)
    kept := fun hj k hn => by
      have hno : g.axleActive k = false := Bool.eq_false_iff.mpr fun hk => Bool.noConfusion (hn.symm.trans (hg.fewer k hk))
      exact (gf.kept (hg.works.shifts.judged hj) k hno).trans (hg.kept hj k hn) }

theorem Hub.Stirs.trans {h g f : Hub} (hg : h.Stirs g) (gf : g.Stirs f) : h.Stirs f :=
  { works := hg.works.trans gf.works
    more := fun k ha => gf.more k (hg.more k ha)
    kept := fun hj k hn => by
      have hno : g.axleActive k = false := Bool.eq_false_iff.mpr fun hk => Bool.noConfusion (hn.symm.trans (gf.more k hk))
      exact (gf.kept (hg.works.shifts.judged hj) k hn).trans (hg.kept hj k hno) }

theorem Hub.calms_foldl {α : Type} {φ : Hub → α → Hub} (hf : ∀ (h : Hub) (x : α), h.Calms (φ h x)) (l : List α) (h : Hub) :
    h.Calms (l.foldl φ h) := by
  induction l generalizing h with
  | nil => exact (ActsAlike.refl h).calms
  | cons x l ih => exact (hf h x).trans (ih _)

theorem Hub.stirs_foldl {α : Type} {φ : Hub → α → Hub} (hf : ∀ (h : Hub) (x : α), h.Stirs (φ h x)) (l : List α) (h : Hub) :
    h.Stirs (l.foldl φ h) := by
  induction l generalizing h with
  | nil => exact (ActsAlike.refl h).stirs
  | cons x l ih => exact (hf h x).trans (ih _)

/-- A part that calms axles and then stirs some leaves an axle that is active at neither end alone. -/
theorem Hub.Calms.kept_of_stirs {h g f : Hub} (hg : h.Calms g) (gf : g.Stirs f) (hj : h.ActivityJudged) {k : Axle}
    (ha : h.axleActive k = false) (hn : f.axleActive k = false) : (f.axleBrake k).activity = (h.axleBrake k).activity :=
  (gf.kept (hg.works.shifts.judged hj) k hn).trans (hg.kept hj k ha)

/-! ## The operations on action states -/

theorem Hub.actsAlike_onLevel {φ : Levelling → Levelling} (hφ : ∀ u c, ((φ u).circuits.get c).action = (u.circuits.get c).action)
    (h : Hub) : h.ActsAlike (h.onLevel φ) := ⟨rfl, hφ h.level, fun _ => rfl⟩

theorem Hub.actsAlike_onCircuit {φ : CircuitLevel → CircuitLevel} (hφ : ∀ x, (φ x).action = x.action) (c : Circuit) (h : Hub) :
    h.ActsAlike (h.onCircuit c φ) :=
  ⟨rfl, fun c' => by rw [Hub.circuit_onCircuit]; split <;> simp [*], fun _ => rfl⟩

theorem Hub.shifts_rest_setAction {c : Circuit} {a : Action} {h : Hub} (hj : h.ActivityJudged) {k : Axle}
    (ha : h.axleActive k = false) (hn : (h.setAction c a).axleActive k = false) :
    ((h.setAction c a).axleBrake k).activity = (h.axleBrake k).activity := by
  rw [Hub.setAction_activity]
  split
  · have hoff : (h.axleBrake k).activity ≠ .on := fun hon => Bool.noConfusion (ha.symm.trans ((hj k).mp hon))
    rw [hn, if_neg nofun, Freeze.ended_of_off hoff]
  · rfl

theorem Hub.calms_setAction {a : Action} (hm : a.moves = false) (c : Circuit) (h : Hub) : h.Calms (h.setAction c a) := by
  have hfewer : ∀ k, (h.setAction c a).axleActive k = true → h.axleActive k = true := fun k ha => by
    have hstanding : (h.setAction c a).standing = h.standing := by simp [Hub.standing]
    have hact : ∀ c', ((h.setAction c a).circuit c').action.moves = true → (h.circuit c').action.moves = true := fun c' hc => by
      rw [Hub.setAction_circuit] at hc
      split at hc
      · exact Bool.noConfusion (hm.symm.trans hc)
      · exact hc
    rw [Hub.axleActive_eq, hstanding, Bool.and_eq_true, Bool.or_eq_true] at ha
    rw [Hub.axleActive_eq, Bool.and_eq_true, Bool.or_eq_true]
    exact ⟨ha.1, ha.2.imp (hact _) (hact _)⟩
  refine { works := .act h c a, fewer := hfewer, kept := fun hj k hn => Hub.shifts_rest_setAction hj hn ?_ }
  exact Bool.eq_false_iff.mpr fun hk => Bool.noConfusion (hn.symm.trans (hfewer k hk))

theorem Hub.stirs_setAction {a : Action} {c : Circuit} {h : Hub} (hm : a.moves = true ∨ (h.circuit c).action.moves = false) :
    h.Stirs (h.setAction c a) := by
  have hmore : ∀ k, h.axleActive k = true → (h.setAction c a).axleActive k = true := fun k ha => by
    have hstanding : (h.setAction c a).standing = h.standing := by simp [Hub.standing]
    have hact : ∀ c', (h.circuit c').action.moves = true → ((h.setAction c a).circuit c').action.moves = true := fun c' hc => by
      rw [Hub.setAction_circuit]
      split
      · next heq =>
        subst heq
        exact hm.resolve_right fun hno => Bool.noConfusion (hno.symm.trans hc)
      · exact hc
    rw [Hub.axleActive_eq, Bool.and_eq_true, Bool.or_eq_true] at ha
    rw [Hub.axleActive_eq, hstanding, Bool.and_eq_true, Bool.or_eq_true]
    exact ⟨ha.1, ha.2.imp (hact _) (hact _)⟩
  refine { works := .act h c a, more := hmore, kept := fun hj k hn => Hub.shifts_rest_setAction hj ?_ hn }
  exact Bool.eq_false_iff.mpr fun hk => Bool.noConfusion (hn.symm.trans (hmore k hk))


/-! ## Stops, exclusions and cuts (chapter 6) -/

theorem Hub.actsAlike_releaseSlot (c : Circuit) (h : Hub) : h.ActsAlike (h.releaseSlot c) := ⟨rfl, fun _ => rfl, fun _ => rfl⟩
theorem Hub.actsAlike_leaveQueue (c : Circuit) (h : Hub) : h.ActsAlike (h.leaveQueue c) := ⟨rfl, fun _ => rfl, fun _ => rfl⟩
theorem Hub.actsAlike_writeValves (h : Hub) : h.ActsAlike h.writeValves := ⟨rfl, fun _ => rfl, fun _ => rfl⟩
theorem Hub.actsAlike_raise (kind : EventKind) (subject : Nat) (value : Int) (h : Hub) : h.ActsAlike (h.raise kind subject value) :=
  ⟨rfl, fun _ => rfl, fun _ => rfl⟩

theorem Hub.calms_toHold (c : Circuit) (h : Hub) : h.Calms (h.toHold c) :=
  ((Hub.actsAlike_releaseSlot c h).trans (Hub.actsAlike_leaveQueue c _)).calms.trans (Hub.calms_setAction rfl c _)

theorem Hub.calms_reason (r : HoldReason) (c : Circuit) (h : Hub) : h.Calms (h.onCircuit c fun x => { x with reason := r }) :=
  (Hub.actsAlike_onCircuit (φ := fun x => { x with reason := r }) (fun _ => rfl) c h).calms

theorem Hub.calms_takeOut (h : Hub) (c : Circuit) : h.Calms (h.takeOut c) :=
  (((Hub.actsAlike_releaseSlot c h).trans (Hub.actsAlike_leaveQueue c _)).trans
    (Hub.actsAlike_onCircuit (φ := fun x => { x with count := 0, reason := .none }) (fun _ => rfl) c _)).calms.trans
    (Hub.calms_setAction rfl c _)

theorem Hub.calms_stopCircuit (h : Hub) (c : Circuit) : h.Calms (h.stopCircuit c) := by
  unfold Hub.stopCircuit
  split
  · exact (ActsAlike.refl h).calms
  · exact Hub.calms_reason _ c h
  all_goals exact (Hub.calms_toHold c h).trans (Hub.calms_reason _ c _)

theorem Hub.calms_backToQueue (h : Hub) (x : HeldSlot) : h.Calms (h.backToQueue x) :=
  ((Hub.actsAlike_releaseSlot x.circuit h).trans (Hub.actsAlike_onLevel
    (φ := fun u => { u with queue := headOfClass ⟨x.circuit, x.cls⟩ u.queue }) (fun _ _ => rfl) _)).calms.trans
    (Hub.calms_setAction rfl x.circuit _)

theorem Hub.stirs_grantHead (h : Hub) : h.Stirs h.grantHead := by
  obtain ⟨heq, -⟩ | ⟨i, e, rest, -, -, -, heq⟩ := h.grantHead_cases <;> rw [heq]
  · exact (ActsAlike.refl h).stirs
  · exact (Hub.actsAlike_onLevel (φ := fun u =>
      { u with
        queue := rest
        slots := u.slots.set i (some ⟨e.circuit, 0, u.grants, e.cls⟩)
        grants := u.grants + 1 }) (fun _ _ => rfl) h).stirs.trans (Hub.stirs_setAction (.inl rfl))

theorem Hub.stirs_grant (h : Hub) : h.Stirs h.grant :=
  (h.stirs_grantHead.trans (Hub.stirs_grantHead _)).trans (Hub.stirs_grantHead _)

theorem Hub.stirs_grantIfFreed (before after : PerSlot (Option HeldSlot)) (h : Hub) : h.Stirs (h.grantIfFreed before after) := by
  unfold Hub.grantIfFreed
  split
  · exact (ActsAlike.refl h).stirs
  · exact h.stirs_grant

theorem Hub.brakeTakesKneel_axles (old new : KneelState) (h : Hub) : (h.brakeTakesKneel old new).brake.axles = h.brake.axles := by
  unfold Hub.brakeTakesKneel
  (repeat' split) <;> rfl

/-- A change of the kneel state, the entry into STOPPED apart, moves no action state. -/
theorem Hub.actsAlike_setKneel {new : KneelState} (hn : new ≠ .stopped) (h : Hub) : h.ActsAlike (h.setKneel new) := by
  refine .of_core (by simp [Hub.standing]) (Hub.setKneel_core hn h).1 ?_
  have htaken : ∀ (g : Hub) old, (g.levellingTakesKneel old new).brake.axles = g.brake.axles := fun g old => by
    cases new
    case stopped => exact absurd rfl hn
    all_goals rfl
  simp only [Hub.setKneel, Hub.judgePermit_frame, Hub.brakeTakesKneel_axles, htaken]
  rfl

/-- The entry into STOPPED calms the circuits in scope and grants the freed slots (R102, R116, R97). -/
theorem Hub.works_setKneel_stopped (h : Hub) : h.Works (h.setKneel .stopped) := by
  unfold Hub.setKneel
  extract_lets old changed
  have hchanged : h.ActsAlike changed := ⟨rfl, fun _ => rfl, fun _ => rfl⟩
  have htaken : changed.Works (changed.levellingTakesKneel old .stopped) := by
    simp only [Hub.levellingTakesKneel]
    exact ((Hub.calms_foldl Hub.calms_stopCircuit _ changed).works.trans (Hub.stirs_grantIfFreed _ _ _).works).trans
      (.alike (Hub.actsAlike_writeValves _))
  have hbrake : ∀ g : Hub, g.ActsAlike (g.brakeTakesKneel old .stopped).judgePermit := fun g => by
    refine .of_core (by simp [Hub.standing]) (by simp) ?_
    simpa using Hub.brakeTakesKneel_axles old .stopped g
  exact (Works.trans (.alike hchanged) htaken).trans (.alike (hbrake _))

theorem Hub.works_stopKneel (cause : StopCause) (c : Option Circuit) (h : Hub) : h.Works (h.stopKneel cause c) := by
  unfold Hub.stopKneel
  split
  case h_1 | h_2 | h_3 =>
    refine (Works.alike ?_).trans (Hub.works_setKneel_stopped _)
    exact ⟨rfl, fun _ => rfl, fun _ => rfl⟩
  all_goals exact .alike (.refl h)

theorem Hub.works_foldl {α : Type} {φ : Hub → α → Hub} (hf : ∀ (h : Hub) (x : α), h.Works (φ h x)) (l : List α) (h : Hub) :
    h.Works (l.foldl φ h) := by
  induction l generalizing h with
  | nil => exact .alike (.refl h)
  | cons x l ih => exact (hf h x).trans (ih _)

theorem Hub.works_exclude (cs : List Circuit) (add : Causes → Causes) (h : Hub) : h.Works (h.exclude cs add) := by
  unfold Hub.exclude
  extract_lets newly marked out handed
  have hmarked : h.Calms marked := Hub.calms_foldl (fun g c =>
    (Hub.actsAlike_onCircuit (φ := fun x => { x with causes := add x.causes }) (fun _ => rfl) c g).calms) cs h
  have hout : marked.Calms out := Hub.calms_foldl Hub.calms_takeOut newly marked
  have hhanded : out.Works handed := Hub.works_foldl (fun g c => by
    split
    · exact Hub.works_stopKneel _ _ g
    · exact .alike (.refl g)) newly out
  exact (((hmarked.trans hout).works.trans hhanded).trans (Hub.stirs_grantIfFreed _ _ _).works).trans
    (.alike (Hub.actsAlike_writeValves _))

theorem Hub.actsAlike_clearCause (cs : List Circuit) (drop : Causes → Causes) (h : Hub) : h.ActsAlike (h.clearCause cs drop) :=
  foldl_preserves (P := fun g => h.ActsAlike g) (fun g c hg =>
    hg.trans (Hub.actsAlike_onCircuit (φ := fun x => { x with causes := drop x.causes }) (fun _ => rfl) c g)) cs (.refl h)

theorem Hub.actsAlike_heightsRecovered (cs : List Circuit) (h : Hub) : h.ActsAlike (h.heightsRecovered cs) := by
  refine ActsAlike.trans (foldl_preserves (P := fun g => h.ActsAlike g) (fun g c hg => ?_) cs (.refl h))
    (Hub.actsAlike_clearCause _ _ _)
  exact hg.trans (Hub.actsAlike_onCircuit (φ := fun x => { x with ring := [], height := none, error := none }) (fun _ => rfl) c g)

theorem Hub.works_judgeReservoir (old : Single) (h : Hub) : h.Works (h.judgeReservoir old) := by
  have hcause : ∀ cause, h.ActsAlike (h.onLevel fun u => { u with cutCause := cause }) := fun cause =>
    Hub.actsAlike_onLevel (φ := fun u => { u with cutCause := cause }) (fun _ _ => rfl) h
  have hbegin : ∀ cause, h.Works (h.beginCut cause) := fun cause => by
    unfold Hub.beginCut
    extract_lets cut
    have hcut : h.ActsAlike cut := Hub.actsAlike_onLevel (φ := fun u => { u with cut := true, cutCause := cause }) (fun _ _ => rfl) h
    exact ((hcut.calms.trans (Hub.calms_foldl Hub.calms_backToQueue _ cut)).trans
      ((Hub.actsAlike_writeValves _).trans (Hub.actsAlike_raise _ _ _ _)).calms).works
  unfold Hub.judgeReservoir
  extract_lets new
  split
  · split
    · split
      · exact .alike ((hcause _).trans (Hub.actsAlike_raise _ _ _ _))
      · exact .alike (.refl h)
    · split
      · have hlift := Hub.actsAlike_onLevel (φ := fun u => { u with cut := false }) (fun _ _ => rfl) h
        exact (hlift.stirs.trans ((Hub.stirs_grant _).trans (Hub.actsAlike_writeValves _).stirs)).works
      · split
        · exact .alike ((hcause _).trans (Hub.actsAlike_raise _ _ _ _))
        · split
          · exact .alike (hcause _)
          · exact .alike (.refl h)
  · (repeat' split) <;> first | exact .alike (.refl h) | exact hbegin _

theorem Hub.works_scanRound (raw : ScanResults) (h : Hub) : h.Works (h.scanRound raw) := by
  have hreported : h.ActsAlike (h.reported raw) := by
    refine .of_core ?_ (by simp) (by simp [Hub.reported])
    rw [Hub.standing, (h.reported_units raw).2.1]
    rfl
  have hlevelled : h.Works (h.roundLevelled raw) :=
    (Works.trans (.alike hreported) (Hub.works_exclude _ _ _)).trans (.alike (Hub.actsAlike_heightsRecovered _ _))
  rw [Hub.scanRound_eq]
  split
  · exact hlevelled.trans (Hub.works_judgeReservoir _ _)
  · exact hlevelled

theorem Hub.works_chainComplete (answers : ChainAnswers) (h : Hub) : h.Works (h.chainComplete answers) := by
  by_cases hl : ∃ a, answers = .l a
  · obtain ⟨a, rfl⟩ := hl
    refine Hub.completeL_preserves (P := fun g : Hub => h.Works g) a
      (fun _ _ => Works.alike ⟨rfl, fun _ => rfl, fun _ => rfl⟩) (fun cs add value g hg => ?_) fun cs drop g hg => ?_
    · exact (hg.trans (.alike (Hub.actsAlike_raise _ _ _ g))).trans (Hub.works_exclude _ _ _)
    · exact hg.trans (.alike (Hub.actsAlike_clearCause _ _ g))
  · refine Works.alike (.of_core (by simp [Hub.standing]) ?_ ?_)
    all_goals
      cases answers
      case l a => exact absurd ⟨a, rfl⟩ hl
      all_goals simp [Hub.chainComplete]

/-! ## The levelling period -/

theorem Hub.calms_judgePause (h : Hub) (c : Circuit) : h.Calms (h.judgePause c) := by
  unfold Hub.judgePause
  extract_lets wantsVent wantsFill pause
  have hpause : ∀ r, h.Calms (pause r) := fun r => by
    refine Hub.Calms.trans (g := if (h.circuit c).action = .hold then h else h.toHold c) ?_ (Hub.calms_reason r c _)
    split
    · exact (ActsAlike.refl h).calms
    · exact Hub.calms_toHold c h
  (repeat' split) <;> first | exact hpause _ | exact (ActsAlike.refl h).calms

theorem Hub.calms_exitExcluded (h : Hub) (c : Circuit) : h.Calms (h.exitExcluded c) := by
  unfold Hub.exitExcluded
  extract_lets x
  split
  · exact (Hub.actsAlike_onCircuit (φ := fun x => { x with reason := h.exitReason c, count := 0 }) (fun _ => rfl) c h).calms.trans
      (Hub.calms_setAction rfl c _)
  · exact (ActsAlike.refl h).calms

theorem Hub.calms_endPause (h : Hub) (c : Circuit) : h.Calms (h.endPause c) := by
  unfold Hub.endPause
  extract_lets ends
  split
  · exact Hub.calms_reason _ c h
  · exact (ActsAlike.refl h).calms

theorem Hub.calms_stops (h : Hub) (c : Circuit) : h.Calms (h.stopWaiting c) ∧ h.Calms (h.stopRunning c) := by
  have hrefl := (ActsAlike.refl h).calms
  unfold Hub.stopWaiting Hub.stopRunning
  constructor
  · split
    · exact Hub.calms_toHold c h
    · exact hrefl
  · (repeat' split) <;> first | exact Hub.calms_toHold c h | exact hrefl

theorem Hub.calms_advanceSlot (h : Hub) (i : FillSlot) : h.Calms (h.advanceSlot i) := by
  unfold Hub.advanceSlot
  split
  · exact (ActsAlike.refl h).calms
  · next x _ =>
    split
    · exact ((Hub.actsAlike_onLevel (φ := fun u =>
        { u with slots := u.slots.set i none, queue := tailOfClass ⟨x.circuit, x.cls⟩ u.queue }) (fun _ _ => rfl) h).calms.trans
        (Hub.calms_setAction rfl x.circuit _)).trans (Hub.actsAlike_raise _ _ _ _).calms
    · exact (Hub.actsAlike_onLevel (φ := fun u => { u with slots := u.slots.set i (some { x with time := x.time + 50 }) })
        (fun _ _ => rfl) h).calms

theorem Hub.actsAlike_sampleHeights (h : Hub) : h.ActsAlike h.sampleHeights :=
  ⟨by simp [Hub.standing], fun c => by simp [Hub.sampleHeights, Hub.onLevel, Hub.circuit, CircuitLevel.sample], fun _ => rfl⟩

theorem Hub.actsAlike_formSections (h : Hub) : h.ActsAlike h.formSections := ⟨by simp [Hub.standing], fun _ => rfl, fun _ => rfl⟩

theorem Hub.calms_levellingStops (h : Hub) : h.Calms h.levellingStops := by
  unfold Hub.levellingStops
  extract_lets exited paused stopped
  have hsampled : h.Calms h.sampleHeights := h.actsAlike_sampleHeights.calms
  have hexited : h.Calms exited := hsampled.trans (Hub.calms_foldl Hub.calms_exitExcluded _ _)
  have hpaused : exited.Calms paused :=
    (exited.actsAlike_formSections.calms.trans (Hub.calms_foldl Hub.calms_endPause _ _)).trans (Hub.calms_foldl Hub.calms_judgePause _ _)
  have hstopped : paused.Calms stopped :=
    (Hub.calms_foldl (fun g c => (g.calms_stops c).1) _ _).trans (Hub.calms_foldl (fun g c => (g.calms_stops c).2) _ _)
  exact ((hexited.trans hpaused).trans hstopped).trans (Hub.calms_foldl Hub.calms_advanceSlot _ _)

theorem Hub.stirs_startCircuit (left : Circuit → Bool) (h : Hub) (c : Circuit) : h.Stirs (h.startCircuit left c) := by
  unfold Hub.startCircuit
  extract_lets x
  split
  · next hx =>
    have hcount : ∀ (φ : CircuitLevel → CircuitLevel), (∀ x, (φ x).action = x.action) → ∀ g : Hub, g.ActsAlike (g.onCircuit c φ) :=
      fun φ hφ g => Hub.actsAlike_onCircuit hφ c g
    split
    · exact (hcount (fun x => { x with count := 0 }) (fun _ => rfl) h).stirs
    · next d _ =>
      extract_lets counted
      have hcounted : h.ActsAlike counted := by
        simp only [counted]
        split
        · exact .refl h
        · exact hcount (·.persist d) (fun _ => rfl) h
      split
      · unfold Hub.beginAction
        extract_lets cleared
        have hcleared : h.ActsAlike cleared := hcounted.trans (hcount (fun x => { x with count := 0 }) (fun _ => rfl) _)
        have hhold : (cleared.circuit c).action = .hold := (hcleared.action c).trans hx.1
        cases d with
        | high => exact hcleared.stirs.trans (Hub.stirs_setAction (.inl rfl))
        | low =>
          refine (hcleared.trans (Hub.actsAlike_onLevel
            (φ := fun u => { u with queue := tailOfClass ⟨c, counted.fillClass c⟩ u.queue }) (fun _ _ => rfl) cleared)).stirs.trans (Hub.stirs_setAction (.inr ?_))
          exact congrArg Action.moves hhold
      · exact hcounted.stirs
  · exact (ActsAlike.refl h).stirs

/-- A levelling period calms axles in its stops, and stirs some in its starts and grants (R93). -/
theorem Hub.levellingPeriod_shifts (h : Hub) : ∃ g, h.Calms g ∧ g.Stirs h.levellingPeriod := by
  refine ⟨h.levellingStops, h.calms_levellingStops, ?_⟩
  unfold Hub.levellingPeriod
  extract_lets stopped granted
  have hgranted : stopped.Stirs granted := (Hub.stirs_foldl (Hub.stirs_startCircuit _) _ stopped).trans (Hub.stirs_grant _)
  refine hgranted.trans ?_
  have hcount : ∀ g : Hub, g.ActsAlike (g.onKneel fun u => { u with completions := u.completions + 1 }) := fun _ =>
    ⟨rfl, fun _ => rfl, fun _ => rfl⟩
  have hjudged : ∀ g : Hub, g.ActsAlike g.judgeCompletion := fun g => by
    unfold Hub.judgeCompletion
    (repeat' split) <;> first | exact .refl g | exact (hcount g).trans (Hub.actsAlike_setKneel (by decide) _)
  have hend : ∀ g : Hub, g.ActsAlike (g.onLevel fun u => { u with periods := u.periods + 1, timer := .started }) := fun _ =>
    ⟨rfl, fun _ => rfl, fun _ => rfl⟩
  have hhand : ∀ g : Hub, g.ActsAlike g.handErrors := fun _ => ⟨rfl, fun _ => rfl, fun _ => rfl⟩
  exact ((((Hub.actsAlike_writeValves granted).trans (hhand _)).trans (hjudged _)).trans (hend _)).stirs


/-! ## Standstill and the orders -/

/-- While the bus moves, work on the action states can only end an activity (R78). -/
theorem Hub.Works.settles {h g : Hub} (hw : h.Works g) : g.standing = h.standing ∧ (h.standing = false → ∀ k,
    (g.axleBrake k).activity = (h.axleBrake k).activity ∨
      ((h.axleBrake k).activity = .on ∧ (g.axleBrake k).activity = .after 500)) := by
  induction hw with
  | alike hg => exact ⟨hg.standing, fun _ k => .inl (hg.activity k)⟩
  | act h c a =>
    have hstanding : (h.setAction c a).standing = h.standing := by simp [Hub.standing]
    refine ⟨hstanding, fun hs k => ?_⟩
    rw [Hub.setAction_activity]
    split
    · rw [Hub.axleActive_of_moving (hstanding.trans hs), if_neg nofun]
      by_cases hon : (h.axleBrake k).activity = .on
      · exact .inr ⟨hon, by rw [hon]; rfl⟩
      · exact .inl (Freeze.ended_of_off hon)
    · exact .inl rfl
  | @trans h g f _ _ ihg ihf =>
    refine ⟨ihf.1.trans ihg.1, fun hs k => ?_⟩
    obtain hsame | ⟨hon, hafter⟩ := ihg.2 hs k
    · rw [← hsame]
      exact ihf.2 (ihg.1.trans hs) k
    · obtain hsame' | ⟨hon', -⟩ := ihf.2 (ihg.1.trans hs) k
      · exact .inr ⟨hon, hsame'.trans hafter⟩
      · rw [hafter] at hon'
        cases hon'

/-- Over a step the activities follow the action states, with no activity in between (R78). -/
structure Hub.Follows (h g : Hub) : Prop extends h.Shifts g where
  kept : h.ActivityJudged → ∀ k, h.axleActive k = false → g.axleActive k = false →
    (g.axleBrake k).activity = (h.axleBrake k).activity

theorem Hub.ActsAlike.follows {h g : Hub} (hg : h.ActsAlike g) : h.Follows g := { hg.shifts with kept := fun _ k _ _ => hg.activity k }

/-- The activities judged anew, all at once (R78). -/
theorem Hub.Follows.of_judging {h g : Hub} (hg : ∀ k, (g.axleBrake k).activity =
    if g.axleActive k then .on else (h.axleBrake k).activity.ended) : h.Follows g := by
  have hkept : h.ActivityJudged → ∀ k, h.axleActive k = false → g.axleActive k = false →
      (g.axleBrake k).activity = (h.axleBrake k).activity := fun hj k ha hn => by
    have hoff : (h.axleBrake k).activity ≠ .on := fun hon => Bool.noConfusion (ha.symm.trans ((hj k).mp hon))
    rw [hg, hn, if_neg nofun, Freeze.ended_of_off hoff]
  refine ⟨⟨fun _ k => ?_, fun hj k ha hn => ?_, fun hj k ha hn => .inl (hkept hj k ha hn)⟩, hkept⟩
  · rw [hg]
    cases hk : g.axleActive k with
    | true => simp
    | false =>
      simpa using Freeze.ended_ne_on _
  · rw [hg, hn, (hj k).mpr ha]
    rfl

theorem Hub.judgeActivities_activity (h : Hub) (k : Axle) : (h.judgeActivities.axleBrake k).activity =
    if h.axleActive k then .on else (h.axleBrake k).activity.ended :=
  (congrArg AxleBrake.activity (Hub.judgeActivities_axleBrake k h)).trans rfl

theorem Hub.leaveStandstill_follows (h : Hub) : h.Follows h.leaveStandstill := by
  unfold Hub.leaveStandstill
  extract_lets changed
  have hbrake : changed.brake = h.brake := rfl
  obtain ⟨g, hg, hw⟩ : ∃ g, g = (if h.standing then Door.all.foldl Hub.withdrawByMotion (changed.stopKneel .standstill none)
      else changed) ∧ changed.Works g := by
    refine ⟨_, rfl, ?_⟩
    split
    · refine (Hub.works_stopKneel _ _ changed).trans (.alike (foldl_preserves (P := fun g => (changed.stopKneel .standstill none).ActsAlike g)
        (fun g d hg => hg.trans (.of_core (by simp [Hub.standing]) (by simp) (by simp))) _ (.refl _)))
    · exact .alike (.refl _)
  rw [← hg]
  obtain ⟨hstanding, hsettles⟩ := hw.settles
  have hmoving : g.standing = false := hstanding.trans rfl
  refine .of_judging fun k => ?_
  rw [Hub.judgeActivities_activity, show g.judgeActivities.axleActive k = false from
    Hub.axleActive_of_moving (by simpa [Hub.standing] using hmoving) k, Hub.axleActive_of_moving hmoving]
  have hsame : (changed.axleBrake k).activity = (h.axleBrake k).activity := by rw [Hub.axleBrake, hbrake, Hub.axleBrake]
  rw [← hsame]
  obtain heq | ⟨hon, hafter⟩ := hsettles rfl k
  · rw [heq]
  · rw [hon, hafter]
    rfl

theorem Hub.enterStandstill_follows (h : Hub) : h.Follows h.enterStandstill := by
  refine .of_judging fun k => ?_
  unfold Hub.enterStandstill
  extract_lets changed granted
  have hgranted : granted.judgeAutoHalt.brake.axles = h.brake.axles := by
    have hsame : ∀ g : Hub, g.judgeAutoHalt.brake.axles = g.brake.axles := fun g => by
      unfold Hub.judgeAutoHalt Hub.requestApply
      (repeat' split) <;> simp
    rw [hsame]
    simp only [granted]
    split <;> simp [changed]
  have hactive : granted.judgeAutoHalt.judgeActivities.axleActive k = granted.judgeAutoHalt.axleActive k :=
    Hub.axleActive_congr (by simp [Hub.standing]) (fun c => by simp [Hub.circuit]) k
  rw [Hub.judgeActivities_activity, hactive, Hub.axleBrake, hgranted]
  rfl


/-! ## The kneel freeze along a step (R77) -/

/-- Between two moments of a step RIDE stays or the other states do, and so does the kneel freeze. -/
structure Hub.FreezeKept (h g : Hub) : Prop where
  ride   : g.kneel.state = .ride ↔ h.kneel.state = .ride
  freeze : g.brake.kneelFreeze = h.brake.kneelFreeze

/-- Over a step the kneel freeze follows the kneel state (R77). -/
structure Hub.FreezeFollows (h g : Hub) : Prop where
  leaves : h.kneel.state = .ride → g.kneel.state ≠ .ride → g.brake.kneelFreeze = .on
  enters : h.kneel.state ≠ .ride → g.kneel.state = .ride → g.brake.kneelFreeze = .after 2000
  stays  : (h.kneel.state = .ride ↔ g.kneel.state = .ride) → g.brake.kneelFreeze = h.brake.kneelFreeze

theorem Hub.FreezeKept.refl (h : Hub) : h.FreezeKept h := ⟨.rfl, rfl⟩

theorem Hub.FreezeKept.trans {h g f : Hub} (hg : h.FreezeKept g) (gf : g.FreezeKept f) : h.FreezeKept f :=
  ⟨gf.ride.trans hg.ride, gf.freeze.trans hg.freeze⟩

theorem Hub.FreezeKept.follows {h g : Hub} (hg : h.FreezeKept g) : h.FreezeFollows g :=
  ⟨fun ha hn => absurd (hg.ride.mpr ha) hn, fun hn ha => absurd (hg.ride.mp ha) hn, fun _ => hg.freeze⟩

theorem Hub.FreezeFollows.trans_kept {h g f : Hub} (hg : h.FreezeFollows g) (gf : g.FreezeKept f) : h.FreezeFollows f :=
  ⟨fun ha hn => gf.freeze.trans (hg.leaves ha fun hy => hn (gf.ride.mpr hy)),
    fun hn ha => gf.freeze.trans (hg.enters hn (gf.ride.mp ha)), fun hi => gf.freeze.trans (hg.stays (hi.trans gf.ride))⟩

theorem Hub.FreezeKept.trans_follows {h g f : Hub} (hg : h.FreezeKept g) (gf : g.FreezeFollows f) : h.FreezeFollows f :=
  ⟨fun ha hn => gf.leaves (hg.ride.mpr ha) hn, fun hn ha => gf.enters (fun hy => hn (hg.ride.mp hy)) ha,
    fun hi => (gf.stays (hg.ride.trans hi)).trans hg.freeze⟩

theorem Hub.FreezeKept.of_units {h g : Hub} (hk : g.kneel.state = h.kneel.state) (hb : g.brake.kneelFreeze = h.brake.kneelFreeze) :
    h.FreezeKept g := ⟨by rw [hk], hb⟩

theorem Hub.FreezeKept.of_turns {h g : Hub} (ht : h.Turns g) (hb : g.brake.kneelFreeze = h.brake.kneelFreeze) : h.FreezeKept g := by
  refine ⟨?_, hb⟩
  obtain hsame | ⟨hlow, hr⟩ := ht.kneelMoves
  · rw [hsame]
  · rw [hr]
    obtain hl | hl := hlow <;> simp [hl]

theorem Brake.freeze_of_base {u v : Brake} (hb : u.base = v.base) : u.kneelFreeze = v.kneelFreeze :=
  show u.base.kneelFreeze = v.base.kneelFreeze from congrArg Brake.kneelFreeze hb

/-- The brake unit takes a change of the kneel state (R77). -/
theorem Hub.freezeFollows_setKneel (new : KneelState) (h : Hub) : h.FreezeFollows (h.setKneel new) := by
  have hfreeze : (h.setKneel new).brake.kneelFreeze =
      if new = .ride then (if h.kneel.state = .ride then h.brake.kneelFreeze else .after 2000)
      else if h.kneel.state = .ride then .on else h.brake.kneelFreeze := by
    unfold Hub.setKneel
    extract_lets old changed
    have htaken : ∀ g : Hub, (g.brakeTakesKneel old new).judgePermit.brake.kneelFreeze =
        if new = .ride then (if old = .ride then g.brake.kneelFreeze else .after 2000)
        else if old = .ride then .on else g.brake.kneelFreeze := fun g => by
      simp only [Hub.judgePermit_frame, Hub.brakeTakesKneel]
      (repeat' split) <;> rfl
    rw [htaken, Brake.freeze_of_base (Hub.levellingTakesKneel_base old new changed)]
    rfl
  refine ⟨fun ha hn => ?_, fun hn ha => ?_, fun hi => ?_⟩ <;> rw [Hub.setKneel_state] at * <;> rw [hfreeze]
  · rw [if_neg hn, if_pos ha]
  · rw [if_pos ha, if_neg hn]
  · by_cases hr : new = .ride
    · rw [if_pos hr, if_pos (hi.mpr hr)]
    · rw [if_neg hr, if_neg fun hs => hr (hi.mp hs)]

/-- A request reaches its service or the port alone. -/
theorem Hub.order_reaches (q : Request) (code : Byte) (c : AccessClass) (f : Service) (h : Hub) :
    (∃ p n, h.order q code c f = { h with ports := p, pins := n }) ∨
      ∃ p, h.order q code c f = { (f (h.judged q)).1 with ports := p } := by
  rw [Hub.order, Hub.exchange_eq]
  unfold whenLoaded whenAllowed
  split
  · split
    · exact .inr ⟨_, rfl⟩
    · exact .inl ⟨_, _, rfl⟩
  · exact .inl ⟨_, _, rfl⟩

theorem Hub.order_freezeFollows {f : Service} (hf : ∀ g : Hub, g.FreezeFollows (f g).1) (q : Request) (code : Byte) (c : AccessClass)
    (h : Hub) : h.FreezeFollows (h.order q code c f) := by
  obtain ⟨p, n, heq⟩ | ⟨p, heq⟩ := Hub.order_reaches q code c f h <;> rw [heq]
  · exact FreezeKept.follows (.of_units rfl rfl)
  · have hjudged : h.FreezeKept (h.judged q) := .of_units rfl rfl
    exact (hjudged.trans_follows (hf _)).trans_kept (.of_units rfl rfl)

theorem serveKneel_freezeFollows (h : Hub) : h.FreezeFollows (serveKneel h).1 := by
  have hwrite : h.FreezeKept (h.writeTargets .kneel) := .of_units rfl rfl
  unfold serveKneel
  (repeat' split) <;> first | exact (Hub.FreezeKept.refl h).follows | exact hwrite.trans_follows (Hub.freezeFollows_setKneel _ _)

theorem Hub.freezeKept_exclude (cs : List Circuit) (add : Causes → Causes) (h : Hub) : h.FreezeKept (h.exclude cs add) := by
  refine ⟨?_, Brake.freeze_of_base (h.exclude_base cs add)⟩
  by_cases hk : h.kneel.state = .ride
  · rw [(Hub.exclude_of_still (.inl hk) cs add).1]
  · obtain hsame | hstopped := (Hub.stops_exclude cs add h).moves
    · rw [hsame]
    · rw [hstopped]
      exact ⟨nofun, fun hr => absurd hr hk⟩

theorem Hub.freezeKept_scanRound (raw : ScanResults) (h : Hub) : h.FreezeKept (h.scanRound raw) := by
  obtain ⟨-, hstill, hbase⟩ := h.doorStep_scanRound raw
  refine ⟨?_, Brake.freeze_of_base hbase⟩
  by_cases hk : h.kneel.state = .ride
  · rw [(hstill (.inl hk)).1]
  · obtain hsame | hstopped := (Hub.stops_scanRound raw h).moves
    · rw [hsame]
    · rw [hstopped]
      exact ⟨nofun, fun hr => absurd hr hk⟩

theorem Hub.freezeKept_chainComplete (answers : ChainAnswers) (h : Hub) : h.FreezeKept (h.chainComplete answers) := by
  by_cases hl : ∃ a, answers = .l a
  · obtain ⟨a, rfl⟩ := hl
    exact Hub.completeL_preserves (P := fun g : Hub => h.FreezeKept g) a (fun _ _ => .of_units rfl rfl)
      (fun cs add value g hg =>
        (hg.trans (.of_units (g := g.raise .chainFault 1 value) rfl rfl)).trans (Hub.freezeKept_exclude cs add _)) fun cs drop g hg =>
      hg.trans (.of_units (by simp) (by simp))
  · refine .of_units (Hub.chainComplete_alike (fun a ha => hl ⟨a, ha⟩) h).kneel ?_
    cases answers
    case l a => exact absurd ⟨a, rfl⟩ hl
    all_goals simp [Hub.chainComplete]

theorem Hub.freezeFollows_levellingPeriod (h : Hub) : h.FreezeFollows h.levellingPeriod := by
  have hcount : ∀ g : Hub, g.FreezeKept (g.onKneel fun u => { u with completions := u.completions + 1 }) := fun _ => .of_units rfl rfl
  have hjudged : ∀ g : Hub, g.FreezeFollows g.judgeCompletion := fun g => by
    unfold Hub.judgeCompletion
    (repeat' split) <;> first | exact (FreezeKept.refl g).follows | exact (hcount g).trans_follows (Hub.freezeFollows_setKneel _ _)
  rw [Hub.levellingPeriod_eq]
  have hbase : h.levellingWork.brake.base = h.brake.base := by
    have hstarts : (Circuit.all.foldl (Hub.startCircuit (h.leftAction h.levellingStops)) h.levellingStops).brake.base =
        h.brake.base := (foldl_keeps (fun g : Hub => g.brake.base) _ (Hub.startCircuit_base _) _ _).trans h.levellingStops_base
    simpa [Hub.levellingWork] using hstarts
  have hwork : h.FreezeKept h.levellingWork := .of_units h.levellingWork_alike.kneel (Brake.freeze_of_base hbase)
  have hend : ∀ g : Hub, g.FreezeKept (g.onLevel fun u => { u with periods := u.periods + 1, timer := .started }) := fun _ =>
    .of_units rfl rfl
  exact (hwork.trans_follows (hjudged _)).trans_kept (hend _)

theorem Hub.freezeKept_stopKneel (cause : StopCause) (c : Option Circuit) (h : Hub) : h.FreezeKept (h.stopKneel cause c) := by
  refine ⟨?_, Brake.freeze_of_base (Hub.stopKneel_base cause c h)⟩
  by_cases hk : h.kneel.state = .ride
  · rw [Hub.stopKneel_of_still (.inl hk)]
  · obtain hsame | hstopped := (Hub.stops_stopKneel cause c h).moves
    · rw [hsame]
    · rw [hstopped]
      exact ⟨nofun, fun hr => absurd hr hk⟩

theorem Hub.freezeKept_leaveStandstill (h : Hub) : h.FreezeKept h.leaveStandstill := by
  unfold Hub.leaveStandstill
  extract_lets changed
  have hchanged : h.FreezeKept changed := .of_units rfl rfl
  have hjudged : ∀ g : Hub, g.FreezeKept g.judgeActivities := fun g =>
    .of_units (by simp) (Brake.freeze_of_base (Hub.judgeActivities_base g))
  refine FreezeKept.trans ?_ (hjudged _)
  split
  · have hmoved : ∀ g : Hub, g.FreezeKept (Door.all.foldl Hub.withdrawByMotion g) := fun g =>
      .of_turns (.foldl Hub.turns_withdrawByMotion _ g) (by rw [foldl_keeps Hub.brake _ (by simp)])
    exact (hchanged.trans (Hub.freezeKept_stopKneel _ _ _)).trans (hmoved _)
  · exact hchanged

theorem Hub.freezeKept_wheelPulse (dir : Direction) (h : Hub) : h.FreezeKept (h.wheelPulse dir) := by
  have hcounted : h.FreezeKept (h.counted dir) := .of_units (by simp [Hub.counted, Hub.odometry]) (by simp [Hub.counted, Hub.odometry])
  rw [Hub.wheelPulse_eq]
  split
  · exact hcounted.trans (Hub.freezeKept_leaveStandstill _)
  · exact hcounted

theorem Hub.ActsAlike.trans_follows {h g f : Hub} (hg : h.ActsAlike g) (gf : g.Follows f) : h.Follows f :=
  { hg.shifts.trans gf.toShifts with
    kept := fun hj k ha hn => (gf.kept (hg.shifts.judged hj) k ((hg.active k).trans ha) hn).trans (hg.activity k) }

theorem Hub.wheelPulse_follows (dir : Direction) (h : Hub) : h.Follows (h.wheelPulse dir) := by
  have hcounted : h.ActsAlike (h.counted dir) := by
    refine .of_core ?_ (by simp [Hub.counted, Hub.odometry]) (by simp [Hub.counted, Hub.odometry])
    rw [Hub.standing, Hub.counted_sensing]
    rfl
  rw [Hub.wheelPulse_eq]
  split
  · exact hcounted.trans_follows (Hub.leaveStandstill_follows _)
  · exact hcounted.follows

theorem Hub.quietExpiry_follows (h : Hub) : h.Follows h.quietExpiry := by
  unfold Hub.quietExpiry
  extract_lets quiet
  have hquiet : h.ActsAlike quiet := ⟨rfl, fun _ => rfl, fun _ => rfl⟩
  split
  · exact hquiet.follows
  · exact hquiet.trans_follows (Hub.enterStandstill_follows _)

/-! ## What the doors and the halt brake leave of the freezes -/

/-- What the freezes are kept in: the axles and the kneel freeze. -/
def Brake.freezes (u : Brake) : PerAxle AxleBrake × Freeze := (u.axles, u.kneelFreeze)

theorem Brake.axles_of_freezes {u v : Brake} (hf : u.freezes = v.freezes) : u.axles = v.axles ∧ u.kneelFreeze = v.kneelFreeze :=
  Prod.mk.inj hf

@[simp] theorem Hub.setHalt_freezes (new : HaltState) (h : Hub) : (h.setHalt new).brake.freezes = h.brake.freezes := by
  rw [Hub.setHalt_brake]
  rfl

@[simp] theorem Hub.requestApply_freezes (h : Hub) : h.requestApply.brake.freezes = h.brake.freezes := by
  unfold Hub.requestApply
  split
  · exact Hub.setHalt_freezes _ h
  · rfl

@[simp] theorem Hub.judgeAutoHalt_freezes (h : Hub) : h.judgeAutoHalt.brake.freezes = h.brake.freezes := by
  unfold Hub.judgeAutoHalt
  split <;> simp

@[simp] theorem Hub.handleActs_freezes (d : Door) (h : Hub) : (h.handleActs d).brake.freezes = h.brake.freezes := by
  unfold Hub.handleActs
  extract_lets fresh asked moved
  have hasked : asked.brake.freezes = h.brake.freezes := by simp [asked]
  have hmoved : moved.brake = asked.brake := by
    simp only [moved]
    (repeat' split) <;> simp [Hub.raiseRelease]
  simp [hmoved, hasked]

@[simp] theorem Hub.handleChange_freezes (d : Door) (h : Hub) : (h.handleChange d).brake.freezes = h.brake.freezes := by
  unfold Hub.handleChange Hub.handleActive
  (repeat' split) <;> simp [Hub.handleInactive]

@[simp] theorem Hub.positionChange_freezes (d : Door) (h : Hub) : (h.positionChange d).brake.freezes = h.brake.freezes := by
  unfold Hub.positionChange
  extract_lets now changed
  (repeat' split) <;> simp [changed]

@[simp] theorem Hub.debounceExpiry_freezes (d : Door) (i : DoorInput) (h : Hub) :
    (h.debounceExpiry d i).brake.freezes = h.brake.freezes := by
  unfold Hub.debounceExpiry
  extract_lets stopped raw taken
  (repeat' split) <;> simp [stopped, taken]

@[simp] theorem Hub.judgeAtSpeed_freezes (h : Hub) (d : Door) : (h.judgeAtSpeed d).brake.freezes = h.brake.freezes := by
  unfold Hub.judgeAtSpeed
  split <;> simp

@[simp] theorem Hub.speedExpiry_freezes (dir : Direction) (h : Hub) : (h.speedExpiry dir).brake.freezes = h.brake.freezes := by
  unfold Hub.speedExpiry
  simp [foldl_keeps (fun g : Hub => g.brake.freezes)]

@[simp] theorem Hub.confirmHalt_freezes (h : Hub) : h.confirmHalt.brake.freezes = h.brake.freezes := by
  rw [Hub.confirmHalt_brake]
  rfl

theorem Hub.enterStandstill_freeze (h : Hub) : h.enterStandstill.brake.kneelFreeze = h.brake.kneelFreeze := by
  unfold Hub.enterStandstill
  extract_lets changed granted
  have hgranted : granted.brake = changed.brake := by
    simp only [granted]
    split <;> simp
  refine (Brake.freeze_of_base (Hub.judgeActivities_base _)).trans ?_
  rw [(Brake.axles_of_freezes (Hub.judgeAutoHalt_freezes granted)).2, hgranted]
  rfl

@[simp] theorem serveHaltOn_freezes (h : Hub) : (serveHaltOn h).1.brake.freezes = h.brake.freezes := by
  unfold serveHaltOn
  (repeat' split) <;> first | rfl | exact Hub.setHalt_freezes _ h

@[simp] theorem serveHaltOff_freezes (h : Hub) : (serveHaltOff h).1.brake.freezes = h.brake.freezes := by
  unfold serveHaltOff
  (repeat' split) <;> first | rfl | exact Hub.setHalt_freezes _ h

@[simp] theorem serveRelease_freezes (payload : List Byte) (h : Hub) :
    (serveRelease payload h).1.brake.freezes = h.brake.freezes := by
  have hrelease : ∀ mask (g : Hub) d, (g.releaseDoor mask d).brake = g.brake := fun mask g d => by
    unfold Hub.releaseDoor
    split <;> simp
  unfold serveRelease
  (repeat' split) <;> simp [foldl_keeps Hub.brake _ (hrelease _)]

@[simp] theorem serveWithdraw_brake (payload : List Byte) (h : Hub) : (serveWithdraw payload h).1.brake = h.brake := by
  unfold serveWithdraw
  split
  · rfl
  · exact foldl_keeps Hub.brake _ (by simp) _ _


/-! ## Over all commands -/

/-- Between two moments of a step neither freeze has work. -/
structure Hub.Unmoved (h g : Hub) : Prop where
  acts   : h.ActsAlike g
  freeze : h.FreezeKept g

theorem Hub.Unmoved.refl (h : Hub) : h.Unmoved h := ⟨.refl h, .refl h⟩

theorem Hub.Unmoved.trans {h g f : Hub} (hg : h.Unmoved g) (gf : g.Unmoved f) : h.Unmoved f :=
  ⟨hg.acts.trans gf.acts, hg.freeze.trans gf.freeze⟩

theorem Hub.Unmoved.of_turns {h g : Hub} (ht : h.Turns g) (hs : g.sensing.standstill = h.sensing.standstill)
    (hl : g.level.core = h.level.core) (hb : g.brake.freezes = h.brake.freezes) : h.Unmoved g := by
  obtain ⟨haxles, hfreeze⟩ := Brake.axles_of_freezes hb
  exact ⟨.of_core (by rw [Hub.standing, hs, Hub.standing]) hl haxles, .of_turns ht hfreeze⟩

theorem Hub.Unmoved.of_units {h g : Hub} (hs : g.sensing = h.sensing) (hl : g.level.core = h.level.core)
    (hb : g.brake = h.brake) (hk : g.kneel.state = h.kneel.state) : h.Unmoved g :=
  ⟨.of_core (by rw [Hub.standing, hs, Hub.standing]) hl (by rw [hb]), .of_units hk (by rw [hb])⟩

theorem Hub.Unmoved.order {f : Service} (hf : ∀ g : Hub, g.Unmoved (f g).1) (q : Request) (code : Byte) (c : AccessClass)
    (h : Hub) : h.Unmoved (h.order q code c f) := by
  obtain ⟨p, n, heq⟩ | ⟨p, heq⟩ := Hub.order_reaches q code c f h <;> rw [heq]
  · exact .of_units rfl rfl rfl rfl
  · have hjudged : h.Unmoved (h.judged q) := .of_units rfl rfl rfl rfl
    exact (hjudged.trans (hf _)).trans (.of_units rfl rfl rfl rfl)

theorem Hub.unmoved_completeLoad (levels : PerDoor DoorLevels) (h : Hub) : h.Unmoved (h.completeLoad levels) := by
  have hactivity : ∀ (g : Hub) k, (g.startLoads.axleBrake k).activity = (g.axleBrake k).activity ∧
      g.startLoads.brake.kneelFreeze = g.brake.kneelFreeze := fun g k => ⟨by simp [Hub.startLoads, Hub.onBrake, Hub.axleBrake], rfl⟩
  obtain ⟨m, hm⟩ : ∃ m, m = ((h.onClock fun u => { u with loaded := true, load := .stopped }).installReset.updateRecord).formAccess :=
    ⟨_, rfl⟩
  obtain ⟨g, hg⟩ : ∃ g, g = m.startTimers := ⟨_, rfl⟩
  have heq : h.completeLoad levels = (g.startLoads.formRideTargets).sampleDoors levels := by rw [hg, hm]; rfl
  have hloads : g.Unmoved g.startLoads := ⟨⟨rfl, fun _ => rfl, fun k => (hactivity g k).1⟩, .of_units rfl rfl⟩
  have hafter : g.startLoads.Unmoved ((g.startLoads.formRideTargets).sampleDoors levels) :=
    .of_units (by simp) (by simp) (by simp) (by simp)
  have hformed : h.Unmoved m := by
    rw [hm, Hub.formAccess]
    split <;> exact .of_units (by simp) (by simp) (by simp) (by simp)
  have hstart : h.Unmoved g := by
    rw [hg]
    exact hformed.trans ⟨⟨rfl, fun _ => rfl, fun _ => rfl⟩, .of_units rfl rfl⟩
  rw [heq]
  exact (hstart.trans hloads).trans hafter

theorem Hub.unmoved_storeCompletion (code : Byte) (depot : Bool) (h : Hub) : h.Unmoved (h.storeCompletion code depot) := by
  have hinstall : ∀ g : Hub, g.Unmoved g.installApply := fun g =>
    .of_turns ((Hub.Turns.of_eq (h := g) (g := ((g.installLoad.clampSteer .a3).clampSteer .a4).formRideTargets) (by simp) (by simp)
      (by simp) (by simp)).trans (Hub.turns_installEnables _)) (by simp) (by simp [Hub.installApply]) (by rw [Hub.installApply_brake])
  unfold Hub.storeCompletion
  split
  · next r _ =>
    split
    · extract_lets pins
      have hpins : h.Unmoved pins := .of_units rfl rfl rfl rfl
      split
      · exact hpins.trans (.of_units (by simp) (by simp) (by simp) (by simp))
      · have hfinish : pins.Unmoved (pins.finishWork r).1 := by
          obtain ⟨-, -, heq⟩ | ⟨-, heq⟩ := Hub.finishWork_cases r pins
          · rw [heq]; exact hinstall pins
          · rw [heq]; exact .of_units rfl rfl rfl rfl
        rw [Hub.completeOp_eq]
        exact (hpins.trans hfinish).trans (.of_units (by simp) (by simp) (by simp) (by simp))
    · exact .refl h
  · exact .refl h

theorem serveRaise_unmoved (h : Hub) : h.Unmoved (serveRaise h).1 := by
  unfold serveRaise
  split
  case h_1 | h_2 => exact .refl h
  all_goals
    next hk =>
      have hset : (h.writeTargets .raise).FreezeFollows ((h.writeTargets .raise).setKneel .raising) := Hub.freezeFollows_setKneel _ _
      have hwrite : h.Unmoved (h.writeTargets .raise) := .of_units rfl (by simp) rfl rfl
      have hride : (h.writeTargets .raise).kneel.state = .ride ↔ ((h.writeTargets .raise).setKneel .raising).kneel.state = .ride := by
        rw [Hub.setKneel_state]
        show h.kneel.state = .ride ↔ _
        rw [hk]
        decide
      exact hwrite.trans ⟨Hub.actsAlike_setKneel (new := .raising) nofun _, ⟨hride.symm, hset.stays hride⟩⟩

/-- The commands with a part in the axle loads' freezes. -/
def movesFreezes : Instr → Bool
  | .scanRound _ | .wheelPulse _ _ | .quietTimerExpiry | .brakeTimerExpiry | .levellingTimerExpiry | .chainRefreshComplete _
  | .kneel _ => true
  | _ => false

theorem Hub.after_unmoved {c : Instr} {h : Hub} (hr : resetsPart h c = false) (hc : movesFreezes c = false) (w : Between) :
    h.Unmoved (h.after w c) := by
  have hif : ∀ {b : Prop} [Decidable b] {g : Hub}, h.Unmoved g → h.Unmoved (if b then g else h) := by
    intro b _ g hg
    split
    · exact hg
    · exact .refl h
  cases c
  case powerOnReset | rstLine => exact Bool.noConfusion hr
  case hubReset q =>
    have hkeeps : ∀ {γ : Type} (π : Hub → γ), (∀ (g : Hub) p φ, π (g.onPort p φ) = π g) → (∀ (g : Hub) φ, π (g.onPins φ) = π g) →
        π (h.after w (.hubReset q)) = π h := fun π hp hq =>
      Hub.hubReset_refused_keeps π hr (fun p φ g => hp g p φ) fun φ g => hq g φ
    exact .of_units (hkeeps Hub.sensing (fun _ _ _ => rfl) fun _ _ => rfl)
      (congrArg Levelling.core (hkeeps Hub.level (fun _ _ _ => rfl) fun _ _ => rfl))
      (hkeeps Hub.brake (fun _ _ _ => rfl) fun _ _ => rfl)
      (congrArg Kneel.state (hkeeps Hub.kneel (fun _ _ _ => rfl) fun _ _ => rfl))
  case activeSetLoad x =>
    exact hif ((Hub.Unmoved.of_units (h := h) (g := h.readDepot x.depot) rfl rfl rfl rfl).trans (Hub.unmoved_completeLoad _ _))
  case speedTimerExpiry dir =>
    exact hif (.of_turns (Hub.turns_speedExpiry dir h) (by rw [Hub.speedExpiry_sensing]; rfl) (by simp) (by simp))
  case debounceTimerExpiry d i => exact hif (.of_turns (Hub.turns_debounceExpiry d i h) (by simp) (by simp) (by simp))
  case haltOn q =>
    exact .order (fun g => .of_turns (serveHaltOn_turns g).1 (by simp) (by simp) (by simp)) q _ _ h
  case haltOff q =>
    exact .order (fun g => by
      obtain ⟨haxles, hfreeze⟩ := Brake.axles_of_freezes (serveHaltOff_freezes g)
      have hkneel : (serveHaltOff g).1.kneel = g.kneel := by
        unfold serveHaltOff
        (repeat' split) <;> first | rfl | exact (Hub.setHalt_kneel .released g).1
      exact ⟨.of_core (by simp [Hub.standing]) (by simp) haxles, .of_units (by rw [hkneel]) hfreeze⟩) q _ _ h
  case release q => exact .order (f := serveRelease q.payload) (fun g => .of_turns (serveRelease_turns q.payload g) (by simp) (by simp) (by simp)) q _ _ h
  case withdraw q => exact .order (f := serveWithdraw q.payload) (fun g => .of_turns (serveWithdraw_turns q.payload g) (by simp) (by simp) (by simp)) q _ _ h
  case raise q => exact .order serveRaise_unmoved q _ _ h
  case storeReadCompletion | storeWriteCompletion | storeCloseCompletion | storeLockCompletion | blankTestCompletion
      | storeClearCompletion | applyCompletion => exact Hub.unmoved_storeCompletion _ _ h
  all_goals first | exact Bool.noConfusion hc | exact .of_units (by simp) (by simp) (by simp) (by simp)


/-! ## The commands of a brake period (R74 to R80) -/

theorem Hub.brakePeriod_axle (h : Hub) (k : Axle) :
    h.brakePeriod.axleBrake k = h.brakeConfirmed.commandStage k (h.takeDemands.formedAxle k) := by
  have haxles : h.brakeConfirmed.brake.axles = h.brakeFormed.brake.axles := by
    rw [Hub.brakeConfirmed, Hub.confirmHalt_brake]
  have haxle : h.brakeConfirmed.axleBrake k = h.takeDemands.formedAxle k := by
    rw [Hub.axleBrake, haxles]
    exact h.brakeFormed_axle k
  rw [Hub.brakePeriod_eq, Hub.command_eq, ← haxle]
  exact PerAxle.get_tab _ k

/-- Whether the torque cut is asked for (R64). -/
def Hub.cutsTorque (h : Hub) : Bool :=
  (h.joints.joints.j1.state.cuts || h.joints.joints.j2.state.cuts) && h.brake.drive == .traction

theorem Hub.judgeTorque_eq (h : Hub) : h.judgeTorque = { h with
    joints := { h.joints with driveSeen := h.brake.drive, torqueCut := h.cutsTorque }
    link := { h.link with lines := { h.link.lines with
      torque := if h.joints.torqueCut = h.cutsTorque then h.link.lines.torque else h.cutsTorque } } } := by
  have hcuts : h.judgeTorque = if h.joints.torqueCut = h.cutsTorque then
      h.onJoints fun u => { u with driveSeen := h.brake.drive, torqueCut := h.cutsTorque }
      else (h.onJoints fun u => { u with driveSeen := h.brake.drive, torqueCut := h.cutsTorque }).driveTorque h.cutsTorque := rfl
  rw [hcuts]
  by_cases hc : h.joints.torqueCut = h.cutsTorque
  · simp only [if_pos hc]
    rfl
  · simp only [if_neg hc]
    rfl

/-- The demand stage reaches the link by the torque line alone, and the joint unit by what follows the drive state (R64). -/
theorem Hub.takeDemands_torque (h : Hub) :
    h.takeDemands.link = { h.link with lines := { h.link.lines with torque := h.takeDemands.link.lines.torque } } ∧
    (h.takeDemands.brake.drive = h.brake.drive →
      h.takeDemands.joints = h.joints ∧ h.takeDemands.link.lines.torque = h.link.lines.torque) ∧
    (h.takeDemands.brake.drive ≠ h.brake.drive →
      h.takeDemands.joints = { h.joints with
        driveSeen := h.takeDemands.brake.drive
        torqueCut := (h.joints.joints.j1.state.cuts || h.joints.joints.j2.state.cuts)
          && h.takeDemands.brake.drive == .traction } ∧
      (h.link.lines.torque = h.joints.torqueCut → h.takeDemands.link.lines.torque = h.takeDemands.joints.torqueCut)) := by
  have hsame : ∀ g : Hub, g.link = h.link → g.joints = h.joints → g.brake.drive = h.brake.drive →
      g.link = { h.link with lines := { h.link.lines with torque := g.link.lines.torque } } ∧
      (g.brake.drive = h.brake.drive → g.joints = h.joints ∧ g.link.lines.torque = h.link.lines.torque) ∧
      (g.brake.drive ≠ h.brake.drive → g.joints = { h.joints with
        driveSeen := g.brake.drive
        torqueCut := (h.joints.joints.j1.state.cuts || h.joints.joints.j2.state.cuts) && g.brake.drive == .traction } ∧
        (h.link.lines.torque = h.joints.torqueCut → g.link.lines.torque = g.joints.torqueCut)) := by
    intro g hl hj hd
    rw [hl]
    exact ⟨rfl, fun _ => ⟨hj, rfl⟩, fun hne => absurd hd hne⟩
  cases hp : h.postedDemands with
  | nil =>
    rw [Hub.takeDemands_none hp]
    refine hsame _ (by simp) (by simp) ?_
    unfold Hub.ageDemand
    extract_lets age aged
    split <;> rfl
  | cons x others =>
    rw [Hub.takeDemands_some hp]
    obtain ⟨g, hg⟩ : ∃ g, g = h.demandTaken x.1 x.2 others.length := ⟨_, rfl⟩
    have hlink : g.link = h.link := by rw [hg]; rfl
    have hjoints : g.joints = h.joints := by rw [hg]; rfl
    rw [← hg]
    clear hg
    split
    · next hd => exact hsame g hlink hjoints hd
    · next hd =>
      have hcuts : g.cutsTorque = ((h.joints.joints.j1.state.cuts || h.joints.joints.j2.state.cuts)
          && g.brake.drive == .traction) := by rw [Hub.cutsTorque, hjoints]
      rw [Hub.judgeTorque_eq, ← hcuts]
      dsimp only
      rw [hlink, hjoints]
      refine ⟨rfl, fun heq => absurd heq hd, fun _ => ⟨rfl, fun htorque => ?_⟩⟩
      split
      · next hcut => exact htorque.trans hcut
      · rfl

/-- The halt confirmation reaches the link by the doors' lines alone. -/
theorem Hub.brakeConfirmed_link (h : Hub) : h.brakeConfirmed.link =
    { h.takeDemands.link with lines := { h.takeDemands.link.lines with
      release := h.brakeConfirmed.link.lines.release, permit := h.brakeConfirmed.link.lines.permit } } := by
  have hformed : h.brakeFormed.link = h.takeDemands.link := by rw [Hub.brakeFormed_eq]
  rw [← hformed]
  exact Link.eq_of_body h.brakeFormed.confirmHalt_core.2

theorem Hub.brakePeriod_link (h : Hub) : h.brakePeriod.link = { h.brakeConfirmed.link with
    modulators := .tab fun k => { h.brakeConfirmed.link.modulators.get k with
      image := ⟨(h.brakePeriod.axleBrake k).mode, (h.brakePeriod.axleBrake k).command⟩ } } := by
  have haxle : ∀ k, h.brakePeriod.axleBrake k = h.brakeConfirmed.commandStage k (h.brakeConfirmed.axleBrake k) := fun k => by
    rw [Hub.brakePeriod_eq, Hub.command_eq]
    exact PerAxle.get_tab _ k
  simp only [haxle]
  rw [Hub.brakePeriod_eq, Hub.command_eq]
  rfl

theorem Freeze.run_ne_off (x : Freeze) : x.run ≠ .off ↔ x = .on ∨ ∃ n, x = .after n ∧ 5 < n := by
  cases x with
  | off => simp [Freeze.run]
  | on => simp [Freeze.run]
  | after n =>
    simp only [Freeze.run]
    split <;> simp <;> omega

theorem Freeze.run_on (x : Freeze) : x.run = .on ↔ x = .on := by
  cases x with
  | off | on => simp [Freeze.run]
  | after n =>
    simp only [Freeze.run]
    split <;> simp

theorem isFrozen_iff (kneel activity : Freeze) : isFrozen kneel.run activity.run = true ↔
    (kneel = .on ∨ ∃ n, kneel = .after n ∧ 5 < n) ∨ activity = .on ∨ ∃ n, activity = .after n ∧ 5 < n := by
  rw [isFrozen, Bool.or_eq_true, bne_iff_ne, bne_iff_ne, Freeze.run_ne_off, Freeze.run_ne_off]

/-- The load stage on one axle, by whether it is frozen (R75 to R78). -/
theorem Hub.loadStage_frozen {h : Hub} {kneel : Freeze} {k : Axle} {a : AxleBrake} (hf : isFrozen kneel a.activity.run = true) :
    h.loadStage kneel k a = { a with activity := a.activity.run, frozen := true } := if_pos hf

theorem Hub.loadStage_free {h : Hub} {kneel : Freeze} {k : Axle} {a : AxleBrake} (hf : ¬isFrozen kneel a.activity.run = true) :
    h.loadStage kneel k a = { a with
      activity := a.activity.run, frozen := false, load := (h.loadNow k).1, source := (h.loadNow k).2 } := if_neg hf

theorem Hub.loadStage_kept (h : Hub) (kneel : Freeze) (k : Axle) (a : AxleBrake) :
    (h.loadStage kneel k a).activity = a.activity.run ∧ (h.loadStage kneel k a).mode = a.mode ∧
    (h.loadStage kneel k a).service = a.service := by
  by_cases hf : isFrozen kneel a.activity.run = true
  · rw [Hub.loadStage_frozen hf]
    exact ⟨rfl, rfl, rfl⟩
  · rw [Hub.loadStage_free hf]
    exact ⟨rfl, rfl, rfl⟩

/-- What the stages after the demand read of the part (R74 to R76). -/
theorem Hub.takeDemands_reads (h : Hub) (k : Axle) : h.takeDemands.axleBrake k = h.axleBrake k ∧
    h.takeDemands.brake.kneelFreeze = h.brake.kneelFreeze ∧ h.takeDemands.loadNow k = h.loadNow k ∧
    h.takeDemands.brakeFactor k = h.brakeFactor k ∧ h.takeDemands.link.modulators = h.link.modulators ∧
    h.takeDemands.link.chainB = h.link.chainB := by
  obtain ⟨hfreeze, haxles, -⟩ := h.takeDemands_brake
  have hstore : h.takeDemands.store = h.store := by simp
  have hsensing : h.takeDemands.sensing = h.sensing := by simp
  have hitem : ∀ slot, h.takeDemands.axleItem k slot = h.axleItem k slot := fun slot => by
    simp only [Hub.axleItem, Hub.item, hstore]
  obtain ⟨hlink, -⟩ := h.takeDemands_torque
  refine ⟨by rw [Hub.axleBrake, haxles, Hub.axleBrake], hfreeze, ?_, hitem 2, by rw [hlink], by rw [hlink]⟩
  have hmax : h.takeDemands.loadMax k = h.loadMax k := hitem 4
  have hfactor : h.takeDemands.bellowsFactor k = h.bellowsFactor k := hitem 0
  have hmass : h.takeDemands.unsprung k = h.unsprung k := hitem 1
  have hnom : h.takeDemands.loadNom k = h.loadNom k := hitem 5
  simp only [Hub.loadNow, hsensing, hmax, hfactor, hmass, hnom]


/-- The axles and the modulators' commands of a brake period (R74 to R80). -/
theorem Hub.brakePeriod_commands (h : Hub) (k : Axle) :
    let a := h.brakePeriod.axleBrake k
    let before := h.axleBrake k
    (a.mode = .electronic ↔ (h.brakePeriod.brake.status = .fresh ∨ h.brakePeriod.brake.status = .holding) ∧
      (h.link.modulators.get k).fault = false ∧ h.link.chainB.fault = false) ∧
    a.activity = before.activity.run ∧
    (isFrozen h.brake.kneelFreeze.run before.activity.run = true →
      a.load = before.load ∧ a.source = before.source ∧ a.frozen = true) ∧
    (¬isFrozen h.brake.kneelFreeze.run before.activity.run = true →
      a.frozen = false ∧ a.load = (h.loadNow k).1 ∧ a.source = (h.loadNow k).2) ∧
    (a.mode = .backup → a.service = 0) ∧
    (a.mode = .electronic → h.brakePeriod.brake.status = .fresh →
      a.service = (quot (quot (a.load * h.brakePeriod.brake.decel) 1000) (h.brakeFactor k)).toNat) ∧
    (a.mode = .electronic → h.brakePeriod.brake.status = .holding → a.service = before.service) ∧
    a.halt = h.brakeConfirmed.haltNow k ∧ a.stretch = h.brakeConfirmed.stretchNow k ∧
    a.command = min (h.brakeConfirmed.pmax k) (max a.service (h.brakeConfirmed.haltNow k) + h.brakeConfirmed.stretchNow k) := by
  intro a before
  obtain ⟨hdecel, -, -, -, -, -, hstatus⟩ := h.brakePeriod_demand
  obtain ⟨haxle, hfreeze, hload, hfactor, hmodulators, hchain⟩ := h.takeDemands_reads k
  have ha : a = h.brakeConfirmed.commandStage k (h.takeDemands.formedAxle k) := h.brakePeriod_axle k
  obtain ⟨loaded, hloaded⟩ : ∃ x, x = h.takeDemands.loadStage h.brake.kneelFreeze.run k
      { before with mode := h.takeDemands.axleModeNow k } := ⟨_, rfl⟩
  obtain ⟨hactivity, hmode, hservice⟩ := h.takeDemands.loadStage_kept h.brake.kneelFreeze.run k
    { before with mode := h.takeDemands.axleModeNow k }
  rw [← hloaded] at hactivity hmode hservice
  have hformed : h.takeDemands.formedAxle k = { loaded with service := (h.takeDemands.formedAxle k).service } := by
    rw [hloaded, ← hfreeze, show before = h.takeDemands.axleBrake k from haxle.symm]
    rfl
  have hserved : (h.takeDemands.formedAxle k).service = h.takeDemands.servicePressure k loaded := by
    rw [hloaded, ← hfreeze, show before = h.takeDemands.axleBrake k from haxle.symm]
    rfl
  have hamode : a.mode = loaded.mode := by rw [ha, hformed]; rfl
  have haload : a.load = loaded.load := by rw [ha, hformed]; rfl
  have hasource : a.source = loaded.source := by rw [ha, hformed]; rfl
  have hafrozen : a.frozen = loaded.frozen := by rw [ha, hformed]; rfl
  have haactivity : a.activity = loaded.activity := by rw [ha, hformed]; rfl
  have haservice : a.service = (h.takeDemands.formedAxle k).service := by rw [ha]; rfl
  refine ⟨?_, haactivity.trans hactivity, fun hf => ?_, fun hf => ?_, fun hb => ?_, fun he hfresh => ?_, fun he hhold => ?_,
    by rw [ha]; rfl, by rw [ha]; rfl, by rw [ha]; rfl⟩
  · rw [hamode, hmode, hstatus]
    show h.takeDemands.axleModeNow k = .electronic ↔ _
    rw [Hub.axleModeNow, hmodulators, hchain]
    split
    · next hc => exact ⟨fun _ => hc, fun _ => rfl⟩
    · next hc => exact ⟨nofun, fun hy => absurd hy hc⟩
  · rw [haload, hasource, hafrozen, hloaded,
      Hub.loadStage_frozen (a := { before with mode := h.takeDemands.axleModeNow k }) hf]
    exact ⟨rfl, rfl, rfl⟩
  · rw [haload, hasource, hafrozen, hloaded,
      Hub.loadStage_free (a := { before with mode := h.takeDemands.axleModeNow k }) hf, hload]
    exact ⟨rfl, rfl, rfl⟩
  · rw [haservice, hserved]
    simp only [Hub.servicePressure, hamode.symm.trans hb]
  · rw [haservice, hserved, haload, hdecel, ← hfactor]
    simp only [Hub.servicePressure, hamode.symm.trans he, hstatus.symm.trans hfresh]
  · rw [haservice, hserved]
    simp only [Hub.servicePressure, hamode.symm.trans he, hstatus.symm.trans hhold]
    exact hservice

/-- The pressures of the last stage, in the part before the period (R80). -/
theorem Hub.brakeConfirmed_reads (h : Hub) (k : Axle) : h.brakeConfirmed.pmax k = h.pmax k ∧
    h.brakeConfirmed.haltNow k = (if h.haltAxle k = true ∧ h.brakePeriod.brake.halt ≠ .released then h.phalt else 0) ∧
    h.brakeConfirmed.stretchNow k = h.stretchNow k := by
  have hstore : h.brakeConfirmed.store = h.store := by simp [Hub.brakeConfirmed, Hub.brakeFormed]
  have hhalt : h.brakePeriod.brake.halt = h.brakeConfirmed.brake.halt := by rw [h.brakePeriod_end.1]
  have hrequests : h.brakeConfirmed.joints.requests = h.joints.requests := by
    have hjoints : h.brakeConfirmed.joints = h.takeDemands.joints := by simp [Hub.brakeConfirmed, Hub.brakeFormed]
    obtain ⟨-, hsame, hnew⟩ := h.takeDemands_torque
    rw [hjoints]
    by_cases hd : h.takeDemands.brake.drive = h.brake.drive
    · rw [(hsame hd).1]
    · rw [(hnew hd).1]
  refine ⟨by simp only [Hub.pmax, Hub.axleItem, Hub.item, hstore], ?_, by cases k <;> simp only [Hub.stretchNow, hrequests]⟩
  have haxle : h.brakeConfirmed.haltAxle k = h.haltAxle k := by simp only [Hub.haltAxle, Hub.item, hstore]
  have hphalt : h.brakeConfirmed.phalt = h.phalt := by simp only [Hub.phalt, Hub.item, hstore]
  rw [hhalt, Hub.haltNow, haxle, hphalt]

theorem Hub.brakePeriod_kneel (h : Hub) : h.brakePeriod.kneel = h.kneel := by
  have hformed : h.brakeFormed.kneel = h.kneel := by simp [Hub.brakeFormed]
  have hconfirmed : h.brakeConfirmed.kneel = h.brakeFormed.kneel := h.brakeFormed.confirmHalt_tells.2.2.2.1
  rw [Hub.brakePeriod_eq, ← hformed, ← hconfirmed]
  simp

theorem Hub.brakePeriod_shifts (h : Hub) (hj : h.ActivityJudged) : h.brakePeriod.ActivityJudged ∧
    ∀ k, h.brakePeriod.axleActive k = h.axleActive k := by
  have hlevel : h.brakePeriod.level.core = h.level.core := by simp [Hub.brakePeriod]
  have hactive : ∀ k, h.brakePeriod.axleActive k = h.axleActive k := Hub.axleActive_congr (by simp [Hub.standing]) fun c =>
    (congrArg CircuitLevel.action (Levelling.core_circuit hlevel c) :)
  refine ⟨fun k => ?_, hactive⟩
  rw [(h.brakePeriod_commands k).2.1, Freeze.run_on, hactive]
  exact hj k

theorem Hub.ActsAlike.order {f : Service} (hf : ∀ g : Hub, g.ActsAlike (f g).1) (q : Request) (code : Byte) (c : AccessClass)
    (h : Hub) : h.ActsAlike (h.order q code c f) := by
  obtain ⟨p, n, heq⟩ | ⟨p, heq⟩ := Hub.order_reaches q code c f h <;> rw [heq]
  · exact ⟨rfl, fun _ => rfl, fun _ => rfl⟩
  · have hjudged : h.ActsAlike (h.judged q) := ⟨rfl, fun _ => rfl, fun _ => rfl⟩
    exact (hjudged.trans (hf _)).trans ⟨rfl, fun _ => rfl, fun _ => rfl⟩

theorem serveKneel_actsAlike (h : Hub) : h.ActsAlike (serveKneel h).1 := by
  have hwrite : h.ActsAlike (h.writeTargets .kneel) := .of_core rfl (by simp) rfl
  unfold serveKneel
  (repeat' split) <;> first | exact .refl h | exact hwrite.trans (Hub.actsAlike_setKneel (by decide) _)

/-- The commands in which an axle's activity can begin and end within one step (R78). -/
def excludesCircuits : Instr → Bool
  | .scanRound _ | .chainRefreshComplete _ => true
  | _ => false

/-- What a command makes of the axle loads' freezes, resets and brake periods apart (R77, R78). -/
theorem Hub.after_freezes {c : Instr} {h : Hub} (hr : resetsPart h c = false) (hb : c ≠ .brakeTimerExpiry) (w : Between) :
    h.Shifts (h.after w c) ∧ (excludesCircuits c = false → h.Follows (h.after w c)) ∧ h.FreezeFollows (h.after w c) := by
  have hquiet : ∀ {g : Hub}, h.Unmoved g →
      h.Shifts g ∧ (excludesCircuits c = false → h.Follows g) ∧ h.FreezeFollows g := fun hg =>
    ⟨hg.acts.shifts, fun _ => hg.acts.follows, hg.freeze.follows⟩
  have hif : ∀ {b : Prop} [Decidable b] {g : Hub},
      h.Shifts g ∧ (excludesCircuits c = false → h.Follows g) ∧ h.FreezeFollows g →
      h.Shifts (if b then g else h) ∧ (excludesCircuits c = false → h.Follows (if b then g else h)) ∧
        h.FreezeFollows (if b then g else h) := by
    intro b _ g hg
    split
    · exact hg
    · exact hquiet (.refl h)
  have hwhole : ∀ {g : Hub}, h.Follows g → h.FreezeFollows g →
      h.Shifts g ∧ (excludesCircuits c = false → h.Follows g) ∧ h.FreezeFollows g := fun hg hz => ⟨hg.toShifts, fun _ => hg, hz⟩
  by_cases hc : movesFreezes c = false
  · exact hquiet (Hub.after_unmoved hr hc w)
  cases c
  case scanRound raw => exact hif ⟨(Hub.works_scanRound raw h).shifts, nofun, (Hub.freezeKept_scanRound raw h).follows⟩
  case chainRefreshComplete answers =>
    exact hif ⟨(Hub.works_chainComplete answers h).shifts, nofun, (Hub.freezeKept_chainComplete answers h).follows⟩
  case wheelPulse i dir => exact hif (hwhole (Hub.wheelPulse_follows dir h) (Hub.freezeKept_wheelPulse dir h).follows)
  case quietTimerExpiry =>
    refine hif (hwhole (Hub.quietExpiry_follows h) (FreezeKept.follows (.of_turns (Hub.turns_quietExpiry h) ?_)))
    unfold Hub.quietExpiry
    extract_lets quiet
    split
    · rfl
    · exact Hub.enterStandstill_freeze quiet
  case brakeTimerExpiry => exact absurd rfl hb
  case levellingTimerExpiry =>
    obtain ⟨g, hg, gf⟩ := h.levellingPeriod_shifts
    exact hif (hwhole { (hg.works.trans gf.works).shifts with kept := fun hj k ha hn => hg.kept_of_stirs gf hj ha hn }
      (Hub.freezeFollows_levellingPeriod h))
  case kneel q =>
    exact hwhole (ActsAlike.order serveKneel_actsAlike q _ _ h).follows (Hub.order_freezeFollows serveKneel_freezeFollows q _ _ h)
  all_goals exact absurd rfl hc

/-- Over every command the activity freezes are on exactly where the axles are active (R78). -/
theorem Hub.after_activityJudged {c : Instr} {h : Hub} (hj : h.ActivityJudged) (w : Between) : (h.after w c).ActivityJudged := by
  have hatReset : ∀ {g : Hub}, g.brake = Brake.atReset → g.level = Levelling.atReset → g.ActivityJudged := fun {g} hb hl k => by
    rw [Hub.axleBrake, hb, Hub.axleActive_eq, Hub.circuit, Hub.circuit, hl]
    cases k <;> cases g.standing <;> decide
  cases hr : resetsPart h c with
  | true =>
    cases c
    case powerOnReset | rstLine => exact hatReset rfl rfl
    case hubReset q =>
      exact Hub.hubReset_preserves (P := Hub.ActivityJudged) (fun _ _ _ _ hg => hg) (fun _ _ hg => hg)
        (fun _ _ _ => hatReset rfl rfl) q hj
    all_goals exact Bool.noConfusion hr
  | false =>
    by_cases hb : c = .brakeTimerExpiry
    · subst hb
      simp only [Hub.after]
      split
      · exact (h.brakePeriod_shifts hj).1
      · exact hj
    · exact (Hub.after_freezes hr hb w).1.judged hj


/-- What of the brake period's other units changes (R64, R84). -/
theorem Hub.brakePeriod_others (h : Hub) :
    h.brakePeriod.brake.periods = h.brake.periods + 1 ∧ h.brakePeriod.brake.timer = .running 0 ∧
    h.brakePeriod.brake.kneelFreeze = h.brake.kneelFreeze.run ∧ h.brakePeriod.joints = h.takeDemands.joints ∧
    h.brakePeriod.link.lines.torque = h.takeDemands.link.lines.torque ∧ h.brakePeriod.level = h.level ∧
    h.brakePeriod.link = { h.link with
      modulators := h.brakePeriod.link.modulators, lines := h.brakePeriod.link.lines } ∧
    (∀ k, h.brakePeriod.link.modulators.get k = { h.link.modulators.get k with
      image := ⟨(h.brakePeriod.axleBrake k).mode, (h.brakePeriod.axleBrake k).command⟩ }) := by
  obtain ⟨htorque, -⟩ := h.takeDemands_torque
  have hconfirmed := h.brakeConfirmed_link
  have hlink := h.brakePeriod_link
  have hend := h.brakePeriod_end.1
  have hfreeze : h.brakePeriod.brake.kneelFreeze = h.brake.kneelFreeze.run := by
    rw [hend, ← h.takeDemands_brake.1]
    rw [Hub.brakeConfirmed, Hub.confirmHalt_brake, Hub.brakeFormed_eq]
  have hlevel : h.brakePeriod.level = h.level := by
    have hformed : h.brakeFormed.level = h.level := by simp [Hub.brakeFormed]
    have hkept : h.brakeConfirmed.level = h.brakeFormed.level := by
      rw [Hub.brakeConfirmed]
      unfold Hub.confirmHalt
      split
      · split
        · exact (Hub.setHalt_kneel _ _).2
        · extract_lets time timed
          split <;> rfl
      · rfl
    rw [Hub.brakePeriod_eq, ← hformed, ← hkept]
    simp
  refine ⟨by rw [hend], by rw [hend]; rfl, hfreeze, by simp [Hub.brakePeriod], ?_, hlevel, ?_, fun k => ?_⟩
  · rw [hlink, hconfirmed]
  · rw [hlink, hconfirmed, htorque]
  · rw [hlink, hconfirmed, htorque]
    exact PerAxle.get_tab _ k

/-- A period in which the halt brake does not apply leaves the doors and their lines, and raises DEMAND_STALE alone. -/
theorem Hub.brakePeriod_of_steady {h : Hub} (ha : h.brake.halt ≠ .applying) : h.brakePeriod.doors = h.doors ∧
    h.brakePeriod.link.lines.release = h.link.lines.release ∧ h.brakePeriod.link.lines.permit = h.link.lines.permit ∧
    ∀ kind, kind ≠ .demandStale → h.Raises h.brakePeriod kind [] := by
  obtain ⟨-, hhalt, -, -, hdoors, -⟩ := h.brakeFormed_reads
  have hsame : h.brakeConfirmed = h.brakeFormed := Hub.confirmHalt_of_not (by rw [hhalt]; exact ha)
  have hformed : h.brakeFormed.link = h.takeDemands.link := by rw [Hub.brakeFormed_eq]
  obtain ⟨htorque, -⟩ := h.takeDemands_torque
  have hlines : h.brakePeriod.link.lines = h.takeDemands.link.lines := by rw [h.brakePeriod_link, hsame, hformed]
  refine ⟨h.brakePeriod_end.2.1.trans (by rw [hsame, hdoors]), by rw [hlines, htorque], by rw [hlines, htorque], fun kind hk => ?_⟩
  have hquiet : Hub.Sends kind [] h h.brakeFormed := Hub.brakeFormed_sends (.of_emits (Hub.takeDemands_emits h) (by simpa using hk))
  have hend := h.brakePeriod_end.2.2.2 kind
  rw [hsame] at hend
  exact (hquiet.trans hend).raises

/-- Settles O44. -/
theorem brakePeriodCommands : Obligations.BrakePeriodCommands := by
  refine ⟨?_, ?_⟩
  · intro active
    have hactive : ∀ (h : Hub) k, h.axleActive k = true ↔ active h k := fun h k => Hub.axleActive_iff
    have hinactive : ∀ {h : Hub} {k}, ¬active h k → h.axleActive k = false := fun hn =>
      Bool.eq_false_iff.mpr fun hy => hn ((hactive _ _).mp hy)
    have hjudged : ∀ h : Hub, h.ActivityJudged ↔ ∀ k, (h.axleBrake k).activity = .on ↔ active h k := fun h =>
      forall_congr' fun k => by rw [hactive]
    refine ⟨(hjudged _).mp fun k => by cases k <;> decide, fun s t c hexec hs => ?_⟩
    obtain rfl := hub_of_exec hexec
    have hj : s.hub.ActivityJudged := (hjudged _).mpr hs
    refine ⟨(hjudged _).mp (Hub.after_activityJudged hj _), fun hr => ?_⟩
    dsimp only
    by_cases hb : c = .brakeTimerExpiry
    · subst hb
      have hkept : (s.hub.after s.between .brakeTimerExpiry).kneel = s.hub.kneel ∧
          ∀ k, (s.hub.after s.between .brakeTimerExpiry).axleActive k = s.hub.axleActive k := by
        simp only [Hub.after]
        split
        · exact ⟨s.hub.brakePeriod_kneel, (s.hub.brakePeriod_shifts hj).2⟩
        · exact ⟨rfl, fun _ => rfl⟩
      obtain ⟨hkneel, hsame⟩ := hkept
      refine ⟨fun ha hn => absurd (hkneel ▸ ha) hn, fun hn ha => absurd (hkneel ▸ ha) hn, fun hne => absurd rfl hne,
        fun k => ⟨fun ha hn => ?_, fun hne => absurd rfl hne⟩⟩
      exact absurd ((hactive _ k).mp ((hsame k).trans ((hactive _ k).mpr ha))) hn
    · obtain ⟨hshifts, hfollows, hfreeze⟩ := Hub.after_freezes hr hb s.between
      refine ⟨hfreeze.leaves, hfreeze.enters, fun _ => hfreeze.stays, fun k => ⟨fun ha hn => ?_, fun _ ha hn => ?_⟩⟩
      · exact hshifts.ends hj k ((hactive _ k).mpr ha) (hinactive hn)
      · by_cases hx : excludesCircuits c = false
        · exact .inl ((hfollows hx).kept hj k (hinactive ha) (hinactive hn))
        · refine (hshifts.rest hj k (hinactive ha) (hinactive hn)).imp id fun hafter => ⟨hafter, ?_⟩
          cases c
          case scanRound => exact .inl ⟨_, rfl⟩
          case chainRefreshComplete => exact .inr ⟨_, rfl⟩
          all_goals exact absurd rfl hx
  · rintro ⟨h, pending⟩ hdue
    obtain ⟨hperiods, htimer, hfreeze, hjoints, htorque, hlevel, hlink, hmodulators⟩ := h.brakePeriod_others
    obtain ⟨-, hdrive, -⟩ := h.brakePeriod_demand
    obtain ⟨-, hsame, hnew⟩ := h.takeDemands_torque
    rw [← hdrive, ← hjoints, ← htorque] at hsame hnew
    have hrun : ∀ x : Freeze, x.run = match x with
        | .off => .off
        | .on => .on
        | .after n => if n ≤ 5 then .off else .after (n - 5) := fun x => by cases x <;> rfl
    have hsteady := Hub.brakePeriod_of_steady (h := h)
    have hemits := h.brakePeriod_emits
    have hkneelSends : Hub.Sends .kneelState [] h h.brakePeriod :=
      h.brakePeriod_tells.2.1.sends_of_same (congrArg Kneel.state h.brakePeriod_kneel)
    refine ⟨⟨h.brakePeriod, pending⟩, by simp only [exec, execBrakeTimerExpiry, if_pos hdue], rfl, ?_⟩
    refine ⟨hperiods, htimer, ?_, fun k => ?_, hlink, by simp, by simp, by simp, by simp, by simp, by simp, by simp, by simp, hlevel,
      h.brakePeriod_kneel, hsame, fun hd => ?_, fun ha => ?_, hemits.routing, fun kind hk => ?_, fun ha => (hsteady ha).2.2.2⟩
    · exact ⟨hfreeze.trans (hrun _), fun k => (h.brakePeriod_commands k).2.1.trans (hrun _)⟩
    · obtain ⟨hmode, -, hfrozen, hfree, hbackup, hfresh, hholding, hhalt, hstretch, hcommand⟩ := h.brakePeriod_commands k
      obtain ⟨hpmax, hhaltNow, hstretchNow⟩ := h.brakeConfirmed_reads k
      rw [hhaltNow] at hhalt hcommand
      rw [hstretchNow] at hstretch hcommand
      rw [hpmax] at hcommand
      rw [isFrozen_iff] at hfrozen hfree
      intro a before bellows kneelFrozen active load
      have hload : h.loadNow k = match (bellows.get k.left).fault, (bellows.get k.right).fault with
          | false, false => (load ((bellows.get k.left).value + (bellows.get k.right).value), .bellows)
          | true, false => (load (2 * (bellows.get k.right).value), .oneSide)
          | false, true => (load (2 * (bellows.get k.left).value), .oneSide)
          | true, true => ((min (h.loadNom k) (h.loadMax k)).toNat, .nominal) := rfl
      refine ⟨hmode, hfrozen, fun hn => ?_, hbackup, hfresh, hholding, hhalt, ?_, ?_, fun hr hx => ?_, hmodulators k⟩
      · obtain ⟨hf, hl, hsrc⟩ := hfree hn
        refine ⟨hf, hsrc.trans ?_, hl.trans ?_⟩ <;> rw [hload] <;>
          cases (bellows.get k.left).fault <;> cases (bellows.get k.right).fault <;> rfl
      · exact hstretch.trans (by cases k <;> rfl)
      · exact hcommand.trans (by rw [hhalt, hstretch])
      · have hset : a.halt = h.phalt := hhalt.trans (if_pos ⟨hx, hr⟩)
        have hcmd : a.command = min (h.pmax k) (max a.service a.halt + a.stretch) := hcommand.trans (by rw [hhalt, hstretch])
        show min h.phalt (h.pmax k) ≤ a.command
        rw [hcmd, hset]
        omega
    · intro cuts
      obtain ⟨hj, ht⟩ := hnew hd
      refine ⟨hj.trans ?_, ht⟩
      have hcuts : ∀ x : JointState, x.cuts = cuts x := fun x => by cases x <;> rfl
      simp only [hcuts]
    · obtain ⟨hdoors, hrelease, hpermit, -⟩ := hsteady ha
      exact ⟨hdoors, hrelease, hpermit⟩
    · by_cases hks : kind = .kneelState
      · subst hks
        exact hkneelSends.raises
      · refine (Hub.Sends.of_emits hemits ?_).raises
        simp only [List.mem_cons, List.not_mem_nil, or_false, not_or] at hk ⊢
        tauto

end Sys2Proof.Machine
end

section
/-! PROOFS. A joint period: O42. -/

namespace Sys2Proof.Machine

/-! ## One joint's values (R56 to R63) -/

theorem growing_iff {warn phi omega : Int} : growing warn phi omega = true ↔ 0 < phi * omega ∧ warn ≤ omega.natAbs := by
  rw [growing, Bool.and_eq_true, Bool.or_eq_true, decide_eq_true_eq, decide_eq_true_eq, decide_eq_true_eq, mul_pos_iff]

/-- What the rate leaves of a joint (R56). -/
theorem Hub.jointRate_spec (h : Hub) (pair : Pair) (x : JointHold) :
    (h.jointRate pair x).phi = pair.value ∧ (h.jointRate pair x).state = x.state ∧ (h.jointRate pair x).hold = x.hold ∧
    (∀ before, x.phiPrev = some before →
      (h.jointRate pair x).omega = (pair.value - before) * 100 ∧ (h.jointRate pair x).phiPrev = some pair.value) ∧
    (x.phiPrev = none → (h.jointRate pair x).omega = 0 ∧
      (h.jointRate pair x).phiPrev = if pair.published then some pair.value else none) ∧
    ((h.jointRate pair x).growing = true ↔ x.phiPrev ≠ none ∧ 0 < pair.value * (h.jointRate pair x).omega ∧
      h.omegaWarn ≤ (h.jointRate pair x).omega.natAbs) := by
  unfold Hub.jointRate
  cases hp : x.phiPrev with
  | none => exact ⟨rfl, rfl, rfl, nofun, fun _ => ⟨rfl, rfl⟩, ⟨nofun, fun hn => absurd rfl hn.1⟩⟩
  | some before =>
    refine ⟨rfl, rfl, rfl, fun b hb => ?_, nofun, ?_⟩
    · cases hb
      exact ⟨rfl, rfl⟩
    · exact growing_iff.trans ⟨fun hb => ⟨nofun, hb⟩, And.right⟩

theorem Hub.stretchSpeed_iff {h : Hub} : h.stretchSpeed = true ↔ h.vStretch ≤ (h.sensing.speed : Int) := decide_eq_true_iff

/-- A joint's step changes its state and its stretch hold alone. -/
theorem Hub.jointStep_keeps (h : Hub) (x : JointHold) :
    h.jointStep x = { x with state := (h.jointStep x).state, hold := (h.jointStep x).hold } := by
  unfold Hub.jointStep
  extract_lets a fast hold
  (repeat' split) <;> rfl

/-- The states of a joint after a period, by the angle and by whether it grows at speed (R57 to R59). -/
theorem Hub.jointStep_states (h : Hub) (x : JointHold) :
    let y := h.jointStep x
    let phi : Int := x.phi.natAbs
    let fast := x.growing = true ∧ h.vStretch ≤ (h.sensing.speed : Int)
    (h.phiLimit ≤ phi → y.state = .limit ∧ y.hold = .stopped) ∧
    (phi < h.phiLimit →
      (x.state = .free → y.state = if h.phiWarn ≤ phi then .watch else .free) ∧
      (x.state = .watch → (phi < h.phiWarn - 200 → y.state = .free) ∧
        (h.phiWarn - 200 ≤ phi → fast → y.state = .stretch ∧ y.hold = .running 0) ∧
        (h.phiWarn - 200 ≤ phi → ¬fast → y.state = .watch)) ∧
      (x.state = .limit → (h.phiLimit - 300 ≤ phi → y.state = .limit) ∧
        (phi < h.phiLimit - 300 → fast → y.state = .stretch ∧ y.hold = .running 0) ∧
        (phi < h.phiLimit - 300 → ¬fast → y.state = .watch)) ∧
      ∀ n, x.state = .stretch → x.hold = .running n →
        (n + 10 < 300 ∨ fast → y.state = .stretch ∧ y.hold = .running (min 300 (n + 10))) ∧
        (300 ≤ n + 10 → ¬fast → y.hold = .stopped ∧ y.state = if h.phiWarn - 200 ≤ phi then .watch else .free)) := by
  intro y phi fast
  have hfast : fast ↔ (x.growing && h.stretchSpeed) = true := by
    rw [Bool.and_eq_true, Hub.stretchSpeed_iff]
  refine ⟨fun hl => ?_, fun hl => ⟨fun hx => ?_, fun hx => ?_, fun hx => ?_, fun n hx hn => ?_⟩⟩
  · have hy : y = { x with state := .limit, hold := .stopped } := if_pos hl
    rw [hy]
    exact ⟨rfl, rfl⟩
  all_goals
    have hnot : ¬h.phiLimit ≤ phi := Int.not_le.mpr hl
    try rw [hfast]
  · have hy : y = if h.phiWarn ≤ phi then { x with state := .watch } else x := by
      simp only [y, Hub.jointStep, hx]
      exact if_neg hnot
    rw [hy]
    split
    · rfl
    · exact hx
  · have hy : y = if phi < h.phiWarn - 200 then { x with state := .free }
        else if (x.growing && h.stretchSpeed) = true then { x with state := .stretch, hold := .running 0 } else x := by
      simp only [y, Hub.jointStep, hx]
      exact if_neg hnot
    rw [hy]
    refine ⟨fun hlow => ?_, fun hhigh hf => ?_, fun hhigh hf => ?_⟩
    · rw [if_pos hlow]
    · rw [if_neg (Int.not_lt.mpr hhigh), if_pos hf]
      exact ⟨rfl, rfl⟩
    · rw [if_neg (Int.not_lt.mpr hhigh), if_neg hf]
      exact hx
  · have hy : y = if h.phiLimit - 300 ≤ phi then x
        else if (x.growing && h.stretchSpeed) = true then { x with state := .stretch, hold := .running 0 }
        else { x with state := .watch } := by
      simp only [y, Hub.jointStep, hx]
      exact if_neg hnot
    rw [hy]
    refine ⟨fun hhigh => ?_, fun hlow hf => ?_, fun hlow hf => ?_⟩
    · rw [if_pos hhigh]
      exact hx
    · rw [if_neg (Int.not_le.mpr hlow), if_pos hf]
      exact ⟨rfl, rfl⟩
    · rw [if_neg (Int.not_le.mpr hlow), if_neg hf]
  · have hy : y = if min 300 (n + 10) = 300 ∧ (x.growing && h.stretchSpeed) = false then
          { x with state := if h.phiWarn - 200 ≤ phi then .watch else .free, hold := .stopped }
        else { x with hold := .running (min 300 (n + 10)) } := by
      simp only [y, Hub.jointStep, hx, hn]
      exact if_neg hnot
    rw [hy]
    refine ⟨fun hor => ?_, fun hlong hf => ?_⟩
    · rw [if_neg fun hboth => ?_]
      · exact ⟨hx, rfl⟩
      · rcases hor with hshort | hf
        · omega
        · exact Bool.noConfusion (hboth.2.symm.trans hf)
    · rw [if_pos ⟨by omega, Bool.eq_false_iff.mpr hf⟩]
      exact ⟨rfl, rfl⟩

theorem Hub.jointDamp_keeps (h : Hub) (x : JointHold) : h.jointDamp x = { x with
    speedBand := (h.jointDamp x).speedBand, angleBand := (h.jointDamp x).angleBand, table := (h.jointDamp x).table
    damping := (h.jointDamp x).damping } := by
  unfold Hub.jointDamp
  split <;> rfl

/-- A joint's damping level by its state, from the table's value raised while it grows (R61). -/
def JointState.damped (boosted : Nat) : JointState → Nat
  | .stretch => max 12 boosted
  | .limit => 15
  | .free | .watch | .sensorLost => boosted

/-- The damping level of a joint that is not in SENSOR_LOST (R61). -/
theorem Hub.jointDamp_spec {h : Hub} {x : JointHold} (hx : x.state ≠ .sensorLost) :
    (h.jointDamp x).speedBand = bandOf speedEdges h.sensing.speed ∧
    (h.jointDamp x).angleBand = bandOf angleEdges x.phi.natAbs ∧
    (h.jointDamp x).table = h.dampingEntry (bandOf speedEdges h.sensing.speed) (bandOf angleEdges x.phi.natAbs) ∧
    (h.jointDamp x).damping =
      x.state.damped (if x.growing then min 15 ((h.jointDamp x).table + 4) else (h.jointDamp x).table) := by
  have hd : h.jointDamp x = { x with
      speedBand := bandOf speedEdges h.sensing.speed, angleBand := bandOf angleEdges x.phi.natAbs
      table := h.dampingEntry (bandOf speedEdges h.sensing.speed) (bandOf angleEdges x.phi.natAbs)
      damping := x.state.damped (if x.growing then
        min 15 (h.dampingEntry (bandOf speedEdges h.sensing.speed) (bandOf angleEdges x.phi.natAbs) + 4)
        else h.dampingEntry (bandOf speedEdges h.sensing.speed) (bandOf angleEdges x.phi.natAbs)) } := by
    refine (if_neg hx).trans ?_
    cases hs : x.state <;> first | rfl | exact absurd hs hx
  rw [hd]
  exact ⟨rfl, rfl, rfl, rfl⟩

/-! ## The joint's work and the period -/

/-- A joint after its period is its judged values with damping and stretch beside them. -/
theorem Hub.jointAfter_keeps (h : Hub) (j : Joint) :
    let x := h.jointJudge (h.sensing.joints.get j) (h.joints.joints.get j)
    h.jointAfter j = { x with
      speedBand := (h.jointDamp x).speedBand, angleBand := (h.jointDamp x).angleBand, table := (h.jointDamp x).table
      damping := (h.jointDamp x).damping, stretch := h.jointStretch j x } := by
  intro x
  have hd := h.jointDamp_keeps x
  have ha : h.jointAfter j = { h.jointDamp x with stretch := h.jointStretch j (h.jointDamp x) } := rfl
  have hs : h.jointStretch j (h.jointDamp x) = h.jointStretch j x := by
    rw [Hub.jointStretch, Hub.jointStretch, hd]
  rw [ha, hs]
  exact congrArg (fun y : JointHold => { y with stretch := h.jointStretch j x }) hd

/-- The event queues after one joint's work: a change of state is raised (R65). -/
def Hub.jointEvents (h : Hub) (j : Joint) : EventUnit :=
  if (h.jointAfter j).state = (h.joints.joints.get j).state then h.events
  else h.eventsAfter .jointState j.num (BitVec.ofNat 16 (h.jointAfter j).state.num)

theorem Hub.jointWork_eq (h : Hub) (j : Joint) : h.jointWork j = { h with
    joints := { h.joints with joints := h.joints.joints.set j (h.jointAfter j) }
    events := h.jointEvents j
    link := { h.link with
      dampers := h.link.dampers.set j { h.link.dampers.get j with image := (h.jointAfter j).damping } } } := by
  unfold Hub.jointWork Hub.jointEvents
  by_cases hs : (h.jointAfter j).state = (h.joints.joints.get j).state
  · rw [if_pos hs, if_pos hs.symm]
    rfl
  · rw [if_neg hs, if_neg (Ne.symm hs)]
    rfl

/-- A joint's values after a period rest on the sensed values, the active set and the joint itself alone. -/
theorem Hub.jointAfter_congr {g h : Hub} {j : Joint} (hsense : g.sensing = h.sensing) (hstore : g.store = h.store)
    (hjoint : g.joints.joints.get j = h.joints.joints.get j) : g.jointAfter j = h.jointAfter j := by
  have hitem : g.item = h.item := by
    funext k n
    rw [Hub.item, Hub.item, hstore]
  have homega : g.omegaWarn = h.omegaWarn := congrFun (congrFun hitem _) _
  have hwarn : g.phiWarn = h.phiWarn := congrFun (congrFun hitem _) _
  have hlimit : g.phiLimit = h.phiLimit := congrFun (congrFun hitem _) _
  have hspeed : g.stretchSpeed = h.stretchSpeed := by
    rw [Hub.stretchSpeed, Hub.stretchSpeed, Hub.vStretch, Hub.vStretch, hitem, hsense]
  have hrate (pair : Pair) (x : JointHold) : g.jointRate pair x = h.jointRate pair x := by
    simp only [Hub.jointRate, homega]
  have hstep (x : JointHold) : g.jointStep x = h.jointStep x := by
    simp only [Hub.jointStep, hwarn, hlimit, hspeed]
  have hdamp (x : JointHold) : g.jointDamp x = h.jointDamp x := by
    simp only [Hub.jointDamp, Hub.dampingEntry, hitem, hsense]
  have hstretch (x : JointHold) : g.jointStretch j x = h.jointStretch j x := by
    have hpst : g.pst j = h.pst j := by
      cases j <;> simp only [Hub.pst, hitem]
    simp only [Hub.jointStretch, hpst, hspeed]
  simp only [Hub.jointAfter, Hub.jointJudge, hrate, hstep, hdamp, hstretch, hsense, hjoint]

/-- The second joint's work reads nothing that the first one's writes, but for the event queues. -/
theorem Hub.jointAfter_jointWork (h : Hub) : (h.jointWork .j1).jointAfter .j2 = h.jointAfter .j2 := by
  apply Hub.jointAfter_congr <;> rw [Hub.jointWork_eq]
  rfl

/-- The event queues after the second joint's work stand behind the first one's. -/
theorem Hub.jointEvents_jointWork (h : Hub) : (h.jointWork .j1).jointEvents .j2 =
    if (h.jointAfter .j2).state = h.joints.joints.j2.state then h.jointEvents .j1
    else (h.jointEvents .j1).raise h.clock.ms .jointState 2 (BitVec.ofNat 16 (h.jointAfter .j2).state.num) := by
  rw [Hub.jointEvents, Hub.jointAfter_jointWork, Hub.jointWork_eq]
  rfl

/-- The joint unit after a period, but for the torque cut (R55, R63). -/
def Hub.jointsDone (h : Hub) : JointUnit :=
  let joints : PerJoint JointHold := ⟨h.jointAfter .j1, h.jointAfter .j2⟩
  { h.joints with
    joints := joints, requests := ⟨joints.j1.stretch, joints.j1.stretch + joints.j2.stretch⟩
    periods := h.joints.periods + 1, timer := .started }

/-- A joint period: both joints' values, the levels written, the events raised, then the torque cut (R55). -/
theorem Hub.jointPeriod_eq (h : Hub) : h.jointPeriod = Hub.judgeTorque { h with
    joints := h.jointsDone
    events := (h.jointWork .j1).jointEvents .j2
    link := { h.link with dampers :=
      ⟨{ h.link.dampers.j1 with image := (h.jointAfter .j1).damping },
       { h.link.dampers.j2 with image := (h.jointAfter .j2).damping }⟩ } } := by
  unfold Hub.jointPeriod
  extract_lets judged
  have hj : judged = { h with
      joints := { h.joints with joints := ⟨h.jointAfter .j1, h.jointAfter .j2⟩ }
      events := (h.jointWork .j1).jointEvents .j2
      link := { h.link with dampers :=
        ⟨{ h.link.dampers.j1 with image := (h.jointAfter .j1).damping },
         { h.link.dampers.j2 with image := (h.jointAfter .j2).damping }⟩ } } := by
    simp only [judged]
    rw [Hub.jointWork_eq (h.jointWork .j1), Hub.jointAfter_jointWork]
    generalize (h.jointWork .j1).jointEvents .j2 = e
    rw [Hub.jointWork_eq h]
    rfl
  rw [hj]
  rfl

/-! ## One joint after its period, clause by clause -/

section
variable (h : Hub) (j : Joint)

/-- A joint whose pair is in FAULT (R60). -/
theorem Hub.jointAfter_fault (hp : (h.sensing.joints.get j).state = .fault) :
    let x := h.joints.joints.get j
    let y := h.jointAfter j
    y.state = .sensorLost ∧ y.omega = 0 ∧ y.growing = false ∧ y.hold = .stopped ∧ y.phiPrev = x.phiPrev ∧
    y.table = x.table ∧ y.damping = 15 ∧ y.stretch = 0 := by
  intro x y
  have hjudge : h.jointJudge (h.sensing.joints.get j) x =
      { x with state := .sensorLost, omega := 0, growing := false, hold := .stopped } := if_pos hp
  have hy : y = { x with
      state := .sensorLost, omega := 0, growing := false, hold := .stopped, damping := 15, stretch := 0 } := by
    simp only [y, Hub.jointAfter]
    rw [hjudge]
    rfl
  rw [hy]
  exact ⟨rfl, rfl, rfl, rfl, rfl, rfl, rfl, rfl⟩

/-- A joint that comes back from SENSOR_LOST (R60). -/
theorem Hub.jointAfter_returns (hp : (h.sensing.joints.get j).state ≠ .fault)
    (hx : (h.joints.joints.get j).state = .sensorLost) :
    let pair := h.sensing.joints.get j
    let y := h.jointAfter j
    y.state = .free ∧ y.phi = pair.value ∧ y.phiPrev = some pair.value ∧ y.omega = 0 ∧ y.growing = false := by
  intro pair y
  have hjudge : h.jointJudge pair (h.joints.joints.get j) = { h.joints.joints.get j with
      state := .free, phi := pair.value, phiPrev := some pair.value, omega := 0, growing := false } :=
    (if_neg hp).trans (if_pos hx)
  have hy := h.jointAfter_keeps j
  rw [hjudge] at hy
  rw [show y = _ from hy]
  exact ⟨rfl, rfl, rfl, rfl, rfl⟩

/-- A joint judged by rate and step: its values are those of the step behind the rate (R56 to R59). -/
theorem Hub.jointAfter_judged (hp : (h.sensing.joints.get j).state ≠ .fault)
    (hx : (h.joints.joints.get j).state ≠ .sensorLost) :
    let r := h.jointRate (h.sensing.joints.get j) (h.joints.joints.get j)
    let y := h.jointAfter j
    y.state = (h.jointStep r).state ∧ y.hold = (h.jointStep r).hold ∧ y.phi = r.phi ∧ y.phiPrev = r.phiPrev ∧
    y.omega = r.omega ∧ y.growing = r.growing := by
  intro r y
  have hjudge : h.jointJudge (h.sensing.joints.get j) (h.joints.joints.get j) = h.jointStep r :=
    (if_neg hp).trans (if_neg hx)
  have hy := h.jointAfter_keeps j
  rw [hjudge] at hy
  have hkeeps := h.jointStep_keeps r
  rw [show y = _ from hy]
  refine ⟨rfl, rfl, ?_, ?_, ?_, ?_⟩ <;> rw [hkeeps]

/-- The damping level of a joint after its period, SENSOR_LOST apart (R61). -/
theorem Hub.jointAfter_damping (hl : (h.jointAfter j).state ≠ .sensorLost) :
    let y := h.jointAfter j
    y.table = h.dampingEntry y.speedBand y.angleBand ∧
    y.speedBand = bandOf speedEdges h.sensing.speed ∧ y.angleBand = bandOf angleEdges y.phi.natAbs ∧
    y.damping = y.state.damped (if y.growing then min 15 (y.table + 4) else y.table) := by
  intro y
  have hy := h.jointAfter_keeps j
  have hlost : (h.jointJudge (h.sensing.joints.get j) (h.joints.joints.get j)).state ≠ .sensorLost := by
    rw [hy] at hl
    exact hl
  obtain ⟨hspeed, hangle, htable, hdamping⟩ := Hub.jointDamp_spec (h := h) hlost
  rw [show y = _ from hy]
  refine ⟨?_, hspeed, hangle, hdamping⟩
  dsimp only
  rw [htable, hspeed, hangle]

/-- The angle a joint is damped by is its pair's, whatever way it was judged (R56, R60). -/
theorem Hub.jointAfter_phi (hp : (h.sensing.joints.get j).state ≠ .fault) :
    (h.jointAfter j).phi = (h.sensing.joints.get j).value := by
  by_cases hx : (h.joints.joints.get j).state = .sensorLost
  · obtain ⟨-, hphi, -⟩ := h.jointAfter_returns j hp hx
    exact hphi
  · obtain ⟨-, -, hphi, -⟩ := h.jointAfter_judged j hp hx
    obtain ⟨hvalue, -⟩ := h.jointRate_spec (h.sensing.joints.get j) (h.joints.joints.get j)
    exact hphi.trans hvalue

/-- A joint's stretch pressure after its period (R63). -/
theorem Hub.jointAfter_stretch : (h.jointAfter j).stretch = h.jointStretch j (h.jointAfter j) := by
  rw [h.jointAfter_keeps j]
  rfl

end

/-- The angle band, by edges taken as integers (R61). -/
theorem bandOf_angleEdges (n : Nat) : bandOf angleEdges n =
    ([500, 1000, 1500, 2000, 3000, 4000, 5000].filter fun e : Int => e ≤ (n : Int)).length := by
  have hedges : ([500, 1000, 1500, 2000, 3000, 4000, 5000] : List Int) = angleEdges.map Nat.cast := rfl
  rw [hedges, List.filter_map, List.length_map, bandOf]
  simp only [Function.comp_def, Int.ofNat_le]

theorem JointState.cuts_iff {a : JointState} : a.cuts = true ↔ a = .stretch ∨ a = .limit := by
  cases a <;> decide

/-- The torque cut, by both joints' states and the taken drive state (R64). -/
theorem Hub.cutsTorque_iff {h : Hub} : h.cutsTorque = true ↔ h.brake.drive = .traction ∧
    (h.joints.joints.j1.state = .stretch ∨ h.joints.joints.j1.state = .limit ∨
      h.joints.joints.j2.state = .stretch ∨ h.joints.joints.j2.state = .limit) := by
  rw [Hub.cutsTorque, Bool.and_eq_true, Bool.or_eq_true, JointState.cuts_iff, JointState.cuts_iff, beq_iff_eq, or_assoc, and_comm]

/-- What a joint period leaves in the joint unit, the link and the queues. -/
theorem Hub.jointPeriod_fields (h : Hub) : h.jointPeriod = { h with
      joints := h.jointPeriod.joints, events := h.jointPeriod.events, link := h.jointPeriod.link } ∧
    h.jointPeriod.joints.periods = h.joints.periods + 1 ∧ h.jointPeriod.joints.timer = .running 0 ∧
    h.jointPeriod.joints.joints = ⟨h.jointAfter .j1, h.jointAfter .j2⟩ ∧
    h.jointPeriod.joints.requests = h.jointsDone.requests ∧
    h.jointPeriod.link.dampers = ⟨{ h.link.dampers.j1 with image := (h.jointAfter .j1).damping },
      { h.link.dampers.j2 with image := (h.jointAfter .j2).damping }⟩ ∧
    h.jointPeriod.events = (h.jointWork .j1).jointEvents .j2 ∧
    (h.jointPeriod.joints.torqueCut = true ↔ h.brake.drive = .traction ∧
      ((h.jointAfter .j1).state = .stretch ∨ (h.jointAfter .j1).state = .limit ∨
        (h.jointAfter .j2).state = .stretch ∨ (h.jointAfter .j2).state = .limit)) ∧
    (h.link.lines.torque = h.joints.torqueCut → h.jointPeriod.link.lines.torque = h.jointPeriod.joints.torqueCut) := by
  rw [Hub.jointPeriod_eq]
  generalize (h.jointWork .j1).jointEvents .j2 = e
  rw [Hub.judgeTorque_eq]
  refine ⟨rfl, rfl, rfl, rfl, rfl, rfl, rfl, Hub.cutsTorque_iff, fun htorque => ?_⟩
  dsimp only
  split
  · next hcut => exact htorque.trans hcut
  · rfl

/-- Settles O42, by a joint period as both joints' values, their events and the torque cut. -/
theorem jointPeriod_holds : Obligations.JointPeriod := by
  rintro ⟨h, pending⟩ hdue
  intro h' speed
  obtain ⟨hframe, hperiods, htimer, hjoints, hrequests, hdampers, hevents, hcut, hline⟩ := h.jointPeriod_fields
  have hget (j : Joint) : h.jointPeriod.joints.joints.get j = h.jointAfter j := by
    rw [hjoints]
    cases j <;> rfl
  refine ⟨{ hub := h.jointPeriod, pending := pending }, ?_, rfl, hframe, hperiods, htimer, fun j => ?_, ?_⟩
  · exact congrArg Host.Outcome.next (if_pos hdue)
  · intro x y pair phi fast
    have hy : y = h.jointAfter j := hget j
    have hx : x = h.joints.joints.get j := rfl
    have hpair : pair = h.sensing.joints.get j := rfl
    have hgrow : fast ↔ y.growing = true ∧ h.vStretch ≤ (h.sensing.speed : Int) := Iff.rfl
    clear_value y x
    subst hy hx
    refine ⟨h.jointAfter_fault j, h.jointAfter_returns j, fun hp hx => ?_, fun hl => ?_, ?_, ?_⟩
    · obtain ⟨hstate, hhold, hphi, hprev, homega, hgrowing⟩ := h.jointAfter_judged j hp hx
      obtain ⟨rphi, rstate, rhold, rsome, rnone, rgrow⟩ := h.jointRate_spec (h.sensing.joints.get j) (h.joints.joints.get j)
      obtain ⟨slimit, sbelow⟩ := h.jointStep_states (h.jointRate (h.sensing.joints.get j) (h.joints.joints.get j))
      rw [rphi, rstate, rhold, ← hstate, ← hhold, ← hgrowing] at sbelow
      rw [rphi, ← hstate, ← hhold] at slimit
      rw [← homega, ← hprev] at rsome rnone
      rw [← homega, ← hgrowing] at rgrow
      exact ⟨hphi.trans rphi, rsome, rnone, rgrow, slimit, sbelow⟩
    · have hp : (h.sensing.joints.get j).state ≠ .fault := fun hp => hl (h.jointAfter_fault j hp).1
      obtain ⟨htable, hspeed, hangle, hdamping⟩ := h.jointAfter_damping j hl
      rw [h.jointAfter_phi j hp, bandOf_angleEdges] at hangle
      refine ⟨htable, hspeed, hangle, hdamping.trans ?_⟩
      rw [← htable]
      generalize (h.jointAfter j).state = a
      cases a <;> rfl
    · show (h.jointPeriod.link.dampers.get j).image = _
      rw [hdampers]
      cases j <;> rfl
    · refine (h.jointAfter_stretch j).trans ?_
      unfold Hub.jointStretch Hub.stretchSpeed
      generalize (h.jointAfter j).state = a
      cases a <;> simp only [decide_eq_true_eq] <;> rfl
  · intro y1 y2
    have hy1 : y1 = h.jointAfter .j1 := hget .j1
    have hy2 : y2 = h.jointAfter .j2 := hget .j2
    clear_value y1 y2
    subst hy1 hy2
    refine ⟨hrequests, hcut, hline, ?_⟩
    exact hevents.trans h.jointEvents_jointWork

end Sys2Proof.Machine
end

section
/-! PROOFS. The refresh and its completions on the four chains: O52, and what the owners are told: O53. -/

namespace Sys2Proof.Machine

/-! ## Devices and chains at a completion (R140 to R142) -/

theorem Device.delivered_echoed {γ σ : Type} [DecidableEq γ] {d : Device γ σ} {a : DeviceAnswer γ σ} (judged : Bool)
    (he : d.lastSent = some a.echo) : d.echoed (some a) = true ∧ d.delivered judged (some a) = some a.status := by
  have hechoed : d.echoed (some a) = true := by simp [Device.echoed, echoOf, he]
  exact ⟨hechoed, if_pos (.inl hechoed)⟩

theorem Device.delivered_unechoed {γ σ : Type} [DecidableEq γ] {d : Device γ σ} {answer : Option (DeviceAnswer γ σ)}
    (hn : ∀ a, answer = some a → d.lastSent ≠ some a.echo) : d.echoed answer = false ∧ d.delivered true answer = none := by
  have hechoed : d.echoed answer = false := by
    cases answer with
    | none => cases hd : d.lastSent <;> simp [Device.echoed, echoOf, hd]
    | some a => simp [Device.echoed, echoOf, Ne.symm (hn a rfl)]
  exact ⟨hechoed, by simp [Device.delivered, hechoed]⟩

/-- A device at a completion is that of R140 to R142. -/
theorem Device.complete_completes {γ σ : Type} [DecidableEq γ] {judged : Bool} {p : Prop} (hp : judged = true ↔ p)
    (ok : σ → Bool) (answer : Option (DeviceAnswer γ σ)) (d : Device γ σ) :
    Device.Completes p ok answer d (d.complete judged ok answer) where
  sent := ⟨rfl, rfl, rfl⟩
  matched a ha hj he := by
    subst ha
    obtain ⟨hechoed, hdelivered⟩ := Device.delivered_echoed judged he
    simp [Device.complete, hp.mpr hj ▸ hechoed, hp.mpr hj ▸ hdelivered, hp.mpr hj]
  missed hj hn := by
    obtain ⟨hechoed, hdelivered⟩ := Device.delivered_unechoed hn
    simp [Device.complete, hp.mpr hj, hechoed, hdelivered]
  unjudged hj := by
    have hfalse : judged = false := Bool.eq_false_iff.mpr fun hb => hj (hp.mp hb)
    simp [Device.complete, hfalse, Device.delivered]

/-- A chain at a completion is that of R141. -/
theorem ChainHold.complete_completes {judged clean : Bool} {p q : Prop} (hp : judged = true ↔ p) (hq : clean = true ↔ q)
    (x : ChainHold) : ChainHold.Completes p q x (x.complete judged clean) := by
  have judge (hj : p) : x.complete judged clean = { x.judge clean with busy := false } := by
    rw [ChainHold.complete, if_pos (hp.mpr hj)]
  have hc (hn : ¬q) : clean = false := Bool.eq_false_iff.mpr fun hb => hn (hq.mp hb)
  constructor
  case unjudged =>
    intro hj
    rw [ChainHold.complete, if_neg fun hb => hj (hp.mp hb)]
  case ok_clean =>
    intro hj hclean hok
    rw [judge hj]
    simp [ChainHold.judge, hq.mpr hclean, hok]
  case ok_miss =>
    intro hj hmiss hok hfew
    rw [judge hj]
    simp [ChainHold.judge, hc hmiss, hok, show ¬2 ≤ x.mismatches by omega]
  case enters =>
    intro hj hmiss hok hmany
    rw [judge hj]
    simp [ChainHold.judge, hc hmiss, hok, show 2 ≤ x.mismatches by omega, bump]
  case fault_clean =>
    intro hj hclean hfault hfew
    rw [judge hj]
    simp [ChainHold.judge, hq.mpr hclean, hfault, show ¬49 ≤ x.cleans by omega]
  case returns =>
    intro hj hclean hfault hmany
    rw [judge hj]
    simp [ChainHold.judge, hq.mpr hclean, hfault, show 49 ≤ x.cleans by omega]
  case fault_miss =>
    intro hj hmiss hfault
    rw [judge hj]
    simp [ChainHold.judge, hc hmiss, hfault]

/-! ## The CHAIN_FAULT events of a completion (R144) -/

/-- The event of one fault flag or chain state: raised where it is set (R144). -/
def faultRaised (chain value : Nat) (old new : Bool) : List (Nat × Int) :=
  if new && !old then [(chain, (value : Int))] else []

theorem Hub.handFault_sends {chain value : Nat} {set clear : Hub → Hub} (hs : ∀ g, Hub.Sends .chainFault [] g (set g))
    (hc : ∀ g, Hub.Sends .chainFault [] g (clear g)) (old new : Bool) (h : Hub) :
    Hub.Sends .chainFault (faultRaised chain value old new) h (h.handFault chain value set clear old new) := by
  cases old <;> cases new
  case false.true => exact (Hub.Sends.raise .chainFault chain value h).trans_silent (hs _)
  case true.false => exact hc h
  all_goals exact .refl h

theorem flatMap_faultRaised {ι : Type} (chain : Nat) (num : ι → Nat) (old new : ι → Bool) (l : List ι) :
    (l.flatMap fun i => faultRaised chain (num i) (old i) (new i)) =
      (l.filter fun i => new i && !old i).map fun i => ((chain, (num i : Int)) : Nat × Int) := by
  induction l with
  | nil => rfl
  | cons i l ih =>
    rw [List.flatMap_cons, ih, faultRaised, List.filter_cons]
    split <;> rfl


/-! ## Chains B and J: events alone -/

/-- A fault whose owner reads it at its own time raises its event and no more (R143). -/
theorem Hub.handFault_id (chain value : Nat) (old new : Bool) (h : Hub) : h.handFault chain value id id old new =
    { h with events := (h.handFault chain value id id old new).events } := by
  cases old <;> cases new <;> rfl

/-- Nor do those of a whole chain and its state. -/
theorem Hub.faults_id {ι : Type} (chain : Nat) (num : ι → Nat) (old new : ι → Bool) (l : List ι) (was is : Bool) (h : Hub) :
    let g := (l.foldl (fun g i => g.handFault chain (num i) id id (old i) (new i)) h).handFault chain 0 id id was is
    g = { h with events := g.events } := by
  intro g
  have hfold : l.foldl (fun g i => g.handFault chain (num i) id id (old i) (new i)) h =
      { h with events := (l.foldl (fun g i => g.handFault chain (num i) id id (old i) (new i)) h).events } :=
    foldl_preserves (P := fun g : Hub => g = { h with events := g.events }) (fun g i hg => by rw [Hub.handFault_id, hg]) l rfl
  exact handFault_preserves (P := fun g : Hub => g = { h with events := g.events })
    (fun g hg => by rw [hg]; rfl) (fun g hg => hg) _ _ hfold

/-! ## The refresh (R140) -/

/-- Settles the refresh's part of O52. -/
theorem refresh_sends (s : State) (hdue : s.hub.link.timer.due refreshPeriod = true) :
    exec .refreshTimerExpiry s = .next { s with hub := { s.hub with link := s.hub.link.refresh } } :=
  congrArg Host.Outcome.next (if_pos hdue)

/-- A chain's devices all have a last sent command (R141). -/
theorem all_sent_iff {ι γ σ : Type} {l : List ι} (hl : ∀ i, i ∈ l) (d : ι → Device γ σ) :
    (l.all fun i => (d i).lastSent.isSome) = true ↔ ∀ i, (d i).lastSent ≠ none := by
  simp only [List.all_eq_true, Option.isSome_iff_ne_none]
  exact ⟨fun h i => h i (hl i), fun h i _ => h i⟩

/-- No device of a chain mismatches (R141). -/
theorem all_clean_iff {ι γ σ : Type} {l : List ι} (hl : ∀ i, i ∈ l) (d : ι → Device γ σ) :
    (l.all fun i => !(d i).mismatch) = true ↔ ∀ i, (d i).mismatch = false := by
  simp only [List.all_eq_true, Bool.not_eq_true']
  exact ⟨fun h i => h i (hl i), fun h i _ => h i⟩

/-- The events of a chain whose owner reads its faults at its own times (R143, R144). -/
theorem Hub.faults_sends {ι : Type} (chain : Nat) (num : ι → Nat) (old new : ι → Bool) (l : List ι) (was is : Bool) (h : Hub) :
    Hub.Sends .chainFault
      (((l.filter fun i => new i && !old i).map fun i => ((chain, (num i : Int)) : Nat × Int)) ++ faultRaised chain 0 was is) h
      ((l.foldl (fun g i => g.handFault chain (num i) id id (old i) (new i)) h).handFault chain 0 id id was is) := by
  rw [← flatMap_faultRaised]
  exact (Hub.Sends.foldl (fun g i => Hub.handFault_sends .refl .refl (old i) (new i) g) l h).trans
    (Hub.handFault_sends .refl .refl was is _)

/-- Chain B's completion: modulators and chain, and the events (R143). -/
theorem Hub.completeB_spec (answers : PerAxle (Option (DeviceAnswer ModCmd Bool))) (h : Hub) :
    let old := h.link.modulators
    let judged := Axle.all.all fun k => (old.get k).lastSent.isSome
    let new := PerAxle.tab fun k => (old.get k).complete judged id (answers.get k)
    let chain := h.link.chainB.complete judged (Axle.all.all fun k => !(new.get k).mismatch)
    h.completeB answers = { h with
      link := { h.link with modulators := new, chainB := chain }, events := (h.completeB answers).events } ∧
    Hub.Sends .chainFault
      (((Axle.all.filter fun k => (new.get k).fault && !(old.get k).fault).map fun k => ((2, (k.num : Int)) : Nat × Int)) ++
        faultRaised 2 0 h.link.chainB.fault chain.fault) h (h.completeB answers) := by
  intro old judged new chain
  have hsends := Hub.faults_sends 2 Axle.num (fun k => (old.get k).fault) (fun k => (new.get k).fault) Axle.all
    h.link.chainB.fault chain.fault { h with link := { h.link with modulators := new, chainB := chain } }
  exact ⟨Hub.faults_id 2 Axle.num (fun k => (old.get k).fault) (fun k => (new.get k).fault) _ h.link.chainB.fault chain.fault _, hsends.of_eq rfl rfl rfl rfl⟩

/-- Chain J's completion: dampers and chain, and the events (R143). -/
theorem Hub.completeJ_spec (answers : PerJoint (Option (DeviceAnswer Nat Bool))) (h : Hub) :
    let old := h.link.dampers
    let judged := Joint.all.all fun j => (old.get j).lastSent.isSome
    let new := PerJoint.tab fun j => (old.get j).complete judged id (answers.get j)
    let chain := h.link.chainJ.complete judged (Joint.all.all fun j => !(new.get j).mismatch)
    h.completeJ answers = { h with
      link := { h.link with dampers := new, chainJ := chain }, events := (h.completeJ answers).events } ∧
    Hub.Sends .chainFault
      (((Joint.all.filter fun j => (new.get j).fault && !(old.get j).fault).map fun j => ((4, (j.num : Int)) : Nat × Int)) ++
        faultRaised 4 0 h.link.chainJ.fault chain.fault) h (h.completeJ answers) := by
  intro old judged new chain
  have hsends := Hub.faults_sends 4 Joint.num (fun j => (old.get j).fault) (fun j => (new.get j).fault) Joint.all
    h.link.chainJ.fault chain.fault { h with link := { h.link with dampers := new, chainJ := chain } }
  exact ⟨Hub.faults_id 4 Joint.num (fun j => (old.get j).fault) (fun j => (new.get j).fault) _ h.link.chainJ.fault chain.fault _, hsends.of_eq rfl rfl rfl rfl⟩

/-! ## Chain L: the valves as the devices answered, but for their images -/

/-- All of the link but the door lines and the valves' commands in the image. -/
def Link.heard (u : Link) : Link := { u.body with valves := u.valves.map fun d => { d with image := .hold } }

theorem Link.heard_of_body {u v : Link} (hb : u.body = v.body) : u.heard = v.heard := by
  rw [Link.heard, hb, Link.valves_of_body hb, Link.heard]

theorem Link.rest_of_heard {u v : Link} (hb : u.heard = v.heard) : u.rest = v.rest :=
  (congrArg (fun w : Link => { w with valves := .fill (.atReset .hold) }) hb :)

/-- A valve of a link that was heard alike differs in its image alone. -/
theorem Link.valve_of_heard {u v : Link} (hb : u.heard = v.heard) (c : Circuit) :
    u.valves.get c = { v.valves.get c with image := (u.valves.get c).image } := by
  have hvalves : u.valves.map (fun d => { d with image := ValveCmd.hold }) = v.valves.map fun d => { d with image := .hold } :=
    congrArg Link.valves hb
  have hc := congrArg (fun w => w.get c) hvalves
  rw [PerCircuit.get_map, PerCircuit.get_map] at hc
  exact (congrArg (fun d : Device ValveCmd Bool => { d with image := (u.valves.get c).image }) hc :)

@[simp] theorem Hub.writeValves_heard (h : Hub) : h.writeValves.link.heard = h.link.heard := by
  have hv : h.writeValves.link.valves.map (fun d => { d with image := ValveCmd.hold }) =
      h.link.valves.map fun d => { d with image := .hold } :=
    PerCircuit.ext_get fun c => by simp [Hub.writeValves, Hub.onLink]
  exact congrArg (fun v => { h.link.body with valves := v }) hv

@[simp] theorem Hub.levellingTakesKneel_heard (old new : KneelState) (h : Hub) :
    (h.levellingTakesKneel old new).link.heard = h.link.heard := by
  cases new
  case stopped =>
    simp only [Hub.levellingTakesKneel, Hub.writeValves_heard, Hub.grantIfFreed_frame]
    exact congrArg Link.heard (foldl_keeps Hub.link _ (by simp) _ _)
  all_goals rfl

@[simp] theorem Hub.setKneel_heard (new : KneelState) (h : Hub) : (h.setKneel new).link.heard = h.link.heard := by
  simp [Hub.setKneel, Link.heard_of_body (Hub.judgePermit_body _)]

@[simp] theorem Hub.stopKneel_heard (cause : StopCause) (c : Option Circuit) (h : Hub) :
    (h.stopKneel cause c).link.heard = h.link.heard := by
  unfold Hub.stopKneel
  split <;> simp

@[simp] theorem Hub.exclude_heard (cs : List Circuit) (add : Causes → Causes) (h : Hub) :
    (h.exclude cs add).link.heard = h.link.heard := by
  unfold Hub.exclude
  extract_lets newly marked out handed
  have hout : out.link = h.link := by simp [out, marked, foldl_keeps Hub.link]
  have hhanded : handed.link.heard = out.link.heard :=
    foldl_keeps (fun g : Hub => g.link.heard) _ (fun g c => by split <;> simp) _ _
  simp [hhanded, hout]


theorem Hub.exclude_shown (cs : List Circuit) (add : Causes → Causes) (h : Hub) : (h.exclude cs add).ValvesShown :=
  Hub.writeValves_shown _

theorem Hub.clearCause_action (cs : List Circuit) (drop : Causes → Causes) (h : Hub) (c : Circuit) :
    ((h.clearCause cs drop).circuit c).action = (h.circuit c).action :=
  foldl_keeps (fun g : Hub => (g.circuit c).action) _ (fun g d => by
    rw [Hub.circuit_onCircuit]
    split
    · next heq => rw [heq]
    · rfl) _ _

theorem Hub.ValvesShown.clearCause {h : Hub} (hv : h.ValvesShown) (cs : List Circuit) (drop : Causes → Causes) :
    (h.clearCause cs drop).ValvesShown := fun c => by
  rw [Hub.clearCause_action, ← hv c]
  simp

section
variable (h : Hub) (answers : PerCircuit (Option (DeviceAnswer ValveCmd Bool)))

/-- The valves after their chain's completion, before their owner acts (R140 to R142). -/
def Hub.valvesAnswered : PerCircuit (Device ValveCmd Bool) :=
  .tab fun c => (h.link.valves.get c).complete (Circuit.all.all fun c => (h.link.valves.get c).lastSent.isSome) id (answers.get c)

/-- Chain L after its completion (R141). -/
def Hub.chainLAnswered : ChainHold :=
  h.link.chainL.complete (Circuit.all.all fun c => (h.link.valves.get c).lastSent.isSome)
    (Circuit.all.all fun c => !((h.valvesAnswered answers).get c).mismatch)

/-- The hand-over of the valves' fault flags, one circuit after the other (R143). -/
def Hub.handValve (g : Hub) (c : Circuit) : Hub :=
  g.handFault 1 c.num (Hub.exclude [c] fun x => { x with valve := true }) (Hub.clearCause [c] fun x => { x with valve := false })
    (h.link.valves.get c).fault ((h.valvesAnswered answers).get c).fault

/-- The hand-over of chain L's state to all circuits (R143). -/
def Hub.handChainL (g : Hub) : Hub :=
  g.handFault 1 0 (Hub.exclude Circuit.all fun x => { x with chain := true })
    (Hub.clearCause Circuit.all fun x => { x with chain := false }) h.link.chainL.fault (h.chainLAnswered answers).fault

theorem Hub.completeL_eq : h.completeL answers = h.handChainL answers (Circuit.all.foldl (h.handValve answers)
    (h.onLink fun u => { u with valves := h.valvesAnswered answers, chainL := h.chainLAnswered answers })) := rfl

/-- The link after chain L's completion, but for door lines and commands in the image (R143). -/
theorem Hub.completeL_heard : (h.completeL answers).link.heard =
    ({ h.link with valves := h.valvesAnswered answers, chainL := h.chainLAnswered answers } : Link).heard := by
  have hstep {chain value : Nat} {cs : List Circuit} {add drop : Causes → Causes} (old new : Bool) (u : Link) (g : Hub)
      (hg : g.link.heard = u.heard) :
      (g.handFault chain value (Hub.exclude cs add) (Hub.clearCause cs drop) old new).link.heard = u.heard :=
    handFault_preserves (P := fun g : Hub => g.link.heard = u.heard) (fun g hg => by rw [Hub.exclude_heard]; exact hg)
      (fun g hg => by simpa using hg) old new hg
  rw [Hub.completeL_eq]
  exact hstep _ _ _ _ (foldl_preserves (fun g c hg => hstep _ _ _ g hg) _ rfl)

/-- The valves' commands go on to be those of the action states (R105). -/
theorem Hub.completeL_shown (hv : h.ValvesShown) : (h.completeL answers).ValvesShown := by
  rw [Hub.completeL_eq]
  refine handFault_preserves (P := Hub.ValvesShown) (fun g _ => Hub.exclude_shown _ _ _) (fun g hg => hg.clearCause _ _) _ _ ?_
  refine foldl_preserves (P := Hub.ValvesShown) (fun g c hg =>
    handFault_preserves (P := Hub.ValvesShown) (fun g _ => Hub.exclude_shown _ _ _) (fun g hg => hg.clearCause _ _) _ _ hg) _ ?_
  refine fun c => Eq.trans ?_ (hv c)
  simp [Hub.valvesAnswered, Device.complete]

end

/-- The events of chain L's completion, each before its owner acts (R143, R144). -/
theorem Hub.completeL_sends (h : Hub) (answers : PerCircuit (Option (DeviceAnswer ValveCmd Bool))) : Hub.Sends .chainFault
    (((Circuit.all.filter fun c => ((h.valvesAnswered answers).get c).fault && !(h.link.valves.get c).fault).map
        fun c => ((1, (c.num : Int)) : Nat × Int)) ++
      faultRaised 1 0 h.link.chainL.fault (h.chainLAnswered answers).fault) h (h.completeL answers) := by
  have hset (cs : List Circuit) (add : Causes → Causes) (g : Hub) : Hub.Sends .chainFault [] g (g.exclude cs add) :=
    .of_emits (Hub.exclude_emits _ _ _) (by decide)
  have hclear (cs : List Circuit) (drop : Causes → Causes) (g : Hub) : Hub.Sends .chainFault [] g (g.clearCause cs drop) :=
    .of_emits (Hub.clearCause_emits _ _ _) (by decide)
  rw [Hub.completeL_eq, ← flatMap_faultRaised]
  refine Hub.Sends.trans ?_ (Hub.handFault_sends (hset _ _) (hclear _ _) _ _ _)
  exact (Hub.Sends.foldl (fun g c => Hub.handFault_sends (hset _ _) (hclear _ _) _ _ g) Circuit.all
    (h.onLink fun u => { u with valves := h.valvesAnswered answers, chainL := h.chainLAnswered answers })).of_eq rfl rfl rfl rfl

/-! ## The circuits' causes after chain L's completion (R103, R143) -/

theorem Hub.exclude_causes (cs : List Circuit) {add : Causes → Causes} (hadd : ∀ x, add (add x) = add x) (h : Hub) (c : Circuit) :
    ((h.exclude cs add).circuit c).causes = if c ∈ cs then add (h.circuit c).causes else (h.circuit c).causes := by
  have hc : ((h.exclude cs add).circuit c).causes = (if c ∈ cs then (h.circuit c).marked add else h.circuit c).causes :=
    (congrArg CircuitLevel.causes (Hub.exclude_circuit cs hadd h c) :)
  rw [hc]
  split <;> rfl

theorem Hub.clearCause_causes (cs : List Circuit) {drop : Causes → Causes} (hdrop : ∀ x, drop (drop x) = drop x) (h : Hub)
    (c : Circuit) : ((h.clearCause cs drop).circuit c).causes =
      if c ∈ cs then drop (h.circuit c).causes else (h.circuit c).causes := by
  rw [Hub.clearCause, Hub.foldl_causes_circuit drop hdrop]
  split <;> rfl

/-- The hand-over of a fault sets or clears one cause of its circuits where the fault changes, and no other (R103, R143). -/
theorem Hub.handFault_causes {put : Bool → Causes → Causes} (hput : ∀ b x, put b (put b x) = put b x) (chain value : Nat)
    (cs : List Circuit) (old new : Bool) (g : Hub) (c : Circuit) :
    ((g.handFault chain value (Hub.exclude cs (put true)) (Hub.clearCause cs (put false)) old new).circuit c).causes =
      if c ∈ cs ∧ new ≠ old then put new (g.circuit c).causes else (g.circuit c).causes := by
  cases old <;> cases new
  case false.true =>
    have hraised : ((g.raise .chainFault chain value).circuit c).causes = (g.circuit c).causes := rfl
    simp only [Hub.handFault, Hub.exclude_causes cs (hput true), hraised, ne_eq, Bool.true_eq_false, not_false_eq_true, and_true]
  case true.false =>
    simp only [Hub.handFault, Hub.clearCause_causes cs (hput false), ne_eq, Bool.false_eq_true, not_false_eq_true, and_true]
  all_goals exact (if_neg fun hboth => hboth.2 rfl).symm

/-- A fold over the circuits whose step changes the causes of its own circuit alone. -/
theorem Hub.foldl_circuitCauses {f : Hub → Circuit → Hub} {φ : Circuit → Causes → Causes}
    (hf : ∀ g d c, ((f g d).circuit c).causes = if c = d then φ d (g.circuit c).causes else (g.circuit c).causes)
    {l : List Circuit} (hn : l.Nodup) (h : Hub) (c : Circuit) :
    ((l.foldl f h).circuit c).causes = if c ∈ l then φ c (h.circuit c).causes else (h.circuit c).causes := by
  induction l generalizing h with
  | nil => rfl
  | cons d l ih =>
    obtain ⟨hd, hl⟩ := List.nodup_cons.mp hn
    rw [List.foldl_cons, ih hl, hf]
    by_cases hc : c = d
    · subst hc
      simp [hd]
    · simp [hc]

/-- The causes of a circuit after chain L's completion (R103). -/
theorem Hub.completeL_causes (h : Hub) (answers : PerCircuit (Option (DeviceAnswer ValveCmd Bool))) (c : Circuit) :
    ((h.completeL answers).circuit c).causes = {
      height := (h.circuit c).causes.height
      valve :=
        if ((h.valvesAnswered answers).get c).fault = (h.link.valves.get c).fault then (h.circuit c).causes.valve
        else ((h.valvesAnswered answers).get c).fault
      chain :=
        if (h.chainLAnswered answers).fault = h.link.chainL.fault then (h.circuit c).causes.chain
        else (h.chainLAnswered answers).fault } := by
  have hvalves (g : Hub) : ((Circuit.all.foldl (h.handValve answers) g).circuit c).causes =
      if ((h.valvesAnswered answers).get c).fault ≠ (h.link.valves.get c).fault then
        { (g.circuit c).causes with valve := ((h.valvesAnswered answers).get c).fault }
      else (g.circuit c).causes := by
    refine (Hub.foldl_circuitCauses (φ := fun d x =>
      if ((h.valvesAnswered answers).get d).fault ≠ (h.link.valves.get d).fault then
        { x with valve := ((h.valvesAnswered answers).get d).fault } else x) (fun g d c => ?_) (by decide) g c).trans
      (if_pos (Circuit.mem_all c))
    refine (Hub.handFault_causes (put := fun b x => { x with valve := b }) (fun _ _ => rfl) 1 d.num [d] _ _ g c).trans ?_
    by_cases hc : c = d
    · subst hc
      simp
    · simp [hc]
  rw [Hub.completeL_eq, Hub.handChainL,
    Hub.handFault_causes (put := fun b x => { x with chain := b }) (fun _ _ => rfl) 1 0 Circuit.all, hvalves]
  have hstart : ((h.onLink fun u => { u with valves := h.valvesAnswered answers, chainL := h.chainLAnswered answers }).circuit
    c).causes = (h.circuit c).causes := rfl
  rw [hstart]
  by_cases hv : ((h.valvesAnswered answers).get c).fault = (h.link.valves.get c).fault <;>
    by_cases hc : (h.chainLAnswered answers).fault = h.link.chainL.fault <;> simp [hv, hc]

/-- Chain L's completion keeps the levelling unit's form (R90, R96, R97, R103). -/
theorem Hub.completeL_inv (answers : PerCircuit (Option (DeviceAnswer ValveCmd Bool))) {h : Hub} (hu : h.level.Inv) :
    (h.completeL answers).level.Inv := by
  have hstep {chain value : Nat} {cs : List Circuit} {add drop : Causes → Causes} (hadd : ∀ x, add (add x) = add x)
      (hdrop : ∀ x, (drop x).any = true → x.any = true) (old new : Bool) (g : Hub) (hg : g.level.Inv) :
      (g.handFault chain value (Hub.exclude cs add) (Hub.clearCause cs drop) old new).level.Inv := by
    refine handFault_preserves (P := fun g : Hub => g.level.Inv) (fun g hg => (Hub.exclude_inv cs hadd (by simpa using hg)).1)
      (fun g hg => ?_) old new hg
    obtain ⟨hmoves, hslots, hqueue, -⟩ := g.moves_clearCause cs hdrop
    exact hg.of_moves hmoves hslots (hqueue ▸ .refl _)
  rw [Hub.completeL_eq]
  generalize hstart : (h.onLink fun u => { u with valves := h.valvesAnswered answers, chainL := h.chainLAnswered answers }) = start
  have hfold : (Circuit.all.foldl (h.handValve answers) start).level.Inv :=
    foldl_preserves (P := fun g : Hub => g.level.Inv) (f := h.handValve answers)
      (fun g c hg => hstep (add := fun x => { x with valve := true }) (fun _ => rfl) (fun x => x.any_clears.1) _ _ g hg) _
      (hstart ▸ hu)
  exact hstep (add := fun x => { x with chain := true }) (fun _ => rfl) (fun x => x.any_clears.2) _ _ _ hfold


/-! ## Chain S: the measured angles and the failures (R37, R142, R143) -/

/-- Under the failures handed so far, the first with its cause, a hub differs from the one before them in the axles, their
commands in the image and the event queues, as R37 has it. -/
structure Hub.FailedFrom (m : Hub) (o : Option FailCause) (g : Hub) : Prop where
  frame  : { g with
    steering := m.steering, link := { g.link with actuators := m.link.actuators }, events := m.events } = m
  axles  : ∀ x, g.axleSteer x = o.elim (m.axleSteer x) (m.axleSteer x).fail
  images : ∀ x, g.link.actuators.get x = { m.link.actuators.get x with
    image := if o.isSome = true ∧ (m.axleSteer x).mode ≠ some .failed then ⟨false, (m.axleSteer x).setpoint.getD 0⟩
      else (m.link.actuators.get x).image }

theorem Hub.FailedFrom.raise {m g : Hub} {o : Option FailCause} (hg : m.FailedFrom o g) (kind : EventKind) (subject : Nat)
    (value : Int) : m.FailedFrom o (g.raise kind subject value) := ⟨hg.frame, hg.axles, hg.images⟩

theorem Hub.FailedFrom.eq {m g : Hub} {o : Option FailCause} (hg : m.FailedFrom o g) : g = { m with
    steering := g.steering, link := { m.link with actuators := g.link.actuators }, events := g.events } :=
  (congrArg (fun f : Hub => { f with
    steering := g.steering, link := { f.link with actuators := g.link.actuators }, events := g.events }) hg.frame :)

theorem AxleSteer.fail_mode (cause : FailCause) (x : AxleSteer) : (x.fail cause).mode = some .failed := by
  unfold AxleSteer.fail
  split
  · assumption
  · rfl

/-- A failure of both axles behind another changes nothing (R37). -/
theorem Hub.failBoth_of_failed {g : Hub} (hg : ∀ x, (g.axleSteer x).mode = some .failed) (cause : FailCause) :
    g.failBoth cause = g := by
  rw [Hub.failBoth, Hub.failAxle, Hub.failAxle, if_pos (hg .a3), if_pos (hg .a4)]

/-- One axle's failure on the axles and actuators. -/
theorem Hub.failAxle_actuators (cause : FailCause) (t x : Trailing) (h : Hub) : (h.failAxle cause t).link.actuators.get x =
    { h.link.actuators.get x with
      image := if x = t ∧ (h.axleSteer x).mode ≠ some .failed then ⟨false, (h.axleSteer x).setpoint.getD 0⟩
        else (h.link.actuators.get x).image } := by
  unfold Hub.failAxle
  by_cases hf : (h.axleSteer t).mode = some .failed
  · rw [if_pos hf, if_neg fun hboth => hboth.2 (hboth.1 ▸ hf)]
  · rw [if_neg hf]
    simp only [Hub.writeSteer, Hub.writeActuator, Hub.onLink, PerTrailing.get_set]
    by_cases hx : x = t
    · subst hx
      rw [if_pos rfl, if_pos ⟨rfl, hf⟩, Hub.axleSteer_onAxleSteer, if_pos rfl]
      simp [Hub.onAxleSteer, Hub.onSteering]
    · rw [if_neg hx, if_neg fun hboth => hx hboth.1]
      rfl

/-- Beyond axles and actuators a failure changes nothing. -/
theorem Hub.failAxle_beyond (cause : FailCause) (t : Trailing) (u : Steering) (a : PerTrailing (Device SteerCmd Half)) (e : EventUnit)
    (h : Hub) : { h.failAxle cause t with
      steering := u, link := { (h.failAxle cause t).link with actuators := a }, events := e } =
    { h with steering := u, link := { h.link with actuators := a }, events := e } := by
  unfold Hub.failAxle
  split <;> rfl

theorem Hub.failedFrom_refl (m : Hub) : m.FailedFrom none m :=
  ⟨rfl, fun _ => rfl, fun x => by rw [if_neg fun hboth => Bool.noConfusion hboth.1]⟩

/-- The first failure takes both axles with its cause. -/
theorem Hub.failedFrom_failBoth {m g : Hub} (hg : m.FailedFrom none g) (cause : FailCause) :
    m.FailedFrom (some cause) (g.failBoth cause) := by
  have haxle (x : Trailing) : g.axleSteer x = m.axleSteer x := hg.axles x
  have hthird (x : Trailing) : (g.failAxle cause .a3).axleSteer x = if x = .a3 then (m.axleSteer .a3).fail cause else m.axleSteer x := by
    rw [Hub.failAxle_axleSteer, haxle, haxle]
  refine ⟨?_, fun x => ?_, fun x => ?_⟩
  · rw [Hub.failBoth, Hub.failAxle_beyond, Hub.failAxle_beyond]
    exact hg.frame
  · rw [Hub.failBoth, Hub.failAxle_axleSteer, hthird, hthird]
    cases x <;> rfl
  · have hactuator := hg.images x
    rw [if_neg fun hboth => Bool.noConfusion hboth.1] at hactuator
    rw [Hub.failBoth, Hub.failAxle_actuators, Hub.failAxle_actuators, hthird, haxle, hactuator]
    cases x <;> simp

/-- The hand-over of a fault of chain S (R143). -/
theorem Hub.FailedFrom.handFault {m g : Hub} {o : Option FailCause} (hg : m.FailedFrom o g) (value : Nat) (cause : FailCause)
    (old new : Bool) : m.FailedFrom (o.or (if new && !old then some cause else none))
      (g.handFault 3 value (Hub.failBoth cause) id old new) := by
  cases old <;> cases new
  case false.true =>
    have hraised := hg.raise .chainFault 3 value
    cases o with
    | none => exact Hub.failedFrom_failBoth hraised cause
    | some first =>
      have hfailed (x : Trailing) : ((g.raise .chainFault 3 value).axleSteer x).mode = some .failed := by
        rw [hraised.axles x]
        exact AxleSteer.fail_mode _ _
      have hsame := Hub.failBoth_of_failed hfailed cause
      exact (congrArg (fun f => m.FailedFrom (some first) f) hsame).mpr hraised
  all_goals exact (Option.or_none (o := o)).symm ▸ hg


/-- An axle at a delivered status word (R142). -/
def AxleSteer.taking (word : Option Half) (x : AxleSteer) : AxleSteer := { x with measured := (word.bind angleOf).or x.measured }

theorem Hub.takeAngle_axleSteer (t x : Trailing) (word : Option Half) (h : Hub) : (h.takeAngle t word).axleSteer x =
    if x = t then (h.axleSteer x).taking word else h.axleSteer x := by
  unfold Hub.takeAngle AxleSteer.taking
  cases word.bind angleOf with
  | none => exact (ite_self _).symm
  | some angle =>
    refine (Hub.axleSteer_onAxleSteer t x _ h).trans ?_
    split
    · next heq =>
      subst heq
      rfl
    · rfl

theorem Hub.takeAngle_beyond (t : Trailing) (word : Option Half) (u : Steering) (h : Hub) :
    { h.takeAngle t word with steering := u } = { h with steering := u } := by
  unfold Hub.takeAngle
  split <;> rfl

/-- The first of three failures in their order. -/
theorem FailCause.first_of_flags (o3 n3 o4 n4 oc nc : Bool) :
    ((none.or (if (n3 && !o3) = true then some FailCause.device else none)).or
      (if (n4 && !o4) = true then some .device else none)).or (if (nc && !oc) = true then some .chain else none) =
    if ((!o3 && n3) || ((!o4 && n4) || false)) = true then some .device
    else if (!oc && nc) = true then some .chain else none := by
  decide +revert

section
variable (h : Hub) (answers : PerTrailing (Option (DeviceAnswer SteerCmd Half)))

/-- Whether chain S's refresh is judged (R141). -/
def Hub.judgedS : Bool := Trailing.all.all fun t => (h.link.actuators.get t).lastSent.isSome

/-- The actuators after their chain's completion, before their owner acts (R140 to R142). -/
def Hub.actuatorsAnswered : PerTrailing (Device SteerCmd Half) :=
  .tab fun t => (h.link.actuators.get t).complete h.judgedS (fun w => (angleOf w).isSome) (answers.get t)

/-- Chain S after its completion (R141). -/
def Hub.chainSAnswered : ChainHold :=
  h.link.chainS.complete h.judgedS (Trailing.all.all fun t => !((h.actuatorsAnswered answers).get t).mismatch)

/-- The axles' measured angles taken, before any failure (R142). -/
def Hub.anglesTaken : Hub :=
  Trailing.all.foldl (fun g t => g.takeAngle t ((h.link.actuators.get t).delivered h.judgedS (answers.get t)))
    (h.onLink fun u => { u with actuators := h.actuatorsAnswered answers, chainS := h.chainSAnswered answers })

theorem Hub.anglesTaken_axle (x : Trailing) : (h.anglesTaken answers).axleSteer x =
    (h.axleSteer x).taking ((h.link.actuators.get x).delivered h.judgedS (answers.get x)) := by
  simp only [Hub.anglesTaken, Trailing.all, List.foldl_cons, List.foldl_nil, Hub.takeAngle_axleSteer]
  cases x <;> rfl

theorem Hub.anglesTaken_eq : h.anglesTaken answers = { h with
    steering := (h.anglesTaken answers).steering
    link := { h.link with actuators := h.actuatorsAnswered answers, chainS := h.chainSAnswered answers } } := by
  have hbeyond : { h.anglesTaken answers with steering := h.steering } =
      h.onLink fun u => { u with actuators := h.actuatorsAnswered answers, chainS := h.chainSAnswered answers } := by
    simp only [Hub.anglesTaken, Trailing.all, List.foldl_cons, List.foldl_nil, Hub.takeAngle_beyond]
    rfl
  exact (congrArg (fun f : Hub => { f with steering := (h.anglesTaken answers).steering }) hbeyond :)

/-- The cause with which chain S's completion fails the axles, if it does: a device's before the chain's (R143). -/
def Hub.causeS : Option FailCause :=
  if (Trailing.all.any fun x => !(h.link.actuators.get x).fault && ((h.actuatorsAnswered answers).get x).fault) = true then
    some .device
  else if !h.link.chainS.fault && (h.chainSAnswered answers).fault then some .chain
  else none

/-- The hand-over of chain S's faults behind the measured angles (R143). -/
def Hub.handChainS (g : Hub) : Hub :=
  (Trailing.all.foldl (fun g t => g.handFault 3 (deviceOf t) (Hub.failBoth .device) id (h.link.actuators.get t).fault
    ((h.actuatorsAnswered answers).get t).fault) g).handFault 3 0 (Hub.failBoth .chain) id h.link.chainS.fault
    (h.chainSAnswered answers).fault

theorem Hub.completeS_eq : h.completeS answers = h.handChainS answers (h.anglesTaken answers) := rfl

theorem Hub.completeS_failed : (h.anglesTaken answers).FailedFrom (h.causeS answers) (h.completeS answers) := by
  rw [Hub.completeS_eq]
  have hfailed := (((h.anglesTaken answers).failedFrom_refl.handFault (deviceOf .a3) .device (h.link.actuators.get .a3).fault
    ((h.actuatorsAnswered answers).get .a3).fault).handFault (deviceOf .a4) .device (h.link.actuators.get .a4).fault
    ((h.actuatorsAnswered answers).get .a4).fault).handFault 0 .chain h.link.chainS.fault (h.chainSAnswered answers).fault
  refine (congrArg (fun o => (h.anglesTaken answers).FailedFrom o (h.handChainS answers (h.anglesTaken answers))) ?_).mp hfailed
  exact FailCause.first_of_flags _ _ _ _ _ _

/-- The events of chain S's completion (R144). -/
theorem Hub.completeS_sends : Hub.Sends .chainFault
    (((Trailing.all.filter fun t => ((h.actuatorsAnswered answers).get t).fault && !(h.link.actuators.get t).fault).map
        fun t => ((3, (deviceOf t : Int)) : Nat × Int)) ++
      faultRaised 3 0 h.link.chainS.fault (h.chainSAnswered answers).fault) h (h.completeS answers) := by
  have hset (cause : FailCause) (g : Hub) : Hub.Sends .chainFault [] g (g.failBoth cause) := .silent (by simp) (by simp)
  have hmeasured : Hub.Sends .chainFault [] h (h.anglesTaken answers) := by
    rw [Hub.anglesTaken_eq]
    exact .silent rfl rfl
  rw [Hub.completeS_eq, ← flatMap_faultRaised]
  exact hmeasured.trans ((Hub.Sends.foldl (fun g t => Hub.handFault_sends (hset _) .refl _ _ g) Trailing.all _).trans
    (Hub.handFault_sends (hset _) .refl _ _ _))

end


/-! ## A completion's outcome -/

/-- A completion of a refresh in progress runs its chain's judgement (R140). -/
theorem exec_chainComplete {s : State} {answers : ChainAnswers} (hb : s.hub.chainBusy answers = true) :
    exec (.chainRefreshComplete answers) s = .next { s with hub := s.hub.chainComplete answers } :=
  congrArg Host.Outcome.next (if_pos hb)

/-- A valve after chain L's completion, but for its command in the image. -/
theorem Hub.completeL_valve (h : Hub) (answers : PerCircuit (Option (DeviceAnswer ValveCmd Bool))) (c : Circuit) :
    (h.completeL answers).link.valves.get c =
      { (h.valvesAnswered answers).get c with image := ((h.completeL answers).link.valves.get c).image } :=
  Link.valve_of_heard (h.completeL_heard answers) c

theorem Hub.completeL_chain (h : Hub) (answers : PerCircuit (Option (DeviceAnswer ValveCmd Bool))) :
    (h.completeL answers).link.chainL = h.chainLAnswered answers :=
  (congrArg Link.chainL (h.completeL_heard answers) :)

theorem Hub.completeL_fault (h : Hub) (answers : PerCircuit (Option (DeviceAnswer ValveCmd Bool))) (c : Circuit) :
    ((h.completeL answers).link.valves.get c).fault = ((h.valvesAnswered answers).get c).fault :=
  (congrArg Device.fault (h.completeL_valve answers c) :)

theorem Hub.completeL_mismatch (h : Hub) (answers : PerCircuit (Option (DeviceAnswer ValveCmd Bool))) (c : Circuit) :
    ((h.completeL answers).link.valves.get c).mismatch = ((h.valvesAnswered answers).get c).mismatch :=
  (congrArg Device.mismatch (h.completeL_valve answers c) :)

/-- A device's completion says nothing of its command in the image. -/
theorem Device.Completes.of_image {γ σ : Type} {p : Prop} {ok : σ → Bool} {answer : Option (DeviceAnswer γ σ)} {old new d : Device γ σ}
    (hd : Device.Completes p ok answer old d) (hn : new = { d with image := new.image }) : Device.Completes p ok answer old new := by
  rw [hn]
  exact ⟨hd.sent, hd.matched, hd.missed, hd.unjudged⟩

/-- What chain L's completion leaves of valves and chain, with its events (R140 to R144). -/
theorem Hub.completeL_spec (h : Hub) (answers : PerCircuit (Option (DeviceAnswer ValveCmd Bool))) :
    let judged := ∀ c, (h.link.valves.get c).lastSent ≠ none
    let new := (h.completeL answers).link.valves
    (∀ c, Device.Completes judged id (answers.get c) (h.link.valves.get c) (new.get c)) ∧
    ChainHold.Completes judged (∀ c, (new.get c).mismatch = false) h.link.chainL (h.completeL answers).link.chainL := by
  intro judged new
  have hjudged := all_sent_iff Circuit.mem_all fun c => h.link.valves.get c
  refine ⟨fun c => Device.Completes.of_image ?_ (h.completeL_valve answers c), ?_⟩
  · rw [Hub.valvesAnswered, PerCircuit.get_tab]
    exact Device.complete_completes hjudged id _ _
  · rw [Hub.completeL_chain]
    refine ChainHold.complete_completes hjudged ((all_clean_iff Circuit.mem_all _).trans (forall_congr' fun c => ?_)) _
    rw [h.completeL_mismatch answers c]

/-- An actuator after chain S's completion, but for its command in the image. -/
theorem Hub.completeS_actuator (h : Hub) (answers : PerTrailing (Option (DeviceAnswer SteerCmd Half))) (x : Trailing) :
    (h.completeS answers).link.actuators.get x =
      { (h.actuatorsAnswered answers).get x with image := ((h.completeS answers).link.actuators.get x).image } := by
  have himage := (h.completeS_failed answers).images x
  rw [Hub.anglesTaken_eq] at himage
  rw [himage]

/-- The link after chain S's completion. -/
theorem Hub.completeS_link (h : Hub) (answers : PerTrailing (Option (DeviceAnswer SteerCmd Half))) : (h.completeS answers).link =
    { h.link with actuators := (h.completeS answers).link.actuators, chainS := h.chainSAnswered answers } := by
  have heq := (h.completeS_failed answers).eq
  rw [Hub.anglesTaken_eq] at heq
  exact (congrArg Hub.link heq :)

theorem angleOf_isSome (w : Half) : (angleOf w).isSome = (decide (-2500 ≤ w.toInt) && decide (w.toInt ≤ 2500)) := by
  unfold angleOf
  by_cases h1 : -2500 ≤ w.toInt <;> by_cases h2 : w.toInt ≤ 2500 <;> simp [h1, h2]

/-- What chain S's completion leaves of actuators and chain (R140 to R142). -/
theorem Hub.completeS_spec (h : Hub) (answers : PerTrailing (Option (DeviceAnswer SteerCmd Half))) :
    let judged := ∀ x, (h.link.actuators.get x).lastSent ≠ none
    let new := (h.completeS answers).link.actuators
    (∀ x, Device.Completes judged (fun w => decide (-2500 ≤ w.toInt) && decide (w.toInt ≤ 2500)) (answers.get x)
      (h.link.actuators.get x) (new.get x)) ∧
    ChainHold.Completes judged (∀ x, (new.get x).mismatch = false) h.link.chainS (h.completeS answers).link.chainS := by
  intro judged new
  have hjudged := all_sent_iff Trailing.mem_all fun x => h.link.actuators.get x
  refine ⟨fun x => Device.Completes.of_image ?_ (h.completeS_actuator answers x), ?_⟩
  · rw [Hub.actuatorsAnswered, PerTrailing.get_tab, ← funext angleOf_isSome]
    exact Device.complete_completes hjudged _ _ _
  · rw [h.completeS_link]
    refine ChainHold.complete_completes hjudged ((all_clean_iff Trailing.mem_all _).trans (forall_congr' fun x => ?_)) _
    have hmismatch : (new.get x).mismatch = ((h.actuatorsAnswered answers).get x).mismatch :=
      (congrArg Device.mismatch (h.completeS_actuator answers x) :)
    rw [hmismatch]

/-- An axle's mode, setpoint, and command in the image after chain S's completion (R37). -/
theorem Hub.completeS_steer (h : Hub) (answers : PerTrailing (Option (DeviceAnswer SteerCmd Half))) (x : Trailing) :
    let taken := (h.axleSteer x).taking ((h.link.actuators.get x).delivered h.judgedS (answers.get x))
    (h.completeS answers).axleSteer x = (h.causeS answers).elim taken taken.fail ∧
    ((h.completeS answers).link.actuators.get x).image =
      if (h.causeS answers).isSome = true ∧ (h.axleSteer x).mode ≠ some .failed then ⟨false, (h.axleSteer x).setpoint.getD 0⟩
      else (h.link.actuators.get x).image := by
  intro taken
  have haxle := (h.completeS_failed answers).axles x
  have himage := congrArg Device.image ((h.completeS_failed answers).images x)
  rw [Hub.anglesTaken_axle] at haxle himage
  refine ⟨haxle, himage.trans ?_⟩
  have hsame : ((h.anglesTaken answers).link.actuators.get x).image = (h.link.actuators.get x).image := by
    rw [Hub.anglesTaken_eq]
    simp [Hub.actuatorsAnswered, Device.complete]
  rw [hsame]
  rfl

/-- An axle is FAILED after chain S's completion exactly where it was, or where a fault is handed over (R37). -/
theorem Hub.completeS_mode (h : Hub) (answers : PerTrailing (Option (DeviceAnswer SteerCmd Half))) (x : Trailing) :
    ((h.completeS answers).axleSteer x).mode = some .failed ↔
      (h.causeS answers).isSome = true ∨ (h.axleSteer x).mode = some .failed := by
  obtain ⟨haxle, -⟩ := h.completeS_steer answers x
  rw [haxle]
  cases h.causeS answers with
  | none => exact ⟨.inr, fun hor => hor.resolve_left nofun⟩
  | some cause => exact ⟨fun _ => .inl rfl, fun _ => AxleSteer.fail_mode _ _⟩


/-- Settles O52, chain by chain through what its completion leaves and raises. -/
theorem refreshAndCompletion : Obligations.RefreshAndCompletion := by
  refine ⟨fun s hdue => ?_, fun s answers hbusy => ?_, fun s answers hbusy => ?_, fun s answers hbusy => ?_, fun s answers hbusy => ?_⟩
  · exact ⟨_, refresh_sends s hdue, rfl, rfl, rfl, rfl, fun c => PerCircuit.get_map _ _ c, fun k => PerAxle.get_map _ _ k,
      fun x => PerTrailing.get_map _ _ x, fun j => PerJoint.get_map _ _ j, rfl, rfl, rfl, rfl⟩
  · intro old judged
    obtain ⟨hdevices, hchain⟩ := s.hub.completeL_spec answers
    refine ⟨_, exec_chainComplete hbusy, rfl, hdevices, hchain, s.hub.completeL_shown answers, ?_⟩
    refine ((s.hub.completeL_sends answers).congr ?_).raises
    simp only [Hub.chainComplete, Hub.completeL_fault, Hub.completeL_chain]
    rfl
  · intro old judged
    obtain ⟨hframe, hsends⟩ := s.hub.completeB_spec answers
    have hjudged := all_sent_iff Axle.mem_all fun k => old.get k
    have hdevices := (congrArg (fun g : Hub => g.link.modulators) hframe :)
    have hchain := (congrArg (fun g : Hub => g.link.chainB) hframe :)
    dsimp only at hdevices hchain
    refine ⟨_, exec_chainComplete (answers := .b answers) hbusy, rfl, ?_⟩
    simp only [Hub.chainComplete]
    refine ⟨?_, ?_, fun k => ?_, ?_, ?_, fun kind hk => ?_⟩
    · rw [hframe]
    · rw [hframe]
    · rw [hdevices, PerAxle.get_tab]
      exact ⟨rfl, Device.complete_completes hjudged _ _ _⟩
    · rw [hdevices, hchain]
      exact ChainHold.complete_completes hjudged (all_clean_iff Axle.mem_all _) _
    · refine (hsends.congr ?_).raises
      simp only [hdevices, hchain]
      rfl
    · exact (Hub.Sends.of_emits (Hub.completeB_emits answers s.hub) (by simpa using hk)).raises
  · intro old judged
    obtain ⟨hdevices, hchain⟩ := s.hub.completeS_spec answers
    refine ⟨_, exec_chainComplete (answers := .s answers) hbusy, rfl, ?_⟩
    simp only [Hub.chainComplete]
    refine ⟨?_, hdevices, fun x => ?_, hchain, ?_, fun kind hk => ?_⟩
    · exact (s.hub.completeS_link answers).trans (by rw [s.hub.completeS_link answers])
    · obtain ⟨-, himage⟩ := s.hub.completeS_steer answers x
      rw [himage]
      refine if_congr ?_ rfl rfl
      rw [Hub.completeS_mode]
      exact ⟨fun hboth => ⟨.inl hboth.1, hboth.2⟩, fun hboth => ⟨hboth.1.resolve_right hboth.2, hboth.2⟩⟩
    · have hfault (x : Trailing) : ((s.hub.completeS answers).link.actuators.get x).fault =
          ((s.hub.actuatorsAnswered answers).get x).fault :=
        (congrArg Device.fault (s.hub.completeS_actuator answers x) :)
      have hchainS := (congrArg Link.chainS (s.hub.completeS_link answers) :)
      refine ((s.hub.completeS_sends answers).congr ?_).raises
      simp only [hfault, hchainS, Trailing.all, List.filter_cons, List.filter_nil]
      congr 1
      split <;> split <;> rfl
    · exact (Hub.Sends.of_emits (Hub.completeS_emits answers s.hub) (by simpa using hk)).raises
  · intro old judged
    obtain ⟨hframe, hsends⟩ := s.hub.completeJ_spec answers
    have hjudged := all_sent_iff Joint.mem_all fun k => old.get k
    have hdevices := (congrArg (fun g : Hub => g.link.dampers) hframe :)
    have hchain := (congrArg (fun g : Hub => g.link.chainJ) hframe :)
    dsimp only at hdevices hchain
    refine ⟨_, exec_chainComplete (answers := .j answers) hbusy, rfl, ?_⟩
    simp only [Hub.chainComplete]
    refine ⟨?_, ?_, fun k => ?_, ?_, ?_, fun kind hk => ?_⟩
    · rw [hframe]
    · rw [hframe]
    · rw [hdevices, PerJoint.get_tab]
      exact ⟨rfl, Device.complete_completes hjudged _ _ _⟩
    · rw [hdevices, hchain]
      exact ChainHold.complete_completes hjudged (all_clean_iff Joint.mem_all _) _
    · refine (hsends.congr ?_).raises
      simp only [hdevices, hchain]
      rfl
    · exact (Hub.Sends.of_emits (Hub.completeJ_emits answers s.hub) (by simpa using hk)).raises

/-! ## What the owners are told (R143) -/

/-- Beyond kneel and levelling unit chain L's completion changes the move permit and the activity freezes alone. -/
theorem Hub.completeL_others (h : Hub) (answers : PerCircuit (Option (DeviceAnswer ValveCmd Bool))) :
    (h.completeL answers).doors = { h.doors with permit := (h.completeL answers).doors.permit } ∧
    (h.completeL answers).brake = { h.brake with axles := (h.completeL answers).brake.axles } := by
  refine Hub.completeL_preserves (P := fun g : Hub => g.doors = { h.doors with permit := g.doors.permit } ∧
    g.brake = { h.brake with axles := g.brake.axles }) answers (fun _ _ => ⟨rfl, rfl⟩) (fun cs add value g hg => ?_)
    (fun cs drop g hg => by simpa using hg)
  obtain ⟨hdoors, hbrake⟩ := hg
  have hpermit := Hub.exclude_doors cs add (g.raise .chainFault 1 value)
  have haxles := Brake.eq_of_base (Hub.exclude_base cs add (g.raise .chainFault 1 value))
  exact ⟨hpermit.trans (congrArg (fun u : DoorUnit => { u with
      permit := ((g.raise .chainFault 1 value).exclude cs add).doors.permit }) hdoors :),
    haxles.trans (congrArg (fun u : Brake => { u with
      axles := ((g.raise .chainFault 1 value).exclude cs add).brake.axles }) hbrake :)⟩

/-- The link after chain L's completion: valves, chain and lines. -/
theorem Hub.completeL_link (h : Hub) (answers : PerCircuit (Option (DeviceAnswer ValveCmd Bool))) :
    (h.completeL answers).link = { h.link with
      valves := (h.completeL answers).link.valves, chainL := (h.completeL answers).link.chainL
      lines := (h.completeL answers).link.lines } := by
  have heq := Link.eq_of_rest (Link.rest_of_heard (h.completeL_heard answers))
  generalize (h.completeL answers).link = u at heq ⊢
  rw [heq]

/-- A failure leaves the measured angle and the setpoint. -/
theorem AxleSteer.fail_keeps (cause : FailCause) (x : AxleSteer) :
    (x.fail cause).measured = x.measured ∧ (x.fail cause).setpoint = x.setpoint ∧
    (x.mode ≠ some .failed → (x.fail cause).cause = some cause ∧ (x.fail cause).enable = false) ∧
    (x.mode = some .failed → (x.fail cause).cause = x.cause) := by
  unfold AxleSteer.fail
  split
  · next hf => exact ⟨rfl, rfl, fun hn => absurd hf hn, fun _ => rfl⟩
  · next hn => exact ⟨rfl, rfl, fun _ => ⟨rfl, rfl⟩, fun hf => absurd hf hn⟩

/-- The angle an axle measures after chain S's completion (R142). -/
theorem Hub.completeS_measured (h : Hub) (answers : PerTrailing (Option (DeviceAnswer SteerCmd Half))) (x : Trailing) :
    ((h.completeS answers).axleSteer x).measured =
      (((h.link.actuators.get x).delivered h.judgedS (answers.get x)).bind angleOf).or (h.axleSteer x).measured := by
  obtain ⟨haxle, -⟩ := h.completeS_steer answers x
  rw [haxle]
  cases h.causeS answers with
  | none => rfl
  | some cause =>
    obtain ⟨hmeasured, -⟩ := AxleSteer.fail_keeps cause ((h.axleSteer x).taking
      ((h.link.actuators.get x).delivered h.judgedS (answers.get x)))
    exact hmeasured

/-- A delivered status word within its range is measured; without one the angle stays (R142). -/
theorem Hub.completeS_angle (h : Hub) (answers : PerTrailing (Option (DeviceAnswer SteerCmd Half))) (x : Trailing) :
    let judged := ∀ x, (h.link.actuators.get x).lastSent ≠ none
    (∀ a, answers.get x = some a → ((h.link.actuators.get x).lastSent = some a.echo ∨ ¬judged) →
      -2500 ≤ a.status.toInt → a.status.toInt ≤ 2500 → ((h.completeS answers).axleSteer x).measured = some a.status.toInt) ∧
    ((∀ a, answers.get x = some a → judged ∧ (h.link.actuators.get x).lastSent ≠ some a.echo) →
      ((h.completeS answers).axleSteer x).measured = (h.axleSteer x).measured) := by
  intro judged
  have hjudged : h.judgedS = true ↔ judged := all_sent_iff Trailing.mem_all fun x => h.link.actuators.get x
  rw [Hub.completeS_measured]
  constructor
  · intro a ha hor hlow hhigh
    have hdelivered : (h.link.actuators.get x).delivered h.judgedS (some a) = some a.status := by
      rcases hor with he | hj
      · obtain ⟨-, hd⟩ := Device.delivered_echoed h.judgedS he
        exact hd
      · exact if_pos (.inr (Bool.eq_false_iff.mpr fun hb => hj (hjudged.mp hb)))
    rw [ha, hdelivered, Option.bind_some, angleOf, if_pos ⟨hlow, hhigh⟩]
    rfl
  · intro hnone
    have hdelivered : (h.link.actuators.get x).delivered h.judgedS (answers.get x) = none := by
      cases ha : answers.get x with
      | none =>
        unfold Device.delivered
        split <;> rfl
      | some a =>
        obtain ⟨hj, hne⟩ := hnone a ha
        rw [hjudged.mpr hj]
        obtain ⟨-, hd⟩ := Device.delivered_unechoed (answer := some a) fun b hb => (Option.some.inj hb) ▸ hne
        exact hd
    rw [hdelivered]
    rfl

/-- The fault flags and chain state that chain S's completion leaves. -/
theorem Hub.completeS_faults (h : Hub) (answers : PerTrailing (Option (DeviceAnswer SteerCmd Half))) :
    (∀ x, ((h.completeS answers).link.actuators.get x).fault = ((h.actuatorsAnswered answers).get x).fault) ∧
    (h.completeS answers).link.chainS = h.chainSAnswered answers :=
  ⟨fun x => (congrArg Device.fault (h.completeS_actuator answers x) :), (congrArg Link.chainS (h.completeS_link answers) :)⟩

/-- What a handed fault leaves of an axle (R37). -/
theorem Hub.completeS_fails {h : Hub} {answers : PerTrailing (Option (DeviceAnswer SteerCmd Half))} {cause : FailCause}
    (hc : h.causeS answers = some cause) (x : Trailing) :
    ((h.completeS answers).axleSteer x).mode = some .failed ∧
    ((h.completeS answers).axleSteer x).cause =
      (if (h.axleSteer x).mode = some .failed then (h.axleSteer x).cause else some cause) ∧
    ((h.completeS answers).axleSteer x).setpoint = (h.axleSteer x).setpoint ∧
    ((h.axleSteer x).mode ≠ some .failed → ((h.completeS answers).axleSteer x).enable = false) := by
  obtain ⟨haxle, -⟩ := h.completeS_steer answers x
  rw [hc] at haxle
  obtain ⟨-, hsetpoint, hfresh, hfailed⟩ := AxleSteer.fail_keeps cause ((h.axleSteer x).taking
    ((h.link.actuators.get x).delivered h.judgedS (answers.get x)))
  rw [haxle]
  refine ⟨AxleSteer.fail_mode _ _, ?_, hsetpoint, fun hn => (hfresh hn).2⟩
  split
  · next hf => exact hfailed hf
  · next hn => exact (hfresh hn).1

theorem Causes.any_of_valve {x : Causes} (hx : x.valve = true) : x.any = true := by simp [Causes.any, hx]
theorem Causes.any_of_chain {x : Causes} (hx : x.chain = true) : x.any = true := by simp [Causes.any, hx]

/-- Settles O53, by the faults each chain's completion hands to its owner. -/
theorem chainFaultsReachTheirOwners : Obligations.ChainFaultsReachTheirOwners := by
  refine ⟨fun s answers hbusy hu => ?_, fun s answers hbusy => ?_, fun s answers hbusy => ?_⟩
  · have hinv := Hub.completeL_inv answers hu
    have hcauses := s.hub.completeL_causes answers
    simp only [← Hub.completeL_fault, ← Hub.completeL_chain] at hcauses
    obtain ⟨hdoors, hbrake⟩ := s.hub.completeL_others answers
    have hchain : (s.hub.completeL answers).link.chainL.busy = false := by
      rw [Hub.completeL_chain]
      rfl
    refine ⟨_, exec_chainComplete (answers := .l answers) hbusy, rfl, ?_⟩
    simp only [Hub.chainComplete]
    refine ⟨hchain, fun c hold hnew => ?_, fun hold hnew c => ?_, fun hold hnew c => ?_, hcauses, hdoors, hbrake,
      s.hub.completeL_link answers, by simp⟩
    · have hvalve : (((s.hub.completeL answers).circuit c).causes).valve = true := by
        rw [hcauses c, hold, hnew]
        rfl
      exact ⟨hinv.excluded c (Causes.any_of_valve hvalve), hvalve⟩
    · have hall : (((s.hub.completeL answers).circuit c).causes).chain = true := by
        rw [hcauses c, hold, hnew]
        rfl
      exact ⟨hinv.excluded c (Causes.any_of_chain hall), hall⟩
    · rw [hcauses c, hold, hnew]
      rfl
  · intro old judged
    obtain ⟨hfaults, hchain⟩ := s.hub.completeS_faults answers
    refine ⟨_, exec_chainComplete (answers := .s answers) hbusy, rfl, ?_⟩
    simp only [Hub.chainComplete]
    refine ⟨?_, ?_, fun x a => (s.hub.completeS_angle answers x).1 a, fun x => (s.hub.completeS_angle answers x).2, ?_⟩
    · have heq := (s.hub.completeS_failed answers).eq
      rw [Hub.anglesTaken_eq] at heq
      generalize s.hub.completeS answers = g at heq ⊢
      rw [heq]
    · rw [hchain]
      rfl
    · simp only [hfaults, hchain]
      refine ⟨fun hor x => ?_, fun hdevice hstate x => ?_⟩
      · have hcause : s.hub.causeS answers = some
            (if (Trailing.all.any fun x => !(old.get x).fault && ((s.hub.actuatorsAnswered answers).get x).fault) = true
              then .device else .chain) := by
          unfold Hub.causeS
          by_cases hd : (Trailing.all.any fun x => !(old.get x).fault && ((s.hub.actuatorsAnswered answers).get x).fault) = true
          · rw [if_pos hd, if_pos hd]
          · obtain ⟨hold, hnew⟩ := hor.resolve_left hd
            rw [if_neg hd, if_neg hd, hold, hnew]
            rfl
        exact Hub.completeS_fails hcause x
      · have hcause : s.hub.causeS answers = none := by
          unfold Hub.causeS
          rw [if_neg, if_neg]
          · intro hboth
            rw [Bool.and_eq_true, Bool.not_eq_true'] at hboth
            exact Bool.noConfusion (hboth.1.symm.trans (hstate hboth.2))
          · intro hany
            obtain ⟨y, -, hy⟩ := List.any_eq_true.mp hany
            rw [Bool.and_eq_true, Bool.not_eq_true'] at hy
            exact Bool.noConfusion (hy.1.symm.trans (hdevice y hy.2))
        obtain ⟨haxle, -⟩ := s.hub.completeS_steer answers x
        rw [haxle, hcause]
        exact ⟨rfl, rfl⟩
  · obtain ⟨hframe, -⟩ := s.hub.completeJ_spec answers
    refine ⟨_, exec_chainComplete (answers := .j answers) hbusy, rfl, ?_⟩
    simp only [Hub.chainComplete]
    refine ⟨?_, ?_, ?_, fun j => ?_⟩
    · rw [hframe]
    · rw [hframe]
    · rw [hframe]
      rfl
    · rw [hframe]
      simp [Device.complete]


end Sys2Proof.Machine
end

section
/-! PROOFS. The stages of a levelling period, circuit by circuit: what each makes of a circuit, of the slots and of the
queue. -/

namespace Sys2Proof.Machine

/-! ## What the stages read and leave -/

/-- The levelling unit without circuits, slots and queue. -/
def Levelling.still (u : Levelling) : Levelling := { u with circuits := .fill .atReset, slots := .fill none, queue := [] }

/-- What the stages of a period read beside the circuit they work on, and leave (R93). -/
structure Hub.SceneOf (b g : Hub) : Prop where
  kneel   : g.kneel = b.kneel
  store   : g.store = b.store
  sensing : g.sensing = b.sensing
  base    : g.brake.base = b.brake.base
  still   : g.level.still = b.level.still

namespace Hub.SceneOf
variable {b g f : Hub}

theorem refl (b : Hub) : b.SceneOf b := ⟨rfl, rfl, rfl, rfl, rfl⟩

theorem trans (hg : b.SceneOf g) (gf : g.SceneOf f) : b.SceneOf f :=
  ⟨gf.kneel.trans hg.kneel, gf.store.trans hg.store, gf.sensing.trans hg.sensing, gf.base.trans hg.base, gf.still.trans hg.still⟩

theorem item (hg : b.SceneOf g) (k : SectorId) (n : Nat) : g.item k n = b.item k n := by rw [Hub.item, Hub.item, hg.store]

theorem inScope (hg : b.SceneOf g) (c : Circuit) : g.inScope c = b.inScope c := by
  simp only [Hub.inScope, Hub.onDoorSide, Hub.sideLeft, Hub.scopeSide, hg.item]

theorem onDoorSide (hg : b.SceneOf g) (c : Circuit) : g.onDoorSide c = b.onDoorSide c := by
  simp only [Hub.onDoorSide, Hub.sideLeft, hg.item]

theorem band (hg : b.SceneOf g) (x : CircuitLevel) : g.band x = b.band x := by
  simp only [Hub.band, Hub.dbKneel, Hub.dbRide, hg.item]

theorem standing (hg : b.SceneOf g) : g.standing = b.standing := by rw [Hub.standing, hg.sensing, Hub.standing]

theorem decel (hg : b.SceneOf g) : g.brake.decel = b.brake.decel :=
  show g.brake.base.decel = b.brake.base.decel from congrArg Brake.decel hg.base

theorem mismatch (hg : b.SceneOf g) : g.level.mismatch = b.level.mismatch := (congrArg Levelling.mismatch hg.still :)
theorem cut (hg : b.SceneOf g) : g.level.cut = b.level.cut := (congrArg Levelling.cut hg.still :)
theorem cutCause (hg : b.SceneOf g) : g.level.cutCause = b.level.cutCause := (congrArg Levelling.cutCause hg.still :)
theorem periods (hg : b.SceneOf g) : g.level.periods = b.level.periods := (congrArg Levelling.periods hg.still :)
theorem sections (hg : b.SceneOf g) : g.level.front = b.level.front ∧ g.level.middle = b.level.middle ∧
    g.level.rear = b.level.rear :=
  ⟨(congrArg Levelling.front hg.still :), (congrArg Levelling.middle hg.still :), (congrArg Levelling.rear hg.still :)⟩
theorem grants (hg : b.SceneOf g) : g.level.grants = b.level.grants := (congrArg Levelling.grants hg.still :)

theorem standsLower (hg : b.SceneOf g) (c : Circuit) : g.standsLower c = b.standsLower c := by
  have hmis : g.hmis = b.hmis := hg.item ..
  have hsection : g.level.section c = b.level.section c := (congrArg (fun u : Levelling => u.section c) hg.still :)
  have hnear : g.level.neighbours c = b.level.neighbours c := (congrArg (fun u : Levelling => u.neighbours c) hg.still :)
  rw [Hub.standsLower, hmis, hsection, hnear, Hub.standsLower]

theorem standsHigher (hg : b.SceneOf g) (c : Circuit) : g.standsHigher c = b.standsHigher c := by
  have hmis : g.hmis = b.hmis := hg.item ..
  have hsection : g.level.section c = b.level.section c := (congrArg (fun u : Levelling => u.section c) hg.still :)
  have hnear : g.level.neighbours c = b.level.neighbours c := (congrArg (fun u : Levelling => u.neighbours c) hg.still :)
  rw [Hub.standsHigher, hmis, hsection, hnear, Hub.standsHigher]

end Hub.SceneOf

theorem Hub.sceneOf_onCircuit (c : Circuit) (u : CircuitLevel → CircuitLevel) (h : Hub) : h.SceneOf (h.onCircuit c u) :=
  ⟨rfl, rfl, rfl, rfl, rfl⟩

theorem Hub.sceneOf_setAction (c : Circuit) (a : Action) (h : Hub) : h.SceneOf (h.setAction c a) := by
  refine ⟨by simp, by simp, by simp, by simp, ?_⟩
  rw [Hub.setAction_level]
  rfl

theorem Hub.sceneOf_toHold (c : Circuit) (h : Hub) : h.SceneOf (h.toHold c) :=
  (show h.SceneOf (h.drop c) from ⟨rfl, rfl, rfl, rfl, rfl⟩).trans (Hub.sceneOf_setAction c .hold (h.drop c))

/-! ## One circuit's work at a stage -/

/-- A circuit leaves an action for HOLD (R93). -/
def CircuitLevel.leaves (x y : CircuitLevel) : Bool := x.action.runs && y.action == .hold

/-- One circuit becomes `y`; where it leaves an action for HOLD it leaves its slot and its entry too (R95, R101). -/
structure Hub.Touch (c : Circuit) (y : CircuitLevel) (h g : Hub) : Prop where
  scene   : h.SceneOf g
  circuit : ∀ d, g.circuit d = if d = c then y else h.circuit d
  slots   : g.level.slots = h.level.slots.map fun x => x.filter fun s => !(s.circuit == c && (h.circuit c).leaves y)
  queue   : g.level.queue = h.level.queue.filter fun e => !(e.circuit == c && (h.circuit c).leaves y)

theorem PerSlot.map_filter_true (v : PerSlot (Option HeldSlot)) : (v.map fun x => x.filter fun _ => true) = v := by
  refine PerSlot.ext_get fun i => ?_
  rw [PerSlot.get_map]
  cases v.get i <;> rfl

/-- A circuit that leaves no action keeps its slot and its entry. -/
theorem Hub.touch_of_kept {c : Circuit} {y : CircuitLevel} {h g : Hub} (hs : h.SceneOf g)
    (hc : ∀ d, g.circuit d = if d = c then y else h.circuit d) (hslots : g.level.slots = h.level.slots)
    (hqueue : g.level.queue = h.level.queue) (hl : (h.circuit c).leaves y = false) : h.Touch c y g := by
  refine ⟨hs, hc, ?_, ?_⟩
  · simp only [hl, Bool.and_false, Bool.not_false, PerSlot.map_filter_true, hslots]
  · simp only [hl, Bool.and_false, Bool.not_false, List.filter_true, hqueue]

theorem CircuitLevel.leaves_of_same {x y : CircuitLevel} (ha : y.action = x.action) : x.leaves y = false := by
  rw [CircuitLevel.leaves, ha]
  cases x.action <;> rfl

theorem Hub.touch_refl (c : Circuit) (h : Hub) : h.Touch c (h.circuit c) h :=
  Hub.touch_of_kept (.refl h) (fun d => by split <;> simp_all) rfl rfl (CircuitLevel.leaves_of_same rfl)

theorem Hub.touch_onCircuit {c : Circuit} {u : CircuitLevel → CircuitLevel} {h : Hub}
    (hl : (h.circuit c).leaves (u (h.circuit c)) = false) : h.Touch c (u (h.circuit c)) (h.onCircuit c u) :=
  Hub.touch_of_kept (Hub.sceneOf_onCircuit c u h) (fun d => Hub.circuit_onCircuit c d u h) rfl rfl hl

/-- A circuit returns from an action to HOLD. -/
theorem Hub.touch_leave {c : Circuit} {h : Hub} (hr : (h.circuit c).action.runs = true) :
    h.Touch c { h.circuit c with action := .hold } (h.toHold c) := by
  have hl : (h.circuit c).leaves { h.circuit c with action := .hold } = true := by
    rw [CircuitLevel.leaves, hr]
    rfl
  have hlevel : (h.toHold c).level.slots = (h.drop c).level.slots ∧ (h.toHold c).level.queue = (h.drop c).level.queue := by
    rw [Hub.toHold, Hub.setAction_level]
    exact ⟨rfl, rfl⟩
  refine ⟨Hub.sceneOf_toHold c h, fun d => Hub.setAction_circuit c .hold (h.drop c) d, ?_, ?_⟩
  · simp only [hl, Bool.and_true]
    exact hlevel.1
  · simp only [hl, Bool.and_true]
    exact hlevel.2

/-- A circuit returns from an action to HOLD, with a hold reason. -/
theorem Hub.touch_pause {c : Circuit} {h : Hub} (hr : (h.circuit c).action.runs = true) (r : HoldReason) :
    h.Touch c { h.circuit c with action := .hold, reason := r } ((h.toHold c).onCircuit c fun x => { x with reason := r }) := by
  obtain ⟨hscene, hcircuit, hslots, hqueue⟩ := Hub.touch_leave hr
  refine ⟨hscene.trans (Hub.sceneOf_onCircuit ..), fun d => ?_, hslots, hqueue⟩
  rw [Hub.circuit_onCircuit, hcircuit, hcircuit, if_pos rfl]
  split <;> rfl

/-- Slots and queue without the circuits that left an action. -/
structure Hub.Left (p : Circuit → Bool) (h g : Hub) : Prop where
  scene : h.SceneOf g
  slots : g.level.slots = h.level.slots.map fun x => x.filter fun s => !p s.circuit
  queue : g.level.queue = h.level.queue.filter fun e => !p e.circuit

theorem Hub.Left.trans {p q : Circuit → Bool} {h g f : Hub} (hg : h.Left p g) (gf : g.Left q f) : h.Left (fun c => p c || q c) f := by
  refine ⟨hg.scene.trans gf.scene, ?_, ?_⟩
  · rw [gf.slots, hg.slots]
    refine PerSlot.ext_get fun i => ?_
    simp only [PerSlot.get_map, Option.filter_filter, Bool.not_or]
  · rw [gf.queue, hg.queue, List.filter_filter]
    congr 1
    funext e
    simp [Bool.and_comm]

theorem Hub.Left.congr {p q : Circuit → Bool} {h g : Hub} (hg : h.Left p g) (hpq : ∀ c, p c = q c) : h.Left q g :=
  funext hpq ▸ hg

/-- A stage works on every circuit in turn, on each by itself. -/
theorem Hub.foldl_touch {b : Hub} {f : Hub → Circuit → Hub} {φ : Circuit → CircuitLevel → CircuitLevel}
    (hf : ∀ g c, b.SceneOf g → g.Touch c (φ c (g.circuit c)) (f g c)) {l : List Circuit} (hn : l.Nodup) {h : Hub}
    (hb : b.SceneOf h) : h.Left (fun c => decide (c ∈ l) && (h.circuit c).leaves (φ c (h.circuit c))) (l.foldl f h) ∧
      ∀ c, (l.foldl f h).circuit c = if c ∈ l then φ c (h.circuit c) else h.circuit c := by
  induction l generalizing h with
  | nil =>
    refine ⟨⟨.refl h, ?_, ?_⟩, fun _ => rfl⟩
    · simp [PerSlot.map_filter_true]
    · simp
  | cons d l ih =>
    obtain ⟨hd, hl⟩ := List.nodup_cons.mp hn
    obtain ⟨hscene, hcircuit, hslots, hqueue⟩ := hf h d hb
    obtain ⟨hleft, hcircuits⟩ := ih hl (hb.trans hscene)
    rw [List.foldl_cons]
    have hfirst : h.Left (fun c => c == d && (h.circuit d).leaves (φ d (h.circuit d))) (f h d) := ⟨hscene, hslots, hqueue⟩
    refine ⟨(hfirst.trans hleft).congr fun c => ?_, fun c => ?_⟩
    · rw [hcircuit]
      by_cases hc : c = d
      · subst hc
        simp [hd]
      · simp [hc]
    · rw [hcircuits, hcircuit]
      by_cases hc : c = d
      · subst hc
        simp [hd]
      · simp [hc]

/-- A stage over all circuits. -/
theorem Hub.stage_touch {b : Hub} {f : Hub → Circuit → Hub} {φ : Circuit → CircuitLevel → CircuitLevel}
    (hf : ∀ g c, b.SceneOf g → g.Touch c (φ c (g.circuit c)) (f g c)) {h : Hub} (hb : b.SceneOf h) :
    h.Left (fun c => (h.circuit c).leaves (φ c (h.circuit c))) (Circuit.all.foldl f h) ∧
      ∀ c, (Circuit.all.foldl f h).circuit c = φ c (h.circuit c) := by
  obtain ⟨hleft, hcircuit⟩ := Hub.foldl_touch hf (l := Circuit.all) (by decide) hb
  refine ⟨hleft.congr fun c => ?_, fun c => ?_⟩
  · simp
  · rw [hcircuit, if_pos (Circuit.mem_all c)]

/-! ## What each stage makes of a circuit -/

/-- Stage 2 (R104). -/
def Hub.exited (b : Hub) (c : Circuit) (x : CircuitLevel) : CircuitLevel :=
  if x.action = .excluded ∧ x.causes.any = false then { x with reason := b.exitReason c, count := 0, action := .hold } else x

/-- The end of a mismatch pause (R101). -/
def Hub.pauseEnded (b : Hub) (c : Circuit) (x : CircuitLevel) : CircuitLevel :=
  if (x.reason = .mismatchVent ∧ (b.level.mismatch && b.standsLower c) = false) ∨
      (x.reason = .mismatchFill ∧ (b.level.mismatch && b.standsHigher c) = false) then { x with reason := .none }
  else x

/-- The deviation of a circuit in HOLD with hold reason NONE (R94). -/
def CircuitLevel.deviation (band : Int) (x : CircuitLevel) : Option Deviation :=
  if x.action = .hold ∧ x.reason = .none then x.error.bind (deviationOf band) else none

/-- A circuit vents, or wants to (R101). -/
def Hub.wantsVent (b : Hub) (x : CircuitLevel) : Bool := x.action == .vent || x.deviation (b.band x) == some .high

/-- A circuit fills, or waits or wants to (R101). -/
def Hub.wantsFill (b : Hub) (x : CircuitLevel) : Bool :=
  x.action == .fill || x.action == .fillWait || x.deviation (b.band x) == some .low

/-- The mismatch hold (R101). -/
def Hub.mismatched (b : Hub) (c : Circuit) (x : CircuitLevel) : CircuitLevel :=
  if (b.level.mismatch && b.onDoorSide c && b.wantsVent x && b.standsLower c) = true then
    { x with action := .hold, reason := .mismatchVent }
  else if (b.level.mismatch && b.onDoorSide c && b.wantsFill x && b.standsHigher c) = true then
    { x with action := .hold, reason := .mismatchFill }
  else x

/-- The stops of waiting circuits (R95). -/
def Hub.waitStopped (b : Hub) (x : CircuitLevel) : CircuitLevel :=
  if x.action = .fillWait ∧ b.fillDone x = true then { x with action := .hold } else x

/-- The stops of running actions (R95). -/
def Hub.runStopped (b : Hub) (x : CircuitLevel) : CircuitLevel :=
  if (x.action = .fill ∧ b.fillDone x = true) ∨ (x.action = .vent ∧ b.ventDone x = true) then { x with action := .hold } else x

theorem Hub.SceneOf.done {b g : Hub} (hg : b.SceneOf g) (x : CircuitLevel) :
    g.fillDone x = b.fillDone x ∧ g.ventDone x = b.ventDone x := by
  have hhalf : g.halfBand x = b.halfBand x := by rw [Hub.halfBand, hg.band, Hub.halfBand]
  exact ⟨by rw [Hub.fillDone, hhalf, Hub.fillDone], by rw [Hub.ventDone, hhalf, Hub.ventDone]⟩

theorem Hub.touch_exitExcluded {b g : Hub} (hg : b.SceneOf g) (c : Circuit) :
    g.Touch c (b.exited c (g.circuit c)) (g.exitExcluded c) := by
  unfold Hub.exitExcluded Hub.exited
  dsimp only
  split
  · next hx =>
    have hreason : g.exitReason c = b.exitReason c := by
      rw [Hub.exitReason, hg.kneel, hg.inScope, Hub.exitReason]
    rw [hreason]
    generalize hstep : (g.onCircuit c fun x => { x with reason := b.exitReason c, count := 0 }) = step
    have hcircuit (d : Circuit) : step.circuit d =
        if d = c then { g.circuit c with reason := b.exitReason c, count := 0 } else g.circuit d := by
      rw [← hstep]
      exact Hub.circuit_onCircuit ..
    have hlevel : (step.setAction c .hold).level.slots = g.level.slots ∧ (step.setAction c .hold).level.queue = g.level.queue := by
      rw [Hub.setAction_level, ← hstep]
      exact ⟨rfl, rfl⟩
    refine Hub.touch_of_kept ?_ (fun d => ?_) hlevel.1 hlevel.2 ?_
    · rw [← hstep]
      exact (Hub.sceneOf_onCircuit ..).trans (Hub.sceneOf_setAction ..)
    · rw [Hub.setAction_circuit, hcircuit, hcircuit, if_pos rfl]
      split <;> rfl
    · rw [CircuitLevel.leaves, hx.1]
      rfl
  · exact Hub.touch_refl c g

theorem Hub.touch_endPause {b g : Hub} (hg : b.SceneOf g) (c : Circuit) :
    g.Touch c (b.pauseEnded c (g.circuit c)) (g.endPause c) := by
  have hends : g.endPause c = if ((g.circuit c).reason = .mismatchVent ∧ (b.level.mismatch && b.standsLower c) = false) ∨
      ((g.circuit c).reason = .mismatchFill ∧ (b.level.mismatch && b.standsHigher c) = false) then
        g.onCircuit c fun x => { x with reason := .none } else g := by
    unfold Hub.endPause
    rw [hg.mismatch, hg.standsLower, hg.standsHigher]
    cases (g.circuit c).reason <;> simp only [Bool.not_eq_true', reduceCtorEq, false_and, true_and, or_false, false_or]
  rw [hends, Hub.pauseEnded]
  split
  · exact Hub.touch_onCircuit (u := fun x => { x with reason := .none }) (CircuitLevel.leaves_of_same rfl)
  · exact Hub.touch_refl c g

theorem Hub.SceneOf.holdDeviation {b g : Hub} (hg : b.SceneOf g) (c : Circuit) :
    g.holdDeviation c = (g.circuit c).deviation (b.band (g.circuit c)) := by
  simp only [Hub.holdDeviation, hg.band, CircuitLevel.deviation]

theorem Hub.touch_judgePause {b g : Hub} (hg : b.SceneOf g) (c : Circuit) :
    g.Touch c (b.mismatched c (g.circuit c)) (g.judgePause c) := by
  have hpause (r : HoldReason) (hw : (b.wantsVent (g.circuit c) || b.wantsFill (g.circuit c)) = true) :
      g.Touch c { g.circuit c with action := .hold, reason := r }
        ((if (g.circuit c).action = .hold then g else g.toHold c).onCircuit c fun x => { x with reason := r }) := by
    split
    · next ha =>
      have hsame : { g.circuit c with action := .hold, reason := r } = { g.circuit c with reason := r } := by rw [← ha]
      rw [hsame]
      exact Hub.touch_onCircuit (u := fun x => { x with reason := r }) (CircuitLevel.leaves_of_same rfl)
    · next ha =>
      refine Hub.touch_pause ?_ r
      have hnone : (g.circuit c).deviation (b.band (g.circuit c)) = none := if_neg fun hboth => ha hboth.1
      rw [Hub.wantsVent, Hub.wantsFill, hnone] at hw
      cases hact : (g.circuit c).action <;> simp_all [Action.runs]
  unfold Hub.judgePause Hub.mismatched
  rw [hg.holdDeviation, hg.mismatch, hg.onDoorSide, hg.standsLower, hg.standsHigher]
  extract_lets wantsVent wantsFill pause
  have hvent : wantsVent = b.wantsVent (g.circuit c) := rfl
  have hfill : wantsFill = b.wantsFill (g.circuit c) := rfl
  rw [hvent, hfill]
  by_cases hm : (b.level.mismatch && b.onDoorSide c) = true
  · rw [if_pos hm, hm]
    simp only [Bool.true_and]
    split
    · next hv =>
      exact hpause _ (by rw [Bool.and_eq_true] at hv; rw [hv.1]; rfl)
    · split
      · next hf => exact hpause _ (by rw [Bool.and_eq_true] at hf; rw [hf.1, Bool.or_true])
      · exact Hub.touch_refl c g
  · rw [if_neg hm, Bool.eq_false_iff.mpr hm]
    exact Hub.touch_refl c g

theorem Hub.touch_stopWaiting {b g : Hub} (hg : b.SceneOf g) (c : Circuit) :
    g.Touch c (b.waitStopped (g.circuit c)) (g.stopWaiting c) := by
  unfold Hub.stopWaiting Hub.waitStopped
  rw [(hg.done _).1]
  split
  · next hx => exact Hub.touch_leave (by rw [hx.1]; rfl)
  · exact Hub.touch_refl c g

theorem Hub.touch_stopRunning {b g : Hub} (hg : b.SceneOf g) (c : Circuit) :
    g.Touch c (b.runStopped (g.circuit c)) (g.stopRunning c) := by
  have hstop : g.stopRunning c = if ((g.circuit c).action = .fill ∧ b.fillDone (g.circuit c) = true) ∨
      ((g.circuit c).action = .vent ∧ b.ventDone (g.circuit c) = true) then g.toHold c else g := by
    unfold Hub.stopRunning
    rw [(hg.done _).1, (hg.done _).2]
    cases (g.circuit c).action <;> simp
  rw [hstop, Hub.runStopped]
  split
  · next hx =>
    refine Hub.touch_leave ?_
    rcases hx with hx | hx <;> rw [hx.1] <;> rfl
  · exact Hub.touch_refl c g

/-! ## Stage 4: the hold limits (R98) -/

/-- A slot's hold time reaches 20,000 ms in this period (R98). -/
def HeldSlot.late (x : HeldSlot) : Bool := decide (20000 ≤ x.time + 50)

/-- A slot after its hold time has been advanced: freed at the limit (R95, R98). -/
def HeldSlot.advanced (x : HeldSlot) : Option HeldSlot := if x.late = true then none else some { x with time := x.time + 50 }

/-- The entry of a slot's circuit (R98). -/
def HeldSlot.entry (x : HeldSlot) : QueueEntry := ⟨x.circuit, x.cls⟩

/-- Entries placed at the tails of their classes, one after the other (R96). -/
def enqueue (q : List QueueEntry) (es : List QueueEntry) : List QueueEntry := es.foldl (fun q e => tailOfClass e q) q

/-- The slots among the given ones that reach their limit, in slot order (R98). -/
def Levelling.lateSlots (u : Levelling) (l : List FillSlot) : List HeldSlot := (l.filterMap u.slots.get).filter HeldSlot.late

/-- One slot's work. -/
structure Hub.Advance (i : FillSlot) (h g : Hub) : Prop where
  scene   : h.SceneOf g
  slots   : g.level.slots = h.level.slots.set i ((h.level.slots.get i).bind HeldSlot.advanced)
  queue   : g.level.queue = enqueue h.level.queue ((h.level.lateSlots [i]).map HeldSlot.entry)
  circuit : ∀ c, g.circuit c = if (h.level.lateSlots [i]).any (fun x => x.circuit == c) = true then
    { h.circuit c with action := .fillWait } else h.circuit c
  sends   : Hub.Sends .slowFill ((h.level.lateSlots [i]).map fun x => (x.circuit.num, ((h.circuit x.circuit).error).getD 0)) h g

theorem PerSlot.set_get_self {α : Type} (v : PerSlot α) (i : FillSlot) : v.set i (v.get i) = v := by
  cases i <;> rfl

theorem Hub.advanceSlot_spec (h : Hub) (i : FillSlot) : h.Advance i (h.advanceSlot i) := by
  unfold Hub.advanceSlot
  cases hx : h.level.slots.get i with
  | none =>
    have hlate : h.level.lateSlots [i] = [] := by simp [Levelling.lateSlots, hx]
    refine ⟨.refl h, ?_, by rw [hlate]; rfl, fun c => by rw [hlate]; rfl, by rw [hlate]; exact .refl h⟩
    rw [hx]
    exact (hx ▸ PerSlot.set_get_self h.level.slots i).symm
  | some x =>
    dsimp only
    by_cases hl : 20000 ≤ x.time + 50
    · have hlate : h.level.lateSlots [i] = [x] := by simp [Levelling.lateSlots, hx, HeldSlot.late, hl]
      rw [if_pos hl]
      unfold Hub.slowFill
      generalize hstep : (h.onLevel fun u =>
        { u with slots := u.slots.set i none, queue := tailOfClass ⟨x.circuit, x.cls⟩ u.queue }) = step
      have hscene : h.SceneOf step := hstep ▸ ⟨rfl, rfl, rfl, rfl, rfl⟩
      have hslots : step.level.slots = h.level.slots.set i none := hstep ▸ rfl
      have hqueue : step.level.queue = tailOfClass ⟨x.circuit, x.cls⟩ h.level.queue := hstep ▸ rfl
      have hcircuit (c : Circuit) : step.circuit c = h.circuit c := hstep ▸ rfl
      have hkeep : Hub.Sends .slowFill [] h (step.setAction x.circuit .fillWait) := by
        refine .silent ?_ ?_
        · rw [← hstep]; simp
        · rw [← hstep]; simp
      refine ⟨hscene.trans ((Hub.sceneOf_setAction ..).trans ⟨rfl, rfl, rfl, rfl, rfl⟩), ?_, ?_, fun c => ?_, ?_⟩
      · have hadvanced : (h.level.slots.get i).bind HeldSlot.advanced = none := by
          rw [hx]
          exact if_pos (decide_eq_true hl)
        rw [hadvanced, ← hslots]
        show (step.setAction x.circuit .fillWait).level.slots = _
        rw [Hub.setAction_level]
        rfl
      · rw [hlate]
        show (step.setAction x.circuit .fillWait).level.queue = _
        rw [Hub.setAction_level]
        exact hqueue
      · rw [hlate]
        show (step.setAction x.circuit .fillWait).circuit c = _
        rw [Hub.setAction_circuit, hcircuit, hcircuit, List.any_cons, List.any_nil, Bool.or_false]
        by_cases hc : c = x.circuit
        · subst hc
          rw [if_pos rfl, if_pos (beq_self_eq_true _)]
        · rw [if_neg hc, if_neg fun heq => hc (beq_iff_eq.mp heq).symm]
      · rw [hlate]
        exact hkeep.trans (Hub.Sends.raise .slowFill _ _ _)
    · have hlate : h.level.lateSlots [i] = [] := by simp [Levelling.lateSlots, hx, HeldSlot.late, hl]
      rw [if_neg hl]
      have hadvanced : (h.level.slots.get i).bind HeldSlot.advanced = some { x with time := x.time + 50 } := by
        rw [hx]
        exact if_neg fun hd => hl (of_decide_eq_true hd)
      exact ⟨⟨rfl, rfl, rfl, rfl, rfl⟩, by rw [hadvanced]; rfl, by rw [hlate]; rfl, fun c => by rw [hlate]; rfl,
        by rw [hlate]; exact .silent rfl rfl⟩

theorem enqueue_append (q es fs : List QueueEntry) : enqueue q (es ++ fs) = enqueue (enqueue q es) fs := List.foldl_append

/-- The slots' work, one slot after the other. -/
theorem Hub.foldl_advanceSlot {l : List FillSlot} (hn : l.Nodup) (h : Hub) :
    let g := l.foldl Hub.advanceSlot h
    h.SceneOf g ∧
    (∀ i, g.level.slots.get i = if i ∈ l then (h.level.slots.get i).bind HeldSlot.advanced else h.level.slots.get i) ∧
    g.level.queue = enqueue h.level.queue ((h.level.lateSlots l).map HeldSlot.entry) ∧
    (∀ c, g.circuit c = if (h.level.lateSlots l).any (fun x => x.circuit == c) = true then
      { h.circuit c with action := .fillWait } else h.circuit c) ∧
    Hub.Sends .slowFill ((h.level.lateSlots l).map fun x => (x.circuit.num, ((h.circuit x.circuit).error).getD 0)) h g := by
  induction l generalizing h with
  | nil => exact ⟨.refl h, fun _ => rfl, rfl, fun _ => rfl, .refl h⟩
  | cons i l ih =>
    obtain ⟨hi, hl⟩ := List.nodup_cons.mp hn
    obtain ⟨hscene, hslots, hqueue, hcircuit, hsends⟩ := h.advanceSlot_spec i
    obtain ⟨iscene, islots, iqueue, icircuit, isends⟩ := ih hl (h.advanceSlot i)
    have hother : (h.advanceSlot i).level.lateSlots l = h.level.lateSlots l := by
      have hget (j : FillSlot) (hj : j ∈ l) : (h.advanceSlot i).level.slots.get j = h.level.slots.get j := by
        rw [hslots, PerSlot.get_set_ne _ (show j ≠ i from fun heq => hi (heq ▸ hj))]
      rw [Levelling.lateSlots, List.filterMap_congr hget, Levelling.lateSlots]
    have hcons : h.level.lateSlots (i :: l) = h.level.lateSlots [i] ++ h.level.lateSlots l := by
      rw [Levelling.lateSlots, ← List.singleton_append, List.filterMap_append, List.filter_append]
      rfl
    have herror (c : Circuit) : ((h.advanceSlot i).circuit c).error = (h.circuit c).error := by
      rw [hcircuit]
      split <;> rfl
    rw [hother] at iqueue icircuit isends
    simp only [herror] at isends
    rw [List.foldl_cons, hcons]
    refine ⟨hscene.trans iscene, fun j => ?_, ?_, fun c => ?_, ?_⟩
    · rw [islots, hslots]
      by_cases hj : j = i
      · subst hj
        simp [hi]
      · simp [hj]
    · rw [iqueue, hqueue, List.map_append, enqueue_append]
    · rw [icircuit, hcircuit, List.any_append]
      cases (h.level.lateSlots [i]).any fun x => x.circuit == c <;>
        cases (h.level.lateSlots l).any fun x => x.circuit == c <;> rfl
    · rw [List.map_append]
      exact hsends.trans isends


/-! ## Stage 5: starts (R94, R96) -/

/-- The action of a start (R94). -/
def Deviation.begun : Deviation → Action
  | .low => .fillWait
  | .high => .vent

/-- A deviation of this circuit starts an action at once (R94). -/
def Hub.atOnce (b : Hub) (x : CircuitLevel) : Bool := b.standing || x.source != .ride

/-- The persistence count after a deviation (R94). -/
def Hub.counted94 (b : Hub) (d : Deviation) (x : CircuitLevel) : CircuitLevel := if b.atOnce x = true then x else x.persist d

/-- A circuit's deviation starts its action (R94). -/
def Hub.begins (b : Hub) (left : Bool) (d : Deviation) (x : CircuitLevel) : Bool :=
  (b.atOnce x || (b.counted94 d x).count == 100) && !b.startsInhibited && !left

/-- Stage 5 (R94). -/
def Hub.started (b : Hub) (left : Bool) (x : CircuitLevel) : CircuitLevel :=
  if x.action = .hold ∧ x.reason = .none ∧ x.error.isSome = true then
    (x.deviation (b.band x)).elim { x with count := 0 } fun d =>
      if b.begins left d x = true then { b.counted94 d x with count := 0, action := d.begun } else b.counted94 d x
  else x

/-- The entry of a starting fill (R94, R96). -/
def Hub.fillEntry (b : Hub) (c : Circuit) (x : CircuitLevel) : QueueEntry :=
  ⟨c, if x.source = .raise then 0 else if b.standing then 1 else 2⟩

/-- A circuit joins the queue (R94). -/
def CircuitLevel.joins (x y : CircuitLevel) : Bool := x.action == .hold && y.action == .fillWait

/-- One circuit's start. -/
structure Hub.Start (b : Hub) (left : Bool) (c : Circuit) (h g : Hub) : Prop where
  scene   : h.SceneOf g
  circuit : ∀ d, g.circuit d = if d = c then b.started left (h.circuit c) else h.circuit d
  slots   : g.level.slots = h.level.slots
  queue   : g.level.queue = enqueue h.level.queue
    (if (h.circuit c).joins (b.started left (h.circuit c)) = true then [b.fillEntry c (h.circuit c)] else [])

theorem CircuitLevel.joins_of_same {x y : CircuitLevel} (ha : y.action = x.action) : x.joins y = false := by
  rw [CircuitLevel.joins, ha]
  cases x.action <;> rfl

/-- A circuit that only counts. -/
theorem Hub.start_of_kept {b h : Hub} {left : Bool} {c : Circuit} {u : CircuitLevel → CircuitLevel}
    (hu : b.started left (h.circuit c) = u (h.circuit c)) (ha : (u (h.circuit c)).action = (h.circuit c).action) :
    b.Start left c h (h.onCircuit c u) := by
  refine ⟨Hub.sceneOf_onCircuit .., fun d => ?_, rfl, ?_⟩
  · rw [Hub.circuit_onCircuit, hu]
  · rw [hu, CircuitLevel.joins_of_same ha]
    rfl

theorem Hub.counted94_action (b : Hub) (d : Deviation) (x : CircuitLevel) : (b.counted94 d x).action = x.action ∧
    (b.counted94 d x).source = x.source := by
  unfold Hub.counted94
  split <;> exact ⟨rfl, rfl⟩

/-- A start behind its count (R94). -/
theorem Hub.beginAction_spec {b g : Hub} (hg : b.SceneOf g) (c : Circuit) (d : Deviation) :
    g.SceneOf (g.beginAction c d) ∧
    (∀ e, (g.beginAction c d).circuit e =
      if e = c then { g.circuit c with count := 0, action := d.begun } else g.circuit e) ∧
    (g.beginAction c d).level.slots = g.level.slots ∧
    (g.beginAction c d).level.queue =
      enqueue g.level.queue (if d = .low then [b.fillEntry c (g.circuit c)] else []) := by
  have hcleared (e : Circuit) : (g.onCircuit c fun x => { x with count := 0 }).circuit e =
      if e = c then { g.circuit c with count := 0 } else g.circuit e := Hub.circuit_onCircuit ..
  cases d with
  | high =>
    refine ⟨(Hub.sceneOf_onCircuit ..).trans (Hub.sceneOf_setAction ..), fun e => ?_, ?_, ?_⟩
    · simp only [Hub.beginAction, Hub.setAction_circuit, hcleared]
      split <;> rfl
    · simp only [Hub.beginAction, Hub.setAction_level]
      rfl
    · simp only [Hub.beginAction, Hub.setAction_level]
      rfl
  | low =>
    have hentry : (⟨c, g.fillClass c⟩ : QueueEntry) = b.fillEntry c (g.circuit c) := by
      rw [Hub.fillEntry, ← hg.standing]
      rfl
    have hqueued : g.SceneOf ((g.onCircuit c fun x => { x with count := 0 }).onLevel fun u =>
        { u with queue := tailOfClass ⟨c, g.fillClass c⟩ u.queue }) := ⟨rfl, rfl, rfl, rfl, rfl⟩
    have hqueuedCircuit (e : Circuit) : ((g.onCircuit c fun x => { x with count := 0 }).onLevel fun u =>
        { u with queue := tailOfClass ⟨c, g.fillClass c⟩ u.queue }).circuit e =
        if e = c then { g.circuit c with count := 0 } else g.circuit e := hcleared e
    refine ⟨hqueued.trans (Hub.sceneOf_setAction ..), fun e => ?_, ?_, ?_⟩
    · simp only [Hub.beginAction, Hub.setAction_circuit, hqueuedCircuit]
      split <;> rfl
    · simp only [Hub.beginAction, Hub.setAction_level]
      rfl
    · simp only [Hub.beginAction, Hub.setAction_level]
      rw [← hentry]
      rfl

theorem Hub.startCircuit_spec {b g : Hub} (hg : b.SceneOf g) (left : Circuit → Bool) (c : Circuit) :
    b.Start (left c) c g (g.startCircuit left c) := by
  have honce (f : Hub) (hf : b.SceneOf f) : f.startsAtOnce c = b.atOnce (f.circuit c) := by
    rw [Hub.startsAtOnce, hf.standing, Hub.atOnce]
  have hinhibited : g.startsInhibited = b.startsInhibited := by
    rw [Hub.startsInhibited, hg.standing, hg.decel, Hub.startsInhibited]
  unfold Hub.startCircuit
  dsimp only
  by_cases hx : (g.circuit c).action = .hold ∧ (g.circuit c).reason = .none ∧ (g.circuit c).error.isSome = true
  · rw [if_pos hx, hg.holdDeviation]
    have hstarted : b.started (left c) (g.circuit c) = _ := if_pos hx
    cases hd : (g.circuit c).deviation (b.band (g.circuit c)) with
    | none =>
      rw [hd] at hstarted
      exact Hub.start_of_kept (u := fun x => { x with count := 0 }) hstarted rfl
    | some d =>
      rw [hd] at hstarted
      have hcount : (if g.startsAtOnce c = true then g else g.onCircuit c (·.persist d)).circuit c =
          b.counted94 d (g.circuit c) := by
        rw [honce g hg, Hub.counted94]
        split
        · rfl
        · rw [Hub.circuit_onCircuit, if_pos rfl]
      dsimp only
      generalize hcounted : (if g.startsAtOnce c = true then g else g.onCircuit c (·.persist d)) = counted at hcount ⊢
      have hscene : g.SceneOf counted := by
        rw [← hcounted]
        split
        · exact .refl g
        · exact Hub.sceneOf_onCircuit ..
      have hother (e : Circuit) : counted.circuit e = if e = c then b.counted94 d (g.circuit c) else g.circuit e := by
        split
        · next he => rw [he, hcount]
        · next he =>
          rw [← hcounted]
          split
          · rfl
          · rw [Hub.circuit_onCircuit, if_neg he]
      have hlevel : counted.level.slots = g.level.slots ∧ counted.level.queue = g.level.queue := by
        rw [← hcounted]
        split <;> exact ⟨rfl, rfl⟩
      obtain ⟨haction, hsource⟩ := b.counted94_action d (g.circuit c)
      rw [hinhibited, hcount, honce g hg]
      change b.started (left c) (g.circuit c) = if b.begins (left c) d (g.circuit c) = true then _ else _ at hstarted
      show b.Start (left c) c g (if b.begins (left c) d (g.circuit c) = true then _ else _)
      split
      · next hbegins =>
        rw [if_pos hbegins] at hstarted
        obtain ⟨bscene, bcircuit, bslots, bqueue⟩ := Hub.beginAction_spec (hg.trans hscene) c d
        refine ⟨hscene.trans bscene, fun e => ?_, bslots.trans hlevel.1, ?_⟩
        · rw [bcircuit, hcount, hstarted, hother]
          split <;> rfl
        · rw [bqueue, hlevel.2, hcount, hstarted, CircuitLevel.joins, hx.1, Hub.fillEntry, hsource, Hub.fillEntry]
          cases d <;> rfl
      · next hbegins =>
        rw [if_neg hbegins] at hstarted
        refine ⟨hscene, fun e => by rw [hother, hstarted], hlevel.1, ?_⟩
        rw [hlevel.2, hstarted, CircuitLevel.joins_of_same haction]
        rfl
  · rw [if_neg hx]
    have hsame : b.started (left c) (g.circuit c) = g.circuit c := if_neg hx
    refine ⟨.refl g, fun e => ?_, rfl, ?_⟩
    · rw [hsame]
      split
      · next he => rw [he]
      · rfl
    · rw [hsame, CircuitLevel.joins_of_same rfl]
      rfl


/-- Stage 5 over circuits in turn. -/
theorem Hub.foldl_startCircuit {b : Hub} (left : Circuit → Bool) {l : List Circuit} (hn : l.Nodup) {h : Hub} (hb : b.SceneOf h) :
    let g := l.foldl (Hub.startCircuit left) h
    h.SceneOf g ∧ g.level.slots = h.level.slots ∧
    (∀ c, g.circuit c = if c ∈ l then b.started (left c) (h.circuit c) else h.circuit c) ∧
    g.level.queue = enqueue h.level.queue
      ((l.filter fun c => (h.circuit c).joins (b.started (left c) (h.circuit c))).map fun c => b.fillEntry c (h.circuit c)) := by
  induction l generalizing h with
  | nil => exact ⟨.refl h, rfl, fun _ => rfl, rfl⟩
  | cons d l ih =>
    obtain ⟨hd, hl⟩ := List.nodup_cons.mp hn
    obtain ⟨hscene, hcircuit, hslots, hqueue⟩ := Hub.startCircuit_spec hb left d
    obtain ⟨iscene, islots, icircuit, iqueue⟩ := ih hl (hb.trans hscene)
    have hother {c : Circuit} (hc : c ∈ l) : (h.startCircuit left d).circuit c = h.circuit c := by
      rw [hcircuit, if_neg (show c ≠ d from fun heq => hd (heq ▸ hc))]
    rw [List.foldl_cons]
    refine ⟨hscene.trans iscene, islots.trans hslots, fun c => ?_, ?_⟩
    · rw [icircuit, hcircuit]
      by_cases hc : c = d
      · subst hc
        simp [hd]
      · simp [hc]
    · have hfilter : (l.filter fun c => ((h.startCircuit left d).circuit c).joins
          (b.started (left c) ((h.startCircuit left d).circuit c))) =
          l.filter fun c => (h.circuit c).joins (b.started (left c) (h.circuit c)) :=
        List.filter_congr fun c hc => by rw [hother hc]
      have hmap : (l.filter fun c => (h.circuit c).joins (b.started (left c) (h.circuit c))).map
          (fun c => b.fillEntry c ((h.startCircuit left d).circuit c)) =
          (l.filter fun c => (h.circuit c).joins (b.started (left c) (h.circuit c))).map fun c => b.fillEntry c (h.circuit c) :=
        List.map_congr_left fun c hc => by rw [hother (List.mem_of_mem_filter hc)]
      rw [iqueue, hfilter, hmap, hqueue, ← enqueue_append, List.filter_cons]
      split <;> rfl

/-! ## Stage 6: grants (R97) -/

/-- The free slots, lowest first. -/
def Levelling.free (u : Levelling) : List FillSlot := FillSlot.all.filter fun i => (u.slots.get i).isNone

theorem freeSlot_eq (u : Levelling) : freeSlot u.slots = u.free.head? := by
  rw [freeSlot, Levelling.free, List.head?_filter]

/-- What a number of grants makes of slots, queue and circuits: the queue's first entries take the free slots, lowest
first (R97). -/
structure Hub.Granted (n : Nat) (h g : Hub) : Prop where
  queue   : g.level.queue = h.level.queue.drop n
  grants  : g.level.grants = h.level.grants + BitVec.ofNat 16 n
  taken   : ∀ k e i, k < n → h.level.queue[k]? = some e → h.level.free[k]? = some i →
    g.level.slots.get i = some ⟨e.circuit, 0, h.level.grants + BitVec.ofNat 16 k, e.cls⟩
  spare   : ∀ k i, n ≤ k → h.level.free[k]? = some i → g.level.slots.get i = none
  held    : ∀ i x, h.level.slots.get i = some x → g.level.slots.get i = some x
  circuit : ∀ c, g.circuit c = if (h.level.queue.take n).any (fun e => e.circuit == c) = true then
    { h.circuit c with action := .fill } else h.circuit c

theorem Levelling.mem_free {u : Levelling} {i : FillSlot} : i ∈ u.free ↔ u.slots.get i = none := by
  simp [Levelling.free]

theorem Hub.granted_refl (h : Hub) : h.Granted 0 h where
  queue := rfl
  grants := by simp
  taken k e i hk := absurd hk (Nat.not_lt_zero k)
  spare k i _ hi := Levelling.mem_free.mp (List.mem_of_getElem? hi)
  held i x hx := hx
  circuit c := by simp

/-- A grant leaves the free slots but the one it fills. -/
theorem Levelling.free_set {u v : Levelling} {i : FillSlot} {x : HeldSlot} {rest : List FillSlot} (hf : u.free = i :: rest)
    (hs : v.slots = u.slots.set i (some x)) : v.free = rest := by
  have hnodup : (i :: rest).Nodup := hf ▸ List.Nodup.filter _ (by decide)
  have hv : v.free = u.free.filter fun j => decide (j ≠ i) := by
    rw [Levelling.free, Levelling.free, List.filter_filter]
    refine List.filter_congr fun j _ => ?_
    rw [hs]
    by_cases hj : j = i
    · subst hj
      simp
    · simp [hj]
  obtain ⟨hi, -⟩ := List.nodup_cons.mp hnodup
  rw [hv, hf, List.filter_cons_of_neg (by simp), List.filter_eq_self.mpr]
  exact fun j hj => decide_eq_true fun heq => hi (heq ▸ hj)

/-- One grant, where cut, queue and slots allow one, and the grants behind it. -/
theorem Hub.granted_cons {h g f : Hub} {i : FillSlot} {e : QueueEntry} {free : List FillSlot} {rest : List QueueEntry} {n : Nat}
    (hfree : h.level.free = i :: free) (hqueue : h.level.queue = e :: rest)
    (hg : g = (h.onLevel fun u =>
      { u with
        queue := rest
        slots := u.slots.set i (some ⟨e.circuit, 0, u.grants, e.cls⟩)
        grants := u.grants + 1 }).setAction e.circuit .fill) (hf : g.Granted n f) : h.Granted (n + 1) f := by
  have glevel : g.level.queue = rest ∧ g.level.grants = h.level.grants + 1 ∧
      g.level.slots = h.level.slots.set i (some ⟨e.circuit, 0, h.level.grants, e.cls⟩) := by
    rw [hg, Hub.setAction_level]
    exact ⟨rfl, rfl, rfl⟩
  obtain ⟨gqueue, ggrants, gslots⟩ := glevel
  have gcircuit (c : Circuit) : g.circuit c = if c = e.circuit then { h.circuit c with action := .fill } else h.circuit c := by
    rw [hg, Hub.setAction_circuit]
    split
    · next heq =>
      rw [heq]
      rfl
    · rfl
  have gfree : g.level.free = free := Levelling.free_set hfree gslots
  have gheld : g.level.slots.get i = some ⟨e.circuit, 0, h.level.grants, e.cls⟩ := by rw [gslots, PerSlot.get_set_self]
  have hcount (k : Nat) : h.level.grants + 1 + BitVec.ofNat 16 k = h.level.grants + BitVec.ofNat 16 (k + 1) := by
    rw [BitVec.add_assoc, Nat.add_comm k 1, BitVec.ofNat_add]
    rfl
  refine ⟨?_, ?_, fun k d j hk hd hj => ?_, fun k j hk hj => ?_, fun j x hx => ?_, fun c => ?_⟩
  · rw [hf.queue, gqueue, hqueue, List.drop_succ_cons]
  · rw [hf.grants, ggrants, hcount]
  · rw [hqueue] at hd
    rw [hfree] at hj
    cases k with
    | zero =>
      obtain rfl : e = d := by simpa using hd
      obtain rfl : i = j := by simpa using hj
      rw [hf.held i _ gheld]
      simp
    | succ k =>
      rw [hf.taken k d j (Nat.lt_of_succ_lt_succ hk) (by rw [gqueue]; exact hd) (by rw [gfree]; exact hj), ggrants, hcount]
  · rw [hfree] at hj
    cases k with
    | zero => exact absurd hk (Nat.not_succ_le_zero n)
    | succ k => exact hf.spare k j (Nat.le_of_succ_le_succ hk) (by rw [gfree]; exact hj)
  · refine hf.held j x ?_
    have hne : j ≠ i := fun heq => by
      have hi : h.level.slots.get i = none := Levelling.mem_free.mp (hfree ▸ List.mem_cons_self)
      rw [heq, hi] at hx
      cases hx
    rw [gslots, PerSlot.get_set_ne _ hne, hx]
  · rw [hf.circuit, gcircuit, gqueue, hqueue, List.take_succ_cons, List.any_cons]
    by_cases hc : c = e.circuit
    · subst hc
      simp
    · rw [if_neg hc, beq_false_of_ne (Ne.symm hc), Bool.false_or]

/-- The arbiter's grants: as many as queue and free slots allow, none while the cut is in force (R97). -/
theorem Hub.iterate_grantHead (m : Nat) (h : Hub) :
    h.Granted (if h.level.cut = true then 0 else min m (min h.level.queue.length h.level.free.length)) (Hub.grantHead^[m] h) := by
  induction m generalizing h with
  | zero =>
    rw [Nat.zero_min, ite_self]
    exact h.granted_refl
  | succ m ih =>
    rw [Function.iterate_succ_apply]
    obtain ⟨heq, hwhy⟩ | ⟨i, e, rest, hcut, hfree, hqueue, heq⟩ := h.grantHead_cases
    · have hfixed : Hub.grantHead^[m] h = h := Function.iterate_fixed heq m
      rw [heq, hfixed]
      have hnone : (if h.level.cut = true then 0 else min (m + 1) (min h.level.queue.length h.level.free.length)) = 0 := by
        split
        · rfl
        · next hcut =>
          obtain hempty | hfull := hwhy.resolve_left hcut
          · simp [hempty]
          · have hnil : h.level.free = [] := List.filter_eq_nil_iff.mpr fun i _ => by simpa using hfull i
            simp [hnil]
      rw [hnone]
      exact h.granted_refl
    · rw [freeSlot_eq] at hfree
      obtain ⟨free, hlist⟩ := List.head?_eq_some_iff.mp hfree
      have gfree : h.grantHead.level.free = free := Levelling.free_set hlist (by rw [heq, Hub.setAction_level]; rfl)
      have gqueue : h.grantHead.level.queue = rest := by
        rw [heq, Hub.setAction_level]
        rfl
      have hstep := Hub.granted_cons hlist hqueue heq (ih h.grantHead)
      rw [Hub.grantHead_cut, hcut, gfree, gqueue] at hstep
      rw [hcut, hqueue, hlist]
      simp only [Bool.false_eq_true, if_false, List.length_cons] at hstep ⊢
      rw [Nat.add_min_add_right, Nat.add_min_add_right]
      exact hstep

theorem Hub.grant_granted (h : Hub) : h.Granted (if h.level.cut = true then 0 else min h.level.queue.length h.level.free.length) h.grant := by
  have hthree : h.level.free.length ≤ 3 := List.length_filter_le _ _
  have hgrant := h.iterate_grantHead 3
  rwa [Nat.min_eq_right (Nat.le_trans (Nat.min_le_right _ _) hthree)] at hgrant


end Sys2Proof.Machine
end

section
/-! PROOFS. A levelling period as a whole: each circuit, the slots, the queue and the grants. -/

namespace Sys2Proof.Machine

/-! ## From the period's begin to its stops -/

/-- The part after the samples, the exits and the section heights (R91, R101, R104). -/
def Hub.sectioned (h : Hub) : Hub := (Circuit.all.foldl Hub.exitExcluded h.sampleHeights).formSections

/-- A circuit after its sample and its exit from EXCLUDED (R91, R104). -/
def Hub.entered (h : Hub) (c : Circuit) : CircuitLevel := h.exited c ((h.circuit c).sample (h.heightSample c))

/-- A circuit behind the mismatch hold and the stops, from its values and the sections before them (R95, R101). -/
def Hub.stopsOn (b : Hub) (c : Circuit) (x : CircuitLevel) : CircuitLevel :=
  b.runStopped (b.waitStopped (b.mismatched c (b.pauseEnded c x)))

/-- A circuit after the mismatch hold and the stops (R95, R101). -/
def Hub.settled (h : Hub) (c : Circuit) : CircuitLevel :=
  h.sectioned.stopsOn c (h.entered c)

/-- A circuit leaves an action at stage 3 or 4 (R93). -/
def Hub.leftNow (h : Hub) (c : Circuit) : Bool := (h.entered c).leaves (h.settled c)

theorem Hub.formSections_scene (h : Hub) : h.formSections.kneel = h.kneel ∧ h.formSections.store = h.store ∧
    h.formSections.sensing = h.sensing ∧ h.formSections.brake.base = h.brake.base ∧
    h.formSections.level.cut = h.level.cut ∧ h.formSections.level.cutCause = h.level.cutCause ∧
    h.formSections.level.grants = h.level.grants ∧ h.formSections.level.periods = h.level.periods :=
  ⟨rfl, rfl, rfl, rfl, rfl, rfl, rfl, rfl⟩

theorem Hub.sample_scene (h : Hub) : h.SceneOf h.sampleHeights ∧
    (∀ c, h.sampleHeights.circuit c = (h.circuit c).sample (h.heightSample c)) ∧
    h.sampleHeights.level.slots = h.level.slots ∧ h.sampleHeights.level.queue = h.level.queue :=
  ⟨⟨rfl, rfl, rfl, rfl, rfl⟩, fun c => PerCircuit.get_tab _ c, rfl, rfl⟩

theorem CircuitLevel.exited_leaves (b : Hub) (c : Circuit) (x : CircuitLevel) : x.leaves (b.exited c x) = false := by
  unfold Hub.exited
  split
  · next hx =>
    rw [CircuitLevel.leaves, hx.1]
    rfl
  · exact CircuitLevel.leaves_of_same rfl

theorem Hub.formSections_level (h : Hub) : (∀ c, h.formSections.circuit c = h.circuit c) ∧
    h.formSections.level.slots = h.level.slots ∧ h.formSections.level.queue = h.level.queue :=
  ⟨fun _ => rfl, rfl, rfl⟩

/-- The exits from EXCLUDED, behind the samples (R91, R104). -/
theorem Hub.exits_spec (h : Hub) : ∃ g : Hub, h.sectioned = g.formSections ∧ h.SceneOf g ∧ (∀ c, g.circuit c = h.entered c) ∧
    g.level.slots = h.level.slots ∧ g.level.queue = h.level.queue := by
  obtain ⟨hscene, hcircuit, hslots, hqueue⟩ := h.sample_scene
  obtain ⟨hleft, hexited⟩ := Hub.stage_touch (f := Hub.exitExcluded) (φ := h.exited)
    (fun g c hg => Hub.touch_exitExcluded hg c) hscene
  have hkept := hleft.congr (q := fun _ => false) fun c => CircuitLevel.exited_leaves h c _
  refine ⟨_, rfl, hscene.trans hkept.scene, fun c => ?_, ?_, ?_⟩
  · rw [hexited, hcircuit, Hub.entered]
  · have hs := hkept.slots
    simp only [Bool.not_false, PerSlot.map_filter_true] at hs
    exact hs.trans hslots
  · have hq := hkept.queue
    simp only [Bool.not_false, List.filter_true] at hq
    exact hq.trans hqueue

/-- Circuits, slots and queue before the mismatch hold; scope, bands and the rest stay. -/
theorem Hub.sectioned_spec (h : Hub) : (∀ c, h.sectioned.circuit c = h.entered c) ∧
    h.sectioned.level.slots = h.level.slots ∧ h.sectioned.level.queue = h.level.queue ∧
    h.sectioned.level.cut = h.level.cut ∧ h.sectioned.level.cutCause = h.level.cutCause ∧
    h.sectioned.level.grants = h.level.grants ∧ h.sectioned.level.periods = h.level.periods := by
  obtain ⟨g, hg, hscene, hcircuit, hslots, hqueue⟩ := h.exits_spec
  obtain ⟨fcircuit, fslots, fqueue⟩ := g.formSections_level
  obtain ⟨-, -, -, -, fcut, fcause, fgrants, fperiods⟩ := g.formSections_scene
  rw [hg]
  exact ⟨fun c => (fcircuit c).trans (hcircuit c), fslots.trans hslots, fqueue.trans hqueue, fcut.trans hscene.cut,
    fcause.trans hscene.cutCause, fgrants.trans hscene.grants,
    fperiods.trans hscene.periods⟩

/-- What a period reads of the units beside the levelling unit is what it was at its begin. -/
theorem Hub.sectioned_scene (h : Hub) : h.sectioned.kneel = h.kneel ∧ h.sectioned.store = h.store ∧
    h.sectioned.sensing = h.sensing ∧ h.sectioned.brake.base = h.brake.base := by
  obtain ⟨g, hg, hscene, -⟩ := h.exits_spec
  obtain ⟨fkneel, fstore, fsensing, fbase, -⟩ := g.formSections_scene
  rw [hg]
  exact ⟨fkneel.trans hscene.kneel, fstore.trans hscene.store, fsensing.trans hscene.sensing, fbase.trans hscene.base⟩

/-- What the four stages between sections and slots make of a circuit keeps a HOLD and ends an action for HOLD alone. -/
theorem Hub.stopsOn_leaves (b : Hub) (c : Circuit) (x : CircuitLevel) :
    ((((x.leaves (b.pauseEnded c x)) || (b.pauseEnded c x).leaves (b.mismatched c (b.pauseEnded c x))) ||
      (b.mismatched c (b.pauseEnded c x)).leaves (b.waitStopped (b.mismatched c (b.pauseEnded c x)))) ||
      (b.waitStopped (b.mismatched c (b.pauseEnded c x))).leaves (b.stopsOn c x)) = x.leaves (b.stopsOn c x) := by
  have hended : (b.pauseEnded c x).action = x.action := by
    unfold Hub.pauseEnded
    split <;> rfl
  have hpaused (y : CircuitLevel) : (b.mismatched c y).action = y.action ∨ (b.mismatched c y).action = .hold := by
    unfold Hub.mismatched
    (repeat' split) <;> first | exact .inr rfl | exact .inl rfl
  have hwait (y : CircuitLevel) : (b.waitStopped y).action = y.action ∨ (b.waitStopped y).action = .hold := by
    unfold Hub.waitStopped
    split <;> first | exact .inr rfl | exact .inl rfl
  have hrun (y : CircuitLevel) : (b.runStopped y).action = y.action ∨ (b.runStopped y).action = .hold := by
    unfold Hub.runStopped
    split <;> first | exact .inr rfl | exact .inl rfl
  obtain h1 | h1 := hpaused (b.pauseEnded c x) <;> obtain h2 | h2 := hwait (b.mismatched c (b.pauseEnded c x)) <;>
    obtain h3 | h3 := hrun (b.waitStopped (b.mismatched c (b.pauseEnded c x))) <;>
    simp only [CircuitLevel.leaves, Hub.stopsOn, h1, h2, h3, hended] <;> cases x.action <;> rfl

/-- The four stages between sections and slots. -/
theorem Hub.stops_foldl (b : Hub) : b.Left (fun c => (b.circuit c).leaves (b.stopsOn c (b.circuit c)))
      (Circuit.all.foldl Hub.stopRunning (Circuit.all.foldl Hub.stopWaiting
        (Circuit.all.foldl Hub.judgePause (Circuit.all.foldl Hub.endPause b)))) ∧
    ∀ c, (Circuit.all.foldl Hub.stopRunning (Circuit.all.foldl Hub.stopWaiting
        (Circuit.all.foldl Hub.judgePause (Circuit.all.foldl Hub.endPause b)))).circuit c = b.stopsOn c (b.circuit c) := by
  obtain ⟨left1, circuit1⟩ := Hub.stage_touch (f := Hub.endPause) (φ := b.pauseEnded)
    (fun g c hg => Hub.touch_endPause hg c) (.refl b)
  generalize Circuit.all.foldl Hub.endPause b = g1 at left1 circuit1 ⊢
  obtain ⟨left2, circuit2⟩ := Hub.stage_touch (f := Hub.judgePause) (φ := b.mismatched)
    (fun g c hg => Hub.touch_judgePause hg c) left1.scene
  generalize Circuit.all.foldl Hub.judgePause g1 = g2 at left2 circuit2 ⊢
  obtain ⟨left3, circuit3⟩ := Hub.stage_touch (f := Hub.stopWaiting) (φ := fun _ => b.waitStopped)
    (fun g c hg => Hub.touch_stopWaiting hg c) (left1.scene.trans left2.scene)
  generalize Circuit.all.foldl Hub.stopWaiting g2 = g3 at left3 circuit3 ⊢
  obtain ⟨left4, circuit4⟩ := Hub.stage_touch (f := Hub.stopRunning) (φ := fun _ => b.runStopped)
    (fun g c hg => Hub.touch_stopRunning hg c) ((left1.scene.trans left2.scene).trans left3.scene)
  generalize Circuit.all.foldl Hub.stopRunning g3 = g4 at left4 circuit4 ⊢
  refine ⟨(((left1.trans left2).trans left3).trans left4).congr fun c => ?_, fun c => ?_⟩
  · simp only [circuit3, circuit2, circuit1]
    exact b.stopsOn_leaves c _
  · rw [circuit4, circuit3, circuit2, circuit1]
    rfl

/-- Circuits, slots and queue after the mismatch hold and the stops. -/
theorem Hub.stops_spec (h : Hub) : ∃ g : Hub, h.levellingStops = FillSlot.all.foldl Hub.advanceSlot g ∧
    h.sectioned.Left h.leftNow g ∧ (∀ c, g.circuit c = h.settled c) ∧ g.clock = h.clock ∧ g.events = h.events := by
  obtain ⟨hentered, -⟩ := h.sectioned_spec
  obtain ⟨hleft, hcircuit⟩ := h.sectioned.stops_foldl
  simp only [hentered] at hleft hcircuit
  refine ⟨_, ?_, hleft, hcircuit, ?_, ?_⟩
  · unfold Hub.levellingStops Hub.sectioned
    rfl
  · simp [Hub.sectioned, foldl_keeps Hub.clock]
  · simp [Hub.sectioned, foldl_keeps Hub.events]

/-! ## From the stops to the grants -/

section
variable (h : Hub)

/-- The slots that are still held after the stops (R95). -/
def Hub.keptSlots : PerSlot (Option HeldSlot) := h.level.slots.map fun x => x.filter fun s => !h.leftNow s.circuit

/-- The slots that reach 20,000 ms in this period, in slot order (R98). -/
def Hub.lateNow : List HeldSlot := (FillSlot.all.filterMap h.keptSlots.get).filter HeldSlot.late

/-- A circuit's slot reaches its limit (R98). -/
def Hub.isLate (c : Circuit) : Bool := h.lateNow.any fun x => x.circuit == c

/-- A circuit after stage 4 (R98). -/
def Hub.limited (c : Circuit) : CircuitLevel :=
  if h.isLate c = true then { h.settled c with action := .fillWait } else h.settled c

/-- A circuit after stage 5 (R94). -/
def Hub.finished (c : Circuit) : CircuitLevel := h.sectioned.started (h.leftNow c) (h.limited c)

/-- The circuits that start a fill in this period, in circuit order (R94, R96). -/
def Hub.joining : List Circuit := Circuit.all.filter fun c => (h.limited c).joins (h.finished c)

/-- The fill queue after the starts (R96). -/
def Hub.queued : List QueueEntry := enqueue (h.level.queue.filter fun e => !h.leftNow e.circuit)
  (h.lateNow.map HeldSlot.entry ++ h.joining.map fun c => h.sectioned.fillEntry c (h.limited c))

theorem Hub.lateNow_kept {x : HeldSlot} (hx : x ∈ h.lateNow) : h.leftNow x.circuit = false ∧ x.late = true ∧
    ∃ i, h.level.slots.get i = some x := by
  obtain ⟨hmem, hlate⟩ := List.mem_filter.mp hx
  obtain ⟨i, -, hi⟩ := List.mem_filterMap.mp hmem
  rw [Hub.keptSlots, PerSlot.get_map, Option.filter_eq_some_iff] at hi
  exact ⟨by simpa using hi.2, hlate, i, hi.1⟩

theorem Hub.isLate_kept {c : Circuit} (hc : h.isLate c = true) : h.leftNow c = false := by
  obtain ⟨x, hx, hxc⟩ := List.any_eq_true.mp hc
  obtain ⟨hleft, -⟩ := h.lateNow_kept hx
  rwa [beq_iff_eq.mp hxc] at hleft

theorem Hub.entered_runs (c : Circuit) : (h.entered c).action.runs = (h.circuit c).action.runs := by
  unfold Hub.entered Hub.exited
  split
  · next hx =>
    have ha : (h.circuit c).action = .excluded := hx.1
    rw [ha]
    rfl
  · rfl

/-- Circuits, slots and queue after stage 4, with its events (R95, R98). -/
theorem Hub.levellingStops_spec : h.sectioned.SceneOf h.levellingStops ∧ (∀ c, h.levellingStops.circuit c = h.limited c) ∧
    (∀ i, h.levellingStops.level.slots.get i = (h.keptSlots.get i).bind HeldSlot.advanced) ∧
    h.levellingStops.level.queue = enqueue (h.level.queue.filter fun e => !h.leftNow e.circuit) (h.lateNow.map HeldSlot.entry) ∧
    Hub.Sends .slowFill (h.lateNow.map fun x => (x.circuit.num, ((h.settled x.circuit).error).getD 0)) h h.levellingStops := by
  obtain ⟨-, bslots, bqueue, -⟩ := h.sectioned_spec
  obtain ⟨g, hg, ⟨gscene, gslots, gqueue⟩, gcircuit, gclock, gevents⟩ := h.stops_spec
  obtain ⟨ascene, aslots, aqueue, acircuit, asends⟩ := Hub.foldl_advanceSlot (l := FillSlot.all) (by decide) g
  have hkept : g.level.slots = h.keptSlots := gslots.trans (by rw [bslots, Hub.keptSlots])
  have hlate : g.level.lateSlots FillSlot.all = h.lateNow := by rw [Levelling.lateSlots, hkept, Hub.lateNow]
  simp only [hlate, hkept, gqueue, bqueue, gcircuit] at aslots aqueue acircuit asends
  rw [hg]
  refine ⟨gscene.trans ascene, acircuit, fun i => ?_, aqueue, asends.of_eq gclock.symm gevents.symm rfl rfl⟩
  rw [aslots, if_pos (FillSlot.mem_all i)]

/-- The circuits that left an action are those the starts are told of (R93). -/
theorem Hub.leftAction_stops : h.leftAction h.levellingStops = h.leftNow := by
  obtain ⟨-, hcircuit, -⟩ := h.levellingStops_spec
  funext c
  rw [Hub.leftAction, hcircuit, ← h.entered_runs, Hub.limited]
  split
  · next hc =>
    rw [h.isLate_kept hc]
    exact Bool.and_false _
  · rfl

/-- Circuits, slots and queue after the starts, with the period's events so far (R94, R96). -/
theorem Hub.starts_spec : ∃ g : Hub, h.levellingWork = g.grant.writeValves.handErrors ∧ h.sectioned.SceneOf g ∧
    (∀ c, g.circuit c = h.finished c) ∧
    (∀ i, g.level.slots.get i = (h.keptSlots.get i).bind HeldSlot.advanced) ∧ g.level.queue = h.queued ∧
    (h.level.Form → g.level.Form) := by
  obtain ⟨sscene, scircuit, sslots, squeue, -⟩ := h.levellingStops_spec
  obtain ⟨fscene, fslots, fcircuit, fqueue⟩ := Hub.foldl_startCircuit h.leftNow (l := Circuit.all) (by decide) sscene
  refine ⟨Circuit.all.foldl (Hub.startCircuit (h.leftAction h.levellingStops)) h.levellingStops, rfl, ?_⟩
  rw [h.leftAction_stops]
  simp only [scircuit, squeue, Circuit.mem_all, if_true] at fcircuit fqueue
  refine ⟨sscene.trans fscene, fcircuit, fun i => by rw [fslots, sslots], ?_, fun hform => ?_⟩
  · rw [fqueue, Hub.queued, enqueue_append]
    rfl
  · exact (Hub.moves_foldl (Hub.moves_startCircuit _) _ _).form ((Hub.moves_levellingStops h).form hform)

end


/-! ## The completion of a kneel or a raise (R113, R114) -/

/-- A circuit at the entry into RIDE (R92, R114). -/
def CircuitLevel.toRide (x : CircuitLevel) : CircuitLevel := { x with source := if x.source = .raise then .ride else x.source }

theorem Hub.setKneel_knelt_level {h : Hub} (hk : h.kneel.state = .lowering) : (h.setKneel .knelt).level = h.level := by
  have htaken : (h.setKneel .knelt).level = { h.level with
      circuits := h.level.circuits.map fun x => { x with reason :=
        if h.kneel.state = .stopped ∧ x.reason = .kneelStopped then .none else x.reason } } := by
    simp [Hub.setKneel, Hub.levellingTakesKneel]
  have hsame : (h.level.circuits.map fun x : CircuitLevel => { x with reason :=
      if h.kneel.state = .stopped ∧ x.reason = .kneelStopped then .none else x.reason }) = h.level.circuits := by
    refine PerCircuit.ext_get fun c => ?_
    rw [PerCircuit.get_map, hk, if_neg fun hboth => KneelState.noConfusion hboth.1]
  rw [htaken, hsame]

theorem Hub.setKneel_ride_level {h : Hub} (hk : h.kneel.state = .raising) :
    (h.setKneel .ride).level = { h.level with circuits := h.level.circuits.map CircuitLevel.toRide } := by
  have htaken : (h.setKneel .ride).level = { h.level with
      circuits := h.level.circuits.map fun x => { x with
        source := if x.source = .raise then .ride else x.source
        reason := if h.kneel.state = .stopped ∧ x.reason = .kneelStopped then .none else x.reason } } := by
    simp [Hub.setKneel, Hub.levellingTakesKneel]
  have hsame : (h.level.circuits.map fun x : CircuitLevel => { x with
      source := if x.source = .raise then .ride else x.source
      reason := if h.kneel.state = .stopped ∧ x.reason = .kneelStopped then .none else x.reason }) =
      h.level.circuits.map CircuitLevel.toRide := by
    refine PerCircuit.ext_get fun c => ?_
    rw [PerCircuit.get_map, PerCircuit.get_map, hk, CircuitLevel.toRide,
      if_neg (show ¬(KneelState.raising = .stopped ∧ _) from fun hboth => KneelState.noConfusion hboth.1)]
  rw [htaken, hsame]

/-- What the judgement of a completion makes of kneel state, completions and circuits (R113, R114). -/
theorem Hub.judgeCompletion_spec (h : Hub) :
    (h.kneel.state = .lowering →
      (h.scopeWithin h.dbKneel = true → h.judgeCompletion.kneel.state = .knelt ∧
        h.judgeCompletion.kneel.completions = h.kneel.completions + 1) ∧
      (h.scopeWithin h.dbKneel = false → h.judgeCompletion = h)) ∧
    (h.kneel.state = .raising →
      (h.scopeWithin h.dbRide = true → h.judgeCompletion.kneel.state = .ride ∧
        h.judgeCompletion.kneel.completions = h.kneel.completions + 1) ∧
      (h.scopeWithin h.dbRide = false → h.judgeCompletion = h)) ∧
    (h.kneel.state ≠ .lowering → h.kneel.state ≠ .raising → h.judgeCompletion = h) ∧
    h.judgeCompletion.level = { h.level with circuits := h.judgeCompletion.level.circuits } ∧
    (∀ c, h.judgeCompletion.circuit c =
      if h.kneel.state = .raising ∧ h.judgeCompletion.kneel.state = .ride then (h.circuit c).toRide else h.circuit c) ∧
    h.judgeCompletion.kneel.errors = h.kneel.errors := by
  unfold Hub.judgeCompletion
  cases hk : h.kneel.state with
  | lowering =>
    refine ⟨fun _ => ⟨fun hw => ?_, fun hw => ?_⟩, nofun, fun hne => absurd rfl hne, ?_, fun c => ?_, ?_⟩ <;> dsimp only
    · rw [if_pos hw]
      simp
    · rw [if_neg (by simp [hw])]
    · split
      · rw [Hub.setKneel_knelt_level (h := h.onKneel fun u => { u with completions := u.completions + 1 }) hk]
        rfl
      · rfl
    · rw [if_neg (show ¬(KneelState.lowering = .raising ∧ _) from fun hboth => KneelState.noConfusion hboth.1)]
      split
      · rw [Hub.circuit, Hub.setKneel_knelt_level (h := h.onKneel fun u => { u with completions := u.completions + 1 }) hk]
        rfl
      · rfl
    · split
      · simp
      · rfl
  | raising =>
    refine ⟨nofun, fun _ => ⟨fun hw => ?_, fun hw => ?_⟩, fun _ hne => absurd rfl hne, ?_, fun c => ?_, ?_⟩ <;> dsimp only
    · rw [if_pos hw]
      simp
    · rw [if_neg (by simp [hw])]
    · split
      · rw [Hub.setKneel_ride_level (h := h.onKneel fun u => { u with completions := u.completions + 1 }) hk]
        rfl
      · rfl
    · split
      · rw [if_pos ⟨rfl, by simp⟩, Hub.circuit, Hub.setKneel_ride_level (h := h.onKneel fun u => { u with completions := u.completions + 1 }) hk]
        exact PerCircuit.get_map ..
      · rw [if_neg fun hboth => KneelState.noConfusion (hk.symm.trans hboth.2)]
    · split
      · simp
      · rfl
  | ride | knelt | stopped =>
    exact ⟨nofun, nofun, fun _ _ => rfl, rfl, fun c => (if_neg fun hboth => KneelState.noConfusion hboth.1).symm, rfl⟩


/-! ## The period as a whole -/

theorem Hub.item_of_store {h g : Hub} (hs : g.store = h.store) (k : SectorId) (n : Nat) : g.item k n = h.item k n := by
  rw [Hub.item, Hub.item, hs]

theorem Hub.inScope_of_store {h g : Hub} (hs : g.store = h.store) (c : Circuit) : g.inScope c = h.inScope c := by
  simp only [Hub.inScope, Hub.onDoorSide, Hub.sideLeft, Hub.scopeSide, Hub.item_of_store hs]

theorem Hub.band_of_store {h g : Hub} (hs : g.store = h.store) (x : CircuitLevel) : g.band x = h.band x := by
  simp only [Hub.band, Hub.dbKneel, Hub.dbRide, Hub.item_of_store hs]

/-- An entry's circuit waits (R96). -/
theorem Levelling.Agrees.queued {u : Levelling} (hu : u.Agrees) {e : QueueEntry} (he : e ∈ u.queue) :
    (u.circuits.get e.circuit).action = .fillWait := by
  by_contra hne
  have hpos := Levelling.entries_pos.mpr ⟨e, he, rfl⟩
  rw [hu.waits, if_neg hne] at hpos
  exact absurd hpos (Nat.lt_irrefl 0)

section
variable (h : Hub)

/-- The slots free for the grants of the period, lowest first (R97). -/
def Hub.freeNow : List FillSlot := FillSlot.all.filter fun i => ((h.keptSlots.get i).bind HeldSlot.advanced).isNone

/-- The number of grants of the period (R97). -/
def Hub.grantsNow : Nat := if h.level.cut = true then 0 else min h.queued.length h.freeNow.length

/-- A circuit after the grants (R97). -/
def Hub.closing (c : Circuit) : CircuitLevel :=
  if (h.queued.take h.grantsNow).any (fun e => e.circuit == c) = true then { h.finished c with action := .fill } else h.finished c

/-- Circuits, slots, queue and section heights at the hand-over (R93, R97). -/
structure Hub.WorkedTo (w : Hub) : Prop where
  circuit  : ∀ c, w.circuit c = h.closing c
  queue    : w.level.queue = h.queued.drop h.grantsNow
  grants   : w.level.grants = h.level.grants + BitVec.ofNat 16 h.grantsNow
  taken    : ∀ k e i, k < h.grantsNow → h.queued[k]? = some e → h.freeNow[k]? = some i →
    w.level.slots.get i = some ⟨e.circuit, 0, h.level.grants + BitVec.ofNat 16 k, e.cls⟩
  spare    : ∀ k i, h.grantsNow ≤ k → h.freeNow[k]? = some i → w.level.slots.get i = none
  held     : ∀ i x, (h.keptSlots.get i).bind HeldSlot.advanced = some x → w.level.slots.get i = some x
  cut      : w.level.cut = h.level.cut ∧ w.level.cutCause = h.level.cutCause
  sections : w.level.mismatch = h.sectioned.level.mismatch ∧ w.level.front = h.sectioned.level.front ∧
    w.level.middle = h.sectioned.level.middle ∧ w.level.rear = h.sectioned.level.rear

/-- The levelling unit's own fields under a grant. -/
theorem Hub.grant_still (h : Hub) : h.grant.level.cut = h.level.cut ∧ h.grant.level.cutCause = h.level.cutCause ∧
    h.grant.level.mismatch = h.level.mismatch ∧ h.grant.level.front = h.level.front ∧
    h.grant.level.middle = h.level.middle ∧ h.grant.level.rear = h.level.rear ∧ h.grant.level.periods = h.level.periods := by
  have hm := h.grant_measured
  exact ⟨(congrArg Levelling.cut hm :), (congrArg Levelling.cutCause hm :), (congrArg Levelling.mismatch hm :),
    (congrArg Levelling.front hm :), (congrArg Levelling.middle hm :), (congrArg Levelling.rear hm :),
    (congrArg Levelling.periods hm :)⟩

theorem Hub.levellingWork_spec : h.WorkedTo h.levellingWork ∧
    (∀ c, (h.levellingWork.link.valves.get c).image = valveOf (h.closing c).action) ∧
    (∀ c, h.levellingWork.kneel.errors.get c = if h.inScope c = true then ⟨(h.closing c).error, h.band (h.closing c)⟩ else ⟨none, 0⟩) ∧
    (h.level.Form → ∀ e ∈ h.queued, (h.finished e.circuit).action = .fillWait) ∧
    h.levellingWork.level.periods = h.level.periods := by
  obtain ⟨g, hg, hscene, hcircuit, hslots, hqueue, hform⟩ := h.starts_spec
  obtain ⟨-, -, -, bcut, bcause, bgrants, bperiods⟩ := h.sectioned_spec
  have hfree : g.level.free = h.freeNow := by
    rw [Levelling.free, Hub.freeNow]
    exact List.filter_congr fun i _ => by rw [hslots]
  have hcut : g.level.cut = h.level.cut := hscene.cut.trans bcut
  obtain ⟨rqueue, rgrants, rtaken, rspare, rheld, rcircuit⟩ := g.grant_granted
  rw [hqueue, hfree, hcut, show (if h.level.cut = true then 0 else min h.queued.length h.freeNow.length) = h.grantsNow from rfl] at rqueue rgrants rtaken rspare rcircuit
  obtain ⟨gcut, gcause, gmismatch, gfront, gmiddle, grear, gperiods⟩ := g.grant_still
  obtain ⟨sfront, smiddle, srear⟩ := hscene.sections
  have hclosing (c : Circuit) : g.grant.circuit c = h.closing c := by
    rw [rcircuit, hcircuit, Hub.closing]
  have hstore : g.grant.writeValves.store = h.store := by
    obtain ⟨-, bstore, -⟩ := h.sectioned_scene
    simpa using hscene.store.trans bstore
  rw [hg]
  refine ⟨⟨hclosing, rqueue, ?_, fun k e i hk he hi => ?_, rspare, fun i x hx => ?_, ⟨gcut.trans hcut, gcause.trans ?_⟩,
    gmismatch.trans ?_, gfront.trans ?_, gmiddle.trans ?_, grear.trans ?_⟩, fun c => ?_, fun c => ?_, fun hf e he => ?_,
    gperiods.trans ?_⟩
  · exact rgrants.trans (by rw [hscene.grants, bgrants])
  · exact (rtaken k e i hk he hi).trans (by rw [hscene.grants, bgrants])
  · exact rheld i x ((hslots i).trans hx)
  · exact hscene.cutCause.trans bcause
  · exact hscene.mismatch
  · exact sfront
  · exact smiddle
  · exact srear
  · have hshown := g.grant.writeValves_shown c
    rw [show g.grant.writeValves.circuit c = h.closing c from hclosing c] at hshown
    exact hshown
  · have herrors : (g.grant.writeValves.handErrors.kneel.errors.get c) =
        if g.grant.writeValves.inScope c then ⟨(g.grant.circuit c).error, g.grant.writeValves.band (g.grant.circuit c)⟩
        else ⟨none, 0⟩ := PerCircuit.get_tab _ c
    rw [herrors, hclosing, Hub.inScope_of_store hstore, Hub.band_of_store hstore]
  · rw [← hcircuit]
    exact (hform hf).agrees.queued (hqueue ▸ he)
  · exact hscene.periods.trans bperiods

end


end Sys2Proof.Machine
end

section
/-! PROOFS. What a levelling period leaves of one circuit, by its action state and its deviation: O47, O48. -/

namespace Sys2Proof.Machine

/-! ## What no stage behind the sample changes -/

/-- A circuit without action state, persistence count, direction and hold reason. -/
def CircuitLevel.plain (x : CircuitLevel) : CircuitLevel := { x.measured with direction := .low }

theorem Hub.stopsOn_plain (b : Hub) (c : Circuit) (x : CircuitLevel) : (b.stopsOn c x).plain = x.plain := by
  have hended : (b.pauseEnded c x).plain = x.plain := by
    unfold Hub.pauseEnded
    split <;> rfl
  have hpaused (y : CircuitLevel) : (b.mismatched c y).plain = y.plain := by
    unfold Hub.mismatched
    (repeat' split) <;> rfl
  have hwait (y : CircuitLevel) : (b.waitStopped y).plain = y.plain := by
    unfold Hub.waitStopped
    split <;> rfl
  have hrun (y : CircuitLevel) : (b.runStopped y).plain = y.plain := by
    unfold Hub.runStopped
    split <;> rfl
  rw [Hub.stopsOn, hrun, hwait, hpaused, hended]

theorem Hub.counted94_plain (b : Hub) (d : Deviation) (x : CircuitLevel) : (b.counted94 d x).plain = x.plain := by
  unfold Hub.counted94
  split <;> rfl

theorem Hub.started_plain (b : Hub) (left : Bool) (x : CircuitLevel) : (b.started left x).plain = x.plain := by
  unfold Hub.started
  split
  · cases x.deviation (b.band x) with
    | none => rfl
    | some d =>
      dsimp only [Option.elim]
      split
      · exact b.counted94_plain d x
      · exact b.counted94_plain d x
  · rfl

theorem Hub.exited_plain (b : Hub) (c : Circuit) (x : CircuitLevel) : (b.exited c x).plain = x.plain := by
  unfold Hub.exited
  split <;> rfl

/-- Ring, height, target, source, error and causes are those of the sample (R91, R92). -/
theorem Hub.closing_plain (h : Hub) (c : Circuit) : (h.closing c).plain = ((h.circuit c).sample (h.heightSample c)).plain := by
  have hplain (p : Prop) [Decidable p] (x : CircuitLevel) (a : Action) : (if p then { x with action := a } else x).plain = x.plain := by
    split <;> rfl
  rw [Hub.closing, hplain, Hub.finished, Hub.started_plain, Hub.limited, hplain, Hub.settled, Hub.stopsOn_plain, Hub.entered,
    Hub.exited_plain]

/-- The values of a circuit by which the stages judge it. -/
theorem CircuitLevel.of_plain {x y : CircuitLevel} (hp : x.plain = y.plain) : x.ring = y.ring ∧ x.height = y.height ∧
    x.target = y.target ∧ x.source = y.source ∧ x.error = y.error ∧ x.causes = y.causes :=
  ⟨(congrArg CircuitLevel.ring hp :), (congrArg CircuitLevel.height hp :), (congrArg CircuitLevel.target hp :),
    (congrArg CircuitLevel.source hp :), (congrArg CircuitLevel.error hp :), (congrArg CircuitLevel.causes hp :)⟩

/-! ## The units a period reads -/

/-- Bands, sides, standstill and the inhibition rest on store, sensing unit and taken deceleration alone. -/
theorem Hub.reads_of_units {h g : Hub} (hstore : g.store = h.store) (hsensing : g.sensing = h.sensing)
    (hbase : g.brake.base = h.brake.base) : (∀ x, g.band x = h.band x) ∧ (∀ c, g.onDoorSide c = h.onDoorSide c) ∧
    g.standing = h.standing ∧ g.startsInhibited = h.startsInhibited ∧ (∀ x, g.atOnce x = h.atOnce x) := by
  have hstanding : g.standing = h.standing := by rw [Hub.standing, hsensing, Hub.standing]
  have hdecel : g.brake.decel = h.brake.decel :=
    show g.brake.base.decel = h.brake.base.decel from congrArg Brake.decel hbase
  refine ⟨Hub.band_of_store hstore, fun c => ?_, hstanding, ?_, fun x => ?_⟩
  · simp only [Hub.onDoorSide, Hub.sideLeft, Hub.item_of_store hstore]
  · rw [Hub.startsInhibited, hstanding, hdecel, Hub.startsInhibited]
  · rw [Hub.atOnce, hstanding, Hub.atOnce]

theorem Hub.sectioned_reads (h : Hub) : (∀ x, h.sectioned.band x = h.band x) ∧ (∀ c, h.sectioned.onDoorSide c = h.onDoorSide c) ∧
    h.sectioned.standing = h.standing ∧ h.sectioned.startsInhibited = h.startsInhibited ∧ (∀ x, h.sectioned.atOnce x = h.atOnce x) := by
  obtain ⟨-, hstore, hsensing, hbase⟩ := h.sectioned_scene
  exact Hub.reads_of_units hstore hsensing hbase

/-! ## A circuit that ends its period in HOLD, or waits -/

section
variable {h : Hub} {c : Circuit}

theorem Hub.started_action_of_left (b : Hub) (x : CircuitLevel) : (b.started true x).action = x.action := by
  unfold Hub.started
  split
  · cases x.deviation (b.band x) with
    | none => rfl
    | some d =>
      have hno : b.begins true d x = false := by rw [Hub.begins, Bool.not_true, Bool.and_false]
      dsimp only [Option.elim]
      rw [if_neg (by rw [hno]; exact Bool.false_ne_true)]
      exact (b.counted94_action d x).1
  · rfl

/-- A circuit that left its action does not start another in the same period (R93, R94). -/
theorem Hub.finished_of_left (hl : h.leftNow c = true) : (h.finished c).action = .hold := by
  have hlate : ¬h.isLate c = true := fun hc => Bool.noConfusion ((h.isLate_kept hc).symm.trans hl)
  obtain ⟨-, hhold⟩ := (Bool.and_eq_true _ _).mp hl
  rw [Hub.finished, hl, Hub.started_action_of_left, Hub.limited, if_neg hlate]
  exact beq_iff_eq.mp hhold

/-- A circuit that does not wait takes no grant (R97). -/
theorem Hub.closing_of_not_waiting (hf : h.level.Form) (hw : (h.finished c).action ≠ .fillWait) : h.closing c = h.finished c := by
  obtain ⟨-, -, -, hqueued, -⟩ := h.levellingWork_spec
  refine if_neg fun hany => ?_
  obtain ⟨e, he, hec⟩ := List.any_eq_true.mp hany
  obtain rfl := beq_iff_eq.mp hec
  exact hw (hqueued hf e (List.mem_of_mem_take he))

/-- A circuit that waits fills at once, where it is granted a slot. -/
theorem Hub.closing_of_waiting (hw : (h.finished c).action = .fillWait) :
    (h.closing c).action = .fill ∨ (h.closing c).action = .fillWait := by
  unfold Hub.closing
  split
  · exact .inl rfl
  · exact .inr hw

theorem Hub.closing_of_left (hf : h.level.Form) (hl : h.leftNow c = true) :
    h.closing c = h.finished c ∧ (h.closing c).action = .hold := by
  have hhold := Hub.finished_of_left hl
  have hsame := Hub.closing_of_not_waiting hf (by rw [hhold]; exact nofun)
  exact ⟨hsame, hsame ▸ hhold⟩

/-- A slot's circuit fills (R90). -/
theorem Levelling.Agrees.filling {u : Levelling} (hu : u.Agrees) {i : FillSlot} {x : HeldSlot} (hx : u.slots.get i = some x) :
    (u.circuits.get x.circuit).action = .fill := by
  by_contra hne
  have hpos := Levelling.holdings_pos.mpr ⟨i, Levelling.holder_eq_some.mpr ⟨x, hx, rfl⟩⟩
  rw [hu.holds, if_neg hne] at hpos
  exact absurd hpos (Nat.lt_irrefl 0)

/-- A circuit whose slot reaches its limit filled before the period. -/
theorem Hub.filling_of_late (hf : h.level.Form) (hc : h.isLate c = true) : (h.circuit c).action = .fill := by
  obtain ⟨x, hx, hxc⟩ := List.any_eq_true.mp hc
  obtain ⟨-, -, i, hi⟩ := h.lateNow_kept hx
  obtain rfl := beq_iff_eq.mp hxc
  exact hf.agrees.filling hi

theorem Hub.limited_of_not_filling (hf : h.level.Form) (ha : (h.circuit c).action ≠ .fill) : h.limited c = h.settled c :=
  if_neg fun hc => ha (Hub.filling_of_late hf hc)

theorem Hub.entered_of_kept (hx : ¬((h.circuit c).action = .excluded ∧ (h.circuit c).causes.any = false)) :
    h.entered c = (h.circuit c).sample (h.heightSample c) := if_neg hx

end

/-! ## The mismatch hold and the stops, action by action -/

section
variable {b : Hub} {c : Circuit} {x : CircuitLevel}

theorem Hub.pauseEnded_action : (b.pauseEnded c x).action = x.action ∧ (b.pauseEnded c x).plain = x.plain ∧
    (b.pauseEnded c x).count = x.count ∧ (b.pauseEnded c x).direction = x.direction := by
  unfold Hub.pauseEnded
  split <;> exact ⟨rfl, rfl, rfl, rfl⟩

/-- The mismatch hold sets a circuit to HOLD with its reason, or leaves it. -/
theorem Hub.mismatched_cases : (b.mismatched c x = { x with action := .hold, reason := .mismatchVent } ∧
      b.level.mismatch = true ∧ b.onDoorSide c = true ∧ b.wantsVent x = true ∧ b.standsLower c = true) ∨
    (b.mismatched c x = { x with action := .hold, reason := .mismatchFill } ∧
      b.level.mismatch = true ∧ b.onDoorSide c = true ∧ b.wantsFill x = true ∧ b.standsHigher c = true) ∨
    b.mismatched c x = x := by
  unfold Hub.mismatched
  split
  · next hv =>
    simp only [Bool.and_eq_true] at hv
    exact .inl ⟨rfl, hv.1.1.1, hv.1.1.2, hv.1.2, hv.2⟩
  · split
    · next hf =>
      simp only [Bool.and_eq_true] at hf
      exact .inr (.inl ⟨rfl, hf.1.1.1, hf.1.1.2, hf.1.2, hf.2⟩)
    · exact .inr (.inr rfl)

theorem Hub.mismatched_vent (hm : b.level.mismatch = true) (hd : b.onDoorSide c = true) (hw : b.wantsVent x = true)
    (hl : b.standsLower c = true) : b.mismatched c x = { x with action := .hold, reason := .mismatchVent } :=
  if_pos (by rw [hm, hd, hw, hl]; rfl)

theorem Hub.mismatched_fill (hm : b.level.mismatch = true) (hd : b.onDoorSide c = true) (hv : b.wantsVent x = false)
    (hw : b.wantsFill x = true) (hl : b.standsHigher c = true) :
    b.mismatched c x = { x with action := .hold, reason := .mismatchFill } :=
  (if_neg (by rw [hv, Bool.and_false, Bool.false_and]; exact Bool.false_ne_true)).trans (if_pos (by rw [hm, hd, hw, hl]; rfl))

/-- A circuit in HOLD, or EXCLUDED, is behind the mismatch hold not stopped. -/
theorem Hub.stopped_of_still (hx : x.action = .hold ∨ x.action = .excluded) : b.runStopped (b.waitStopped x) = x := by
  have hwait : b.waitStopped x = x := if_neg fun hboth => by rcases hx with hx | hx <;> rw [hx] at hboth <;> exact Action.noConfusion hboth.1
  rw [hwait]
  refine if_neg fun hor => ?_
  rcases hx with hx | hx <;> rcases hor with hboth | hboth <;> rw [hx] at hboth <;> exact Action.noConfusion hboth.1

end

/-! ## Stops (R95, R101) -/

section
variable {h : Hub} {c : Circuit}

/-- The error a circuit is judged by in a period (R92). -/
theorem Hub.closing_error (x : CircuitLevel) (hx : x.plain = ((h.circuit c).sample (h.heightSample c)).plain) :
    x.error = (h.closing c).error ∧ h.sectioned.band x = h.band (h.circuit c) := by
  obtain ⟨-, -, -, hsource, herror, -⟩ := CircuitLevel.of_plain hx
  obtain ⟨-, -, -, -, herror', -⟩ := CircuitLevel.of_plain (h.closing_plain c)
  obtain ⟨hband, -⟩ := h.sectioned_reads
  refine ⟨herror.trans herror'.symm, (hband x).trans ?_⟩
  rw [Hub.band, hsource]
  rfl

/-- A stop's judgement of a fill and of a vent, by the period's error (R95). -/
theorem Hub.done_iff (x : CircuitLevel) (hx : x.plain = ((h.circuit c).sample (h.heightSample c)).plain) :
    (h.sectioned.fillDone x = true ↔ ∃ e, (h.closing c).error = some e ∧ -(h.band (h.circuit c)).tdiv 2 ≤ e) ∧
    (h.sectioned.ventDone x = true ↔ ∃ e, (h.closing c).error = some e ∧ e ≤ (h.band (h.circuit c)).tdiv 2) := by
  obtain ⟨herror, hband⟩ := Hub.closing_error x hx
  rw [Hub.fillDone, Hub.ventDone, Hub.halfBand, hband, herror]
  cases (h.closing c).error with
  | none => exact ⟨⟨nofun, nofun⟩, ⟨nofun, nofun⟩⟩
  | some e =>
    refine ⟨⟨fun hd => ⟨e, rfl, of_decide_eq_true hd⟩, ?_⟩, ⟨fun hd => ⟨e, rfl, of_decide_eq_true hd⟩, ?_⟩⟩ <;>
      rintro ⟨_, he, hle⟩ <;> cases he <;> exact decide_eq_true hle

/-- The mismatch hold judges a circuit by its sample, while the circuit acts. -/
theorem Hub.settled_of_running (hr : (h.circuit c).action.runs = true) :
    ∃ x : CircuitLevel, x.plain = ((h.circuit c).sample (h.heightSample c)).plain ∧ x.action = (h.circuit c).action ∧
      h.settled c = h.sectioned.runStopped (h.sectioned.waitStopped (h.sectioned.mismatched c x)) := by
  have hentered : h.entered c = (h.circuit c).sample (h.heightSample c) :=
    Hub.entered_of_kept fun hboth => by rw [hboth.1] at hr; exact Bool.noConfusion hr
  obtain ⟨haction, hplain, -⟩ := Hub.pauseEnded_action (b := h.sectioned) (c := c) (x := h.entered c)
  refine ⟨h.sectioned.pauseEnded c (h.entered c), hplain.trans (by rw [hentered]), haction.trans (by rw [hentered]; rfl), rfl⟩

theorem Hub.leftNow_of_running (hr : (h.circuit c).action.runs = true) (hs : (h.settled c).action = .hold) : h.leftNow c = true := by
  rw [Hub.leftNow, CircuitLevel.leaves, h.entered_runs, hr, hs]
  rfl

/-- An action whose error has come to half its band ends in HOLD (R95). -/
theorem Hub.closing_of_done (hf : h.level.Form)
    (hx : ((h.circuit c).action = .fill ∨ (h.circuit c).action = .fillWait) ∧
        (∃ e, (h.closing c).error = some e ∧ -(h.band (h.circuit c)).tdiv 2 ≤ e) ∨
      (h.circuit c).action = .vent ∧ ∃ e, (h.closing c).error = some e ∧ e ≤ (h.band (h.circuit c)).tdiv 2) :
    (h.closing c).action = .hold := by
  have hr : (h.circuit c).action.runs = true := by
    rcases hx with ⟨hx | hx, -⟩ | ⟨hx, -⟩ <;> rw [hx] <;> rfl
  obtain ⟨x, hplain, haction, hsettled⟩ := Hub.settled_of_running hr
  obtain ⟨hfill, hvent⟩ := Hub.done_iff x hplain
  refine (Hub.closing_of_left hf (Hub.leftNow_of_running hr ?_)).2
  rw [hsettled]
  obtain ⟨hm, -⟩ | ⟨hm, -⟩ | hm := Hub.mismatched_cases (b := h.sectioned) (c := c) (x := x) <;> rw [hm]
  · rw [Hub.stopped_of_still (.inl rfl)]
  · rw [Hub.stopped_of_still (.inl rfl)]
  · rcases hx with ⟨hx | hx, hdone⟩ | ⟨hx, hdone⟩ <;> rw [hx] at haction
    · have hwait : h.sectioned.waitStopped x = x := if_neg fun hboth => Action.noConfusion (haction.symm.trans hboth.1)
      rw [hwait, Hub.runStopped, if_pos (.inl ⟨haction, hfill.mpr hdone⟩)]
    · have hwait : h.sectioned.waitStopped x = { x with action := .hold } := if_pos ⟨haction, hfill.mpr hdone⟩
      rw [hwait, Hub.runStopped, if_neg (by rintro (hboth | hboth) <;> exact Action.noConfusion hboth.1)]
    · have hwait : h.sectioned.waitStopped x = x := if_neg fun hboth => Action.noConfusion (haction.symm.trans hboth.1)
      rw [hwait, Hub.runStopped, if_pos (.inr ⟨haction, hvent.mpr hdone⟩)]

theorem Hub.started_of_held (b : Hub) (left : Bool) {x : CircuitLevel} (hx : ¬(x.action = .hold ∧ x.reason = .none)) :
    b.started left x = x := if_neg fun hall => hx ⟨hall.1, hall.2.1⟩

/-- A circuit that the mismatch hold takes out of its action ends the period paused (R101). -/
theorem Hub.closing_of_paused (hf : h.level.Form) {y : CircuitLevel} (hs : h.settled c = y) (hy : y.action = .hold)
    (hr : y.reason ≠ .none) (hx : (h.circuit c).action.runs = true ∨ (h.circuit c).action ≠ .fill) : h.closing c = y := by
  have hlimited : h.limited c = y := by
    rcases hx with hx | hx
    · have hleft := Hub.leftNow_of_running hx (by rw [hs]; exact hy)
      exact (if_neg fun hc => Bool.noConfusion ((h.isLate_kept hc).symm.trans hleft)).trans hs
    · exact (Hub.limited_of_not_filling hf hx).trans hs
  have hfinished : h.finished c = y := by
    rw [Hub.finished, hlimited]
    exact Hub.started_of_held _ _ fun hboth => hr hboth.2
  rw [Hub.closing_of_not_waiting hf (by rw [hfinished, hy]; exact nofun), hfinished]

/-- A venting circuit whose section stands low is paused (R101). -/
theorem Hub.closing_of_venting (hf : h.level.Form) (hm : h.sectioned.level.mismatch = true) (hd : h.onDoorSide c = true)
    (hl : h.sectioned.standsLower c = true) (hx : (h.circuit c).action = .vent) :
    (h.closing c).action = .hold ∧ (h.closing c).reason = .mismatchVent := by
  have hr : (h.circuit c).action.runs = true := by rw [hx]; rfl
  obtain ⟨x, -, haction, hsettled⟩ := Hub.settled_of_running hr
  obtain ⟨-, hside, -⟩ := h.sectioned_reads
  have hw : h.sectioned.wantsVent x = true := by rw [Hub.wantsVent, haction, hx]; rfl
  rw [Hub.mismatched_vent hm ((hside c).trans hd) hw hl, Hub.stopped_of_still (.inl rfl)] at hsettled
  rw [Hub.closing_of_paused hf hsettled rfl nofun (.inl hr)]
  exact ⟨rfl, rfl⟩

/-- A filling or waiting circuit whose section stands high is paused (R101). -/
theorem Hub.closing_of_lifting (hf : h.level.Form) (hm : h.sectioned.level.mismatch = true) (hd : h.onDoorSide c = true)
    (hl : h.sectioned.standsHigher c = true) (hx : (h.circuit c).action = .fill ∨ (h.circuit c).action = .fillWait) :
    (h.closing c).action = .hold ∧ (h.closing c).reason = .mismatchFill := by
  have hr : (h.circuit c).action.runs = true := by rcases hx with hx | hx <;> rw [hx] <;> rfl
  obtain ⟨x, -, haction, hsettled⟩ := Hub.settled_of_running hr
  obtain ⟨-, hside, -⟩ := h.sectioned_reads
  have hdev : x.deviation (h.sectioned.band x) = none := if_neg fun hboth => by
    rcases hx with hx | hx <;> exact Action.noConfusion (hboth.1.symm.trans (haction.trans hx))
  have hv : h.sectioned.wantsVent x = false := by
    rw [Hub.wantsVent, hdev, haction]
    rcases hx with hx | hx <;> rw [hx] <;> rfl
  have hw : h.sectioned.wantsFill x = true := by
    rw [Hub.wantsFill, hdev, haction]
    rcases hx with hx | hx <;> rw [hx] <;> rfl
  rw [Hub.mismatched_fill hm ((hside c).trans hd) hv hw hl, Hub.stopped_of_still (.inl rfl)] at hsettled
  rw [Hub.closing_of_paused hf hsettled rfl nofun (.inl hr)]
  exact ⟨rfl, rfl⟩

/-- Wherever a circuit's hold reason is not NONE it neither vents nor fills from HOLD (R94, R101). -/
theorem Hub.wants_of_held (b : Hub) {x : CircuitLevel} (ha : x.action = .hold ∨ x.action = .excluded)
    (hr : x.action = .hold → x.reason ≠ .none) : b.wantsVent x = false ∧ b.wantsFill x = false := by
  have hdev : x.deviation (b.band x) = none := if_neg fun hboth => hr hboth.1 hboth.2
  rw [Hub.wantsVent, Hub.wantsFill, hdev]
  rcases ha with ha | ha <;> rw [ha] <;> exact ⟨rfl, rfl⟩

theorem Hub.mismatched_of_not_wanting {b : Hub} {x : CircuitLevel} (hv : b.wantsVent x = false) (hw : b.wantsFill x = false) :
    b.mismatched c x = x := by
  obtain ⟨-, -, -, hyes, -⟩ | ⟨-, -, -, hyes, -⟩ | hm := Hub.mismatched_cases (b := b) (c := c) (x := x)
  · exact Bool.noConfusion (hv.symm.trans hyes)
  · exact Bool.noConfusion (hw.symm.trans hyes)
  · exact hm

/-- A circuit that is held, or EXCLUDED, before the mismatch hold goes through the period as it is (R94, R101). -/
theorem Hub.closing_of_held (hf : h.level.Form) {y : CircuitLevel} (hy : h.sectioned.pauseEnded c (h.entered c) = y)
    (ha : y.action = .hold ∨ y.action = .excluded) (hr : y.action = .hold → y.reason ≠ .none) (hx : (h.circuit c).action ≠ .fill) :
    h.closing c = y := by
  obtain ⟨hv, hw⟩ := h.sectioned.wants_of_held ha hr
  have hsettled : h.settled c = y := by
    rw [Hub.settled, Hub.stopsOn, hy, Hub.mismatched_of_not_wanting hv hw, Hub.stopped_of_still ha]
  have hfinished : h.finished c = y := by
    rw [Hub.finished, Hub.limited_of_not_filling hf hx, hsettled]
    exact Hub.started_of_held _ _ fun hboth => hr hboth.1 hboth.2
  have hwait : y.action ≠ .fillWait := by rcases ha with ha | ha <;> rw [ha] <;> exact nofun
  rw [Hub.closing_of_not_waiting hf (by rw [hfinished]; exact hwait), hfinished]

/-- An EXCLUDED circuit with a cause left stays EXCLUDED (R103, R104). -/
theorem Hub.closing_of_excluded (hf : h.level.Form) (hx : (h.circuit c).action = .excluded) (hc : (h.circuit c).causes.any = true) :
    (h.closing c).action = .excluded := by
  have hentered : h.entered c = (h.circuit c).sample (h.heightSample c) :=
    Hub.entered_of_kept fun hboth => Bool.noConfusion (hboth.2.symm.trans hc)
  obtain ⟨haction, -⟩ := Hub.pauseEnded_action (b := h.sectioned) (c := c) (x := h.entered c)
  have hstays : (h.sectioned.pauseEnded c (h.entered c)).action = .excluded := haction.trans (by rw [hentered]; exact hx)
  rw [Hub.closing_of_held hf rfl (.inr hstays) (fun hhold => Action.noConfusion (hhold.symm.trans hstays)) (by rw [hx]; exact nofun)]
  exact hstays

end


/-! ## A circuit that rests in HOLD (R94, R101) -/

section
variable {h : Hub} {c : Circuit}

/-- A circuit in HOLD that no pause and no stopped kneel holds when the period judges it (R94, R101). -/
def Hub.Rests (h : Hub) (c : Circuit) : Prop :=
  (h.circuit c).action = .hold ∧ ((h.circuit c).reason = .none ∨
    ((h.circuit c).reason = .mismatchVent ∧ (h.sectioned.level.mismatch && h.sectioned.standsLower c) = false) ∨
    ((h.circuit c).reason = .mismatchFill ∧ (h.sectioned.level.mismatch && h.sectioned.standsHigher c) = false))

/-- Such a circuit as the mismatch hold and the starts judge it. -/
def Hub.rested (h : Hub) (c : Circuit) : CircuitLevel := { (h.circuit c).sample (h.heightSample c) with reason := .none }

/-- The deviation of such a circuit (R94). -/
def Hub.restDeviation (h : Hub) (c : Circuit) : Option Deviation :=
  (h.closing c).error.bind (deviationOf (h.band (h.circuit c)))

theorem Hub.rests_judged (hr : h.Rests c) : h.sectioned.pauseEnded c (h.entered c) = h.rested c ∧
    (h.rested c).deviation (h.sectioned.band (h.rested c)) = h.restDeviation c ∧
    (h.rested c).error = (h.closing c).error ∧ h.leftNow c = false := by
  obtain ⟨ha, hfree⟩ := hr
  have hentered : h.entered c = (h.circuit c).sample (h.heightSample c) :=
    Hub.entered_of_kept fun hboth => Action.noConfusion (ha.symm.trans hboth.1)
  obtain ⟨herror, hband⟩ := Hub.closing_error (h := h) (c := c) (h.rested c) rfl
  have hhold : (h.rested c).action = .hold := ha
  refine ⟨?_, ?_, herror, ?_⟩
  · rw [hentered]
    rcases hfree with hnone | hended
    · have hsame : h.rested c = (h.circuit c).sample (h.heightSample c) := by
        rw [Hub.rested, ← hnone]
        rfl
      rw [hsame]
      refine if_neg fun hor => ?_
      rcases hor with hor | hor <;> exact HoldReason.noConfusion (hnone.symm.trans hor.1)
    · exact if_pos hended
  · rw [CircuitLevel.deviation, if_pos ⟨hhold, rfl⟩, hband, herror, Hub.restDeviation]
  · rw [Hub.leftNow, CircuitLevel.leaves, h.entered_runs, ha]
    rfl

theorem Hub.rests_wants (hr : h.Rests c) : h.sectioned.wantsVent (h.rested c) = (h.restDeviation c == some .high) ∧
    h.sectioned.wantsFill (h.rested c) = (h.restDeviation c == some .low) := by
  obtain ⟨-, hdev, -⟩ := Hub.rests_judged hr
  have hhold : (h.rested c).action = .hold := hr.1
  rw [Hub.wantsVent, Hub.wantsFill, hdev, hhold]
  exact ⟨rfl, rfl⟩

/-- A pause takes a resting circuit that deviates in the sense its section stands out of line (R101). -/
theorem Hub.closing_of_rest_paused (hf : h.level.Form) (hr : h.Rests c) (hm : h.sectioned.level.mismatch = true)
    (hd : h.onDoorSide c = true) :
    (h.restDeviation c = some .high → h.sectioned.standsLower c = true →
      (h.closing c).action = .hold ∧ (h.closing c).reason = .mismatchVent) ∧
    (h.restDeviation c = some .low → h.sectioned.standsHigher c = true →
      (h.closing c).action = .hold ∧ (h.closing c).reason = .mismatchFill) := by
  obtain ⟨hended, -⟩ := Hub.rests_judged hr
  obtain ⟨hv, hw⟩ := Hub.rests_wants hr
  obtain ⟨-, hside, -⟩ := h.sectioned_reads
  have hx : (h.circuit c).action ≠ .fill := by rw [hr.1]; exact nofun
  refine ⟨fun hdev hl => ?_, fun hdev hl => ?_⟩
  · have hsettled : h.settled c = { h.rested c with action := .hold, reason := .mismatchVent } := by
      rw [Hub.settled, Hub.stopsOn, hended, Hub.mismatched_vent hm ((hside c).trans hd) (by rw [hv, hdev]; rfl) hl,
        Hub.stopped_of_still (.inl rfl)]
    rw [Hub.closing_of_paused hf hsettled rfl nofun (.inr hx)]
    exact ⟨rfl, rfl⟩
  · have hsettled : h.settled c = { h.rested c with action := .hold, reason := .mismatchFill } := by
      rw [Hub.settled, Hub.stopsOn, hended, Hub.mismatched_fill hm ((hside c).trans hd) (by rw [hv, hdev]; rfl)
        (by rw [hw, hdev]; rfl) hl, Hub.stopped_of_still (.inl rfl)]
    rw [Hub.closing_of_paused hf hsettled rfl nofun (.inr hx)]
    exact ⟨rfl, rfl⟩

/-- No pause takes this circuit (R101). -/
def Hub.Unpaused (h : Hub) (c : Circuit) : Prop :=
  (h.restDeviation c = some .high → (h.sectioned.level.mismatch && h.onDoorSide c && h.sectioned.standsLower c) = false) ∧
  (h.restDeviation c = some .low → (h.sectioned.level.mismatch && h.onDoorSide c && h.sectioned.standsHigher c) = false)

/-- A resting circuit that no pause takes comes to the starts (R94). -/
theorem Hub.finished_of_rest (hf : h.level.Form) (hr : h.Rests c) (hu : h.Unpaused c) :
    h.finished c = h.sectioned.started false (h.rested c) := by
  obtain ⟨hended, -, -, hleft⟩ := Hub.rests_judged hr
  obtain ⟨hv, hw⟩ := Hub.rests_wants hr
  obtain ⟨-, hside, -⟩ := h.sectioned_reads
  have hx : (h.circuit c).action ≠ .fill := by rw [hr.1]; exact nofun
  have hmismatched : h.sectioned.mismatched c (h.rested c) = h.rested c := by
    obtain ⟨-, hm, hd, hwv, hl⟩ | ⟨-, hm, hd, hwf, hl⟩ | hm := Hub.mismatched_cases (b := h.sectioned) (c := c) (x := h.rested c)
    · have hno := hu.1 (beq_iff_eq.mp (hv.symm.trans hwv))
      rw [hm, ← hside, hd, hl] at hno
      exact Bool.noConfusion hno
    · have hno := hu.2 (beq_iff_eq.mp (hw.symm.trans hwf))
      rw [hm, ← hside, hd, hl] at hno
      exact Bool.noConfusion hno
    · exact hm
  rw [Hub.finished, hleft, Hub.limited_of_not_filling hf hx, Hub.settled, Hub.stopsOn, hended, hmismatched,
    Hub.stopped_of_still (x := h.rested c) (.inl hr.1)]

/-- A resting circuit without a deviation stays in HOLD (R94). -/
theorem Hub.closing_of_rest_within (hf : h.level.Form) (hr : h.Rests c) (hd : h.restDeviation c = none) :
    (h.closing c).action = .hold ∧ ((h.closing c).error ≠ none → (h.closing c).count = 0) := by
  obtain ⟨-, hdev, herror, -⟩ := Hub.rests_judged hr
  have hfinished := Hub.finished_of_rest hf hr ⟨fun hh => absurd (hd.symm.trans hh) nofun,
    fun hl => absurd (hd.symm.trans hl) nofun⟩
  have hcases : h.finished c = if (h.rested c).error.isSome = true then { h.rested c with count := 0 } else h.rested c := by
    rw [hfinished, Hub.started, hdev, hd]
    exact if_congr ⟨fun hall => hall.2.2, fun he => ⟨hr.1, rfl, he⟩⟩ rfl rfl
  have haction : (h.finished c).action = .hold := by
    rw [hcases]
    split <;> exact hr.1
  have hsame := Hub.closing_of_not_waiting hf (by rw [haction]; exact nofun)
  refine ⟨hsame ▸ haction, fun he => ?_⟩
  have hsome : (h.rested c).error.isSome = true := by rw [herror, Option.isSome_iff_ne_none]; exact he
  rw [hsame, hcases, if_pos hsome]

/-- A resting circuit with a deviation, which no pause takes: it starts or counts (R94). -/
theorem Hub.finished_of_rest_deviating (hf : h.level.Form) (hr : h.Rests c) (hu : h.Unpaused c) {d : Deviation}
    (hd : h.restDeviation c = some d) : h.finished c =
      if h.sectioned.begins false d (h.rested c) = true then
        { h.sectioned.counted94 d (h.rested c) with count := 0, action := d.begun }
      else h.sectioned.counted94 d (h.rested c) := by
  obtain ⟨-, hdev, herror, -⟩ := Hub.rests_judged hr
  have hsome : (h.rested c).error.isSome = true := by
    rw [herror]
    cases he : (h.closing c).error with
    | none => rw [Hub.restDeviation, he] at hd; exact nomatch hd
    | some e => rfl
  rw [Hub.finished_of_rest hf hr hu, Hub.started, if_pos ⟨hr.1, rfl, hsome⟩, hdev, hd,
    Option.elim_some]

/-- What a start leaves: VENT for a high deviation, FILL_WAIT or FILL for a low one (R94, R97). -/
theorem Hub.closing_of_begun (hf : h.level.Form) {y : CircuitLevel} {d : Deviation}
    (hy : h.finished c = { y with count := 0, action := d.begun }) : (h.closing c).count = 0 ∧
      (h.closing c).direction = y.direction ∧ (d = .high → (h.closing c).action = .vent) ∧
      (d = .low → (h.closing c).action = .fill ∨ (h.closing c).action = .fillWait) := by
  have hkeeps : (h.closing c).count = (h.finished c).count ∧ (h.closing c).direction = (h.finished c).direction := by
    unfold Hub.closing
    split <;> exact ⟨rfl, rfl⟩
  refine ⟨hkeeps.1.trans (by rw [hy]), hkeeps.2.trans (by rw [hy]), ?_, ?_⟩
  · rintro rfl
    rw [Hub.closing_of_not_waiting hf (by rw [hy]; exact nofun), hy]
    rfl
  · rintro rfl
    exact Hub.closing_of_waiting (by rw [hy]; rfl)

/-- A deviation that acts at once starts its action where nothing inhibits (R94). -/
theorem Hub.closing_of_rest_at_once (hf : h.level.Form) (hr : h.Rests c) (hu : h.Unpaused c) {d : Deviation}
    (hd : h.restDeviation c = some d) (ho : h.atOnce (h.circuit c) = true) (hi : h.startsInhibited = false) :
    (d = .high → (h.closing c).action = .vent) ∧
    (d = .low → (h.closing c).action = .fill ∨ (h.closing c).action = .fillWait) := by
  obtain ⟨-, -, -, hinhibited, honce⟩ := h.sectioned_reads
  have hnow : h.sectioned.atOnce (h.rested c) = true := (honce _).trans ho
  have hbegins : h.sectioned.begins false d (h.rested c) = true := by
    rw [Hub.begins, hnow, hinhibited, hi]
    rfl
  have hfinished := Hub.finished_of_rest_deviating hf hr hu hd
  rw [if_pos hbegins] at hfinished
  obtain ⟨-, -, hvent, hfill⟩ := Hub.closing_of_begun hf hfinished
  exact ⟨hvent, hfill⟩

/-- Under the inhibition nothing starts (R94). -/
theorem Hub.closing_of_rest_inhibited (hf : h.level.Form) (hr : h.Rests c) (hi : h.startsInhibited = true) :
    (h.closing c).action = .hold := by
  obtain ⟨-, -, -, hinhibited, -⟩ := h.sectioned_reads
  cases hd : h.restDeviation c with
  | none => exact (Hub.closing_of_rest_within hf hr hd).1
  | some d =>
    by_cases hu : h.Unpaused c
    · have hno : h.sectioned.begins false d (h.rested c) = false := by
        rw [Hub.begins, hinhibited, hi, Bool.not_true, Bool.and_false, Bool.false_and]
      have hfinished := Hub.finished_of_rest_deviating hf hr hu hd
      rw [if_neg (by rw [hno]; exact Bool.false_ne_true)] at hfinished
      have hhold : (h.finished c).action = .hold := by
        rw [hfinished, (h.sectioned.counted94_action d _).1]
        exact hr.1
      rw [Hub.closing_of_not_waiting hf (by rw [hhold]; exact nofun), hhold]
    · rw [Hub.Unpaused, not_and_or, Classical.not_imp, Classical.not_imp, Bool.not_eq_false, Bool.not_eq_false] at hu
      rcases hu with ⟨hhigh, hp⟩ | ⟨hlow, hp⟩
      · simp only [Bool.and_eq_true] at hp
        exact ((Hub.closing_of_rest_paused hf hr hp.1.1 hp.1.2).1 hhigh hp.2).1
      · simp only [Bool.and_eq_true] at hp
        exact ((Hub.closing_of_rest_paused hf hr hp.1.1 hp.1.2).2 hlow hp.2).1

/-- A deviation that does not act at once is counted, and its hundredth in a row starts the action (R94). -/
theorem Hub.closing_of_rest_counted (hf : h.level.Form) (hr : h.Rests c) (hu : h.Unpaused c) {d : Deviation}
    (hd : h.restDeviation c = some d) (ho : h.atOnce (h.circuit c) = false) :
    let n := if (h.circuit c).direction = d then min 100 ((h.circuit c).count + 1) else 1
    (h.closing c).direction = d ∧
    (n < 100 ∨ h.startsInhibited = true → (h.closing c).action = .hold ∧ (h.closing c).count = n) ∧
    (n = 100 → h.startsInhibited = false → (h.closing c).count = 0 ∧ (d = .high → (h.closing c).action = .vent) ∧
      (d = .low → (h.closing c).action = .fill ∨ (h.closing c).action = .fillWait)) := by
  intro n
  obtain ⟨-, -, -, hinhibited, honce⟩ := h.sectioned_reads
  have hnow : h.sectioned.atOnce (h.rested c) = false := (honce _).trans ho
  have hcounted : h.sectioned.counted94 d (h.rested c) = { h.rested c with count := n, direction := d } := by
    rw [Hub.counted94, if_neg (by rw [hnow]; exact Bool.false_ne_true)]
    rfl
  have hbegins : h.sectioned.begins false d (h.rested c) = (n == 100 && !h.startsInhibited) := by
    rw [Hub.begins, hnow, hcounted, hinhibited]
    exact Bool.and_true _
  have hfinished := Hub.finished_of_rest_deviating hf hr hu hd
  rw [hcounted] at hfinished
  by_cases hb : h.sectioned.begins false d (h.rested c) = true
  · rw [if_pos hb] at hfinished
    rw [hbegins, Bool.and_eq_true, beq_iff_eq, Bool.not_eq_true'] at hb
    obtain ⟨hcount, hdirection, hvent, hfill⟩ := Hub.closing_of_begun hf hfinished
    refine ⟨hdirection, fun hor => ?_, fun _ _ => ⟨hcount, hvent, hfill⟩⟩
    rcases hor with hlt | hi
    · exact absurd hb.1 (Nat.ne_of_lt hlt)
    · exact Bool.noConfusion (hb.2.symm.trans hi)
  · rw [if_neg hb] at hfinished
    have hhold : (h.finished c).action = .hold := by
      rw [hfinished]
      exact hr.1
    rw [Hub.closing_of_not_waiting hf (by rw [hhold]; exact nofun)]
    refine ⟨by rw [hfinished], fun _ => ⟨hhold, by rw [hfinished]⟩, fun hn hi => absurd ?_ hb⟩
    rw [hbegins, hn, hi]
    rfl

end


/-! ## Hold reasons, and the return from EXCLUDED (R101, R104) -/

section
variable {h : Hub} {c : Circuit}

theorem Hub.started_reason (b : Hub) (left : Bool) (x : CircuitLevel) : (b.started left x).reason = x.reason := by
  have hcounted (d : Deviation) : (b.counted94 d x).reason = x.reason := by
    unfold Hub.counted94
    split <;> rfl
  unfold Hub.started
  split
  · cases x.deviation (b.band x) with
    | none => rfl
    | some d =>
      dsimp only [Option.elim]
      split
      · exact hcounted d
      · exact hcounted d
  · rfl

/-- Behind the mismatch hold no stage writes a hold reason. -/
theorem Hub.closing_reason : (h.closing c).reason = (h.sectioned.mismatched c (h.sectioned.pauseEnded c (h.entered c))).reason := by
  have hstop (p : Prop) [Decidable p] (x : CircuitLevel) (a : Action) :
      (if p then { x with action := a } else x).reason = x.reason := by split <;> rfl
  rw [Hub.closing, hstop, Hub.finished, Hub.started_reason, Hub.limited, hstop, Hub.settled, Hub.stopsOn, Hub.runStopped, hstop,
    Hub.waitStopped, hstop]

/-- A pause ends where its section stands in line, or the hold applies no more (R101). -/
theorem Hub.closing_of_pause_ended :
    ((h.circuit c).reason = .mismatchVent → (h.sectioned.level.mismatch && h.sectioned.standsLower c) = false →
      (h.closing c).reason ≠ .mismatchVent) ∧
    ((h.circuit c).reason = .mismatchFill → (h.sectioned.level.mismatch && h.sectioned.standsHigher c) = false →
      (h.closing c).reason ≠ .mismatchFill) := by
  have hexit : h.exitReason c ≠ .mismatchVent ∧ h.exitReason c ≠ .mismatchFill := by
    unfold Hub.exitReason
    split <;> exact ⟨nofun, nofun⟩
  have hentered : (h.entered c).reason = (h.circuit c).reason ∨ (h.entered c).reason = h.exitReason c := by
    unfold Hub.entered Hub.exited
    split
    · exact .inr rfl
    · exact .inl rfl
  rw [Hub.closing_reason]
  generalize h.entered c = x at hentered ⊢
  refine ⟨fun hr hno => ?_, fun hr hno => ?_⟩
  · have hended : (h.sectioned.pauseEnded c x).reason ≠ .mismatchVent := fun heq => by
      unfold Hub.pauseEnded at heq
      split at heq
      · exact HoldReason.noConfusion heq
      · next hne => exact hne (.inl ⟨heq, hno⟩)
    obtain ⟨-, hm, -, -, hl⟩ | ⟨hpaused, -⟩ | hsame := Hub.mismatched_cases (b := h.sectioned) (c := c)
      (x := h.sectioned.pauseEnded c x)
    · rw [hm, hl] at hno
      exact Bool.noConfusion hno
    · rw [hpaused]
      exact nofun
    · rwa [hsame]
  · have hended : (h.sectioned.pauseEnded c x).reason ≠ .mismatchFill := fun heq => by
      unfold Hub.pauseEnded at heq
      split at heq
      · exact HoldReason.noConfusion heq
      · next hne => exact hne (.inr ⟨heq, hno⟩)
    obtain ⟨hpaused, -⟩ | ⟨-, hm, -, -, hl⟩ | hsame := Hub.mismatched_cases (b := h.sectioned) (c := c)
      (x := h.sectioned.pauseEnded c x)
    · rw [hpaused]
      exact nofun
    · rw [hm, hl] at hno
      exact Bool.noConfusion hno
    · rwa [hsame]

/-- A circuit paused and still out of line stays paused (R101). -/
theorem Hub.closing_of_pause_stands (hf : h.level.Form) (ha : (h.circuit c).action = .hold) :
    ((h.circuit c).reason = .mismatchVent → (h.sectioned.level.mismatch && h.sectioned.standsLower c) = true →
      (h.closing c).action = .hold ∧ (h.closing c).reason = .mismatchVent) ∧
    ((h.circuit c).reason = .mismatchFill → (h.sectioned.level.mismatch && h.sectioned.standsHigher c) = true →
      (h.closing c).action = .hold ∧ (h.closing c).reason = .mismatchFill) := by
  have hentered : h.entered c = (h.circuit c).sample (h.heightSample c) :=
    Hub.entered_of_kept fun hboth => Action.noConfusion (ha.symm.trans hboth.1)
  have hx : (h.circuit c).action ≠ .fill := by rw [ha]; exact nofun
  have hheld (hended : h.sectioned.pauseEnded c (h.entered c) = (h.circuit c).sample (h.heightSample c))
      (hr : (h.circuit c).reason ≠ .none) : (h.closing c).action = .hold ∧ (h.closing c).reason = (h.circuit c).reason := by
    rw [Hub.closing_of_held hf hended (.inl ha) (fun _ => hr) hx]
    exact ⟨ha, rfl⟩
  refine ⟨fun hr hstands => ?_, fun hr hstands => ?_⟩
  · obtain ⟨haction, hreason⟩ := hheld (by
      rw [hentered]
      refine if_neg fun hor => ?_
      rcases hor with hor | hor
      · exact Bool.noConfusion (hstands.symm.trans hor.2)
      · exact HoldReason.noConfusion (hr.symm.trans hor.1)) (by rw [hr]; exact nofun)
    exact ⟨haction, hreason.trans hr⟩
  · obtain ⟨haction, hreason⟩ := hheld (by
      rw [hentered]
      refine if_neg fun hor => ?_
      rcases hor with hor | hor
      · exact HoldReason.noConfusion (hr.symm.trans hor.1)
      · exact Bool.noConfusion (hstands.symm.trans hor.2)) (by rw [hr]; exact nofun)
    exact ⟨haction, hreason.trans hr⟩

theorem Hub.started_not_excluded (b : Hub) (left : Bool) {x : CircuitLevel} (hx : x.action ≠ .excluded) :
    (b.started left x).action ≠ .excluded := by
  unfold Hub.started
  split
  · cases x.deviation (b.band x) with
    | none => exact hx
    | some d =>
      dsimp only [Option.elim]
      split
      · cases d <;> exact nofun
      · rwa [(b.counted94_action d x).1]
  · exact hx

/-- A circuit that no stage finds EXCLUDED is not EXCLUDED at the period's end. -/
theorem Hub.closing_not_excluded (hx : (h.entered c).action ≠ .excluded) : (h.closing c).action ≠ .excluded := by
  have hended : (h.sectioned.pauseEnded c (h.entered c)).action ≠ .excluded := by
    obtain ⟨haction, -⟩ := Hub.pauseEnded_action (b := h.sectioned) (c := c) (x := h.entered c)
    rwa [haction]
  have hpaused : (h.sectioned.mismatched c (h.sectioned.pauseEnded c (h.entered c))).action ≠ .excluded := by
    obtain ⟨hm, -⟩ | ⟨hm, -⟩ | hm := Hub.mismatched_cases (b := h.sectioned) (c := c)
      (x := h.sectioned.pauseEnded c (h.entered c)) <;> rw [hm]
    · exact nofun
    · exact nofun
    · exact hended
  have hset (p : Prop) [Decidable p] {x : CircuitLevel} {a : Action} (ha : a ≠ .excluded) (hx : x.action ≠ .excluded) :
      (if p then { x with action := a } else x).action ≠ .excluded := by split <;> assumption
  have hsettled : (h.settled c).action ≠ .excluded := by
    rw [Hub.settled, Hub.stopsOn, Hub.runStopped, Hub.waitStopped]
    exact hset _ nofun (hset _ nofun hpaused)
  have hlimited : (h.limited c).action ≠ .excluded := by
    rw [Hub.limited]
    exact hset _ nofun hsettled
  have hfinished : (h.finished c).action ≠ .excluded := Hub.started_not_excluded _ _ hlimited
  rw [Hub.closing]
  exact hset _ nofun hfinished

/-- A period excludes no circuit (R103). -/
theorem Hub.excluded_of_closing (hx : (h.closing c).action = .excluded) : (h.circuit c).action = .excluded := by
  by_contra hne
  refine Hub.closing_not_excluded ?_ hx
  rw [Hub.entered_of_kept fun hboth => hne hboth.1]
  exact hne

/-- A circuit EXCLUDED with no cause left returns; under a stopped kneel in scope it is held (R104). -/
theorem Hub.closing_of_return (hf : h.level.Form) (ha : (h.circuit c).action = .excluded) (hc : (h.circuit c).causes.any = false) :
    (h.closing c).action ≠ .excluded ∧ (h.kneel.state = .stopped → h.inScope c = true →
      (h.closing c).action = .hold ∧ (h.closing c).reason = .kneelStopped) := by
  have hentered : h.entered c = { (h.circuit c).sample (h.heightSample c) with
      reason := h.exitReason c, count := 0, action := .hold } := if_pos ⟨ha, hc⟩
  refine ⟨Hub.closing_not_excluded (by rw [hentered]; exact nofun), fun hk hs => ?_⟩
  have hreason : h.exitReason c = .kneelStopped := if_pos ⟨hk, hs⟩
  rw [hreason] at hentered
  have hended : h.sectioned.pauseEnded c (h.entered c) = h.entered c := if_neg fun hor => by
    rw [hentered] at hor
    rcases hor with hor | hor <;> exact HoldReason.noConfusion hor.1
  have hheld := Hub.closing_of_held hf (hended.trans hentered) (.inl rfl) (fun _ heq => HoldReason.noConfusion heq)
    (by rw [ha]; exact nofun)
  rw [hheld]
  exact ⟨rfl, rfl⟩

end


end Sys2Proof.Machine
end

section
/-! PROOFS. A levelling period's queue, slots, completion and frame: O47. -/

namespace Sys2Proof.Machine

/-! ## Fills before and behind a period -/

/-- A circuit fills or waits (R95). -/
def Action.fills (a : Action) : Bool := a == .fillWait || a == .fill

theorem Action.fills_iff {a : Action} : a.fills = true ↔ a = .fill ∨ a = .fillWait := by cases a <;> decide

section
variable {h : Hub} {c : Circuit}

/-- The stops leave an action or end it for HOLD. -/
theorem Hub.settled_action : (h.settled c).action = (h.entered c).action ∨ (h.settled c).action = .hold := by
  have hset (p : Prop) [Decidable p] (x : CircuitLevel) :
      (if p then { x with action := .hold } else x).action = x.action ∨ (if p then { x with action := .hold } else x).action = .hold := by
    split
    · exact .inr rfl
    · exact .inl rfl
  obtain ⟨haction, -⟩ := Hub.pauseEnded_action (b := h.sectioned) (c := c) (x := h.entered c)
  rw [Hub.settled, Hub.stopsOn, ← haction]
  generalize h.sectioned.pauseEnded c (h.entered c) = x
  have hpaused : (h.sectioned.mismatched c x).action = x.action ∨ (h.sectioned.mismatched c x).action = .hold := by
    obtain ⟨hm, -⟩ | ⟨hm, -⟩ | hm := Hub.mismatched_cases (b := h.sectioned) (c := c) (x := x) <;> rw [hm]
    · exact .inr rfl
    · exact .inr rfl
    · exact .inl rfl
  generalize h.sectioned.mismatched c x = y at hpaused ⊢
  have hwait : (h.sectioned.waitStopped y).action = y.action ∨ (h.sectioned.waitStopped y).action = .hold := hset _ y
  generalize h.sectioned.waitStopped y = z at hwait ⊢
  obtain hrun | hrun : (h.sectioned.runStopped z).action = z.action ∨ (h.sectioned.runStopped z).action = .hold := hset _ z
  · rw [hrun]
    rcases hwait with hwait | hwait
    · rw [hwait]
      exact hpaused
    · exact .inr hwait
  · exact .inr hrun

/-- A filling circuit that did not leave its action still fills or waits; one that left it does neither (R95). -/
theorem Hub.closing_fills (hf : h.level.Form) (hx : (h.circuit c).action.fills = true) : (h.closing c).action.fills = !h.leftNow c := by
  have hruns : (h.circuit c).action.runs = true := by
    rcases Action.fills_iff.mp hx with hx | hx <;> rw [hx] <;> rfl
  have hentered : (h.entered c).action = (h.circuit c).action := by
    rw [Hub.entered_of_kept fun hboth => by rw [hboth.1] at hruns; exact Bool.noConfusion hruns]
    rfl
  cases hl : h.leftNow c with
  | true =>
    rw [(Hub.closing_of_left hf hl).2]
    rfl
  | false =>
    have hstays : (h.settled c).action = (h.circuit c).action := by
      rcases Hub.settled_action (h := h) (c := c) with hs | hs
      · exact hs.trans hentered
      · exact Bool.noConfusion (hl.symm.trans (Hub.leftNow_of_running hruns hs))
    have hlimited : (h.limited c).action.fills = true := by
      unfold Hub.limited
      split
      · rfl
      · rw [hstays]
        exact hx
    have hfinished : (h.finished c).action.fills = true := by
      have hsame : h.finished c = h.limited c := Hub.started_of_held _ _ fun hboth => by
        rw [hboth.1] at hlimited
        exact Bool.noConfusion hlimited
      rw [hsame]
      exact hlimited
    unfold Hub.closing
    split
    · rfl
    · exact hfinished

/-- A circuit joins the queue exactly where it fills or waits behind the period and did not before (R94, R96). -/
theorem Hub.joins_iff (hf : h.level.Form) : (h.limited c).joins (h.finished c) =
    ((h.closing c).action.fills && !(h.circuit c).action.fills) := by
  cases hx : (h.circuit c).action.fills with
  | true =>
    rw [Bool.not_true, Bool.and_false, CircuitLevel.joins]
    have hclosing := Hub.closing_fills hf hx
    cases hl : h.leftNow c with
    | true =>
      rw [Hub.finished_of_left hl]
      exact Bool.and_false _
    | false =>
      rw [hl] at hclosing
      refine Bool.eq_false_iff.mpr fun hboth => ?_
      obtain ⟨hhold, -⟩ := (Bool.and_eq_true _ _).mp hboth
      have hruns : (h.circuit c).action.runs = true := by
        rcases Action.fills_iff.mp hx with hx | hx <;> rw [hx] <;> rfl
      have hlimited : (h.limited c).action = .hold := beq_iff_eq.mp hhold
      unfold Hub.limited at hlimited
      split at hlimited
      · exact Action.noConfusion hlimited
      · exact Bool.noConfusion (hl.symm.trans (Hub.leftNow_of_running hruns hlimited))
  | false =>
    have hne : (h.circuit c).action ≠ .fill := fun heq => by rw [heq] at hx; exact Bool.noConfusion hx
    have hlimited : (h.limited c).action.fills = false := by
      rw [Hub.limited_of_not_filling hf hne]
      rcases Hub.settled_action (h := h) (c := c) with hs | hs
      · rw [hs]
        unfold Hub.entered Hub.exited
        split
        · rfl
        · exact hx
      · rw [hs]
        rfl
    have hclosing : (h.closing c).action.fills = (h.finished c).action.fills := by
      by_cases hw : (h.finished c).action = .fillWait
      · rw [hw]
        exact Action.fills_iff.mpr (Hub.closing_of_waiting hw)
      · rw [Hub.closing_of_not_waiting hf hw]
    rw [Bool.not_false, Bool.and_true, hclosing, Hub.finished, CircuitLevel.joins]
    generalize h.limited c = x, h.leftNow c = left at hlimited ⊢
    by_cases ha : x.action = .hold
    · rw [ha, beq_self_eq_true, Bool.true_and]
      unfold Hub.started
      split
      · cases x.deviation (h.sectioned.band x) with
        | none =>
          dsimp only [Option.elim]
          rw [ha]
          rfl
        | some d =>
          dsimp only [Option.elim]
          split
          · cases d <;> rfl
          · rw [(h.sectioned.counted94_action d x).1, ha]
            rfl
      · rw [ha]
        rfl
    · rw [Hub.started_of_held _ _ fun hboth => ha hboth.1, hlimited, beq_false_of_ne ha, Bool.false_and]

end

/-! ## The queue by classes (R96) -/

theorem tailOfClass_filter (x : QueueEntry) (q : List QueueEntry) (n : Nat) :
    (tailOfClass x q).filter (fun e => e.cls == n) = (q ++ [x]).filter fun e => e.cls == n := by
  have hlow : (q.filter fun e => decide (e.cls ≤ x.cls) && e.cls == n) = if n ≤ x.cls then q.filter fun e => e.cls == n else [] := by
    split
    · next hle => exact List.filter_congr fun e _ => by grind
    · next hle => exact List.filter_eq_nil_iff.mpr fun e _ => by grind
  have hhigh : (q.filter fun e => decide (x.cls < e.cls) && e.cls == n) = if n ≤ x.cls then [] else q.filter fun e => e.cls == n := by
    split
    · next hle => exact List.filter_eq_nil_iff.mpr fun e _ => by grind
    · next hle => exact List.filter_congr fun e _ => by grind
  rw [tailOfClass, List.filter_append, List.filter_cons, List.filter_filter, List.filter_filter, List.filter_append,
    List.filter_cons, List.filter_nil]
  simp only [Bool.and_comm (_ == n)]
  rw [hlow, hhigh]
  by_cases hle : n ≤ x.cls
  · simp only [if_pos hle]
  · have hne : ¬(x.cls == n) = true := by grind
    simp only [if_neg hle, if_neg hne, List.nil_append, List.append_nil]

/-- Entries placed at the tails of their classes stand, class by class, behind those that were there. -/
theorem enqueue_filter (q es : List QueueEntry) (n : Nat) :
    (enqueue q es).filter (fun e => e.cls == n) = (q ++ es).filter fun e => e.cls == n := by
  induction es generalizing q with
  | nil => rw [List.append_nil]; rfl
  | cons x es ih =>
    have hcons : enqueue q (x :: es) = enqueue (tailOfClass x q) es := rfl
    rw [hcons, ih, List.filter_append, tailOfClass_filter, ← List.filter_append, List.append_assoc, List.singleton_append]

/-! ## The period's lists -/

section
variable {h : Hub}

/-- The entries that wait on are those whose circuits fill or wait behind the period (R96). -/
theorem Hub.waiting_eq (hf : h.level.Form) : (h.level.queue.filter fun e => !h.leftNow e.circuit) =
    h.level.queue.filter fun e => (h.closing e.circuit).action.fills := by
  refine List.filter_congr fun e he => ?_
  have hwaits : (h.circuit e.circuit).action = .fillWait := hf.agrees.queued he
  rw [Hub.closing_fills hf (by rw [hwaits]; rfl)]

/-- The slots that reach their limit, by the circuits that go on filling (R98). -/
theorem Hub.lateNow_eq (hf : h.level.Form) : h.lateNow = (FillSlot.all.filterMap h.level.slots.get).filter fun x =>
    decide (20000 ≤ x.time + 50) && (h.closing x.circuit).action.fills := by
  have hkept : FillSlot.all.filterMap h.keptSlots.get =
      (FillSlot.all.filterMap h.level.slots.get).filter fun x => !h.leftNow x.circuit := by
    rw [List.filter_filterMap]
    exact List.filterMap_congr fun i _ => PerSlot.get_map ..
  rw [Hub.lateNow, hkept, List.filter_filter]
  refine List.filter_congr fun x hx => ?_
  obtain ⟨i, -, hi⟩ := List.mem_filterMap.mp hx
  have hfills : (h.circuit x.circuit).action = .fill := hf.agrees.filling hi
  rw [Hub.closing_fills hf (by rw [hfills]; rfl)]
  rfl

/-- The circuits that start a fill, with their entries (R94, R96). -/
theorem Hub.starting_eq (hf : h.level.Form) : (h.joining.map fun c => h.sectioned.fillEntry c (h.limited c)) =
    (Circuit.all.filter fun c => (h.closing c).action.fills && !(h.circuit c).action.fills).map fun c =>
      ⟨c, if (h.circuit c).source = .raise then 0 else if h.standing then 1 else 2⟩ := by
  obtain ⟨-, -, hstanding, -⟩ := h.sectioned_reads
  have hsource (c : Circuit) : (h.limited c).source = (h.circuit c).source := by
    have hplain (p : Prop) [Decidable p] (x : CircuitLevel) (a : Action) : (if p then { x with action := a } else x).plain = x.plain := by
      split <;> rfl
    have hlimited : (h.limited c).plain = ((h.circuit c).sample (h.heightSample c)).plain := by
      rw [Hub.limited, hplain, Hub.settled, Hub.stopsOn_plain, Hub.entered, Hub.exited_plain]
    obtain ⟨-, -, -, hs, -⟩ := CircuitLevel.of_plain hlimited
    exact hs
  have hentry (c : Circuit) : h.sectioned.fillEntry c (h.limited c) =
      ⟨c, if (h.circuit c).source = .raise then 0 else if h.standing then 1 else 2⟩ := by
    rw [Hub.fillEntry, hsource, hstanding]
  rw [Hub.joining, List.filter_congr fun c _ => Hub.joins_iff hf]
  exact List.map_congr_left fun c _ => hentry c

/-- The slots free for the grants: those empty, left, or at their limit (R97, R98). -/
theorem Hub.mem_freeNow_iff (hf : h.level.Form) (i : FillSlot) : ((h.keptSlots.get i).bind HeldSlot.advanced).isNone =
    (h.level.slots.get i).all fun x => !(h.closing x.circuit).action.fills || decide (20000 ≤ x.time + 50) := by
  rw [Hub.keptSlots, PerSlot.get_map]
  cases hi : h.level.slots.get i with
  | none => rfl
  | some x =>
    have hfills : (h.circuit x.circuit).action = .fill := hf.agrees.filling hi
    rw [Option.all_some, Hub.closing_fills hf (by rw [hfills]; rfl), Bool.not_not]
    cases hl : h.leftNow x.circuit with
    | true =>
      rw [Option.filter_some, hl]
      rfl
    | false =>
      rw [Option.filter_some, hl, Bool.false_or]
      show (HeldSlot.advanced x).isNone = _
      rw [HeldSlot.advanced]
      cases hlate : x.late with
      | true => exact hlate.symm
      | false => exact hlate.symm

/-- The queue behind the starts is ordered by class (R96). -/
theorem Hub.queued_ordered (hf : h.level.Form) : h.queued.Pairwise fun a b => a.cls ≤ b.cls := by
  obtain ⟨g, -, -, -, -, hqueue, hform⟩ := h.starts_spec
  exact hqueue ▸ (hform hf).agrees.ordered

end

/-! ## The period's completion and what it leaves of the other units -/

theorem Hub.scopeWithin_iff (h : Hub) (band : Int) : h.scopeWithin band = true ↔ ∀ c, h.inScope c = true →
    (h.circuit c).action ≠ .excluded ∧ ∃ e, (h.circuit c).error = some e ∧ -band ≤ e ∧ e ≤ band := by
  have hone (c : Circuit) : ((h.circuit c).action != .excluded &&
      match (h.circuit c).error with
      | some e => decide (-band ≤ e ∧ e ≤ band)
      | none => false) = true ↔
      (h.circuit c).action ≠ .excluded ∧ ∃ e, (h.circuit c).error = some e ∧ -band ≤ e ∧ e ≤ band := by
    rw [Bool.and_eq_true, bne_iff_ne]
    refine and_congr_right fun _ => ?_
    cases (h.circuit c).error with
    | none => exact ⟨nofun, nofun⟩
    | some e => exact ⟨fun hd => ⟨e, rfl, of_decide_eq_true hd⟩, fun ⟨_, he, hle⟩ => by cases he; exact decide_eq_true hle⟩
  unfold Hub.scopeWithin Hub.scope
  rw [List.all_eq_true]
  constructor
  · exact fun hall c hc => (hone c).mp (hall c (List.mem_filter.mpr ⟨Circuit.mem_all c, hc⟩))
  · exact fun hall c hc => (hone c).mpr (hall c (List.mem_filter.mp hc).2)

/-- Entering KNELT or RIDE touches the permit of the doors and freeze and axles of the brake unit alone. -/
theorem Hub.setKneel_others {new : KneelState} (hn : new ≠ .stopped) (h : Hub) :
    (h.setKneel new).doors = { h.doors with permit := (h.setKneel new).doors.permit } ∧
    (h.setKneel new).brake =
      { h.brake with kneelFreeze := (h.setKneel new).brake.kneelFreeze, axles := (h.setKneel new).brake.axles } := by
  obtain ⟨hdoors, hcondition, hchanges⟩ := h.setKneel_doors new
  refine ⟨?_, ?_⟩
  · generalize (h.setKneel new).doors = u at hdoors hcondition hchanges ⊢
    obtain ⟨⟩ := u
    simp only at hdoors hcondition hchanges
    rw [hdoors, hcondition, hchanges]
  · have htaken (old : KneelState) (g : Hub) : (g.levellingTakesKneel old new).brake = g.brake := by
      cases new <;> first | exact absurd rfl hn | rfl
    have hbrake (old : KneelState) (g : Hub) : (g.brakeTakesKneel old new).brake =
        { g.brake with kneelFreeze := (g.brakeTakesKneel old new).brake.kneelFreeze } := by
      unfold Hub.brakeTakesKneel
      (repeat' split) <;> rfl
    have hframe : (h.setKneel new).brake = { h.brake with kneelFreeze := (h.setKneel new).brake.kneelFreeze } := by
      have hlast (g : Hub) : g.judgePermit.brake = g.brake := by simp
      simp only [Hub.setKneel, hlast]
      rw [hbrake, htaken]
      simp
    exact hframe.trans (by rw [hframe])

theorem Hub.judgeCompletion_others (h : Hub) :
    h.judgeCompletion.doors = { h.doors with permit := h.judgeCompletion.doors.permit } ∧
    h.judgeCompletion.brake =
      { h.brake with kneelFreeze := h.judgeCompletion.brake.kneelFreeze, axles := h.judgeCompletion.brake.axles } := by
  unfold Hub.judgeCompletion
  split
  · split
    · exact Hub.setKneel_others (new := .knelt) nofun (h.onKneel fun u => { u with completions := u.completions + 1 })
    · exact ⟨rfl, rfl⟩
  · split
    · exact Hub.setKneel_others (new := .ride) nofun (h.onKneel fun u => { u with completions := u.completions + 1 })
    · exact ⟨rfl, rfl⟩
  all_goals exact ⟨rfl, rfl⟩

/-- The units at the end of a period are those its completion leaves (R93). -/
theorem Hub.levellingPeriod_judged (h : Hub) : (∀ c, h.levellingPeriod.circuit c = h.levellingWork.judgeCompletion.circuit c) ∧
    h.levellingPeriod.kneel = h.levellingWork.judgeCompletion.kneel ∧
    h.levellingPeriod.doors = h.levellingWork.judgeCompletion.doors ∧
    h.levellingPeriod.brake = h.levellingWork.judgeCompletion.brake := by
  rw [Hub.levellingPeriod_eq]
  generalize h.levellingWork.judgeCompletion = g
  exact ⟨fun _ => rfl, rfl, rfl, rfl⟩

/-- Beyond levelling and kneel unit a period changes permit, freezes, valves and lines alone (R105). -/
theorem Hub.levellingPeriod_others (h : Hub) :
    h.levellingPeriod.doors = { h.doors with permit := h.levellingPeriod.doors.permit } ∧
    h.levellingPeriod.brake =
      { h.brake with kneelFreeze := h.levellingPeriod.brake.kneelFreeze, axles := h.levellingPeriod.brake.axles } ∧
    h.levellingPeriod.link = { h.link with valves := h.levellingPeriod.link.valves, lines := h.levellingPeriod.link.lines } := by
  obtain ⟨hdoors, hbrake⟩ := h.levellingWork.judgeCompletion_others
  have hbase : h.levellingWork.brake.base = h.brake.base := by
    have hstarts : (Circuit.all.foldl (Hub.startCircuit (h.leftAction h.levellingStops)) h.levellingStops).brake.base =
        h.brake.base := (foldl_keeps (fun g : Hub => g.brake.base) _ (Hub.startCircuit_base _) _ _).trans h.levellingStops_base
    simpa [Hub.levellingWork] using hstarts
  have haxles := Brake.eq_of_base hbase
  have hlink := Link.eq_of_rest h.levellingPeriod_rest
  obtain ⟨-, -, jdoors, jbrake⟩ := h.levellingPeriod_judged
  refine ⟨?_, ?_, ?_⟩
  · rw [jdoors]
    exact hdoors.trans (by rw [h.levellingWork_alike.doors])
  · rw [jbrake]
    exact hbrake.trans (by rw [haxles])
  · generalize h.levellingPeriod.link = u at hlink ⊢
    rw [hlink]

/-- Every circuit behind a period (R92, R97). -/
theorem Hub.levellingPeriod_circuit (h : Hub) (c : Circuit) : h.levellingPeriod.circuit c =
    if h.kneel.state = .raising ∧ h.levellingPeriod.kneel.state = .ride then (h.closing c).toRide else h.closing c := by
  obtain ⟨hwork, -⟩ := h.levellingWork_spec
  obtain ⟨-, -, -, -, hcircuit, -⟩ := h.levellingWork.judgeCompletion_spec
  obtain ⟨jcircuit, jkneel, -⟩ := h.levellingPeriod_judged
  rw [jcircuit, jkneel, hcircuit, h.levellingWork_alike.kneel, hwork.circuit]

/-- The levelling unit behind a period (R93 to R98). -/
theorem Hub.levellingPeriod_level (h : Hub) : let t := h.levellingPeriod
    t.level.queue = h.queued.drop h.grantsNow ∧ t.level.grants = h.level.grants + BitVec.ofNat 16 h.grantsNow ∧
    t.level.slots = h.levellingWork.level.slots ∧ t.level.cut = h.level.cut ∧ t.level.cutCause = h.level.cutCause ∧
    t.level.mismatch = h.sectioned.level.mismatch ∧ t.level.front = h.sectioned.level.front ∧
    t.level.middle = h.sectioned.level.middle ∧ t.level.rear = h.sectioned.level.rear ∧
    t.level.periods = h.level.periods + 1 ∧ t.level.timer = .running 0 := by
  obtain ⟨hwork, -, -, -, hperiods⟩ := h.levellingWork_spec
  obtain ⟨-, -, -, hlevel, -⟩ := h.levellingWork.judgeCompletion_spec
  obtain ⟨hcut, hcause⟩ := hwork.cut
  obtain ⟨hmismatch, hfront, hmiddle, hrear⟩ := hwork.sections
  rw [Hub.levellingPeriod_eq]
  generalize h.levellingWork = w at *
  generalize w.judgeCompletion = g at hlevel ⊢
  show g.level.queue = _ ∧ g.level.grants = _ ∧ g.level.slots = _ ∧ g.level.cut = _ ∧ g.level.cutCause = _ ∧ g.level.mismatch = _ ∧
    g.level.front = _ ∧ g.level.middle = _ ∧ g.level.rear = _ ∧ g.level.periods + 1 = _ ∧ _
  rw [hlevel]
  exact ⟨hwork.queue, hwork.grants, rfl, hcut, hcause, hmismatch, hfront, hmiddle, hrear,
    congrArg (· + 1) hperiods, rfl⟩

/-- Kneel state, completions and errors behind a period (R105, R113, R114). -/
theorem Hub.levellingPeriod_kneel (h : Hub) : let t := h.levellingPeriod
    let within (band : Int) : Prop := ∀ c, h.inScope c = true →
      (t.circuit c).action ≠ .excluded ∧ ∃ e, (t.circuit c).error = some e ∧ -band ≤ e ∧ e ≤ band
    (h.kneel.state = .lowering →
      (within h.dbKneel → t.kneel.state = .knelt ∧ t.kneel.completions = h.kneel.completions + 1) ∧
      (¬within h.dbKneel → t.kneel.state = .lowering ∧ t.kneel.completions = h.kneel.completions)) ∧
    (h.kneel.state = .raising →
      (within h.dbRide → t.kneel.state = .ride ∧ t.kneel.completions = h.kneel.completions + 1) ∧
      (¬within h.dbRide → t.kneel.state = .raising ∧ t.kneel.completions = h.kneel.completions)) ∧
    (h.kneel.state ≠ .lowering → h.kneel.state ≠ .raising → t.kneel.state = h.kneel.state ∧ t.doors = h.doors) ∧
    ∀ c, h.inScope c = true → t.kneel.errors.get c = ⟨(h.closing c).error, h.band (h.circuit c)⟩ := by
  intro t within
  obtain ⟨hwork, -, herrors, -⟩ := h.levellingWork_spec
  obtain ⟨hlow, hraise, hother, -, hcircuit, hkept⟩ := h.levellingWork.judgeCompletion_spec
  obtain ⟨jcircuit, jkneel, jdoors, -⟩ := h.levellingPeriod_judged
  have hstate : h.levellingWork.kneel.state = h.kneel.state := h.levellingWork_alike.kneel
  have hcompletions : h.levellingWork.kneel.completions = h.kneel.completions := by
    simp [Hub.levellingWork, Hub.handErrors, foldl_keeps Hub.kneel]
  have hstore : h.levellingWork.store = h.store := by simp [Hub.levellingWork, foldl_keeps Hub.store]
  have hsame (c : Circuit) : (t.circuit c).action = (h.levellingWork.circuit c).action ∧
      (t.circuit c).error = (h.levellingWork.circuit c).error := by
    rw [jcircuit, hcircuit]
    split <;> exact ⟨rfl, rfl⟩
  have hwithin (band : Int) : within band ↔ h.levellingWork.scopeWithin band = true := by
    rw [Hub.scopeWithin_iff]
    refine forall_congr' fun c => ?_
    rw [Hub.inScope_of_store hstore, (hsame c).1, (hsame c).2]
  have hkneel : h.levellingWork.dbKneel = h.dbKneel ∧ h.levellingWork.dbRide = h.dbRide :=
    ⟨Hub.item_of_store hstore .., Hub.item_of_store hstore ..⟩
  rw [hstate, hkneel.1, hcompletions] at hlow
  rw [hstate, hkneel.2, hcompletions] at hraise
  rw [hstate] at hother
  have tkneel : t.kneel = h.levellingWork.judgeCompletion.kneel := jkneel
  have tdoors : t.doors = h.levellingWork.judgeCompletion.doors := jdoors
  clear_value t
  refine ⟨fun hk => ⟨fun hw => ?_, fun hw => ?_⟩, fun hk => ⟨fun hw => ?_, fun hw => ?_⟩, fun hk hk' => ?_, fun c hc => ?_⟩
  · rw [tkneel]
    exact (hlow hk).1 ((hwithin _).mp hw)
  · have hj := (hlow hk).2 (Bool.eq_false_iff.mpr fun hyes => hw ((hwithin _).mpr hyes))
    have ht : t.kneel = h.levellingWork.kneel := tkneel.trans (congrArg Hub.kneel hj)
    rw [ht, hstate, hcompletions]
    exact ⟨hk, rfl⟩
  · rw [tkneel]
    exact (hraise hk).1 ((hwithin _).mp hw)
  · have hj := (hraise hk).2 (Bool.eq_false_iff.mpr fun hyes => hw ((hwithin _).mpr hyes))
    have ht : t.kneel = h.levellingWork.kneel := tkneel.trans (congrArg Hub.kneel hj)
    rw [ht, hstate, hcompletions]
    exact ⟨hk, rfl⟩
  · have hj := hother hk hk'
    have ht : t.kneel = h.levellingWork.kneel := tkneel.trans (congrArg Hub.kneel hj)
    have hd : t.doors = h.levellingWork.doors := tdoors.trans (congrArg Hub.doors hj)
    exact ⟨by rw [ht, hstate], hd.trans h.levellingWork_alike.doors⟩
  · have ht : t.kneel.errors = h.levellingWork.kneel.errors := (congrArg Kneel.errors tkneel).trans hkept
    have hband : h.band (h.closing c) = h.band (h.circuit c) := by
      obtain ⟨-, -, -, hsource, -⟩ := CircuitLevel.of_plain (h.closing_plain c)
      rw [Hub.band, hsource]
      rfl
    rw [ht, herrors, if_pos hc, hband]


end Sys2Proof.Machine
end

section
/-! PROOFS. A levelling period: O47. -/

namespace Sys2Proof.Machine

/-! ## One circuit, its section and its valve behind a period -/

section
variable (h : Hub) (c : Circuit)

/-- Behind a period a circuit is that of its last stage, but for the source that leaves RAISE (R92). -/
theorem Hub.levellingPeriod_as_closing :
    (h.levellingPeriod.circuit c).action = (h.closing c).action ∧ (h.levellingPeriod.circuit c).error = (h.closing c).error ∧
    (h.levellingPeriod.circuit c).reason = (h.closing c).reason ∧ (h.levellingPeriod.circuit c).count = (h.closing c).count ∧
    (h.levellingPeriod.circuit c).direction = (h.closing c).direction := by
  rw [h.levellingPeriod_circuit]
  split <;> exact ⟨rfl, rfl, rfl, rfl, rfl⟩

theorem ringMean_eq (l : List Int) : ringMean l = if l = [] then none else some (l.sum.tdiv l.length) := by
  cases l with
  | nil => rfl
  | cons x xs =>
    rw [if_neg (List.cons_ne_nil x xs), ringMean, quot, List.sum_eq_foldl]

theorem CircuitLevel.sample_ring : ((h.circuit c).sample (h.heightSample c)).ring =
    if h.sensing.rounds = 0 ∨ (h.sensing.heights.get c).fault = true then (h.circuit c).ring
    else ((h.sensing.heights.get c).value :: (h.circuit c).ring).take 8 := by
  by_cases hno : h.sensing.rounds = 0 ∨ (h.sensing.heights.get c).fault = true
  · have hnone : h.heightSample c = none := if_pos hno
    rw [hnone, if_pos hno]
    rfl
  · have hsome : h.heightSample c = some (h.sensing.heights.get c).value := if_neg hno
    rw [hsome, if_neg hno]
    rfl

/-- Ring, height, error, target, causes and source behind a period (R91, R92, R114). -/
theorem Hub.levellingPeriod_values :
    (h.levellingPeriod.circuit c).ring =
      (if h.sensing.rounds = 0 ∨ (h.sensing.heights.get c).fault = true then (h.circuit c).ring
        else ((h.sensing.heights.get c).value :: (h.circuit c).ring).take 8) ∧
    (h.levellingPeriod.circuit c).height = ringMean (h.levellingPeriod.circuit c).ring ∧
    (h.levellingPeriod.circuit c).target = (h.circuit c).target ∧
    (h.levellingPeriod.circuit c).error = (h.levellingPeriod.circuit c).height.map (fun m => m - (h.circuit c).target) ∧
    (h.levellingPeriod.circuit c).causes = (h.circuit c).causes ∧
    (h.levellingPeriod.circuit c).source =
      (if h.kneel.state = .raising ∧ h.levellingPeriod.kneel.state = .ride ∧ (h.circuit c).source = .raise then .ride
        else (h.circuit c).source) := by
  obtain ⟨hring, hheight, htarget, hsource, herror, hcauses⟩ := CircuitLevel.of_plain (h.closing_plain c)
  rw [h.levellingPeriod_circuit]
  split
  · next hride =>
    refine ⟨hring.trans (CircuitLevel.sample_ring h c), hheight.trans (by rw [CircuitLevel.toRide, hring]; rfl), htarget, herror.trans (by rw [CircuitLevel.toRide, hheight]; rfl), hcauses, ?_⟩
    rw [CircuitLevel.toRide, hsource]
    exact if_congr ⟨fun hr => ⟨hride.1, hride.2, hr⟩, fun hall => hall.2.2⟩ rfl rfl
  · next hno =>
    refine ⟨hring.trans (CircuitLevel.sample_ring h c), hheight.trans (by rw [hring]; rfl), htarget, herror.trans (by rw [hheight]; rfl), hcauses, ?_⟩
    rw [hsource, if_neg fun hall => hno ⟨hall.1, hall.2.1⟩]
    rfl

end

theorem Levelling.sections_congr {u v : Levelling} (hfront : u.front = v.front) (hmiddle : u.middle = v.middle)
    (hrear : u.rear = v.rear) (c : Circuit) : u.section c = v.section c ∧ u.neighbours c = v.neighbours c := by
  cases c <;> simp only [Levelling.section, Levelling.neighbours, hfront, hmiddle, hrear, and_self]

/-- A period's mismatch hold, and the sections by which it judges: those it leaves in the record (R101). -/
theorem Hub.levellingPeriod_sections (h : Hub) :
    (h.levellingPeriod.level.mismatch = true ↔ h.scopeSide = true ∧ (h.kneel.state = .lowering ∨ h.kneel.state = .raising)) ∧
    h.sectioned.level.mismatch = h.levellingPeriod.level.mismatch ∧
    (∀ c, h.sectioned.standsLower c = (h.levellingPeriod.level.neighbours c).any fun z =>
      belowBy h.hmis (h.levellingPeriod.level.section c) z) ∧
    (∀ c, h.sectioned.standsHigher c = (h.levellingPeriod.level.neighbours c).any fun z =>
      belowBy h.hmis z (h.levellingPeriod.level.section c)) := by
  obtain ⟨-, -, -, -, -, hmismatch, hfront, hmiddle, hrear, -⟩ := h.levellingPeriod_level
  obtain ⟨-, hstore, -⟩ := h.sectioned_scene
  have happlies : h.sectioned.level.mismatch = h.mismatchApplies := by
    obtain ⟨g, hg, hscene, -⟩ := h.exits_spec
    have hscope : g.scopeSide = h.scopeSide := by rw [Hub.scopeSide, Hub.item_of_store hscene.store]; rfl
    rw [hg, show g.formSections.level.mismatch = g.mismatchApplies from rfl, Hub.mismatchApplies, hscope, hscene.kneel]
    rfl
  have hhmis : h.sectioned.hmis = h.hmis := Hub.item_of_store hstore ..
  have hsame := Levelling.sections_congr hfront hmiddle hrear
  refine ⟨?_, hmismatch.symm, fun c => ?_, fun c => ?_⟩
  · rw [hmismatch, happlies, Hub.mismatchApplies, Bool.and_eq_true, Bool.or_eq_true, beq_iff_eq, beq_iff_eq]
  · rw [(hsame c).1, (hsame c).2, ← hhmis]
    rfl
  · rw [(hsame c).1, (hsame c).2, ← hhmis]
    rfl

/-- The section heights are formed of the period's heights (R101). -/
theorem Hub.levellingPeriod_heights (h : Hub) (at' : Circuit → Option Int)
    (hat : ∀ c, at' c = (h.levellingPeriod.circuit c).height) :
    h.levellingPeriod.level.front = (if h.sideLeft then meanOf (at' .c1) (at' .c3) else meanOf (at' .c2) (at' .c4)) ∧
    h.levellingPeriod.level.middle = (if h.sideLeft then at' .c5 else at' .c6) ∧
    h.levellingPeriod.level.rear = if h.sideLeft then at' .c7 else at' .c8 := by
  obtain ⟨-, -, -, -, -, -, hfront, hmiddle, hrear, -⟩ := h.levellingPeriod_level
  obtain ⟨g, hg, hscene, hentered, -⟩ := h.exits_spec
  have hleft : g.sideLeft = h.sideLeft := by rw [Hub.sideLeft, Hub.item_of_store hscene.store]; rfl
  have hheight (c : Circuit) : at' c = (g.circuit c).height := by
    obtain ⟨-, hclosing, -⟩ := CircuitLevel.of_plain (h.closing_plain c)
    have hplain : (h.entered c).plain = ((h.circuit c).sample (h.heightSample c)).plain := h.exited_plain c _
    obtain ⟨-, hin, -⟩ := CircuitLevel.of_plain hplain
    have hsame : (h.levellingPeriod.circuit c).height = (h.closing c).height := by
      rw [h.levellingPeriod_circuit]
      split <;> rfl
    rw [hat, hsame, hclosing, hentered, hin]
  rw [hfront, hmiddle, hrear, hg]
  simp only [hheight, ← hleft]
  exact ⟨rfl, rfl, rfl⟩


/-! ## A resting circuit in the terms of its error (R94) -/

section
variable {h : Hub} {c : Circuit}

theorem Hub.restDeviation_iff :
    (h.restDeviation c = some .high ↔ ∃ e, (h.closing c).error = some e ∧ h.band (h.circuit c) < e ∧ -h.band (h.circuit c) ≤ e) ∧
    (h.restDeviation c = some .low ↔ ∃ e, (h.closing c).error = some e ∧ e < -h.band (h.circuit c)) ∧
    ((∃ e, (h.closing c).error = some e ∧ -h.band (h.circuit c) ≤ e ∧ e ≤ h.band (h.circuit c)) →
      h.restDeviation c = none ∧ (h.closing c).error ≠ none) := by
  rw [Hub.restDeviation]
  generalize h.band (h.circuit c) = band
  cases (h.closing c).error with
  | none => exact ⟨⟨nofun, nofun⟩, ⟨nofun, nofun⟩, nofun⟩
  | some e =>
    rw [Option.bind_some, deviationOf]
    simp only [Option.some.injEq, exists_eq_left']
    split
    · next hlow =>
      exact ⟨⟨nofun, fun hhigh => absurd hhigh.2 (Int.not_le.mpr hlow)⟩, ⟨fun _ => hlow, fun _ => rfl⟩,
        fun hin => absurd hin.1 (Int.not_le.mpr hlow)⟩
    · next hlow =>
      split
      · next hhigh =>
        exact ⟨⟨fun _ => ⟨hhigh, Int.not_lt.mp hlow⟩, fun _ => rfl⟩, ⟨nofun, fun hl => absurd hl hlow⟩,
          fun hin => absurd hin.2 (Int.not_le.mpr hhigh)⟩
      · next hhigh => exact ⟨⟨nofun, fun hh => absurd hh.1 hhigh⟩, ⟨nofun, fun hl => absurd hl hlow⟩, fun _ => ⟨rfl, nofun⟩⟩

/-- What starts its action at once, and with no inhibition (R94). -/
theorem Hub.atOnce_of (hnow : h.sensing.standstill = .yes ∨ ((h.circuit c).source ≠ .ride ∧ h.brake.decel ≤ 1000)) :
    h.atOnce (h.circuit c) = true ∧ h.startsInhibited = false := by
  rw [Hub.atOnce, Hub.startsInhibited, Hub.standing]
  rcases hnow with hyes | ⟨hride, hslow⟩
  · rw [hyes]
    exact ⟨rfl, rfl⟩
  · rw [bne_iff_ne.mpr hride, decide_eq_false (Nat.not_lt.mpr hslow)]
    exact ⟨Bool.or_true _, Bool.and_false _⟩

theorem Hub.rests_of_free {lower higher : Prop} (hlower : (h.sectioned.level.mismatch && h.sectioned.standsLower c) = true ↔ lower)
    (hhigher : (h.sectioned.level.mismatch && h.sectioned.standsHigher c) = true ↔ higher) (ha : (h.circuit c).action = .hold)
    (hfree : (h.circuit c).reason = .none ∨ ((h.circuit c).reason = .mismatchVent ∧ ¬lower) ∨
      ((h.circuit c).reason = .mismatchFill ∧ ¬higher)) : h.Rests c :=
  ⟨ha, hfree.imp_right (Or.imp (And.imp_right fun hno => Bool.eq_false_iff.mpr fun hyes => hno (hlower.mp hyes))
    (And.imp_right fun hno => Bool.eq_false_iff.mpr fun hyes => hno (hhigher.mp hyes)))⟩

/-- No pause takes a circuit whose deviation is not in the sense in which its section stands out of line (R101). -/
theorem Hub.unpaused_of {d : Deviation} (hd : h.restDeviation c = some d)
    (hhigh : d = .high → ¬(h.onDoorSide c = true ∧ (h.sectioned.level.mismatch && h.sectioned.standsLower c) = true))
    (hlow : d = .low → ¬(h.onDoorSide c = true ∧ (h.sectioned.level.mismatch && h.sectioned.standsHigher c) = true)) :
    h.Unpaused c := by
  refine ⟨fun hh => ?_, fun hl => ?_⟩
  · have hd' : d = .high := Option.some.inj (hd.symm.trans hh)
    refine Bool.eq_false_iff.mpr fun hall => hhigh hd' ?_
    simp only [Bool.and_eq_true] at hall ⊢
    exact ⟨hall.1.2, hall.1.1, hall.2⟩
  · have hd' : d = .low := Option.some.inj (hd.symm.trans hl)
    refine Bool.eq_false_iff.mpr fun hall => hlow hd' ?_
    simp only [Bool.and_eq_true] at hall ⊢
    exact ⟨hall.1.2, hall.1.1, hall.2⟩

end

/-! ## The slots behind a period (R95, R97, R98) -/

section
variable {h : Hub}

theorem Hub.freeNow_eq (hf : h.level.Form) : h.freeNow = FillSlot.all.filter fun i =>
    (h.level.slots.get i).all fun x => !(h.closing x.circuit).action.fills || decide (20000 ≤ x.time + 50) :=
  List.filter_congr fun i _ => Hub.mem_freeNow_iff hf i

/-- A slot that is not free for the grants stays with its circuit, 50 ms on (R95). -/
theorem Hub.held_of_not_free {i : FillSlot} {x : HeldSlot} (hx : h.level.slots.get i = some x) (hi : i ∉ h.freeNow) :
    (h.keptSlots.get i).bind HeldSlot.advanced = some { x with time := x.time + 50 } := by
  have hsome : ¬((h.keptSlots.get i).bind HeldSlot.advanced).isNone = true := fun hn =>
    hi (List.mem_filter.mpr ⟨FillSlot.mem_all i, hn⟩)
  have hget : h.keptSlots.get i = (some x).filter fun s => !h.leftNow s.circuit := by rw [Hub.keptSlots, PerSlot.get_map, hx]
  rw [hget, Option.filter_some] at hsome ⊢
  split at hsome
  · next hkept =>
    rw [if_pos hkept]
    rw [Option.bind_some, HeldSlot.advanced] at hsome ⊢
    split at hsome
    · exact absurd rfl hsome
    · next hlate => exact if_neg hlate
  · exact absurd rfl hsome

/-- A circuit whose entry is granted a slot fills (R97). -/
theorem Hub.closing_of_granted {n : Nat} {e : QueueEntry} (hn : n < h.grantsNow) (he : h.queued[n]? = some e) :
    (h.closing e.circuit).action = .fill := by
  have hmem : e ∈ h.queued.take h.grantsNow := List.mem_of_getElem? ((List.getElem?_take_of_lt hn).trans he)
  have hany : (h.queued.take h.grantsNow).any (fun f => f.circuit == e.circuit) = true :=
    List.any_eq_true.mpr ⟨e, hmem, beq_self_eq_true _⟩
  rw [Hub.closing, if_pos hany]

end

/-! ## The period (R90 to R98) -/

/-- Settles O47: each circuit through the stages of the period, and the slots and the queue by the classes of their
entries. -/
theorem levellingPeriod_holds : Obligations.LevellingPeriod := by
  unfold Obligations.LevellingPeriod
  rintro ⟨h, pending⟩ hdue hu h'
  obtain ⟨hf, -⟩ := (Levelling.inv_iff _).mp hu
  obtain ⟨hwork, -⟩ := h.levellingWork_spec
  obtain ⟨hqueue, hgrants, hslots, hcut, hcause, -, -, -, -, hperiods, htimer⟩ := h.levellingPeriod_level
  obtain ⟨hdoors, hbrake, hlink⟩ := h.levellingPeriod_others
  obtain ⟨hlowering, hraising, hresting, herrors⟩ := h.levellingPeriod_kneel
  obtain ⟨hinv, hshown⟩ := Hub.levellingPeriod_inv hu
  obtain ⟨happlies, hmismatch, hlow, hhigh⟩ := h.levellingPeriod_sections
  have hclosing := h.levellingPeriod_as_closing
  have hvalues := h.levellingPeriod_values
  have hframe := h.levellingPeriod_frame
  refine ⟨⟨h.levellingPeriod, pending⟩, congrArg Host.Outcome.next (if_pos hdue), rfl, ?_⟩
  show _ ∧ _
  generalize h.levellingPeriod = t at *
  obtain ⟨hclock, hpins, hsensing, hpath, hsteering, hjoints, hports, haccess, hstore, hfree⟩ := hframe
  refine ⟨hperiods, htimer, hclock, hpins, hsensing, hpath, hsteering, hjoints, hports, haccess, hstore, hfree, hdoors, hbrake, hlink,
    ⟨hlowering, hraising, hresting⟩, ?_⟩
  intro gap near
  have hgap : gap = belowBy h.hmis := by
    funext a b
    cases a <;> cases b <;> rfl
  have hnear : near = fun c => (t.level.neighbours c, t.level.section c) := by
    funext c
    cases c <;> rfl
  clear_value gap near
  subst hgap hnear
  refine ⟨fun c => ?_, hcut, hcause, ?_⟩
  · intro x y entry band mismatch lower higher free
    obtain ⟨haction, herror, -⟩ := hclosing c
    obtain ⟨hring, hheight, htarget, herr, hcauses, hsource⟩ := hvalues c
    have hl : (h.sectioned.level.mismatch && h.sectioned.standsLower c) = true ↔ lower := by
      rw [Bool.and_eq_true, hmismatch, happlies, hlow, List.any_eq_true]
    have hh : (h.sectioned.level.mismatch && h.sectioned.standsHigher c) = true ↔ higher := by
      rw [Bool.and_eq_true, hmismatch, happlies, hhigh, List.any_eq_true]
    have hdone (hd : ((h.circuit c).action = .fill ∨ (h.circuit c).action = .fillWait) ∧
        (∃ e, y.error = some e ∧ -band.tdiv 2 ≤ e) ∨
        (h.circuit c).action = .vent ∧ (∃ e, y.error = some e ∧ e ≤ band.tdiv 2)) : y.action = .hold := by
      rw [haction]
      rw [herror] at hd
      exact Hub.closing_of_done hf hd
    have hstarts (ha : x.action = .hold) (hfree : free)
        (hnow : h.sensing.standstill = .yes ∨ (x.source ≠ .ride ∧ h.brake.decel ≤ 1000)) (d : Deviation)
        (hd : h.restDeviation c = some d) (hv : d = .high → ¬(h.onDoorSide c = true ∧ lower))
        (hw : d = .low → ¬(h.onDoorSide c = true ∧ higher)) :
        (d = .high → (h.closing c).action = .vent) ∧ (d = .low → (h.closing c).action = .fill ∨ (h.closing c).action = .fillWait) := by
      have hrests := Hub.rests_of_free hl hh ha hfree
      have hunpaused := Hub.unpaused_of hd (fun hd' hboth => hv hd' ⟨hboth.1, hl.mp hboth.2⟩)
        (fun hd' hboth => hw hd' ⟨hboth.1, hh.mp hboth.2⟩)
      obtain ⟨honce, hinhibited⟩ := Hub.atOnce_of hnow
      exact Hub.closing_of_rest_at_once hf hrests hunpaused hd honce hinhibited
    obtain ⟨hdhigh, hdlow, -⟩ := Hub.restDeviation_iff (h := h) (c := c)
    refine ⟨hring, hheight.trans (ringMean_eq _), htarget, herr, hcauses, hsource,
      fun ha he => hdone (.inl ⟨.inl ha, he⟩), fun ha he => hdone (.inl ⟨.inr ha, he⟩),
      fun ha he => hdone (.inr ⟨ha, he⟩), fun ha hc => haction.trans (Hub.closing_of_excluded hf ha hc),
      fun ha hfree hnow => ⟨fun e he hout hin hno => ?_, fun e he hout hno => ?_⟩, ?_, fun hc => ?_⟩
    · rw [haction]
      exact (hstarts ha hfree hnow .high (hdhigh.mpr ⟨e, herror ▸ he, hout, hin⟩) (fun _ => hno) nofun).1 rfl
    · rw [haction]
      exact (hstarts ha hfree hnow .low (hdlow.mpr ⟨e, herror ▸ he, hout⟩) nofun (fun _ => hno)).2 rfl
    · exact (hshown c).trans (by cases y.action <;> rfl)
    · exact (herrors c hc).trans (by rw [herror]; rfl)
  · intro fills filled waiting slow starting free
    have hfills (c : Circuit) : fills c = (h.closing c).action.fills := congrArg Action.fills (hclosing c).1
    have hwaiting : waiting = h.level.queue.filter fun e => !h.leftNow e.circuit :=
      (List.filter_congr fun e _ => hfills e.circuit).trans (Hub.waiting_eq hf).symm
    have hslow : slow = h.lateNow.map HeldSlot.entry := by
      rw [Hub.lateNow_eq hf]
      exact congrArg (List.map _) (List.filter_congr fun x _ => by rw [hfills])
    have hstarting : starting = h.joining.map fun c => h.sectioned.fillEntry c (h.limited c) := by
      have hstanding (c : Circuit) : (⟨c, if (h.circuit c).source = .raise then 0 else
          if h.sensing.standstill = .yes then 1 else 2⟩ : QueueEntry) =
          ⟨c, if (h.circuit c).source = .raise then 0 else if h.standing = true then 1 else 2⟩ := by
        rw [Hub.standing, if_congr (beq_iff_eq (a := h.sensing.standstill) (b := .yes)) rfl rfl]
      rw [Hub.starting_eq hf]
      exact (List.map_congr_left fun c _ => hstanding c).trans
        (congrArg (List.map _) (List.filter_congr fun c _ => by rw [hfills]; rfl))
    have hopen : free = h.freeNow := by
      rw [Hub.freeNow_eq hf]
      refine List.filter_congr fun i _ => ?_
      cases h.level.slots.get i with
      | none => rfl
      | some x => exact congrArg (fun b => !b || decide (20000 ≤ x.time + 50)) (hfills x.circuit)
    rw [hopen, hslots]
    refine ⟨h.queued, Hub.queued_ordered hf, fun n => ?_, hqueue, hgrants, fun n e i hn he hi => ⟨hwork.taken n e i hn he hi, ?_⟩,
      hwork.spare, fun i x hx hi => hwork.held i _ (Hub.held_of_not_free hx hi), fun e he => hinv.queued e he⟩
    · rw [hwaiting, hslow, hstarting, List.append_assoc]
      exact enqueue_filter ..
    · rw [(hclosing e.circuit).1, Hub.closing_of_granted hn he]

end Sys2Proof.Machine
end

section
/-! PROOFS. What holds a circuit back at a levelling period: O48. -/

namespace Sys2Proof.Machine

/-! ## The slots whose circuits fill on (R95, R98, R101) -/

section
variable {h : Hub} {c : Circuit}

/-- A filling circuit goes on where its error has not come to minus half its band and no pause takes it (R95, R101). -/
theorem Hub.leftNow_of_filling (ha : (h.circuit c).action = .fill) : h.leftNow c = false ↔
    (∀ e, (h.closing c).error = some e → e < -(h.band (h.circuit c)).tdiv 2) ∧
      ¬(h.sectioned.level.mismatch = true ∧ h.onDoorSide c = true ∧ h.sectioned.standsHigher c = true) := by
  have hr : (h.circuit c).action.runs = true := by rw [ha]; rfl
  obtain ⟨x, hplain, haction, hsettled⟩ := Hub.settled_of_running hr
  rw [ha] at haction
  obtain ⟨hfill, -⟩ := Hub.done_iff x hplain
  obtain ⟨-, hside, -⟩ := h.sectioned_reads
  have hdev : x.deviation (h.sectioned.band x) = none := if_neg fun hboth => Action.noConfusion (hboth.1.symm.trans haction)
  have hv : h.sectioned.wantsVent x = false := by rw [Hub.wantsVent, hdev, haction]; rfl
  have hw : h.sectioned.wantsFill x = true := by rw [Hub.wantsFill, hdev, haction]; rfl
  by_cases hpause : h.sectioned.level.mismatch = true ∧ h.onDoorSide c = true ∧ h.sectioned.standsHigher c = true
  · obtain ⟨hm, hd, hl⟩ := hpause
    rw [Hub.mismatched_fill hm ((hside c).trans hd) hv hw hl, Hub.stopped_of_still (.inl rfl)] at hsettled
    rw [Hub.leftNow_of_running hr (by rw [hsettled])]
    exact ⟨nofun, fun hboth => absurd ⟨hm, hd, hl⟩ hboth.2⟩
  · have hsame : h.sectioned.mismatched c x = x := by
      obtain ⟨-, -, -, hyes, -⟩ | ⟨-, hm, hd, -, hl⟩ | hm := Hub.mismatched_cases (b := h.sectioned) (c := c) (x := x)
      · exact Bool.noConfusion (hv.symm.trans hyes)
      · exact absurd ⟨hm, (hside c).symm.trans hd, hl⟩ hpause
      · exact hm
    have hwait : h.sectioned.waitStopped x = x := if_neg fun hboth => Action.noConfusion (hboth.1.symm.trans haction)
    rw [hsame, hwait] at hsettled
    by_cases hdone : h.sectioned.fillDone x = true
    · obtain ⟨e, he, hle⟩ := hfill.mp hdone
      have hhold : (h.settled c).action = .hold := by rw [hsettled, Hub.runStopped, if_pos (.inl ⟨haction, hdone⟩)]
      rw [Hub.leftNow_of_running hr hhold]
      exact ⟨nofun, fun hboth => absurd (hboth.1 e he) (Int.not_lt.mpr hle)⟩
    · have hstays : h.sectioned.runStopped x = x := if_neg fun hor => by
        rcases hor with hboth | hboth
        · exact hdone hboth.2
        · exact Action.noConfusion (hboth.1.symm.trans haction)
      have hgoes : h.leftNow c = false := by
        rw [Hub.leftNow, CircuitLevel.leaves, hsettled, hstays, haction]
        exact Bool.and_false _
      exact ⟨fun _ => ⟨fun e he => Int.not_le.mp fun hle => hdone (hfill.mpr ⟨e, he, hle⟩), hpause⟩, fun _ => hgoes⟩

theorem Hub.mem_freeNow (hf : h.level.Form) {i : FillSlot} {x : HeldSlot} (hx : h.level.slots.get i = some x) :
    i ∈ h.freeNow ↔ (h.leftNow x.circuit = true ∨ 20000 ≤ x.time + 50) := by
  have hfills : (h.circuit x.circuit).action = .fill := hf.agrees.filling hx
  rw [Hub.freeNow, List.mem_filter, Hub.mem_freeNow_iff hf, hx, Option.all_some, Hub.closing_fills hf (by rw [hfills]; rfl),
    Bool.not_not, Bool.or_eq_true, decide_eq_true_iff]
  exact and_iff_right (FillSlot.mem_all i)

/-- A circuit whose slot has reached its limit holds none but a slot granted in this period (R97, R98). -/
theorem Hub.fresh_of_late (hu : h.level.Inv) {i j : FillSlot} {x y : HeldSlot} (hx : h.level.slots.get i = some x)
    (hlate : 20000 ≤ x.time + 50) (hy : h.levellingWork.level.slots.get j = some y) (hxy : y.circuit = x.circuit) : y.time = 0 := by
  obtain ⟨hf, -⟩ := (Levelling.inv_iff _).mp hu
  obtain ⟨hwork, -⟩ := h.levellingWork_spec
  by_cases hj : j ∈ h.freeNow
  · obtain ⟨n, hn⟩ := List.mem_iff_getElem?.mp hj
    by_cases hlt : n < h.grantsNow
    · have hlen : n < h.queued.length := by
        have hle : h.grantsNow ≤ h.queued.length := by
          unfold Hub.grantsNow
          split
          · exact Nat.zero_le _
          · exact Nat.min_le_left ..
        exact Nat.lt_of_lt_of_le hlt hle
      have hnew := hwork.taken n h.queued[n] j hlt (List.getElem?_eq_getElem hlen) hn
      obtain rfl := Option.some.inj (hnew.symm.trans hy)
      rfl
    · have hnone := hwork.spare n j (Nat.not_lt.mp hlt) hn
      exact nomatch hnone.symm.trans hy
  · cases hold : h.level.slots.get j with
    | none =>
      refine absurd ?_ hj
      rw [Hub.freeNow, List.mem_filter, Hub.mem_freeNow_iff hf, hold]
      exact ⟨FillSlot.mem_all j, rfl⟩
    | some z =>
      have hkept := hwork.held j _ (Hub.held_of_not_free hold hj)
      obtain rfl := Option.some.inj (hkept.symm.trans hy)
      obtain rfl := hu.oneSlot i j x z hx hold hxy.symm
      obtain rfl := Option.some.inj (hx.symm.trans hold)
      exact absurd ((Hub.mem_freeNow hf hx).mpr (.inr hlate)) hj

end

/-- A period's SLOW_FILL events (R98). -/
theorem Hub.levellingPeriod_slow (h : Hub) :
    Hub.Sends .slowFill (h.lateNow.map fun x => (x.circuit.num, ((h.closing x.circuit).error).getD 0)) h h.levellingPeriod := by
  obtain ⟨-, -, -, -, hstops⟩ := h.levellingStops_spec
  have herror (c : Circuit) : (h.settled c).error = (h.closing c).error := by
    have hplain : (h.settled c).plain = ((h.circuit c).sample (h.heightSample c)).plain := by
      rw [Hub.settled, Hub.stopsOn_plain, Hub.entered, Hub.exited_plain]
    exact (Hub.closing_error _ hplain).1
  simp only [herror] at hstops
  have hwork : Hub.Sends .slowFill [] h.levellingStops h.levellingWork := by
    unfold Hub.levellingWork
    refine .silent ?_ ?_
    · simp [foldl_keeps Hub.clock]
    · simp [foldl_keeps Hub.events]
  have hend (g : Hub) : Hub.Sends .slowFill [] g (g.onLevel fun u => { u with periods := u.periods + 1, timer := .started }) :=
    .silent rfl rfl
  rw [Hub.levellingPeriod_eq]
  exact hstops.trans_silent ((hwork.trans_silent (.of_emits (Hub.judgeCompletion_emits _) (by decide))).trans_silent (hend _))


/-! ## The period (R94, R98, R101, R104) -/

theorem Hub.startsInhibited_iff {h : Hub} : h.startsInhibited = true ↔ h.sensing.standstill ≠ .yes ∧ 1000 < h.brake.decel := by
  rw [Hub.startsInhibited, Hub.standing, Bool.and_eq_true, decide_eq_true_iff, Bool.not_eq_true', beq_eq_false_iff_ne]

/-- Settles O48: the mismatch hold by the sections the period leaves, then each circuit and each slot by its stages. -/
theorem levellingHolds_holds : Obligations.LevellingHolds := by
  unfold Obligations.LevellingHolds
  rintro ⟨h, pending⟩ hdue hu h' mismatch
  obtain ⟨hf, -⟩ := (Levelling.inv_iff _).mp hu
  obtain ⟨hwork, -⟩ := h.levellingWork_spec
  obtain ⟨-, -, hslots, -⟩ := h.levellingPeriod_level
  obtain ⟨happlies, hmismatch, hlow, hhigh⟩ := h.levellingPeriod_sections
  have hheights := h.levellingPeriod_heights
  have hclosing := h.levellingPeriod_as_closing
  have hsends := h.levellingPeriod_slow
  refine ⟨⟨h.levellingPeriod, pending⟩, congrArg Host.Outcome.next (if_pos hdue), rfl, happlies, ?_⟩
  show _ ∧ _
  generalize h.levellingPeriod = t at *
  constructor
  · intro mean at'
    have hmean : mean = meanOf := by
      funext a b
      cases a <;> cases b <;> rfl
    rw [hmean]
    exact hheights at' fun _ => rfl
  intro gap near
  have hgap : gap = belowBy h.hmis := by
    funext a b
    cases a <;> cases b <;> rfl
  have hnear : near = fun c => (t.level.neighbours c, t.level.section c) := by
    funext c
    cases c <;> rfl
  clear_value gap near
  subst hgap hnear
  intro standsHigher
  have hstands : standsHigher = h.sectioned.standsHigher := (funext hhigh).symm
  clear_value standsHigher
  subst hstands
  have hm : h.sectioned.level.mismatch = true ↔ mismatch := by rw [hmismatch]; exact happlies
  refine ⟨fun c => ?_, ?_⟩
  · intro x y band paused lower higher free high low resting inhibited
    obtain ⟨haction, herror, hreason, hcount, hdirection⟩ := hclosing c
    rw [show t.circuit c = y from rfl] at haction herror hreason hcount hdirection
    have hl : (h.sectioned.level.mismatch && h.sectioned.standsLower c) = true ↔ mismatch ∧ lower := by
      rw [Bool.and_eq_true, hm, hlow, List.any_eq_true]
    have hh : (h.sectioned.level.mismatch && h.sectioned.standsHigher c) = true ↔ mismatch ∧ higher := by
      rw [Bool.and_eq_true, hm]
    have hlower : lower ↔ h.sectioned.standsLower c = true := by rw [hlow, List.any_eq_true]
    have hrests (hr : resting) : h.Rests c := Hub.rests_of_free hl hh hr.1 hr.2
    obtain ⟨hdhigh, hdlow, hdnone⟩ := Hub.restDeviation_iff (h := h) (c := c)
    have hbandhigh (hd : high) : h.restDeviation c = some .high := by
      obtain ⟨e, he, hout⟩ := hd
      exact hdhigh.mpr ⟨e, herror ▸ he, hout⟩
    have hbandlow (hd : low) : h.restDeviation c = some .low := by
      obtain ⟨e, he, hout⟩ := hd
      exact hdlow.mpr ⟨e, herror ▸ he, hout⟩
    have hinhibited : inhibited ↔ h.startsInhibited = true := Hub.startsInhibited_iff.symm
    rw [haction, hreason, hcount, hdirection]
    refine ⟨fun ha hc => Hub.closing_of_return hf ha hc, fun hp hlo hx => ?_, fun hp hhi hx => ?_, fun hr hno => ?_, fun hr hno => ?_,
      fun hr hin => ?_, fun hr hin => Hub.closing_of_rest_inhibited hf (hrests hr) (hinhibited.mp hin), fun d hr hs hstand hd => ?_⟩
    · obtain hx | ⟨hr, hd⟩ | ⟨ha, hr⟩ := hx
      · exact Hub.closing_of_venting hf (hm.mpr hp.1) hp.2 (hlower.mp hlo) hx
      · exact (Hub.closing_of_rest_paused hf (hrests hr) (hm.mpr hp.1) hp.2).1 (hbandhigh hd) (hlower.mp hlo)
      · exact (Hub.closing_of_pause_stands hf ha).1 hr (hl.mpr ⟨hp.1, hlo⟩)
    · rw [← or_assoc] at hx
      obtain hx | ⟨hr, hd⟩ | ⟨ha, hr⟩ := hx
      · exact Hub.closing_of_lifting hf (hm.mpr hp.1) hp.2 hhi hx
      · exact (Hub.closing_of_rest_paused hf (hrests hr) (hm.mpr hp.1) hp.2).2 (hbandlow hd) hhi
      · exact (Hub.closing_of_pause_stands hf ha).2 hr (hh.mpr ⟨hp.1, hhi⟩)
    · exact Hub.closing_of_pause_ended.1 hr (Bool.eq_false_iff.mpr fun hyes => hno (hl.mp hyes))
    · exact Hub.closing_of_pause_ended.2 hr (Bool.eq_false_iff.mpr fun hyes => hno (hh.mp hyes))
    · rw [herror] at hin
      obtain ⟨hnone, hsome⟩ := hdnone hin
      obtain ⟨hhold, hzero⟩ := Hub.closing_of_rest_within hf (hrests hr) hnone
      exact ⟨hhold, hzero hsome⟩
    · have honce : h.atOnce (h.circuit c) = false := by
        rw [Hub.atOnce, Hub.standing, beq_false_of_ne hstand, Bool.false_or]
        exact bne_eq_false_iff_eq.mpr hs
      have hno : ¬inhibited ↔ h.startsInhibited = false := by rw [hinhibited, Bool.not_eq_true]
      intro n
      cases d with
      | high =>
        have hdev := hbandhigh hd.1
        have hunpaused := Hub.unpaused_of hdev (fun _ hboth => hd.2 ⟨⟨(hl.mp hboth.2).1, hboth.1⟩, (hl.mp hboth.2).2⟩) nofun
        obtain ⟨hdir, hcounts, hacts⟩ := Hub.closing_of_rest_counted hf (hrests hr) hunpaused hdev honce
        refine ⟨hdir, fun hor => hcounts (hor.imp_right hinhibited.mp), fun hn hi => ?_⟩
        obtain ⟨hzero, hvent, -⟩ := hacts hn (hno.mp hi)
        exact ⟨hzero, hvent rfl⟩
      | low =>
        have hdev := hbandlow hd.1
        have hunpaused := Hub.unpaused_of hdev nofun (fun _ hboth => hd.2 ⟨⟨(hh.mp hboth.2).1, hboth.1⟩, (hh.mp hboth.2).2⟩)
        obtain ⟨hdir, hcounts, hacts⟩ := Hub.closing_of_rest_counted hf (hrests hr) hunpaused hdev honce
        refine ⟨hdir, fun hor => hcounts (hor.imp_right hinhibited.mp), fun hn hi => ?_⟩
        obtain ⟨hzero, -, hfill⟩ := hacts hn (hno.mp hi)
        exact ⟨hzero, hfill rfl⟩
  · intro goesOn
    have hgoes {i : FillSlot} {x : HeldSlot} (hx : h.level.slots.get i = some x) : goesOn x = !h.leftNow x.circuit := by
      have hfills : (h.circuit x.circuit).action = .fill := hf.agrees.filling hx
      have herror : (t.circuit x.circuit).error = (h.closing x.circuit).error := (hclosing x.circuit).2.1
      refine Bool.eq_iff_iff.mpr ?_
      rw [Bool.not_eq_true', Hub.leftNow_of_filling hfills, ← herror, hm]
      show (_ && _) = true ↔ _
      rw [Bool.and_eq_true]
      refine and_congr ?_ ?_
      · generalize (t.circuit x.circuit).error = error
        cases error with
        | none => exact ⟨nofun, fun _ => rfl⟩
        | some e => exact ⟨fun hlt _ he => Option.some.inj he ▸ of_decide_eq_true hlt, fun hall => decide_eq_true (hall e rfl)⟩
      · rw [Bool.not_eq_true', ← Bool.not_eq_true, Bool.and_eq_true, Bool.and_eq_true, decide_eq_true_iff, and_assoc]
    have hstays {i : FillSlot} {x : HeldSlot} (hx : h.level.slots.get i = some x) (hg : goesOn x = true) :
        h.leftNow x.circuit = false := by rw [hgoes hx] at hg; exact Bool.not_eq_true' _ ▸ hg
    rw [hslots]
    refine ⟨?_, ?_, ?_⟩
    · intro i x hx hg hlt
      have hheld : i ∉ h.freeNow := fun hi => by
        rcases (Hub.mem_freeNow hf hx).mp hi with hleft | hlate
        · exact Bool.noConfusion ((hstays hx hg).symm.trans hleft)
        · exact absurd hlate (Nat.not_le.mpr hlt)
      exact hwork.held i _ (Hub.held_of_not_free hx hheld)
    · intro i x hx hg hlate
      have hfills : (h.circuit x.circuit).action = .fill := hf.agrees.filling hx
      refine ⟨?_, fun j y hy hxy => Hub.fresh_of_late (h := h) hu hx hlate hy hxy⟩
      rw [(hclosing x.circuit).1]
      refine (Action.fills_iff.mp ?_).symm
      rw [Hub.closing_fills hf (by rw [hfills]; rfl), hstays hx hg]
      rfl
    · have hlate : (FillSlot.all.filterMap h.level.slots.get).filter (fun x => goesOn x && decide (20000 ≤ x.time + 50)) = h.lateNow := by
        rw [Hub.lateNow_eq hf]
        refine List.filter_congr fun x hx => ?_
        obtain ⟨i, -, hi⟩ := List.mem_filterMap.mp hx
        have hfills : (h.circuit x.circuit).action = .fill := hf.agrees.filling hi
        rw [hgoes hi, Hub.closing_fills hf (by rw [hfills]; rfl), Bool.and_comm]
      have hraised : (h.lateNow.map fun x => (x.circuit.num, ((t.circuit x.circuit).error).getD 0)) =
          h.lateNow.map fun x => (x.circuit.num, ((h.closing x.circuit).error).getD 0) :=
        List.map_congr_left fun x _ => by rw [(hclosing x.circuit).2.1]
      rw [hlate, hraised]
      exact hsends.raises

end Sys2Proof.Machine
end

section
/-! PROOFS. The orders KNEEL and RAISE: O49. -/

namespace Sys2Proof.Machine

/-! ## The orders (R111, R112) -/

section
variable {s : State} {q : Request} (ha : s.hub.admits q.port .passenger = true)
include ha

/-- KNEEL in LOWERING and KNELT (R111). -/
theorem exec_kneel_resting (hk : s.hub.kneel.state = .lowering ∨ s.hub.kneel.state = .knelt) :
    exec (.kneel q) s = .next { s with hub := s.hub.answered q 0x2A#8 (.done []) } :=
  exec_of_after (Hub.order_of_service ha (serveKneel_of_resting hk))

/-- What KNEEL is refused for, in the order of its checks (R111). -/
theorem exec_kneel_refused (hk : ¬(s.hub.kneel.state = .lowering ∨ s.hub.kneel.state = .knelt)) :
    (s.hub.standing = false →
      exec (.kneel q) s = .next { s with hub := s.hub.answered q 0x2A#8 (.refused .notStandstill []) }) ∧
    (s.hub.standing = true → s.hub.brake.halt ≠ .applied →
      exec (.kneel q) s = .next { s with hub := s.hub.answered q 0x2A#8 (.refused .haltNotApplied []) }) ∧
    (s.hub.standing = true → s.hub.brake.halt = .applied → ∀ c, s.hub.excludedInScope = some c →
      exec (.kneel q) s = .next { s with hub := s.hub.answered q 0x2A#8 (.refused .circuitExcluded (be1 c.num)) }) := by
  have hserve := serveKneel_of_not (h := s.hub.judged q) hk
  rw [show (s.hub.judged q).standing = s.hub.standing from rfl, show (s.hub.judged q).brake = s.hub.brake from rfl,
    show (s.hub.judged q).excludedInScope = s.hub.excludedInScope from rfl] at hserve
  refine ⟨fun hs => exec_of_after (Hub.order_of_service ha ?_), fun hs hh => exec_of_after (Hub.order_of_service ha ?_),
    fun hs hh c hc => exec_of_after (Hub.order_of_service ha ?_)⟩
  · rw [hserve, if_pos hs]
  · rw [hserve, if_neg (by rw [hs]; exact nofun), if_pos hh]
  · rw [hserve, if_neg (by rw [hs]; exact nofun), if_neg (not_not.mpr hh), hc]

/-- RAISE in RIDE and RAISING (R112). -/
theorem exec_raise_resting (hk : s.hub.kneel.state = .ride ∨ s.hub.kneel.state = .raising) :
    exec (.raise q) s = .next { s with hub := s.hub.answered q 0x2B#8 (.done []) } := by
  refine exec_of_after (Hub.order_of_service ha ?_)
  unfold serveRaise
  rw [show (s.hub.judged q).kneel.state = s.hub.kneel.state from rfl]
  rcases hk with hk | hk <;> rw [hk]

end

end Sys2Proof.Machine
end

section
/-! PROOFS. What the entry into STOPPED leaves of slots, queue and circuits: O49. -/

namespace Sys2Proof.Machine

/-! ## A circuit that is stopped, and one that is taken out (R102, R103) -/

/-- A circuit in scope at the entry into STOPPED (R102). -/
def CircuitLevel.stopped (x : CircuitLevel) : CircuitLevel :=
  if x.action = .excluded then x else { x with action := .hold, reason := .kneelStopped }

/-- A circuit that becomes EXCLUDED (R103). -/
def CircuitLevel.takenOut (x : CircuitLevel) : CircuitLevel := { x with count := 0, reason := .none, action := .excluded }

theorem CircuitLevel.stopped_of_excluded {x : CircuitLevel} (hx : x.action = .excluded) : x.stopped = x := if_pos hx

theorem CircuitLevel.stopped_of_not {x : CircuitLevel} (hx : x.action ≠ .excluded) :
    x.stopped = { x with action := .hold, reason := .kneelStopped } := if_neg hx

theorem Hub.touch_stopCircuit (h : Hub) (c : Circuit) : h.Touch c (h.circuit c).stopped (h.stopCircuit c) := by
  unfold Hub.stopCircuit
  split
  · next hx =>
    rw [CircuitLevel.stopped_of_excluded hx]
    exact Hub.touch_refl c h
  · next hx =>
    have hstopped : (h.circuit c).stopped = { h.circuit c with reason := .kneelStopped } := by
      rw [CircuitLevel.stopped_of_not (by rw [hx]; exact nofun), ← hx]
    rw [hstopped]
    exact Hub.touch_onCircuit (u := fun x => { x with reason := .kneelStopped }) (CircuitLevel.leaves_of_same rfl)
  all_goals
    next hx =>
      rw [CircuitLevel.stopped_of_not (by rw [hx]; exact nofun)]
      exact Hub.touch_pause (by rw [hx]; rfl) .kneelStopped

theorem Hub.takeOut_level (h : Hub) (c : Circuit) : h.Left (fun d => d == c) (h.takeOut c) ∧
    ∀ d, (h.takeOut c).circuit d = if d = c then (h.circuit c).takenOut else h.circuit d := by
  refine ⟨⟨?_, ?_, ?_⟩, fun d => ?_⟩
  · exact (show h.SceneOf ((h.drop c).onCircuit c fun x => { x with count := 0, reason := .none }) from ⟨rfl, rfl, rfl, rfl, rfl⟩).trans
      (Hub.sceneOf_setAction ..)
  · rw [Hub.takeOut, Hub.setAction_level]
    rfl
  · rw [Hub.takeOut, Hub.setAction_level]
    rfl
  · rw [Hub.takeOut, Hub.setAction_circuit, Hub.circuit_onCircuit, Hub.circuit_onCircuit, if_pos rfl]
    split <;> rfl

theorem Hub.foldl_takeOut_level (cs : List Circuit) (h : Hub) : h.Left (fun d => decide (d ∈ cs)) (cs.foldl Hub.takeOut h) ∧
    ∀ d, (cs.foldl Hub.takeOut h).circuit d = if d ∈ cs then (h.circuit d).takenOut else h.circuit d := by
  induction cs generalizing h with
  | nil => exact ⟨⟨.refl h, by simp [PerSlot.map_filter_true], by simp⟩, fun d => rfl⟩
  | cons c cs ih =>
    obtain ⟨hleft, hcircuit⟩ := h.takeOut_level c
    obtain ⟨ileft, icircuit⟩ := ih (h.takeOut c)
    refine ⟨(hleft.trans ileft).congr fun d => ?_, fun d => ?_⟩
    · by_cases hd : d = c <;> simp [hd]
    · rw [List.foldl_cons, icircuit, hcircuit]
      by_cases hd : d = c
      · subst hd
        by_cases hmem : d ∈ cs <;> simp [hmem, CircuitLevel.takenOut]
      · simp [hd]

/-! ## Grants (R97) -/

theorem Hub.grantIfFreed_granted (before after : PerSlot (Option HeldSlot)) (h : Hub) :
    ∃ n, n ≤ h.level.queue.length ∧ n ≤ h.level.free.length ∧ h.Granted n (h.grantIfFreed before after) := by
  unfold Hub.grantIfFreed
  split
  · exact ⟨0, Nat.zero_le _, Nat.zero_le _, h.granted_refl⟩
  · refine ⟨_, ?_, ?_, h.grant_granted⟩
    · split
      · exact Nat.zero_le _
      · exact Nat.min_le_left ..
    · split
      · exact Nat.zero_le _
      · exact Nat.min_le_right ..

/-- Grants move circuits that wait alone (R97). -/
theorem Hub.Granted.still {n : Nat} {h g : Hub} (hg : h.Granted n g) (hu : h.level.Agrees) {c : Circuit}
    (hc : (h.circuit c).action ≠ .fillWait) : g.circuit c = h.circuit c := by
  rw [hg.circuit]
  refine if_neg fun hany => ?_
  obtain ⟨e, he, hec⟩ := List.any_eq_true.mp hany
  obtain rfl := beq_iff_eq.mp hec
  exact hc (hu.queued (List.mem_of_mem_take he))

theorem Hub.Granted.reason {n : Nat} {h g : Hub} (hg : h.Granted n g) (c : Circuit) : (g.circuit c).reason = (h.circuit c).reason := by
  rw [hg.circuit]
  split <;> rfl

theorem Hub.Granted.filled {n : Nat} {h g : Hub} (hg : h.Granted n g) {e : QueueEntry} (he : e ∈ h.level.queue.take n) :
    (g.circuit e.circuit).action = .fill := by
  have hany : (h.level.queue.take n).any (fun f => f.circuit == e.circuit) = true :=
    List.any_eq_true.mpr ⟨e, he, beq_self_eq_true _⟩
  rw [hg.circuit, if_pos hany]

/-! ## What a stop leaves of the circuits it does not reach (R97, R102, R103) -/

/-- The entries of circuits that stay. -/
def Levelling.waiting (gone : Circuit → Bool) (u : Levelling) : List QueueEntry := u.queue.filter fun e => !gone e.circuit

/-- Between two moments the circuits that are not gone keep hold reason, slot and, class by class, their places in the
queue, whose head is granted freed slots (R96, R97). -/
structure Hub.Narrows (gone : Circuit → Bool) (n : Nat) (h g : Hub) : Prop where
  reason  : ∀ c, gone c = false → (g.circuit c).reason = (h.circuit c).reason
  held    : ∀ i x, h.level.slots.get i = some x → gone x.circuit = false → g.level.slots.get i = some x
  queue   : g.level.waiting gone = (h.level.waiting gone).drop n
  granted : ∀ k e, k < n → (h.level.waiting gone)[k]? = some e → (g.circuit e.circuit).action = .fill ∧
    ∃ i m, g.level.slots.get i = some ⟨e.circuit, 0, m, e.cls⟩
  action  : ∀ c, gone c = false → (∀ e ∈ (h.level.waiting gone).take n, e.circuit ≠ c) →
    (g.circuit c).action = (h.circuit c).action

section
variable {gone : Circuit → Bool} {h g f : Hub}

theorem Hub.narrows_of_left {p : Circuit → Bool} (hl : h.Left p g) (hp : ∀ c, p c = true → gone c = true)
    (hc : ∀ c, gone c = false → (g.circuit c).reason = (h.circuit c).reason ∧ (g.circuit c).action = (h.circuit c).action) :
    Hub.Narrows gone 0 h g where
  reason c hg := (hc c hg).1
  held i x hx hg := by
    have hstays : p x.circuit = false := Bool.eq_false_iff.mpr fun hyes => Bool.noConfusion (hg.symm.trans (hp _ hyes))
    rw [hl.slots, PerSlot.get_map, hx, Option.filter_some, hstays]
    rfl
  queue := by
    rw [Levelling.waiting, hl.queue, List.filter_filter, List.drop_zero, Levelling.waiting]
    refine List.filter_congr fun e _ => ?_
    cases hg : gone e.circuit with
    | true => rfl
    | false =>
      have hstays : p e.circuit = false := Bool.eq_false_iff.mpr fun hyes => Bool.noConfusion (hg.symm.trans (hp _ hyes))
      rw [hstays]
      rfl
  granted k _ hk := absurd hk (Nat.not_lt_zero k)
  action c hg _ := (hc c hg).2

/-- Slots, queue, actions and hold reasons stay. -/
theorem Hub.narrows_of_same (hs : g.level.slots = h.level.slots) (hq : g.level.queue = h.level.queue)
    (hc : ∀ c, (g.circuit c).reason = (h.circuit c).reason ∧ (g.circuit c).action = (h.circuit c).action) : Hub.Narrows gone 0 h g where
  reason c _ := (hc c).1
  held i x hx _ := by rw [hs]; exact hx
  queue := by rw [Levelling.waiting, hq]; rfl
  granted k _ hk := absurd hk (Nat.not_lt_zero k)
  action c _ _ := (hc c).2

theorem Hub.Narrows.trans {n m : Nat} (hg : Hub.Narrows gone n h g) (gf : Hub.Narrows gone m g f) : Hub.Narrows gone (n + m) h f where
  reason c hc := (gf.reason c hc).trans (hg.reason c hc)
  held i x hx hc := gf.held i x (hg.held i x hx hc) hc
  queue := by rw [gf.queue, hg.queue, List.drop_drop]
  granted k e hk he := by
    have hstays : gone e.circuit = false := by
      have hmem := List.mem_of_getElem? he
      rw [Levelling.waiting, List.mem_filter] at hmem
      simpa using hmem.2
    by_cases hn : k < n
    · obtain ⟨hfill, i, l, hi⟩ := hg.granted k e hn he
      refine ⟨?_, i, l, gf.held i _ hi hstays⟩
      by_cases hagain : ∃ e' ∈ (g.level.waiting gone).take m, e'.circuit = e.circuit
      · obtain ⟨e', he', hsame⟩ := hagain
        obtain ⟨j, hj⟩ := List.mem_iff_getElem?.mp he'
        have hjm : j < m := by
          by_contra hge
          rw [List.getElem?_take_eq_none (Nat.not_lt.mp hge)] at hj
          exact nomatch hj
        rw [List.getElem?_take_of_lt hjm] at hj
        rw [← hsame]
        exact (gf.granted j e' hjm hj).1
      · rw [gf.action e.circuit hstays fun e' he' hsame => hagain ⟨e', he', hsame⟩]
        exact hfill
    · have hkm : k - n < m := by omega
      refine gf.granted (k - n) e hkm ?_
      rw [hg.queue, List.getElem?_drop, Nat.add_sub_cancel' (Nat.not_lt.mp hn)]
      exact he
  action c hc hno := by
    have hfirst : ∀ e ∈ (h.level.waiting gone).take n, e.circuit ≠ c := fun e he =>
      hno e (List.take_subset_take_left _ (Nat.le_add_right n m) he)
    have hthen : ∀ e ∈ (g.level.waiting gone).take m, e.circuit ≠ c := fun e he => by
      rw [hg.queue] at he
      refine hno e ?_
      rw [List.take_add]
      exact List.mem_append_right _ he
    rw [gf.action c hc hthen, hg.action c hc hfirst]

theorem Hub.Granted.narrows {n : Nat} (hg : h.Granted n g) (hfree : n ≤ h.level.free.length) :
    Hub.Narrows gone ((h.level.queue.take n).filter fun e => !gone e.circuit).length h g := by
  have hsplit : h.level.waiting gone = ((h.level.queue.take n).filter fun e => !gone e.circuit) ++
      (h.level.queue.drop n).filter fun e => !gone e.circuit := by
    rw [Levelling.waiting, ← List.filter_append, List.take_append_drop]
  refine ⟨fun c _ => hg.reason c, fun i x hx _ => hg.held i x hx, ?_, fun k e hk he => ?_, fun c hc hno => ?_⟩
  · rw [hsplit, List.drop_left, Levelling.waiting, hg.queue]
  · rw [hsplit, List.getElem?_append_left hk] at he
    obtain ⟨hmem, -⟩ := List.mem_filter.mp (List.mem_of_getElem? he)
    refine ⟨?_, ?_⟩
    · exact hg.filled hmem
    · obtain ⟨j, hj⟩ := List.mem_iff_getElem?.mp hmem
      have hjn : j < n := by
        by_contra hge
        rw [List.getElem?_take_eq_none (Nat.not_lt.mp hge)] at hj
        exact nomatch hj
      rw [List.getElem?_take_of_lt hjn] at hj
      exact ⟨_, _, hg.taken j e _ hjn hj (List.getElem?_eq_getElem (Nat.lt_of_lt_of_le hjn hfree))⟩
  · rw [hsplit, List.take_left] at hno
    rw [hg.circuit, if_neg fun hany => ?_]
    obtain ⟨e, he, hec⟩ := List.any_eq_true.mp hany
    obtain rfl := beq_iff_eq.mp hec
    exact hno e (List.mem_filter.mpr ⟨he, by rw [hc]; rfl⟩) rfl

end

end Sys2Proof.Machine
end

section
/-! PROOFS. A kneel that is stopped, and an exclusion, as the levelling unit takes them: O49. -/

namespace Sys2Proof.Machine

theorem Hub.Narrows.congr {gone : Circuit → Bool} {n : Nat} {h g h' g' : Hub} (hn : Hub.Narrows gone n h g) (hh : h'.level = h.level)
    (hg : g'.level = g.level) : Hub.Narrows gone n h' g' := by
  have hcircuit (c : Circuit) : h'.circuit c = h.circuit c := by rw [Hub.circuit, hh]; rfl
  have gcircuit (c : Circuit) : g'.circuit c = g.circuit c := by rw [Hub.circuit, hg]; rfl
  refine ⟨fun c => ?_, fun i x => ?_, ?_, fun k e => ?_, fun c => ?_⟩
  · rw [hcircuit, gcircuit]
    exact hn.reason c
  · rw [hh, hg]
    exact hn.held i x
  · rw [hh, hg]
    exact hn.queue
  · rw [hh, hg, gcircuit]
    exact hn.granted k e
  · rw [hh, gcircuit, hcircuit]
    exact hn.action c

/-! ## The entry into STOPPED (R102, R116) -/

/-- A kneel is in progress (R116). -/
def Hub.Kneeling (h : Hub) : Prop := h.kneel.state = .lowering ∨ h.kneel.state = .knelt ∨ h.kneel.state = .raising

/-- Every circuit in scope is EXCLUDED or held with KNEEL_STOPPED (R102). -/
def Hub.ScopeHeld (h : Hub) : Prop := ∀ c, h.inScope c = true →
  (h.circuit c).action = .excluded ∨ ((h.circuit c).action = .hold ∧ (h.circuit c).reason = .kneelStopped)

/-- The unit with the circuits in scope stopped, before the freed slots are granted (R102). -/
structure Hub.ScopeStopped (h f : Hub) : Prop where
  store   : f.store = h.store
  circuit : ∀ c, f.circuit c = if h.inScope c = true then (h.circuit c).stopped else h.circuit c
  left    : ∃ b : Hub, b.level = h.level ∧ b.Left (fun c => h.inScope c && (h.circuit c).action.runs) f
  form    : h.level.Form → f.level.Form

theorem Hub.scopeStopped_foldl {h b : Hub} (hl : b.level = h.level) (hs : b.store = h.store) :
    h.ScopeStopped (b.scope.foldl Hub.stopCircuit b) := by
  have hscope (c : Circuit) : b.inScope c = h.inScope c := Hub.inScope_of_store hs c
  have hcircuit (c : Circuit) : b.circuit c = h.circuit c := by rw [Hub.circuit, hl]; rfl
  have hnodup : b.scope.Nodup := List.Nodup.filter _ (by decide)
  have hmem (c : Circuit) : c ∈ b.scope ↔ h.inScope c = true := by
    rw [Hub.scope, List.mem_filter, hscope]
    exact and_iff_right (Circuit.mem_all c)
  obtain ⟨hleft, hstopped⟩ := Hub.foldl_touch (f := Hub.stopCircuit) (φ := fun _ x => x.stopped)
    (fun g c _ => g.touch_stopCircuit c) hnodup (.refl b)
  refine ⟨hleft.scene.store.trans hs, fun c => ?_, ⟨b, hl, hleft.congr fun c => ?_⟩, fun hf => ?_⟩
  · rw [hstopped, hcircuit]
    exact if_congr (hmem c) rfl rfl
  · have hruns : (h.circuit c).leaves (h.circuit c).stopped = (h.circuit c).action.runs := by
      rw [CircuitLevel.leaves]
      by_cases hx : (h.circuit c).action = .excluded
      · rw [hx]
        rfl
      · rw [CircuitLevel.stopped_of_not hx]
        exact Bool.and_true _
    rw [hcircuit, hruns]
    exact congrArg (· && _) (by rw [Bool.eq_iff_iff, decide_eq_true_iff, hmem])
  · exact (Hub.drops_foldl Hub.drops_stopCircuit _ b).form (hl ▸ hf)

theorem Hub.stopKneel_level {h : Hub} (hk : h.Kneeling) (cause : StopCause) (c : Option Circuit) :
    (h.stopKneel cause c).kneel = { h.kneel with state := .stopped, cause := some cause, circuit := c, before := some h.kneel.state } ∧
    ∃ f, h.ScopeStopped f ∧ (h.stopKneel cause c).level = (f.grantIfFreed h.level.slots f.level.slots).level := by
  have hstop : h.stopKneel cause c = (h.onKneel fun u =>
      { u with cause := some cause, circuit := c, before := some u.state }).setKneel .stopped := by
    unfold Hub.stopKneel
    rcases hk with hk | hk | hk <;> rw [hk]
  rw [hstop]
  refine ⟨by rw [Hub.setKneel_kneel]; rfl, ?_⟩
  generalize hstart : (h.onKneel fun u => { u with cause := some cause, circuit := c, before := some u.state }) = start
  obtain ⟨b, hlevel, hstore, hb⟩ : ∃ b : Hub, b.level = h.level ∧ b.store = h.store ∧
      (start.setKneel .stopped).level = (b.levellingTakesKneel start.kneel.state .stopped).level :=
    ⟨(start.onKneel fun u => { u with state := .stopped }).raise .kneelState 0 KneelState.stopped.num, by rw [← hstart]; rfl,
      by rw [← hstart]; rfl, by simp [Hub.setKneel]⟩
  refine ⟨_, Hub.scopeStopped_foldl hlevel hstore, ?_⟩
  rw [hb, ← hlevel]
  rfl

theorem Hub.ScopeStopped.still {h : Hub} {f : Hub} (hs : h.ScopeStopped f) : f.level.still = h.level.still := by
  obtain ⟨b, hb, hleft⟩ := hs.left
  rw [hleft.scene.still, hb]

theorem Hub.ScopeStopped.narrows {h f : Hub} (hs : h.ScopeStopped f) {gone : Circuit → Bool}
    (hg : ∀ c, h.inScope c = true → gone c = true) : Hub.Narrows gone 0 h f := by
  obtain ⟨b, hb, hleft⟩ := hs.left
  have hcircuit (c : Circuit) : b.circuit c = h.circuit c := by rw [Hub.circuit, hb]; rfl
  refine (Hub.narrows_of_left hleft (fun c hc => hg c ((Bool.and_eq_true _ _).mp hc).1) fun c hc => ?_).congr hb.symm rfl
  rw [hs.circuit, if_neg fun hin => Bool.noConfusion (hc.symm.trans (hg c hin)), hcircuit]
  exact ⟨rfl, rfl⟩

/-! ## What every part of an exclusion keeps -/

/-- A stop or a grant: who is EXCLUDED stays so and no other becomes so, a scope that is held stays held, and the circuits
beyond the scope keep their places (R97, R102). -/
structure Hub.Halts (h g : Hub) : Prop where
  store    : g.store = h.store
  form     : h.level.Form → g.level.Form
  excluded : h.level.Form → ∀ c, (g.circuit c).action = .excluded ↔ (h.circuit c).action = .excluded
  held     : h.level.Form → h.ScopeHeld → g.ScopeHeld
  narrows  : ∀ gone : Circuit → Bool, (∀ c, h.inScope c = true → gone c = true) → ∃ n, Hub.Narrows gone n h g

namespace Hub.Halts
variable {h g f : Hub}

theorem of_level (hl : g.level = h.level) (hs : g.store = h.store) : h.Halts g := by
  have hcircuit (c : Circuit) : g.circuit c = h.circuit c := by rw [Hub.circuit, hl]; rfl
  refine ⟨hs, fun hf => hl ▸ hf, fun _ c => by rw [hcircuit], fun _ hh c hc => ?_, fun gone _ => ⟨0, ?_⟩⟩
  · rw [hcircuit]
    exact hh c (by rw [← Hub.inScope_of_store hs]; exact hc)
  · exact Hub.narrows_of_same (by rw [hl]) (by rw [hl]) fun c => by rw [hcircuit]; exact ⟨rfl, rfl⟩

theorem refl (h : Hub) : h.Halts h := of_level rfl rfl

theorem trans (hg : h.Halts g) (gf : g.Halts f) : h.Halts f where
  store := gf.store.trans hg.store
  form hf := gf.form (hg.form hf)
  excluded hf c := (gf.excluded (hg.form hf) c).trans (hg.excluded hf c)
  held hf hh := gf.held (hg.form hf) (hg.held hf hh)
  narrows gone hgone := by
    obtain ⟨n, hn⟩ := hg.narrows gone hgone
    obtain ⟨m, hm⟩ := gf.narrows gone fun c hc => hgone c (by rw [← Hub.inScope_of_store hg.store]; exact hc)
    exact ⟨n + m, hn.trans hm⟩

theorem foldl {α : Type} {φ : Hub → α → Hub} (hf : ∀ h x, Hub.Halts h (φ h x)) (l : List α) (h : Hub) : h.Halts (l.foldl φ h) := by
  induction l generalizing h with
  | nil => exact refl h
  | cons x l ih => exact (hf h x).trans (ih _)

end Hub.Halts

/-- A circuit that is no longer waiting is what it was before the grants; one that waits is not EXCLUDED by them. -/
theorem Hub.Granted.excluded {n : Nat} {h g : Hub} (hg : h.Granted n g) (hu : h.level.Agrees) (c : Circuit) :
    (g.circuit c).action = .excluded ↔ (h.circuit c).action = .excluded := by
  by_cases hw : (h.circuit c).action = .fillWait
  · have hno : (g.circuit c).action ≠ .excluded := by
      rw [hg.circuit]
      split
      · exact nofun
      · rw [hw]
        exact nofun
    exact ⟨fun hx => absurd hx hno, fun hx => Action.noConfusion (hw.symm.trans hx)⟩
  · rw [hg.still hu hw]

theorem Hub.Granted.scopeHeld {n : Nat} {h g : Hub} (hg : h.Granted n g) (hu : h.level.Agrees) (hs : g.store = h.store)
    (hh : h.ScopeHeld) : g.ScopeHeld := fun c hc => by
  have hheld := hh c (by rw [← Hub.inScope_of_store hs]; exact hc)
  rw [hg.still hu (by rcases hheld with hx | ⟨hx, -⟩ <;> rw [hx] <;> exact nofun)]
  exact hheld

theorem Hub.halts_grantIfFreed (before after : PerSlot (Option HeldSlot)) (h : Hub) : h.Halts (h.grantIfFreed before after) := by
  obtain ⟨n, -, hfree, hg⟩ := h.grantIfFreed_granted before after
  have hstore : (h.grantIfFreed before after).store = h.store := by simp
  refine ⟨hstore, fun hf => ?_, fun hf => hg.excluded hf.agrees, fun hf => hg.scopeHeld hf.agrees hstore,
    fun gone _ => ⟨_, hg.narrows hfree⟩⟩
  unfold Hub.grantIfFreed
  split
  · exact hf
  · exact Hub.grant_form hf

theorem Hub.ScopeStopped.halts {h f : Hub} (hs : h.ScopeStopped f) : h.Halts f ∧ f.ScopeHeld := by
  have hheld : f.ScopeHeld := fun c hc => by
    have hin : h.inScope c = true := by rw [← Hub.inScope_of_store hs.store]; exact hc
    rw [hs.circuit, if_pos hin]
    by_cases hx : (h.circuit c).action = .excluded
    · rw [CircuitLevel.stopped_of_excluded hx]
      exact .inl hx
    · rw [CircuitLevel.stopped_of_not hx]
      exact .inr ⟨rfl, rfl⟩
  refine ⟨⟨hs.store, hs.form, fun _ c => ?_, fun _ _ => hheld, fun gone hgone => ⟨0, hs.narrows hgone⟩⟩, hheld⟩
  rw [hs.circuit]
  split
  · by_cases hx : (h.circuit c).action = .excluded
    · rw [CircuitLevel.stopped_of_excluded hx]
    · rw [CircuitLevel.stopped_of_not hx]
      exact ⟨nofun, fun hyes => absurd hyes hx⟩
  · exact Iff.rfl

/-- A kneel in progress is stopped, with its scope held (R102, R116). -/
theorem Hub.stopKneel_halts {h : Hub} (hk : h.Kneeling) (cause : StopCause) (c : Option Circuit) :
    h.Halts (h.stopKneel cause c) ∧ (h.level.Form → (h.stopKneel cause c).ScopeHeld) := by
  obtain ⟨-, f, hs, hlevel⟩ := Hub.stopKneel_level hk cause c
  obtain ⟨hhalts, hheld⟩ := hs.halts
  have hgrants := Hub.halts_grantIfFreed h.level.slots f.level.slots f
  have hstore : (h.stopKneel cause c).store = (f.grantIfFreed h.level.slots f.level.slots).store := by
    rw [hgrants.store, hs.store]
    simp
  have hend := Hub.Halts.of_level hlevel hstore
  exact ⟨(hhalts.trans hgrants).trans hend,
    fun hf => hend.held (hgrants.form (hs.form hf)) (hgrants.held (hs.form hf) hheld)⟩

theorem Hub.halts_stopKneel (cause : StopCause) (c : Option Circuit) (h : Hub) : h.Halts (h.stopKneel cause c) := by
  by_cases hk : h.Kneeling
  · exact (Hub.stopKneel_halts hk cause c).1
  · rw [Hub.stopKneel_of_still ?_ cause c]
    · exact .refl h
    · unfold Hub.Kneeling at hk
      cases hs : h.kneel.state <;> simp_all

end Sys2Proof.Machine
end

section
/-! PROOFS. An exclusion, with the kneel it stops: O49. -/

namespace Sys2Proof.Machine

/-! ## Circuits taken out (R103) -/

section
variable (cs : List Circuit) {add : Causes → Causes} (h : Hub)

/-- A circuit that a cause reaches and that is not yet EXCLUDED (R103). -/
def Hub.reaches (c : Circuit) : Bool := decide (c ∈ cs) && !((h.circuit c).action == .excluded)

theorem Hub.outOf_level (hadd : ∀ x, add (add x) = add x) : (h.outOf cs add).store = h.store ∧ (h.outOf cs add).kneel = h.kneel ∧
    (∀ c, ((h.outOf cs add).circuit c).action = if h.reaches cs c = true then .excluded else (h.circuit c).action) ∧
    (∀ c, h.reaches cs c = false → ((h.outOf cs add).circuit c).reason = (h.circuit c).reason) ∧
    ∀ gone : Circuit → Bool, (∀ c, h.reaches cs c = true → gone c = true) → Hub.Narrows gone 0 h (h.outOf cs add) := by
  unfold Hub.outOf
  extract_lets newly marked
  have hmarked : ∀ c, marked.circuit c =
      if c ∈ cs then { h.circuit c with causes := add (h.circuit c).causes } else h.circuit c :=
    Hub.foldl_causes_circuit add hadd cs h
  have hsame : ∀ c, (marked.circuit c).reason = (h.circuit c).reason ∧ (marked.circuit c).action = (h.circuit c).action := fun c => by
    rw [hmarked]
    split <;> exact ⟨rfl, rfl⟩
  have hkept : marked.level = { h.level with circuits := marked.level.circuits } := Hub.foldl_onCircuit_level _ cs h
  have hnewly : ∀ c, c ∈ newly ↔ h.reaches cs c = true := fun c => by
    rw [Hub.reaches, Bool.and_eq_true, decide_eq_true_iff]
    exact List.mem_filter
  obtain ⟨hleft, hcircuit⟩ := marked.foldl_takeOut_level newly
  refine ⟨?_, ?_, fun c => ?_, fun c hc => ?_, fun gone hgone => ?_⟩
  · simp [marked, foldl_keeps Hub.store]
  · simp [marked, foldl_keeps Hub.kneel]
  · rw [hcircuit, ← (hsame c).2]
    simp only [hnewly]
    split <;> rfl
  · rw [hcircuit, if_neg fun hmem => Bool.noConfusion (hc.symm.trans ((hnewly c).mp hmem)), (hsame c).1]
  · have hmark : Hub.Narrows gone 0 h marked := Hub.narrows_of_same (by rw [hkept]) (by rw [hkept]) hsame
    have hout : Hub.Narrows gone 0 marked (newly.foldl Hub.takeOut marked) := by
      refine Hub.narrows_of_left hleft (fun c hc => hgone c ((hnewly c).mp (of_decide_eq_true hc))) fun c hc => ?_
      rw [hcircuit, if_neg fun hmem => Bool.noConfusion (hc.symm.trans (hgone c ((hnewly c).mp hmem)))]
      exact ⟨rfl, rfl⟩
    exact hmark.trans hout

end

/-! ## The hand-over to the kneel unit (R116) -/

/-- The kneel unit after circuits are handed to it, the first in scope among them named (R116; log entry 11). -/
def Hub.kneelAfter (h : Hub) (first : Option Circuit) : Kneel :=
  first.elim h.kneel fun c =>
    { h.kneel with state := .stopped, cause := some .exclusion, circuit := some c, before := some h.kneel.state }

theorem Hub.not_kneeling_of_stopped {h : Hub} (hk : h.kneel.state = .stopped) : ¬h.Kneeling := by
  rintro (hl | hl | hl) <;> exact KneelState.noConfusion (hk.symm.trans hl)

theorem Hub.stopKneel_of_not_kneeling {h : Hub} (hk : ¬h.Kneeling) (cause : StopCause) (c : Option Circuit) : h.stopKneel cause c = h := by
  refine Hub.stopKneel_of_still ?_ cause c
  unfold Hub.Kneeling at hk
  cases hs : h.kneel.state with
  | ride => exact .inl rfl
  | stopped => exact .inr rfl
  | lowering => exact absurd (.inl hs) hk
  | knelt => exact absurd (.inr (.inl hs)) hk
  | raising => exact absurd (.inr (.inr hs)) hk

/-- A circuit handed to the kneel unit stops a kneel where it is in scope (R116). -/
def Hub.handOut (h : Hub) (c : Circuit) : Hub := if h.inScope c then h.stopKneel .exclusion (some c) else h

theorem Hub.halts_handOut (h : Hub) (c : Circuit) : h.Halts (h.handOut c) := by
  unfold Hub.handOut
  split
  · exact Hub.halts_stopKneel .exclusion (some c) h
  · exact .refl h

theorem Hub.foldl_handOut_of_not {cs : List Circuit} {h : Hub} (hk : ¬h.Kneeling) : cs.foldl Hub.handOut h = h := by
  induction cs with
  | nil => rfl
  | cons c cs ih =>
    have hsame : h.handOut c = h := by
      unfold Hub.handOut
      rw [Hub.stopKneel_of_not_kneeling hk, ite_self]
    rw [List.foldl_cons, hsame, ih]

theorem Hub.foldl_handOut {cs : List Circuit} {h : Hub} (hk : h.Kneeling) :
    (cs.foldl Hub.handOut h).kneel = h.kneelAfter (cs.find? h.inScope) ∧
    (h.level.Form → (cs.find? h.inScope).isSome = true → (cs.foldl Hub.handOut h).ScopeHeld) := by
  induction cs with
  | nil => exact ⟨rfl, fun _ => nofun⟩
  | cons c cs ih =>
    rw [List.foldl_cons]
    cases hc : h.inScope c with
    | false =>
      have hsame : h.handOut c = h := if_neg (by rw [hc]; exact Bool.false_ne_true)
      rw [hsame, List.find?_cons_of_neg (by rw [hc]; exact Bool.false_ne_true)]
      exact ih
    | true =>
      have hstop : h.handOut c = h.stopKneel .exclusion (some c) := if_pos hc
      obtain ⟨hkneel, -⟩ := Hub.stopKneel_level hk .exclusion (some c)
      obtain ⟨-, hheld⟩ := Hub.stopKneel_halts hk .exclusion (some c)
      have hdone : ¬(h.stopKneel .exclusion (some c)).Kneeling := Hub.not_kneeling_of_stopped (by rw [hkneel])
      rw [hstop, Hub.foldl_handOut_of_not hdone, List.find?_cons_of_pos hc]
      exact ⟨hkneel, fun hf _ => hheld hf⟩

/-! ## An exclusion (R97, R103, R116) -/

theorem Hub.exclude_stages (cs : List Circuit) (add : Causes → Causes) (h : Hub) : ∃ after, h.exclude cs add =
    (((cs.filter fun c => !((h.circuit c).action == .excluded)).foldl Hub.handOut (h.outOf cs add)).grantIfFreed
      h.level.slots after).writeValves :=
  ⟨_, rfl⟩

/-- The first circuit in scope that a cause newly reaches. -/
def Hub.firstReached (h : Hub) (cs : List Circuit) : Option Circuit := cs.find? fun c => h.reaches cs c && h.inScope c

/-- What an exclusion does to the circuits and the kneel unit (R103, R116). -/
structure Hub.Excludes (cs : List Circuit) (h g : Hub) : Prop where
  store    : g.store = h.store
  excluded : ∀ c, (g.circuit c).action = .excluded ↔ c ∈ cs ∨ (h.circuit c).action = .excluded
  idle     : ¬h.Kneeling → g.kneel = h.kneel
  kneel    : h.Kneeling → g.kneel = h.kneelAfter (h.firstReached cs)
  holds    : h.Kneeling → (h.firstReached cs).isSome = true → g.ScopeHeld
  held     : h.ScopeHeld → g.ScopeHeld
  narrows  : ∀ gone : Circuit → Bool, (∀ c, h.inScope c = true → gone c = true) → (∀ c, h.reaches cs c = true → gone c = true) →
    ∃ n, Hub.Narrows gone n h g

theorem Hub.reaches_iff {cs : List Circuit} {h : Hub} {c : Circuit} :
    h.reaches cs c = true ↔ c ∈ cs ∧ (h.circuit c).action ≠ .excluded := by
  rw [Hub.reaches, Bool.and_eq_true, decide_eq_true_iff, Bool.not_eq_true', beq_eq_false_iff_ne]

theorem Hub.exclude_excludes (cs : List Circuit) {add : Causes → Causes} (hadd : ∀ x, add (add x) = add x) {h : Hub}
    (hf : h.level.Form) : h.Excludes cs (h.exclude cs add) := by
  obtain ⟨after, hstages⟩ := h.exclude_stages cs add
  obtain ⟨hform, -⟩ := Hub.outOf_form cs hadd hf
  obtain ⟨hstore, hkneel, haction, hreason, hnarrows⟩ := h.outOf_level cs hadd
  rw [hstages]
  generalize h.outOf cs add = out at hform hstore hkneel haction hreason hnarrows ⊢
  have hscope (c : Circuit) : out.inScope c = h.inScope c := Hub.inScope_of_store hstore c
  have hfirst : (cs.filter fun c => !((h.circuit c).action == .excluded)).find? out.inScope = h.firstReached cs := by
    rw [List.find?_filter, Hub.firstReached]
    refine List.find?_congr fun c hc => ?_
    rw [Hub.reaches, hscope, decide_eq_true hc, Bool.true_and]
    cases !((h.circuit c).action == .excluded) <;> cases h.inScope c <;> rfl
  have hheld : h.ScopeHeld → out.ScopeHeld := fun hh c hc => by
    rw [haction]
    split
    · exact .inl rfl
    · next hno =>
      rw [hreason c (Bool.eq_false_iff.mpr hno)]
      exact hh c (hscope c ▸ hc)
  generalize hnewly : (cs.filter fun c => !((h.circuit c).action == .excluded)) = newly at hfirst ⊢
  have hhanded : out.Halts (newly.foldl Hub.handOut out) := Hub.Halts.foldl Hub.halts_handOut newly out
  have hkneeling : out.Kneeling ↔ h.Kneeling := by unfold Hub.Kneeling; rw [hkneel]
  have hkneels : (¬h.Kneeling → (newly.foldl Hub.handOut out).kneel = h.kneel) ∧
      (h.Kneeling → (newly.foldl Hub.handOut out).kneel = h.kneelAfter (h.firstReached cs)) ∧
      (h.Kneeling → (h.firstReached cs).isSome = true → (newly.foldl Hub.handOut out).ScopeHeld) := by
    refine ⟨fun hk => ?_, fun hk => ?_, fun hk hx => ?_⟩
    · rw [Hub.foldl_handOut_of_not (mt hkneeling.mp hk), hkneel]
    · rw [(Hub.foldl_handOut (hkneeling.mpr hk)).1, hfirst, Hub.kneelAfter, hkneel]
      rfl
    · exact (Hub.foldl_handOut (hkneeling.mpr hk)).2 hform (by rw [hfirst]; exact hx)
  generalize newly.foldl Hub.handOut out = handed at hhanded hkneels ⊢
  obtain ⟨hidle, hstops, hholds⟩ := hkneels
  have hgrants : handed.Halts (handed.grantIfFreed h.level.slots after).writeValves :=
    (Hub.halts_grantIfFreed h.level.slots after handed).trans (.of_level rfl rfl)
  have hend : (handed.grantIfFreed h.level.slots after).writeValves.kneel = handed.kneel := by simp
  have hall := hhanded.trans hgrants
  generalize (handed.grantIfFreed h.level.slots after).writeValves = g at hgrants hend hall ⊢
  refine ⟨hall.store.trans hstore, fun c => ?_, fun hk => hend.trans (hidle hk), fun hk => hend.trans (hstops hk),
    fun hk hx => hgrants.held (hhanded.form hform) (hholds hk hx), fun hh => hall.held hform (hheld hh), fun gone hg hc => ?_⟩
  · rw [hall.excluded hform, haction]
    split
    · next hyes => exact ⟨fun _ => .inl (Hub.reaches_iff.mp hyes).1, fun _ => rfl⟩
    · next hno =>
      refine ⟨.inr, fun hor => ?_⟩
      rcases hor with hmem | hx
      · by_contra hne
        exact hno (Hub.reaches_iff.mpr ⟨hmem, hne⟩)
      · exact hx
  · obtain ⟨n, hn⟩ := hall.narrows gone fun c hin => hg c (hscope c ▸ hin)
    exact ⟨0 + n, (hnarrows gone hc).trans hn⟩

end Sys2Proof.Machine
end

section
/-! PROOFS. A step in which circuits are excluded, and what it makes of a kneel in progress: O49. -/

namespace Sys2Proof.Machine

/-! ## Circuits that become EXCLUDED in a step (R103) -/

/-- A circuit is EXCLUDED behind a step and was not before. -/
def Hub.newOut (h u : Hub) (x : Circuit) : Bool := (h.circuit x).action != .excluded && (u.circuit x).action == .excluded

theorem Hub.newOut_iff {h u : Hub} {x : Circuit} :
    h.newOut u x = true ↔ (h.circuit x).action ≠ .excluded ∧ (u.circuit x).action = .excluded := by
  rw [Hub.newOut, Bool.and_eq_true, bne_iff_ne, beq_iff_eq]

/-- What exclusions, clearings and the air cut have made of the circuits and the kneel unit since `h`, a kneel in progress:
it is stopped by the first circuit in scope that became EXCLUDED (R99, R103, R116). -/
structure Hub.Outed (h g : Hub) : Prop where
  inv     : g.level.Inv
  store   : g.store = h.store
  stays   : ∀ c, (h.circuit c).action = .excluded → (g.circuit c).action = .excluded
  held    : g.kneel.state = .stopped → g.ScopeHeld
  kneel   : (g.kneel = h.kneel ∧ ∀ c, h.inScope c = true → h.newOut g c = false) ∨
    ∃ x, g.kneel = h.kneelAfter (some x) ∧ h.inScope x = true ∧ h.newOut g x = true
  reason  : ∀ c, h.inScope c = false → h.newOut g c = false → (g.circuit c).reason = (h.circuit c).reason
  narrows : g.level.cut = h.level.cut → ∀ gone : Circuit → Bool, (∀ c, h.inScope c = true → gone c = true) →
    (∀ c, h.newOut g c = true → gone c = true) → ∃ n, Hub.Narrows gone n h g

namespace Hub.Outed
variable {h g f : Hub}

theorem refl (hu : h.level.Inv) (hk : h.Kneeling) : h.Outed h := by
  have hno (c : Circuit) : h.newOut h c = false := by
    rw [Hub.newOut]
    cases (h.circuit c).action <;> rfl
  exact ⟨hu, rfl, fun _ => id, fun hs => absurd hk (Hub.not_kneeling_of_stopped hs), .inl ⟨rfl, fun c _ => hno c⟩, fun _ _ _ => rfl,
    fun _ _ _ _ => ⟨0, Hub.narrows_of_same rfl rfl fun _ => ⟨rfl, rfl⟩⟩⟩

/-- Action states, hold reasons, slots, queue and the kneel unit stay. -/
theorem same (hg : h.Outed g) (hu : f.level.Inv) (hs : f.store = g.store) (hk : f.kneel = g.kneel)
    (hc : ∀ c, (f.circuit c).action = (g.circuit c).action ∧ (f.circuit c).reason = (g.circuit c).reason)
    (hl : f.level.cut = h.level.cut → g.level.cut = h.level.cut ∧ f.level.slots = g.level.slots ∧ f.level.queue = g.level.queue) :
    h.Outed f := by
  have hnew (c : Circuit) : h.newOut f c = h.newOut g c := by rw [Hub.newOut, (hc c).1, Hub.newOut]
  refine ⟨hu, hs.trans hg.store, fun c hx => (hc c).1.trans (hg.stays c hx), fun hstop c hin => ?_, ?_, fun c hin hno => ?_,
    fun hcut gone hscope hout => ?_⟩
  · rw [(hc c).1, (hc c).2]
    exact hg.held (hk ▸ hstop) c (by rw [← Hub.inScope_of_store hs]; exact hin)
  · simp only [hk, hnew]
    exact hg.kneel
  · exact (hc c).2.trans (hg.reason c hin (hnew c ▸ hno))
  · obtain ⟨gcut, hslots, hqueue⟩ := hl hcut
    obtain ⟨n, hn⟩ := hg.narrows gcut gone hscope fun c hx => hout c ((hnew c).trans hx)
    exact ⟨n, hn.trans (Hub.narrows_of_same hslots hqueue fun c => ⟨(hc c).2, (hc c).1⟩)⟩

/-- A further exclusion (R103, R116). -/
theorem exclude (hg : h.Outed g) (hk : h.Kneeling) (cs : List Circuit) {add : Causes → Causes} (hadd : ∀ x, add (add x) = add x) :
    h.Outed (g.exclude cs add) := by
  obtain ⟨hf, -⟩ := (Levelling.inv_iff _).mp hg.inv
  have hx := Hub.exclude_excludes cs hadd hf
  have hinv := (Hub.exclude_inv cs hadd hg.inv).1
  have hcut := (g.exclude_cut cs add).1
  generalize g.exclude cs add = f at hx hinv hcut ⊢
  have hscope (c : Circuit) : g.inScope c = h.inScope c := Hub.inScope_of_store hg.store c
  have hnewer (c : Circuit) (hc : h.newOut g c = true) : h.newOut f c = true :=
    Hub.newOut_iff.mpr ⟨(Hub.newOut_iff.mp hc).1, (hx.excluded c).mpr (.inr (Hub.newOut_iff.mp hc).2)⟩
  have hreached (c : Circuit) (hc : g.reaches cs c = true) : h.newOut f c = true := by
    obtain ⟨hmem, hno⟩ := Hub.reaches_iff.mp hc
    exact Hub.newOut_iff.mpr ⟨fun hout => hno (hg.stays c hout), (hx.excluded c).mpr (.inl hmem)⟩
  have hnarrows (gone : Circuit → Bool) (hin : ∀ c, h.inScope c = true → gone c = true)
      (hout : ∀ c, h.newOut f c = true → gone c = true) : ∃ n, Hub.Narrows gone n g f :=
    hx.narrows gone (fun c hc => hin c (hscope c ▸ hc)) fun c hc => hout c (hreached c hc)
  refine ⟨hinv, hx.store.trans hg.store, fun c hout => (hx.excluded c).mpr (.inr (hg.stays c hout)), fun hstop => ?_, ?_,
    fun c hin hno => ?_, fun fcut gone hin hout => ?_⟩
  · by_cases hgk : g.Kneeling
    · cases hfirst : g.firstReached cs with
      | none =>
        have hkneel := hx.kneel hgk
        rw [hfirst] at hkneel
        exact absurd hgk (Hub.not_kneeling_of_stopped ((congrArg Kneel.state hkneel).symm.trans hstop))
      | some x => exact hx.holds hgk (by rw [hfirst]; rfl)
    · exact hx.held (hg.held ((congrArg Kneel.state (hx.idle hgk)).symm.trans hstop))
  · obtain ⟨hsame, hnone⟩ | ⟨x, hafter, hin, hnew⟩ := hg.kneel
    · have hgk : g.Kneeling := by unfold Hub.Kneeling; rw [hsame]; exact hk
      have hkneel := hx.kneel hgk
      cases hfirst : g.firstReached cs with
      | none =>
        rw [hfirst] at hkneel
        refine .inl ⟨hkneel.trans hsame, fun c hin => Bool.eq_false_iff.mpr fun hnew => ?_⟩
        obtain ⟨hno, hout⟩ := Hub.newOut_iff.mp hnew
        have hgno : (g.circuit c).action ≠ .excluded := fun hout' =>
          Bool.noConfusion ((hnone c hin).symm.trans (Hub.newOut_iff.mpr ⟨hno, hout'⟩))
        have hmem : c ∈ cs := ((hx.excluded c).mp hout).resolve_right hgno
        refine List.find?_eq_none.mp hfirst c hmem ?_
        rw [Hub.reaches_iff.mpr ⟨hmem, hgno⟩, hscope, hin]
        rfl
      | some x =>
        rw [hfirst, Hub.kneelAfter, hsame] at hkneel
        have hfound := List.find?_some hfirst
        obtain ⟨hr, hin⟩ := (Bool.and_eq_true _ _).mp hfound
        exact .inr ⟨x, hkneel, hscope x ▸ hin, hreached x hr⟩
    · have hgk : ¬g.Kneeling := Hub.not_kneeling_of_stopped (by rw [hafter]; rfl)
      exact .inr ⟨x, (hx.idle hgk).trans hafter, hin, hnewer x hnew⟩
  · have hgno : h.newOut g c = false := Bool.eq_false_iff.mpr fun hyes => Bool.noConfusion (hno.symm.trans (hnewer c hyes))
    obtain ⟨n, hn⟩ := hnarrows (fun c => h.inScope c || h.newOut f c) (fun c hc => by rw [hc]; rfl)
      fun c hc => by rw [hc, Bool.or_true]
    exact (hn.reason c (by rw [hin, hno]; rfl)).trans (hg.reason c hin hgno)
  · obtain ⟨n, hn⟩ := hg.narrows (hcut.symm.trans fcut) gone hin fun c hc => hout c (hnewer c hc)
    obtain ⟨m, hm⟩ := hnarrows gone hin hout
    exact ⟨n + m, hn.trans hm⟩

end Hub.Outed

end Sys2Proof.Machine
end

section
/-! PROOFS. What one step makes of a kneel in progress: O49. -/

namespace Sys2Proof.Machine

/-- What one step from `h` to `u` does where it stops a kneel in progress, and that it does so exactly where standstill was
lost or a circuit in scope became EXCLUDED (R97, R102, R105, R116; log entry 11). -/
structure Hub.StopEffect (moved : Prop) (h u : Hub) : Prop where
  state   : u.kneel.state = .stopped ↔ moved ∨ ∃ x, h.inScope x = true ∧ h.newOut u x = true
  before  : u.kneel.state = .stopped → u.kneel.before = some h.kneel.state ∧ u.kneel.completions = h.kneel.completions
  motion  : u.kneel.state = .stopped → moved → u.kneel.cause = some .standstill ∧ u.kneel.circuit = none
  named   : u.kneel.state = .stopped → ¬moved → u.kneel.cause = some .exclusion ∧
    ∃ x, u.kneel.circuit = some x ∧ h.inScope x = true ∧ h.newOut u x = true ∧
      ∀ y, h.inScope y = true → h.newOut u y = true →
        ((u.circuit y).causes.valve = true → (u.circuit x).causes.valve = true) ∧
        ((u.circuit y).causes.valve = (u.circuit x).causes.valve → x.num ≤ y.num)
  target  : u.kneel.state = .stopped → ∀ x, (u.circuit x).target = (h.circuit x).target ∧ (u.circuit x).source = (h.circuit x).source
  held    : u.kneel.state = .stopped → ∀ x, h.inScope x = true →
    (u.circuit x).action = .excluded ∨ ((u.circuit x).action = .hold ∧ (u.circuit x).reason = .kneelStopped)
  reason  : u.kneel.state = .stopped → ∀ x, h.inScope x = false → h.newOut u x = false → (u.circuit x).reason = (h.circuit x).reason
  inv     : u.kneel.state = .stopped → u.level.Inv
  shown   : u.kneel.state = .stopped → u.ValvesShown
  queue   : u.kneel.state = .stopped → u.level.cut = h.level.cut →
    let gone := fun c => h.inScope c || h.newOut u c
    (∀ i x, h.level.slots.get i = some x → gone x.circuit = false → u.level.slots.get i = some x) ∧
    ∃ n, u.level.queue = (h.level.waiting gone).drop n ∧
      (∀ k e, k < n → (h.level.waiting gone)[k]? = some e → (u.circuit e.circuit).action = .fill ∧
        ∃ i m, u.level.slots.get i = some ⟨e.circuit, 0, m, e.cls⟩ ∧ (moved → m = h.level.grants + BitVec.ofNat 16 k)) ∧
      ∀ x, gone x = false → (∀ e ∈ (h.level.waiting gone).take n, e.circuit ≠ x) → (u.circuit x).action = (h.circuit x).action

section
variable {moved : Prop} {h u : Hub}

/-- A step in which the kneel goes on, and no circuit in scope becomes EXCLUDED. -/
theorem Hub.stopEffect_of_going (hm : ¬moved) (hk : u.kneel.state ≠ .stopped)
    (hno : ∀ c, (u.circuit c).action = .excluded → (h.circuit c).action = .excluded) : Hub.StopEffect moved h u where
  state := by
    refine ⟨fun hs => absurd hs hk, fun hor => ?_⟩
    rcases hor with hyes | ⟨x, -, hx⟩
    · exact absurd hyes hm
    · exact absurd (hno x (Hub.newOut_iff.mp hx).2) (Hub.newOut_iff.mp hx).1
  before hs := absurd hs hk
  motion hs := absurd hs hk
  named hs := absurd hs hk
  target hs := absurd hs hk
  held hs := absurd hs hk
  reason hs := absurd hs hk
  inv hs := absurd hs hk
  shown hs := absurd hs hk
  queue hs := absurd hs hk

/-- A circuit that a stop reaches holds no slot and no entry (R97, R102, R103). -/
theorem Hub.StopEffect.away (he : Hub.StopEffect moved h u) (hs : u.kneel.state = .stopped) {x : Circuit}
    (hx : (h.inScope x || h.newOut u x) = true) :
    (∀ i y, u.level.slots.get i = some y → y.circuit ≠ x) ∧ ∀ e ∈ u.level.queue, e.circuit ≠ x := by
  have haction : (u.circuit x).action = .excluded ∨ (u.circuit x).action = .hold := by
    rcases (Bool.or_eq_true _ _).mp hx with hin | hout
    · exact (he.held hs x hin).imp_right And.left
    · exact .inl (Hub.newOut_iff.mp hout).2
  refine ⟨fun i y hy heq => ?_, fun e hmem heq => ?_⟩
  · have hfill : (u.circuit y.circuit).action = .fill := (he.inv hs).held i y hy
    rw [heq] at hfill
    rcases haction with ha | ha <;> exact Action.noConfusion (hfill.symm.trans ha)
  · have hwait : (u.circuit e.circuit).action = .fillWait := (he.inv hs).queued e hmem
    rw [heq] at hwait
    rcases haction with ha | ha <;> exact Action.noConfusion (hwait.symm.trans ha)

/-- A step of exclusions: the kneel goes on, or the first circuit in scope that became EXCLUDED has stopped it. -/
theorem Hub.Outed.effect (hg : h.Outed u) (hk : h.Kneeling) (hm : ¬moved) (hv : u.kneel.state = .stopped → u.ValvesShown)
    (ht : ∀ x, (u.circuit x).target = (h.circuit x).target ∧ (u.circuit x).source = (h.circuit x).source)
    (hname : ∀ x, u.kneel = h.kneelAfter (some x) → ∀ y, h.inScope y = true → h.newOut u y = true →
      ((u.circuit y).causes.valve = true → (u.circuit x).causes.valve = true) ∧
      ((u.circuit y).causes.valve = (u.circuit x).causes.valve → x.num ≤ y.num)) : Hub.StopEffect moved h u := by
  obtain ⟨hsame, hnone⟩ | ⟨x, hafter, hin, hout⟩ := hg.kneel
  · have hgoing : u.kneel.state ≠ .stopped := fun hs => Hub.not_kneeling_of_stopped (hsame ▸ hs) hk
    refine ⟨⟨fun hs => absurd hs hgoing, fun hor => ?_⟩, fun hs => absurd hs hgoing, fun hs => absurd hs hgoing,
      fun hs => absurd hs hgoing, fun hs => absurd hs hgoing, fun hs => absurd hs hgoing, fun hs => absurd hs hgoing,
      fun hs => absurd hs hgoing, fun hs => absurd hs hgoing, fun hs => absurd hs hgoing⟩
    rcases hor with hyes | ⟨y, hy, hnew⟩
    · exact absurd hyes hm
    · exact Bool.noConfusion ((hnone y hy).symm.trans hnew)
  · have hstate : u.kneel.state = .stopped := congrArg Kneel.state hafter
    have hheld (y : Circuit) (hy : h.inScope y = true) := hg.held hstate y ((Hub.inScope_of_store hg.store y).trans hy)
    refine ⟨⟨fun _ => .inr ⟨x, hin, hout⟩, fun _ => hstate⟩, fun _ => ⟨congrArg Kneel.before hafter, (congrArg Kneel.completions hafter :)⟩,
      fun _ hyes => absurd hyes hm, fun _ _ => ⟨congrArg Kneel.cause hafter, x, congrArg Kneel.circuit hafter, hin, hout, hname x hafter⟩,
      fun _ => ht, fun _ => hheld, fun _ => hg.reason, fun _ => hg.inv, hv, fun _ hcut => ?_⟩
    intro gone
    have hscope (c : Circuit) (hc : h.inScope c = true) : gone c = true := by
      show (h.inScope c || _) = true
      rw [hc]
      rfl
    have hnew (c : Circuit) (hc : h.newOut u c = true) : gone c = true := by
      show (_ || h.newOut u c) = true
      rw [hc, Bool.or_true]
    obtain ⟨n, hn⟩ := hg.narrows hcut gone hscope hnew
    have hqueue : u.level.queue = u.level.waiting gone := by
      refine (List.filter_eq_self.mpr fun e he => ?_).symm
      have hwait : (u.circuit e.circuit).action = .fillWait := hg.inv.queued e he
      cases hgone : gone e.circuit with
      | false => rfl
      | true =>
        rcases (Bool.or_eq_true _ _).mp hgone with hc | hc
        · rcases hheld _ hc with ha | ⟨ha, -⟩ <;> exact Action.noConfusion (hwait.symm.trans ha)
        · exact Action.noConfusion (hwait.symm.trans (Hub.newOut_iff.mp hc).2)
    refine ⟨hn.held, n, hqueue.trans hn.queue, fun k e hlt he => ?_, hn.action⟩
    obtain ⟨hfill, i, m, hi⟩ := hn.granted k e hlt he
    exact ⟨hfill, i, m, hi, fun hyes => absurd hyes hm⟩

end


/-! ## A loss of standstill (R116) -/

/-- The lengths behind a stop agree with the places of the entries that stay. -/
theorem Hub.ScopeStopped.lists {h f : Hub} (hs : h.ScopeStopped f) (hu : h.level.Inv) {gone : Circuit → Bool}
    (hg : ∀ c, gone c = h.inScope c) : f.level.queue = h.level.waiting gone ∧ f.level.grants = h.level.grants ∧
    ∀ i x, h.level.slots.get i = some x → gone x.circuit = false → f.level.slots.get i = some x := by
  obtain ⟨b, hb, hleft⟩ := hs.left
  refine ⟨?_, (congrArg Levelling.grants hs.still :), fun i x hx hno => ?_⟩
  · rw [hleft.queue, hb, Levelling.waiting]
    refine List.filter_congr fun e he => ?_
    have hwait : (h.circuit e.circuit).action = .fillWait := hu.queued e he
    rw [hwait, hg]
    exact congrArg _ (Bool.and_true _)
  · rw [hleft.slots, PerSlot.get_map, hb, hx, Option.filter_some, ← hg, hno]
    rfl

/-- A kneel in progress that a loss of standstill stops; the units beside the kneel and the levelling unit are free. -/
theorem Hub.stopEffect_of_motion {moved : Prop} {h g u : Hub} (hu : h.level.Inv) (hk : h.Kneeling) (hm : moved)
    (hgl : g.level = h.level) (hgk : g.kneel = h.kneel) (hgs : g.store = h.store)
    (hul : u.level = (g.stopKneel .standstill none).level) (huk : u.kneel = (g.stopKneel .standstill none).kneel)
    (hinv : u.level.Inv) (hv : u.ValvesShown) : Hub.StopEffect moved h u := by
  have gcircuit (c : Circuit) : g.circuit c = h.circuit c := by rw [Hub.circuit, hgl]; rfl
  have gscope (c : Circuit) : g.inScope c = h.inScope c := Hub.inScope_of_store hgs c
  have ucircuit (c : Circuit) : u.circuit c = (g.stopKneel .standstill none).circuit c := by rw [Hub.circuit, hul]; rfl
  have gk : g.Kneeling := by unfold Hub.Kneeling; rw [hgk]; exact hk
  have gu : g.level.Inv := hgl ▸ hu
  obtain ⟨gf, -⟩ := (Levelling.inv_iff _).mp gu
  obtain ⟨hkneel, f, hstopped, hlevel⟩ := Hub.stopKneel_level gk .standstill none
  obtain ⟨hhalts, hheld⟩ := Hub.stopKneel_halts gk .standstill none
  have hmeasured := Hub.stopKneel_measured .standstill none g
  have ukneel := huk.trans hkneel
  have hno (c : Circuit) : h.newOut u c = false := Bool.eq_false_iff.mpr fun hyes => by
    obtain ⟨hin, hout⟩ := Hub.newOut_iff.mp hyes
    rw [ucircuit, hhalts.excluded gf, gcircuit] at hout
    exact hin hout
  have hstate : u.kneel.state = .stopped := congrArg Kneel.state ukneel
  obtain ⟨n, hlen, hfree, hgr⟩ := f.grantIfFreed_granted g.level.slots f.level.slots
  have fcircuit (c : Circuit) : u.circuit c = (f.grantIfFreed g.level.slots f.level.slots).circuit c := by
    rw [Hub.circuit, hul, hlevel]
    rfl
  have houtside (c : Circuit) (hc : h.inScope c = false) : f.circuit c = h.circuit c := by
    rw [hstopped.circuit, gscope, if_neg (by rw [hc]; exact Bool.false_ne_true), gcircuit]
  generalize f.grantIfFreed g.level.slots f.level.slots = w at hlevel hgr fcircuit
  have uslots : u.level.slots = w.level.slots := by rw [hul, hlevel]
  refine ⟨⟨fun _ => .inl hm, fun _ => hstate⟩, fun _ => ⟨?_, ?_⟩, fun _ _ => ⟨congrArg Kneel.cause ukneel, congrArg Kneel.circuit ukneel⟩,
    fun _ hnot => absurd hm hnot, fun _ c => ?_, fun _ c hc => ?_, fun _ c hc _ => ?_, fun _ => hinv, fun _ => hv, fun _ _ => ?_⟩
  · exact (congrArg Kneel.before ukneel).trans (by rw [hgk])
  · exact ((congrArg Kneel.completions ukneel :)).trans (by rw [hgk])
  · have hc := Levelling.measured_circuit hmeasured c
    rw [ucircuit, ← gcircuit]
    exact ⟨(congrArg CircuitLevel.target hc :), (congrArg CircuitLevel.source hc :)⟩
  · have hstore : (g.stopKneel .standstill none).store = h.store := hhalts.store.trans hgs
    rw [ucircuit]
    exact hheld gf c ((Hub.inScope_of_store hstore c).trans hc)
  · rw [fcircuit, hgr.circuit, houtside c hc]
    split <;> rfl
  · intro gone
    have hgone (c : Circuit) : gone c = g.inScope c := by
      show (h.inScope c || h.newOut u c) = _
      rw [hno, Bool.or_false, gscope]
    obtain ⟨fqueue, fgrants, fslots⟩ := hstopped.lists gu hgone
    rw [hgl] at fqueue fgrants fslots
    rw [← fqueue, uslots]
    refine ⟨fun i x hx hc => hgr.held i x (fslots i x hx hc), n, ?_, fun k e hlt he => ?_, fun c hc hout => ?_⟩
    · rw [hul, hlevel]
      exact hgr.queue
    · have hi : f.level.free[k]? = some f.level.free[k] := List.getElem?_eq_getElem (Nat.lt_of_lt_of_le hlt hfree)
      refine ⟨?_, _, _, hgr.taken k e _ hlt he hi, fun _ => by rw [fgrants]⟩
      rw [fcircuit]
      exact hgr.filled (List.mem_of_getElem? ((List.getElem?_take_of_lt hlt).trans he))
    · have hin : h.inScope c = false := by rw [← gscope, ← hgone]; exact hc
      rw [fcircuit, hgr.circuit, if_neg fun hany => ?_, houtside c hin]
      obtain ⟨e, he, hec⟩ := List.any_eq_true.mp hany
      exact hout e he (beq_iff_eq.mp hec)

end Sys2Proof.Machine
end

section
/-! PROOFS. A wheel pulse under a kneel in progress: O49. -/

namespace Sys2Proof.Machine

theorem Hub.stopKneel_shown {h : Hub} (hk : h.Kneeling) (cause : StopCause) (c : Option Circuit) :
    (h.stopKneel cause c).ValvesShown := by
  have hset (g : Hub) : (g.setKneel .stopped).ValvesShown := by
    obtain ⟨b, hlevel, hbody⟩ : ∃ b : Hub, (g.setKneel .stopped).level = (b.levellingTakesKneel g.kneel.state .stopped).level ∧
        (g.setKneel .stopped).link.body = (b.levellingTakesKneel g.kneel.state .stopped).link.body :=
      ⟨(g.onKneel fun u => { u with state := .stopped }).raise .kneelState 0 KneelState.stopped.num, by simp [Hub.setKneel],
        by simp [Hub.setKneel]⟩
    exact (Hub.writeValves_shown _).of_core (by rw [hlevel]; rfl) hbody
  unfold Hub.stopKneel
  rcases hk with hk | hk | hk <;> rw [hk] <;> exact hset _

/-- Behind a stop the releases withdrawn at a loss of standstill leave kneel and levelling unit (R115, R130). -/
theorem Hub.foldl_withdrawByMotion_stopped {h : Hub} (hk : h.kneel.state = .stopped) :
    (Door.all.foldl Hub.withdrawByMotion h).kneel = h.kneel ∧ (Door.all.foldl Hub.withdrawByMotion h).level = h.level ∧
    (Door.all.foldl Hub.withdrawByMotion h).link.body = h.link.body := by
  refine ⟨Hub.foldl_withdrawByMotion_kneel (.inr hk), ?_, foldl_keeps (fun g : Hub => g.link.body) _ (by simp) _ _⟩
  have hboth : (Door.all.foldl Hub.withdrawByMotion h).kneel = h.kneel ∧ (Door.all.foldl Hub.withdrawByMotion h).level = h.level :=
    foldl_preserves (P := fun g : Hub => g.kneel = h.kneel ∧ g.level = h.level) (fun g d hg => by
      have hset (new : Release) : (g.setRelease d new).kneel = h.kneel ∧ (g.setRelease d new).level = h.level := by
        obtain ⟨hkneel, hlevel⟩ := Hub.setRelease_kneel (h := g) (d := d) (new := new) (.inr (.inr (by rw [hg.1]; exact hk)))
        exact ⟨hkneel.trans hg.1, hlevel.trans hg.2⟩
      unfold Hub.withdrawByMotion
      (repeat' split) <;> first | exact hg | exact hset _) Door.all ⟨rfl, rfl⟩
  exact hboth.2

/-- A loss of standstill stops a kneel in progress and leaves kneel and levelling unit with that (R116, R130). -/
theorem Hub.leaveStandstill_stops {h : Hub} (hs : h.standing = true) (hk : h.Kneeling) : ∃ g : Hub,
    g.level = h.level ∧ g.kneel = h.kneel ∧ g.store = h.store ∧ h.leaveStandstill.level = (g.stopKneel .standstill none).level ∧
    h.leaveStandstill.kneel = (g.stopKneel .standstill none).kneel ∧ h.leaveStandstill.ValvesShown := by
  rw [Hub.leaveStandstill_of_standing hs]
  generalize hstart : ((h.onSensing fun u => { u with standstill := .no }).raise .standstill 0 2) = g
  have hlevel : g.level = h.level := by rw [← hstart]; rfl
  have hkneel : g.kneel = h.kneel := by rw [← hstart]; rfl
  have hstore : g.store = h.store := by rw [← hstart]; rfl
  have gk : g.Kneeling := by unfold Hub.Kneeling; rw [hkneel]; exact hk
  obtain ⟨hstopped, -⟩ := Hub.stopKneel_level gk .standstill none
  have hshown := Hub.stopKneel_shown gk .standstill none
  obtain ⟨fkneel, flevel, fbody⟩ := Hub.foldl_withdrawByMotion_stopped (h := g.stopKneel .standstill none)
    (congrArg Kneel.state hstopped)
  refine ⟨g, hlevel, hkneel, hstore, ?_, ?_, ?_⟩
  · simpa using flevel
  · simpa using fkneel
  · exact hshown.of_core (by simp [flevel]) (by simpa using fbody)

/-- A pulse stops a kneel in progress exactly where it takes standstill from TRUE (R16, R116). -/
theorem Hub.wheelPulse_effect {h : Hub} (hu : h.level.Inv) (hk : h.Kneeling) (dir : Direction) :
    Hub.StopEffect (h.sensing.standstill = .yes ∧ (h.wheelPulse dir).sensing.standstill ≠ .yes) h (h.wheelPulse dir) := by
  have hstandstill : (h.wheelPulse dir).sensing.standstill =
      if 500 ≤ h.sensing.distance + h.wp then .no else h.sensing.standstill := by rw [Hub.wheelPulse_sensing]
  generalize (h.wheelPulse dir).sensing.standstill = after at hstandstill ⊢
  obtain ⟨-, -, -, clevel, ckneel, -, -⟩ := h.counted_frame dir
  have cstore : (h.counted dir).store = h.store := by simp [Hub.counted, Hub.odometry]
  have cstanding : (h.counted dir).standing = h.standing := by rw [Hub.standing, Hub.counted_sensing]; rfl
  have ck : (h.counted dir).Kneeling := by unfold Hub.Kneeling; rw [ckneel]; exact hk
  have hgoing (g : Hub) (hl : g.level = h.level) (hgk : g.kneel = h.kneel) (hm : ¬(h.sensing.standstill = .yes ∧ after ≠ .yes)) :
      Hub.StopEffect (h.sensing.standstill = .yes ∧ after ≠ .yes) h g :=
    Hub.stopEffect_of_going hm (fun hs => Hub.not_kneeling_of_stopped (hgk ▸ hs) hk) fun c hc => by
      rw [Hub.circuit, hl] at hc
      exact hc
  rw [Hub.wheelPulse_eq]
  by_cases hleaves : 500 ≤ h.sensing.distance + h.wp ∧ h.sensing.standstill ≠ .no
  · rw [if_pos hleaves]
    rw [if_pos hleaves.1] at hstandstill
    cases hs : h.standing with
    | true =>
      obtain ⟨g, hlevel, hkneel, hstore, ulevel, ukneel, ushown⟩ := Hub.leaveStandstill_stops (cstanding.trans hs) ck
      have hyes : h.sensing.standstill = .yes := beq_iff_eq.mp hs
      have hinv : (h.counted dir).leaveStandstill.level.Inv := by
        obtain ⟨gf, gserved⟩ := (Levelling.inv_iff _).mp ((hlevel.trans clevel) ▸ hu : g.level.Inv)
        obtain ⟨hform, hserved, -⟩ := Hub.stopKneel_form .standstill none gf
        rw [ulevel]
        exact (Levelling.inv_iff _).mpr ⟨hform, hserved gserved⟩
      exact Hub.stopEffect_of_motion hu hk ⟨hyes, by rw [hstandstill]; exact nofun⟩ (hlevel.trans clevel) (hkneel.trans ckneel)
        (hstore.trans cstore) ulevel ukneel hinv ushown
    | false =>
      have hno : h.sensing.standstill ≠ .yes := fun hyes => by rw [Hub.standing, hyes] at hs; exact Bool.noConfusion hs
      rw [Hub.leaveStandstill_of_unsettled (cstanding.trans hs)]
      exact hgoing _ (by simp) (by simp) fun hboth => hno hboth.1
  · rw [if_neg hleaves]
    refine hgoing _ clevel ckneel fun hboth => ?_
    have hnear : ¬500 ≤ h.sensing.distance + h.wp := fun hfar => hleaves ⟨hfar, by rw [hboth.1]; exact nofun⟩
    rw [if_neg hnear] at hstandstill
    exact hboth.2 (hstandstill.trans hboth.1)

end Sys2Proof.Machine
end

section
/-! PROOFS. A scan round under a kneel in progress: O49. -/

namespace Sys2Proof.Machine

/-! ## The first of a list in circuit order -/

theorem Circuit.find_least_of_ordered {l : List Circuit} (hl : l.Pairwise fun a b => a.num < b.num) {p : Circuit → Bool} {x y : Circuit}
    (hx : l.find? p = some x) (hy : y ∈ l) (hp : p y = true) : x.num ≤ y.num := by
  induction l with
  | nil => exact nomatch hx
  | cons a l ih =>
    obtain ⟨ha, hl⟩ := List.pairwise_cons.mp hl
    cases hpa : p a with
    | true =>
      rw [List.find?_cons_of_pos hpa] at hx
      obtain rfl := Option.some.inj hx
      rcases List.mem_cons.mp hy with rfl | hmem
      · exact Nat.le_refl _
      · exact Nat.le_of_lt (ha y hmem)
    | false =>
      rw [List.find?_cons_of_neg (by rw [hpa]; exact Bool.false_ne_true)] at hx
      rcases List.mem_cons.mp hy with rfl | hmem
      · exact Bool.noConfusion (hpa.symm.trans hp)
      · exact ih hl hx hmem

theorem Circuit.all_ordered : Circuit.all.Pairwise fun a b => a.num < b.num := by decide

/-- The circuit a stop by exclusion names determines the first one handed over. -/
theorem Hub.kneelAfter_inj {h : Hub} (hk : h.Kneeling) {first : Option Circuit} {x : Circuit}
    (hx : h.kneelAfter first = h.kneelAfter (some x)) : first = some x := by
  cases first with
  | none => exact absurd hk (Hub.not_kneeling_of_stopped (congrArg Kneel.state hx))
  | some y => exact congrArg Kneel.circuit hx

/-! ## The reservoir's judgement (R99, R100) -/

theorem Hub.foldl_backToQueue_circuit (l : List HeldSlot) (h : Hub) (c : Circuit) : (l.foldl Hub.backToQueue h).circuit c =
    if l.any (fun x => x.circuit == c) = true then { h.circuit c with action := .fillWait } else h.circuit c := by
  induction l generalizing h with
  | nil => rfl
  | cons x l ih =>
    have hone : (h.backToQueue x).circuit c = if c = x.circuit then { h.circuit c with action := .fillWait } else h.circuit c := by
      rw [Hub.backToQueue, Hub.setAction_circuit]
      split
      · next heq => rw [heq]; rfl
      · rfl
    rw [List.foldl_cons, ih, hone, List.any_cons]
    by_cases hc : c = x.circuit
    · subst hc
      simp
    · simp [hc, Ne.symm hc]

/-- A cut that begins or lifts moves circuits between FILL and FILL_WAIT alone, and leaves the hold reasons; else circuits,
slots and queue stay (R97, R99, R100). -/
structure Hub.CutMoves (h g : Hub) : Prop where
  kept     : g.level.cut = h.level.cut → g.level.slots = h.level.slots ∧ g.level.queue = h.level.queue ∧
    ∀ c, g.circuit c = h.circuit c
  reason   : ∀ c, (g.circuit c).reason = (h.circuit c).reason
  still    : ∀ c, (h.circuit c).action ≠ .fill → (h.circuit c).action ≠ .fillWait → g.circuit c = h.circuit c
  excluded : ∀ c, (g.circuit c).action = .excluded → (h.circuit c).action = .excluded

theorem Hub.cutMoves_of_same {h g : Hub} (hs : g.level.slots = h.level.slots) (hq : g.level.queue = h.level.queue)
    (hc : ∀ c, g.circuit c = h.circuit c) : h.CutMoves g :=
  ⟨fun _ => ⟨hs, hq, hc⟩, fun c => by rw [hc], fun c _ _ => hc c, fun c hx => by rwa [hc] at hx⟩

theorem Hub.cutMoves_beginCut {h : Hub} (hf : h.level.Form) (cause : CutCause) (hno : h.level.cut = false) :
    h.CutMoves (h.beginCut cause) := by
  obtain ⟨hyes, -⟩ := h.beginCut_spec cause
  have hcircuit (c : Circuit) : (h.beginCut cause).circuit c = if h.level.latestFirst.any (fun x => x.circuit == c) = true then
      { h.circuit c with action := .fillWait } else h.circuit c :=
    Hub.foldl_backToQueue_circuit h.level.latestFirst (h.onLevel fun u => { u with cut := true, cutCause := cause }) c
  generalize h.beginCut cause = g at hyes hcircuit ⊢
  refine ⟨fun hcut => Bool.noConfusion (hno.symm.trans (hcut.symm.trans hyes)), fun c => ?_, fun c hfill _ => ?_, fun c hx => ?_⟩
  · rw [hcircuit]
    split <;> rfl
  · rw [hcircuit]
    refine if_neg fun hany => ?_
    obtain ⟨x, hmem, hxc⟩ := List.any_eq_true.mp hany
    obtain ⟨i, hi⟩ := Levelling.mem_latestFirst.mp hmem
    obtain rfl := beq_iff_eq.mp hxc
    exact hfill (hf.agrees.filling hi)
  · rw [hcircuit] at hx
    split at hx
    · exact Action.noConfusion hx
    · exact hx

theorem Hub.cutMoves_lift {h : Hub} (hf : h.level.Form) (hyes : h.level.cut = true) :
    h.CutMoves (h.onLevel fun u => { u with cut := false }).grant.writeValves := by
  have hgr := (h.onLevel fun u => { u with cut := false }).grant_granted
  have hagrees : (h.onLevel fun u => { u with cut := false }).level.Agrees := ⟨hf.agrees.holds, hf.agrees.waits, hf.agrees.ordered⟩
  have hlifted : (h.onLevel fun u => { u with cut := false }).grant.writeValves.level.cut = false := by simp
  exact ⟨fun hkept => Bool.noConfusion (hlifted.symm.trans (hkept.trans hyes)), hgr.reason, fun c _ hwait => hgr.still hagrees hwait,
    fun c hx => (hgr.excluded hagrees c).mp hx⟩

theorem Hub.judgeReservoir_moves (old : Single) {h : Hub} (hf : h.level.Form) : h.CutMoves (h.judgeReservoir old) := by
  have hkept : h.CutMoves h := Hub.cutMoves_of_same rfl rfl fun _ => rfl
  have hcause (cause : CutCause) : h.CutMoves (h.onLevel fun u => { u with cutCause := cause }) :=
    Hub.cutMoves_of_same rfl rfl fun _ => rfl
  have hraised (cause : CutCause) (v : Int) : h.CutMoves ((h.onLevel fun u => { u with cutCause := cause }).raise .airLow 0 v) :=
    Hub.cutMoves_of_same rfl rfl fun _ => rfl
  unfold Hub.judgeReservoir
  extract_lets new
  split
  · next hcut =>
    split
    · split
      · exact hraised ..
      · exact hkept
    · split
      · exact Hub.cutMoves_lift hf hcut
      · split
        · exact hraised ..
        · split
          · exact hcause _
          · exact hkept
  · next hcut =>
    have hno : h.level.cut = false := by simpa using hcut
    split
    · split
      · exact hkept
      · exact Hub.cutMoves_beginCut hf _ hno
    · split
      · exact Hub.cutMoves_beginCut hf _ hno
      · exact hkept


theorem Hub.Outed.cutMoves {h g f : Hub} (hg : h.Outed g) (hc : g.CutMoves f) (hu : f.level.Inv) (hs : f.store = g.store)
    (hk : f.kneel = g.kneel) (hcut : g.level.cut = h.level.cut) : h.Outed f := by
  have hout (c : Circuit) : (f.circuit c).action = .excluded ↔ (g.circuit c).action = .excluded :=
    ⟨hc.excluded c, fun hx => by rw [hc.still c (by rw [hx]; exact nofun) (by rw [hx]; exact nofun)]; exact hx⟩
  have hnew (c : Circuit) : h.newOut f c = h.newOut g c := by
    rw [Bool.eq_iff_iff, Hub.newOut_iff, Hub.newOut_iff, hout]
  refine ⟨hu, hs.trans hg.store, fun c hx => (hout c).mpr (hg.stays c hx), fun hstop c hin => ?_, ?_, fun c hin hno => ?_,
    fun fcut gone hscope hx => ?_⟩
  · have hheld := hg.held (hk ▸ hstop) c ((Hub.inScope_of_store hs c).symm.trans hin)
    rw [hc.still c (by rcases hheld with ha | ⟨ha, -⟩ <;> rw [ha] <;> exact nofun)
      (by rcases hheld with ha | ⟨ha, -⟩ <;> rw [ha] <;> exact nofun)]
    exact hheld
  · simp only [hk, hnew]
    exact hg.kneel
  · exact (hc.reason c).trans (hg.reason c hin (hnew c ▸ hno))
  · obtain ⟨hslots, hqueue, hcircuit⟩ := hc.kept (fcut.trans hcut.symm)
    obtain ⟨n, hn⟩ := hg.narrows hcut gone hscope fun c hyes => hx c ((hnew c).trans hyes)
    exact ⟨n, hn.trans (Hub.narrows_of_same hslots hqueue fun c => by rw [hcircuit]; exact ⟨rfl, rfl⟩)⟩

/-! ## A scan round (R103, R116) -/

theorem Hub.heightsRecovered_level (cs : List Circuit) (h : Hub) : (h.heightsRecovered cs).level.slots = h.level.slots ∧
    (h.heightsRecovered cs).level.queue = h.level.queue ∧ (h.heightsRecovered cs).level.cut = h.level.cut ∧
    ∀ c, ((h.heightsRecovered cs).circuit c).action = (h.circuit c).action ∧
      ((h.heightsRecovered cs).circuit c).reason = (h.circuit c).reason := by
  have hlevel : (h.heightsRecovered cs).level = { h.level with circuits := (h.heightsRecovered cs).level.circuits } := by
    unfold Hub.heightsRecovered Hub.clearCause
    rw [Hub.foldl_onCircuit_level, Hub.foldl_onCircuit_level]
  refine ⟨by rw [hlevel], by rw [hlevel], by rw [hlevel], fun c => ?_⟩
  rw [Hub.heightsRecovered_circuit]
  split <;> exact ⟨rfl, rfl⟩

/-- Up to the reservoir's judgement: the exclusions of the lost heights, with the first in scope named (R103, R116). -/
theorem Hub.roundLevelled_outed {h : Hub} (hu : h.level.Inv) (hk : h.Kneeling) (raw : ScanResults) :
    h.Outed (h.roundLevelled raw) ∧ (h.roundLevelled raw).ValvesShown ∧
    (h.roundLevelled raw).kneel = h.kneelAfter ((h.heightsLost raw).find? fun c => h.reaches (h.heightsLost raw) c && h.inScope c) ∧
    ∀ c, h.newOut (h.roundLevelled raw) c = true → h.reaches (h.heightsLost raw) c = true := by
  obtain ⟨-, -, rlevel, rkneel, -, -, rstore⟩ := h.reported_units raw
  have rcircuit (c : Circuit) : (h.reported raw).circuit c = h.circuit c := by rw [Hub.circuit, rlevel]; rfl
  have hreported : h.Outed (h.reported raw) :=
    (Hub.Outed.refl hu hk).same (rlevel ▸ hu) rstore rkneel (fun c => by rw [rcircuit]; exact ⟨rfl, rfl⟩)
      fun _ => ⟨rfl, by rw [rlevel], by rw [rlevel]⟩
  have rk : (h.reported raw).Kneeling := by unfold Hub.Kneeling; rw [rkneel]; exact hk
  have hexcluded := hreported.exclude hk (h.heightsLost raw) (add := fun x => { x with height := true }) fun _ => rfl
  have hspec := Hub.exclude_excludes (h.heightsLost raw) (add := fun x => { x with height := true }) (fun _ => rfl)
    ((Levelling.inv_iff _).mp hreported.inv).1
  have hshown := Hub.exclude_shown (h.heightsLost raw) (fun x => { x with height := true }) (h.reported raw)
  rw [Hub.roundLevelled]
  generalize (h.reported raw).exclude (h.heightsLost raw) (fun x => { x with height := true }) = g at hexcluded hspec hshown ⊢
  obtain ⟨hslots, hqueue, hcut, hsame⟩ := g.heightsRecovered_level (h.heightsFound raw)
  obtain ⟨hinv, hvalves⟩ := Hub.heightsRecovered_inv (h.heightsFound raw) hexcluded.inv hshown
  have hstore : (g.heightsRecovered (h.heightsFound raw)).store = g.store := by simp
  have hkneel : (g.heightsRecovered (h.heightsFound raw)).kneel = g.kneel := by simp
  generalize g.heightsRecovered (h.heightsFound raw) = f at hslots hqueue hcut hsame hinv hvalves hstore hkneel ⊢
  have hreaches (c : Circuit) : (h.reported raw).reaches (h.heightsLost raw) c = h.reaches (h.heightsLost raw) c := by
    rw [Hub.reaches, rcircuit, Hub.reaches]
  refine ⟨hexcluded.same hinv hstore hkneel hsame fun fcut => ⟨hcut.symm.trans fcut, hslots, hqueue⟩, hvalves, ?_, fun c hc => ?_⟩
  · rw [hkneel, hspec.kneel rk, Hub.firstReached, Hub.kneelAfter, Hub.kneelAfter, rkneel]
    simp only [hreaches, Hub.inScope_of_store rstore]
  · obtain ⟨hin, hout⟩ := Hub.newOut_iff.mp hc
    rw [(hsame c).1, hspec.excluded, rcircuit] at hout
    exact Hub.reaches_iff.mpr ⟨hout.resolve_right hin, hin⟩

/-- A scan round stops a kneel in progress exactly where a circuit in scope becomes EXCLUDED (R103, R116). -/
theorem Hub.scanRound_effect {h : Hub} (hu : h.level.Inv) (hk : h.Kneeling) (raw : ScanResults) {moved : Prop} (hm : ¬moved) :
    Hub.StopEffect moved h (h.scanRound raw) := by
  obtain ⟨hlevelled, hvalves, hkneel, hnew⟩ := Hub.roundLevelled_outed hu hk raw
  obtain ⟨lcut, -⟩ := h.roundLevelled_cut raw
  have hmeasured := h.scanRound_circuit raw
  have hround : h.Outed (h.scanRound raw) ∧ (h.scanRound raw).ValvesShown ∧ (h.scanRound raw).kneel = (h.roundLevelled raw).kneel ∧
      ∀ c, h.newOut (h.scanRound raw) c = true → h.reaches (h.heightsLost raw) c = true := by
    rw [Hub.scanRound_eq]
    split
    · obtain ⟨hinv, hshown⟩ := Hub.judgeReservoir_inv h.sensing.reservoir hlevelled.inv hvalves
      obtain ⟨jkneel, -⟩ := (h.roundLevelled raw).judgeReservoir_lines h.sensing.reservoir
      have hmoves := Hub.judgeReservoir_moves h.sensing.reservoir ((Levelling.inv_iff _).mp hlevelled.inv).1
      have jstore : ((h.roundLevelled raw).judgeReservoir h.sensing.reservoir).store = (h.roundLevelled raw).store := by simp
      refine ⟨hlevelled.cutMoves hmoves hinv jstore jkneel lcut, hshown, jkneel, fun c hc => hnew c ?_⟩
      obtain ⟨hin, hout⟩ := Hub.newOut_iff.mp hc
      exact Hub.newOut_iff.mpr ⟨hin, hmoves.excluded c hout⟩
    · exact ⟨hlevelled, hvalves, rfl, hnew⟩
  obtain ⟨hout, hshown, hsame, hreached⟩ := hround
  refine hout.effect hk hm (fun _ => hshown) (fun c => ?_) fun x hx y hy hyout => ?_
  · have htarget := congrArg CircuitLevel.target (hmeasured c)
    have hsource := congrArg CircuitLevel.source (hmeasured c)
    refine ⟨htarget.trans ?_, hsource.trans ?_⟩ <;> (repeat' split) <;> rfl
  · have hvalve (c : Circuit) (hc : h.newOut (h.scanRound raw) c = true) : ((h.scanRound raw).circuit c).causes.valve = false := by
      have hkept : ((h.scanRound raw).circuit c).causes.valve = (h.circuit c).causes.valve := by
        refine (congrArg (fun x => x.causes.valve) (hmeasured c)).trans ?_
        (repeat' split) <;> rfl
      rw [hkept]
      refine Bool.eq_false_iff.mpr fun hyes => (Hub.newOut_iff.mp hc).1 (hu.excluded c (Causes.any_of_valve hyes))
    have hordered : (h.heightsLost raw).Pairwise fun a b => a.num < b.num := Circuit.all_ordered.filter _
    have hfirst := Hub.kneelAfter_inj hk ((hkneel.symm.trans hsame.symm).trans hx)
    have hyreached := hreached y hyout
    refine ⟨fun hyes => Bool.noConfusion ((hvalve y hyout).symm.trans hyes), fun _ => ?_⟩
    exact Circuit.find_least_of_ordered hordered hfirst (Hub.reaches_iff.mp hyreached).1 (by rw [hyreached, hy]; rfl)

end Sys2Proof.Machine
end

section
/-! PROOFS. Chain L's completion under a kneel in progress: O49. -/

namespace Sys2Proof.Machine

/-! ## One fault handed over (R103, R116, R143) -/

theorem Hub.clearCause_level (cs : List Circuit) (drop : Causes → Causes) (h : Hub) :
    (h.clearCause cs drop).level = { h.level with circuits := (h.clearCause cs drop).level.circuits } ∧
    ∀ c, ((h.clearCause cs drop).circuit c).action = (h.circuit c).action ∧
      ((h.clearCause cs drop).circuit c).reason = (h.circuit c).reason := by
  refine ⟨Hub.foldl_onCircuit_level _ cs h, fun c => ⟨Hub.clearCause_action cs drop h c, ?_⟩⟩
  exact foldl_keeps (fun g : Hub => (g.circuit c).reason) _ (fun g d => by
    rw [Hub.circuit_onCircuit]
    split
    · next heq => rw [heq]
    · rfl) _ _

/-- A fault that is set excludes its circuits; one that is cleared moves none. -/
structure Hub.Hands (cs : List Circuit) (rising : Bool) (g f : Hub) : Prop where
  store    : f.store = g.store
  inv      : f.level.Inv
  excluded : ∀ c, (f.circuit c).action = .excluded ↔ (rising = true ∧ c ∈ cs) ∨ (g.circuit c).action = .excluded
  idle     : ¬g.Kneeling → f.kneel = g.kneel
  kneel    : g.Kneeling → f.kneel = g.kneelAfter (if rising = true then g.firstReached cs else none)
  outed    : ∀ h : Hub, h.Kneeling → h.Outed g → h.Outed f
  shown    : (rising = true ∨ g.ValvesShown) → f.ValvesShown

section
variable {chain value : Nat} {cs : List Circuit} {add drop : Causes → Causes}

theorem Hub.hands_clear (hdrop : ∀ x, (drop x).any = true → x.any = true) {g : Hub} (hu : g.level.Inv) :
    Hub.Hands cs false g (g.clearCause cs drop) := by
  obtain ⟨hmoves, hslots, hqueue, -⟩ := g.moves_clearCause cs hdrop
  obtain ⟨-, hsame⟩ := g.clearCause_level cs drop
  have hinv : (g.clearCause cs drop).level.Inv := hu.of_moves hmoves hslots (hqueue ▸ .refl _)
  have hstore : (g.clearCause cs drop).store = g.store := by simp
  have hkneel : (g.clearCause cs drop).kneel = g.kneel := by simp
  refine ⟨hstore, hinv, fun c => ?_, fun _ => hkneel, fun _ => hkneel, fun h _ hg => ?_, fun hor => ?_⟩
  · rw [(hsame c).1]
    exact ⟨.inr, fun hx => hx.resolve_left nofun⟩
  · exact hg.same hinv hstore hkneel hsame fun hcut => ⟨hmoves.cut.symm.trans hcut, hslots, hqueue⟩
  · exact (hor.resolve_left nofun).clearCause cs drop

theorem Hub.hands_set (hadd : ∀ x, add (add x) = add x) {g : Hub} (hu : g.level.Inv) :
    Hub.Hands cs true g ((g.raise .chainFault chain value).exclude cs add) := by
  have hraised (h : Hub) (hg : h.Outed g) : h.Outed (g.raise .chainFault chain value) :=
    hg.same hu rfl rfl (fun _ => ⟨rfl, rfl⟩) fun hcut => ⟨hcut, rfl, rfl⟩
  have hspec := Hub.exclude_excludes cs hadd (h := g.raise .chainFault chain value) ((Levelling.inv_iff _).mp hu).1
  refine ⟨hspec.store, (Hub.exclude_inv cs hadd (h := g.raise .chainFault chain value) hu).1, fun c => ?_, hspec.idle, hspec.kneel,
    fun h hk hg => (hraised h hg).exclude hk cs hadd, fun _ => Hub.exclude_shown _ _ _⟩
  exact (hspec.excluded c).trans (or_congr_left (and_iff_right rfl).symm)

theorem Hub.hands_kept {g : Hub} (hu : g.level.Inv) : Hub.Hands cs false g g :=
  ⟨rfl, hu, fun _ => ⟨.inr, fun hx => hx.resolve_left nofun⟩, fun _ => rfl, fun _ => rfl, fun _ _ hg => hg, fun hor => hor.resolve_left nofun⟩

theorem Hub.hands_handFault (hadd : ∀ x, add (add x) = add x) (hdrop : ∀ x, (drop x).any = true → x.any = true) (old new : Bool)
    {g : Hub} (hu : g.level.Inv) :
    Hub.Hands cs (!old && new) g (g.handFault chain value (Hub.exclude cs add) (Hub.clearCause cs drop) old new) := by
  cases old <;> cases new
  case false.true => exact Hub.hands_set hadd hu
  case true.false => exact Hub.hands_clear hdrop hu
  all_goals exact Hub.hands_kept hu

end

/-! ## The valves' faults, one after the other -/

section
variable (h : Hub) (answers : PerCircuit (Option (DeviceAnswer ValveCmd Bool)))

/-- A circuit's valve fault is set by the completion (R142). -/
def Hub.valveRises (c : Circuit) : Bool := !(h.link.valves.get c).fault && ((h.valvesAnswered answers).get c).fault

theorem Hub.hands_handValve {g : Hub} (hu : g.level.Inv) (c : Circuit) :
    Hub.Hands [c] (h.valveRises answers c) g (h.handValve answers g c) :=
  Hub.hands_handFault (add := fun x => { x with valve := true }) (fun _ => rfl) (fun x => x.any_clears.1) _ _ hu

/-- The valves' faults exclude their circuits, and the first in scope that was not EXCLUDED stops a kneel. -/
structure Hub.HandsAll (l : List Circuit) (g f : Hub) : Prop where
  store    : f.store = g.store
  inv      : f.level.Inv
  excluded : ∀ c, (f.circuit c).action = .excluded ↔ (h.valveRises answers c = true ∧ c ∈ l) ∨ (g.circuit c).action = .excluded
  idle     : ¬g.Kneeling → f.kneel = g.kneel
  kneel    : g.Kneeling → f.kneel = g.kneelAfter (l.find? fun c =>
    h.valveRises answers c && !((g.circuit c).action == .excluded) && g.inScope c)
  outed    : ∀ b : Hub, b.Kneeling → b.Outed g → b.Outed f
  shown    : (∃ c ∈ l, h.valveRises answers c = true) ∨ g.ValvesShown → f.ValvesShown

theorem Hub.firstReached_single {g : Hub} {c : Circuit} : g.firstReached [c] =
    if (!((g.circuit c).action == .excluded) && g.inScope c) = true then some c else none := by
  have hreaches : g.reaches [c] c = !((g.circuit c).action == .excluded) := by
    rw [Hub.reaches, decide_eq_true List.mem_cons_self, Bool.true_and]
  rw [Hub.firstReached, List.find?_singleton, hreaches]

theorem Hub.handsAll_foldl {l : List Circuit} (hn : l.Nodup) {g : Hub} (hu : g.level.Inv) :
    h.HandsAll answers l g (l.foldl (h.handValve answers) g) := by
  induction l generalizing g with
  | nil => exact ⟨rfl, hu, fun _ => ⟨.inr, fun hx => hx.resolve_left fun hboth => nomatch hboth.2⟩, fun _ => rfl, fun _ => rfl, fun _ _ hg => hg,
      fun hor => hor.resolve_left fun ⟨_, hmem, _⟩ => nomatch hmem⟩
  | cons d l ih =>
    obtain ⟨hd, hl⟩ := List.nodup_cons.mp hn
    have hone := h.hands_handValve answers hu d
    have hrest := ih hl hone.inv
    rw [List.foldl_cons]
    generalize h.handValve answers g d = f at hone hrest ⊢
    generalize l.foldl (h.handValve answers) f = e at hrest ⊢
    refine ⟨hrest.store.trans hone.store, hrest.inv, fun c => ?_, fun hk => ?_, fun hk => ?_, fun b hb hg =>
      hrest.outed b hb (hone.outed b hb hg), fun hor => ?_⟩
    · rw [hrest.excluded, hone.excluded]
      by_cases hc : c = d
      · subst hc
        simp [hd]
      · simp [hc]
    · have hidle := hone.idle hk
      exact (hrest.idle (by unfold Hub.Kneeling at hk ⊢; rw [hidle]; exact hk)).trans hidle
    · have hkneel := hone.kneel hk
      cases hq : (h.valveRises answers d && !((g.circuit d).action == .excluded) && g.inScope d) with
      | true =>
        rw [Bool.and_assoc, Bool.and_eq_true] at hq
        rw [if_pos hq.1, Hub.firstReached_single, if_pos hq.2] at hkneel
        rw [hrest.idle (Hub.not_kneeling_of_stopped (congrArg Kneel.state hkneel)), hkneel, List.find?_cons_of_pos]
        rw [Bool.and_assoc, Bool.and_eq_true]
        exact hq
      | false =>
        have hsame : f.kneel = g.kneel := by
          rw [hkneel]
          split
          · next hrises =>
            rw [hrises, Bool.true_and] at hq
            rw [Hub.firstReached_single, hq]
            rfl
          · rfl
        have hfk : f.Kneeling := by unfold Hub.Kneeling; rw [hsame]; exact hk
        have hfind : (l.find? fun c => h.valveRises answers c && !((f.circuit c).action == .excluded) && f.inScope c) =
            l.find? fun c => h.valveRises answers c && !((g.circuit c).action == .excluded) && g.inScope c := by
          refine List.find?_congr fun c hc => ?_
          have hne : c ≠ d := fun heq => hd (heq ▸ hc)
          have hout : ((f.circuit c).action == .excluded) = ((g.circuit c).action == .excluded) := by
            rw [Bool.eq_iff_iff, beq_iff_eq, beq_iff_eq, hone.excluded]
            simp [hne]
          rw [hout, Hub.inScope_of_store hone.store]
        rw [hrest.kneel hfk, hfind, List.find?_cons_of_neg (by rw [hq]; exact Bool.false_ne_true), Hub.kneelAfter, Hub.kneelAfter, hsame]
    · refine hrest.shown ?_
      rcases hor with ⟨c, hmem, hc⟩ | hg
      · rcases List.mem_cons.mp hmem with rfl | hmem
        · exact .inr (hone.shown (.inl hc))
        · exact .inl ⟨c, hmem, hc⟩
      · exact .inr (hone.shown (.inr hg))

end


/-! ## The completion (R103, R116, R143) -/

/-- Neither an exclusion nor a clearing writes a target (R92). -/
theorem Hub.handFault_aims {chain value : Nat} {cs : List Circuit} {add drop : Causes → Causes} (hadd : ∀ x, add (add x) = add x)
    (hdrop : ∀ x, drop (drop x) = drop x) (old new : Bool) {h g : Hub} {c : Circuit}
    (hg : (g.circuit c).target = (h.circuit c).target ∧ (g.circuit c).source = (h.circuit c).source) :
    ((g.handFault chain value (Hub.exclude cs add) (Hub.clearCause cs drop) old new).circuit c).target = (h.circuit c).target ∧
    ((g.handFault chain value (Hub.exclude cs add) (Hub.clearCause cs drop) old new).circuit c).source = (h.circuit c).source := by
  refine handFault_preserves (P := fun g => (g.circuit c).target = (h.circuit c).target ∧ (g.circuit c).source = (h.circuit c).source)
    (fun g hg => ?_) (fun g hg => ?_) old new hg
  · have hkept := Hub.exclude_circuit cs hadd (g.raise .chainFault chain value) c
    refine ⟨((congrArg CircuitLevel.target hkept :).trans ?_).trans hg.1, ((congrArg CircuitLevel.source hkept :).trans ?_).trans hg.2⟩ <;>
      split <;> rfl
  · rw [Hub.clearCause, Hub.foldl_causes_circuit drop hdrop]
    split <;> exact hg

theorem Hub.completeL_aims (h : Hub) (answers : PerCircuit (Option (DeviceAnswer ValveCmd Bool))) (c : Circuit) :
    ((h.completeL answers).circuit c).target = (h.circuit c).target ∧
    ((h.completeL answers).circuit c).source = (h.circuit c).source := by
  rw [Hub.completeL_eq]
  refine Hub.handFault_aims (add := fun x => { x with chain := true }) (drop := fun x => { x with chain := false })
    (fun _ => rfl) (fun _ => rfl) _ _ ?_
  refine foldl_preserves (P := fun g => (g.circuit c).target = (h.circuit c).target ∧ (g.circuit c).source = (h.circuit c).source)
    (f := h.handValve answers) (fun g d hg => Hub.handFault_aims (add := fun x => { x with valve := true })
      (drop := fun x => { x with valve := false }) (fun _ => rfl) (fun _ => rfl) _ _ hg) _ ?_
  exact ⟨rfl, rfl⟩

/-- The causes of a circuit that a completion excludes: VALVE where its valve's fault was set (R103). -/
theorem Hub.completeL_newValve {h : Hub} (hu : h.level.Inv) (answers : PerCircuit (Option (DeviceAnswer ValveCmd Bool))) {c : Circuit}
    (hc : (h.circuit c).action ≠ .excluded) : ((h.completeL answers).circuit c).causes.valve = h.valveRises answers c := by
  have hold : (h.circuit c).causes.valve = false :=
    Bool.eq_false_iff.mpr fun hyes => hc (hu.excluded c (Causes.any_of_valve hyes))
  rw [Hub.completeL_causes, hold, Hub.valveRises]
  cases (h.link.valves.get c).fault <;> cases ((h.valvesAnswered answers).get c).fault <;> rfl

/-- A completion on chain L stops a kneel in progress exactly where a circuit in scope becomes EXCLUDED; it names the first
whose valve faulted, and without one the first that the chain's fault reached (R103, R116; log entry 11). -/
theorem Hub.completeL_effect {h : Hub} (hu : h.level.Inv) (hk : h.Kneeling)
    (answers : PerCircuit (Option (DeviceAnswer ValveCmd Bool))) {moved : Prop} (hm : ¬moved) :
    Hub.StopEffect moved h (h.completeL answers) := by
  have hmeasured (c : Circuit) : ((h.completeL answers).circuit c).target = (h.circuit c).target ∧
      ((h.completeL answers).circuit c).source = (h.circuit c).source := h.completeL_aims answers c
  have hnewValve (c : Circuit) (hc : (h.circuit c).action ≠ .excluded) := Hub.completeL_newValve hu answers hc
  generalize hstart : (h.onLink fun u => { u with valves := h.valvesAnswered answers, chainL := h.chainLAnswered answers }) = start
  have scircuit (c : Circuit) : start.circuit c = h.circuit c := by rw [← hstart]; rfl
  have sscope (c : Circuit) : start.inScope c = h.inScope c := by rw [← hstart]; rfl
  have skneel : start.kneel = h.kneel := by rw [← hstart]; rfl
  have slevel : start.level = h.level := by rw [← hstart]; rfl
  have souted : h.Outed start :=
    (Hub.Outed.refl hu hk).same (slevel ▸ hu) (by rw [← hstart]; rfl) skneel (fun c => by rw [scircuit]; exact ⟨rfl, rfl⟩)
      fun _ => ⟨rfl, by rw [slevel], by rw [slevel]⟩
  have sk : start.Kneeling := by unfold Hub.Kneeling; rw [skneel]; exact hk
  have hall := Hub.handsAll_foldl h answers (l := Circuit.all) (by decide) souted.inv
  have heq : h.completeL answers = h.handChainL answers (Circuit.all.foldl (h.handValve answers) start) := by
    rw [Hub.completeL_eq, hstart]
  rw [heq] at hmeasured hnewValve ⊢
  generalize Circuit.all.foldl (h.handValve answers) start = g at hall hmeasured hnewValve ⊢
  have hchain : Hub.Hands Circuit.all (!h.link.chainL.fault && (h.chainLAnswered answers).fault) g (h.handChainL answers g) :=
    Hub.hands_handFault (add := fun x => { x with chain := true }) (fun _ => rfl) (fun x => x.any_clears.2) _ _ hall.inv
  generalize (!h.link.chainL.fault && (h.chainLAnswered answers).fault) = rises at hchain
  generalize h.handChainL answers g = u at hchain hmeasured hnewValve ⊢
  have houted := hchain.outed h hk (hall.outed h hk souted)
  have gkneel := hall.kneel sk
  simp only [scircuit, sscope] at gkneel
  rw [Hub.kneelAfter, skneel] at gkneel
  cases hfirst : Circuit.all.find? fun c => h.valveRises answers c && !((h.circuit c).action == .excluded) && h.inScope c with
  | some z =>
    rw [hfirst] at gkneel
    have hz := List.find?_some hfirst
    simp only [Bool.and_eq_true] at hz
    obtain ⟨⟨hzrises, hzout⟩, -⟩ := hz
    have ukneel : u.kneel = h.kneelAfter (some z) :=
      (hchain.idle (Hub.not_kneeling_of_stopped (congrArg Kneel.state gkneel))).trans gkneel
    refine houted.effect hk hm (fun _ => hchain.shown (.inr (hall.shown (.inl ⟨z, Circuit.mem_all z, hzrises⟩)))) hmeasured
      fun x hx y hy hyout => ?_
    obtain rfl := Option.some.inj (Hub.kneelAfter_inj hk (ukneel.symm.trans hx))
    have hzno : (h.circuit z).action ≠ .excluded := fun hyes => by
      rw [hyes] at hzout
      exact Bool.noConfusion hzout
    have hyno := (Hub.newOut_iff.mp hyout).1
    rw [hnewValve z hzno, hnewValve y hyno, hzrises]
    refine ⟨fun _ => rfl, fun hyrises => Circuit.find_least_of_ordered Circuit.all_ordered hfirst (Circuit.mem_all y) ?_⟩
    rw [hyrises, hy, beq_false_of_ne hyno]
    rfl
  | none =>
    rw [hfirst] at gkneel
    have gk : g.Kneeling := by unfold Hub.Kneeling; rw [gkneel]; exact hk
    have ukneel := hchain.kneel gk
    rw [Hub.kneelAfter, gkneel] at ukneel
    have hnorise (c : Circuit) (hc : h.inScope c = true) (hno : (h.circuit c).action ≠ .excluded) : h.valveRises answers c = false := by
      refine Bool.eq_false_iff.mpr fun hrises => List.find?_eq_none.mp hfirst c (Circuit.mem_all c) ?_
      rw [hrises, hc, beq_false_of_ne hno]
      rfl
    refine houted.effect hk hm (fun hs => hchain.shown (.inl ?_)) hmeasured fun x hx y hy hyout => ?_
    · by_contra hno
      rw [if_neg hno] at ukneel
      have hsame : u.kneel = h.kneel := ukneel
      exact Hub.not_kneeling_of_stopped (hsame ▸ hs) hk
    · have hreached := Hub.kneelAfter_inj hk (ukneel.symm.trans hx)
      split at hreached
      · have hyno := (Hub.newOut_iff.mp hyout).1
        have hgno : (g.circuit y).action ≠ .excluded := fun hyes => by
          rcases (hall.excluded y).mp hyes with ⟨hrises, -⟩ | hout
          · exact Bool.noConfusion ((hnorise y hy hyno).symm.trans hrises)
          · exact hyno (scircuit y ▸ hout)
        rw [hnewValve y hyno, hnorise y hy hyno]
        refine ⟨nofun, fun _ => Circuit.find_least_of_ordered Circuit.all_ordered hreached (Circuit.mem_all y) ?_⟩
        rw [Hub.reaches_iff.mpr ⟨Circuit.mem_all y, hgno⟩, Hub.inScope_of_store hall.store, sscope, hy]
        rfl
      · exact nomatch hreached

end Sys2Proof.Machine
end

section
/-! PROOFS. The commands that stop no kneel, and O49. -/

namespace Sys2Proof.Machine

/-! ## Commands under which a kneel goes on -/

/-- Between two moments no kneel is stopped and no circuit becomes EXCLUDED. -/
structure Hub.GoesOn (h g : Hub) : Prop where
  kneel : h.kneel.state ≠ .stopped → g.kneel.state ≠ .stopped
  out   : ∀ c, (g.circuit c).action = .excluded → (h.circuit c).action = .excluded

namespace Hub.GoesOn
variable {h g f : Hub}

theorem refl (h : Hub) : h.GoesOn h := ⟨id, fun _ => id⟩

theorem trans (hg : h.GoesOn g) (gf : g.GoesOn f) : h.GoesOn f := ⟨gf.kneel ∘ hg.kneel, fun c hc => hg.out c (gf.out c hc)⟩

theorem of_core (hc : g.level.core = h.level.core) (hk : h.kneel.state ≠ .stopped → g.kneel.state ≠ .stopped) : h.GoesOn g :=
  ⟨hk, fun c hx => by
    have hact : (g.circuit c).action = (h.circuit c).action := (congrArg CircuitLevel.action (Levelling.core_circuit hc c) :)
    rwa [hact] at hx⟩

theorem of_turns (hc : g.level.core = h.level.core) (ht : h.Turns g) : h.GoesOn g :=
  of_core hc fun hk hs => by
    rcases ht.kneelMoves with hsame | ⟨-, hraising⟩
    · exact hk (hsame ▸ hs)
    · exact KneelState.noConfusion (hraising.symm.trans hs)

theorem of_eq (hc : g.level.core = h.level.core) (hk : g.kneel.state = h.kneel.state) : h.GoesOn g := of_core hc fun hne => hk ▸ hne

theorem order {s : Service} (hs : ∀ g : Hub, g.GoesOn (s g).1) (q : Request) (code : Byte) (c : AccessClass) (h : Hub) :
    h.GoesOn (h.order q code c s) :=
  Hub.order_preserves (P := fun g => h.GoesOn g) (fun _ _ _ _ hg => ⟨hg.kneel, hg.out⟩) (fun _ _ hg => ⟨hg.kneel, hg.out⟩) q code c
    (fun g _ hg => hg.trans (hs g)) (.refl h)

end Hub.GoesOn

theorem serveHaltOff_goesOn (h : Hub) : h.GoesOn (serveHaltOff h).1 := by
  refine .of_eq (serveHaltOff_core h).1 ?_
  unfold serveHaltOff
  (repeat' split) <;> simp

theorem serveKneel_goesOn (h : Hub) : h.GoesOn (serveKneel h).1 := by
  refine .of_core (serveKneel_core h).1 fun hk => ?_
  unfold serveKneel
  (repeat' split) <;> first | exact hk | (rw [Hub.setKneel_state]; exact nofun)

theorem serveRaise_goesOn (h : Hub) : h.GoesOn (serveRaise h).1 := by
  refine .of_core (serveRaise_core h).1 fun hk => ?_
  unfold serveRaise
  (repeat' split) <;> first | exact hk | (rw [Hub.setKneel_state]; exact nofun)

/-- A levelling period excludes no circuit and stops no kneel (R103, R113, R114). -/
theorem Hub.levellingPeriod_goesOn (h : Hub) : h.GoesOn h.levellingPeriod := by
  obtain ⟨hlow, hraise, hrest, -⟩ := h.levellingPeriod_kneel
  refine ⟨fun hk hs => ?_, fun c hc => ?_⟩
  · cases hst : h.kneel.state with
    | stopped => exact hk hst
    | lowering =>
      obtain ⟨hyes, hno⟩ := hlow hst
      by_cases hw : ∀ c, h.inScope c = true → (h.levellingPeriod.circuit c).action ≠ .excluded ∧
          ∃ e, (h.levellingPeriod.circuit c).error = some e ∧ -h.dbKneel ≤ e ∧ e ≤ h.dbKneel
      · exact KneelState.noConfusion ((hyes hw).1.symm.trans hs)
      · exact KneelState.noConfusion ((hno hw).1.symm.trans hs)
    | raising =>
      obtain ⟨hyes, hno⟩ := hraise hst
      by_cases hw : ∀ c, h.inScope c = true → (h.levellingPeriod.circuit c).action ≠ .excluded ∧
          ∃ e, (h.levellingPeriod.circuit c).error = some e ∧ -h.dbRide ≤ e ∧ e ≤ h.dbRide
      · exact KneelState.noConfusion ((hyes hw).1.symm.trans hs)
      · exact KneelState.noConfusion ((hno hw).1.symm.trans hs)
    | ride | knelt =>
      obtain ⟨hsame, -⟩ := hrest (by rw [hst]; exact nofun) (by rw [hst]; exact nofun)
      exact hk (hsame.symm.trans hs)
  · obtain ⟨haction, -⟩ := h.levellingPeriod_as_closing c
    exact Hub.excluded_of_closing (haction ▸ hc)

theorem Hub.brakePeriod_goesOn (h : Hub) : h.GoesOn h.brakePeriod := by
  have hconfirmed : h.takeDemands.setModes.runLoads.formService.GoesOn h.takeDemands.setModes.runLoads.formService.confirmHalt := by
    obtain ⟨-, -, -, hkneel, -⟩ := Hub.confirmHalt_tells h.takeDemands.setModes.runLoads.formService
    exact .of_eq (Hub.confirmHalt_core _).1 (by rw [hkneel])
  have hloads : h.GoesOn h.takeDemands.setModes.runLoads.formService := .of_eq (by simp) (by simp)
  exact (hloads.trans hconfirmed).trans (.of_eq (by simp [Hub.brakePeriod]) (by simp [Hub.brakePeriod]))

theorem Hub.storeCompletion_core (code : Byte) (depot : Bool) (h : Hub) : (h.storeCompletion code depot).level.core = h.level.core := by
  have hinstall (g : Hub) : g.installApply.level.core = g.level.core := by simp [Hub.installApply]
  unfold Hub.storeCompletion
  split
  · next r _ =>
    split
    · extract_lets pins
      have hpins : pins.level.core = h.level.core := rfl
      split
      · simpa using hpins
      · unfold Hub.completeOp
        extract_lets finished
        have hfinished : finished.1.level.core = h.level.core := by
          simp only [finished, Hub.finishWork]
          (repeat' split) <;> first | exact hpins | exact (hinstall _).trans hpins
        simpa using hfinished
    · rfl
  · rfl

/-- The load changes of the levelling unit the timer, the RIDE targets and nothing that this says (R92, R108). -/
theorem Hub.completeLoad_goesOn (levels : PerDoor DoorLevels) (h : Hub) : h.GoesOn (h.completeLoad levels) := by
  unfold Hub.completeLoad
  extract_lets loaded
  have hloaded : h.GoesOn loaded := .of_eq (by simp [loaded]) (by simp [loaded])
  have hstarted : loaded.GoesOn loaded.formAccess.startTimers.startLoads :=
    ⟨fun hk => by simpa [Hub.startTimers] using hk, fun c hc => by simpa [Hub.circuit, Hub.startTimers_level] using hc⟩
  have hformed : loaded.formAccess.startTimers.startLoads.GoesOn loaded.formAccess.startTimers.startLoads.formRideTargets :=
    .of_eq (by simp) (by simp)
  exact ((hloaded.trans hstarted).trans hformed).trans (.of_eq (by simp) (by simp))

/-- The commands that can stop a kneel (R116). -/
def stopsKneel : Instr → Bool
  | .scanRound _ | .wheelPulse _ _ | .chainRefreshComplete (.l _) => true
  | _ => false

/-- Every other command but a reset lets a kneel go on. -/
theorem Hub.after_goesOn {c : Instr} {h : Hub} (hr : resetsPart h c = false) (hc : stopsKneel c = false) (w : Between) :
    h.GoesOn (h.after w c) := by
  have hif : ∀ {b : Prop} [Decidable b] {g : Hub}, h.GoesOn g → h.GoesOn (if b then g else h) := by
    intro b _ g hg
    split
    · exact hg
    · exact .refl h
  cases c
  case powerOnReset | rstLine => exact Bool.noConfusion hr
  case scanRound | wheelPulse => exact Bool.noConfusion hc
  case hubReset q =>
    exact .of_eq (Hub.hubReset_refused_keeps (fun g => g.level.core) hr (fun _ _ _ => rfl) fun _ _ => rfl)
      (Hub.hubReset_refused_keeps (fun g => g.kneel.state) hr (fun _ _ _ => rfl) fun _ _ => rfl)
  case activeSetLoad x => exact hif ((GoesOn.of_eq (h := h) (g := h.readDepot x.depot) rfl rfl).trans (Hub.completeLoad_goesOn _ _))
  case speedTimerExpiry dir => exact hif (.of_turns (by simp) (Hub.turns_speedExpiry dir h))
  case quietTimerExpiry => exact hif (.of_turns (by simp) (Hub.turns_quietExpiry h))
  case debounceTimerExpiry d i => exact hif (.of_turns (by simp) (Hub.turns_debounceExpiry d i h))
  case brakeTimerExpiry => exact hif h.brakePeriod_goesOn
  case levellingTimerExpiry => exact hif h.levellingPeriod_goesOn
  case haltOn q => exact .order (fun g => .of_turns (serveHaltOn_core g).1 (serveHaltOn_turns g).1) q _ _ h
  case haltOff q => exact .order serveHaltOff_goesOn q _ _ h
  case release q => exact .order (fun g => .of_turns (serveRelease_core _ g).1 (serveRelease_turns _ g)) q _ _ h
  case withdraw q => exact .order (fun g => .of_turns (serveWithdraw_core _ g).1 (serveWithdraw_turns _ g)) q _ _ h
  case kneel q => exact .order serveKneel_goesOn q _ _ h
  case raise q => exact .order serveRaise_goesOn q _ _ h
  case chainRefreshComplete answers =>
    cases answers with
    | l a => exact Bool.noConfusion hc
    | b a | s a | j a => exact hif (.of_eq (by simp [Hub.chainComplete]) (by simp [Hub.chainComplete]))
  case storeReadCompletion | storeWriteCompletion | storeCloseCompletion | storeLockCompletion | blankTestCompletion
      | storeClearCompletion | applyCompletion =>
    exact .of_turns (Hub.storeCompletion_core _ _ h) (Hub.turns_storeCompletion _ _ h)
  case doorInputChange d i level =>
    simp only [Hub.after]
    split <;> exact .of_eq rfl rfl
  all_goals exact .of_eq (by simp) (by simp)

end Sys2Proof.Machine
end

section
/-! PROOFS. KNEEL and RAISE, and the entry into STOPPED: O49. -/

namespace Sys2Proof.Machine

/-- Standstill is lost between two moments (R16). -/
def Hub.Departs (h u : Hub) : Prop := h.sensing.standstill = .yes ∧ u.sensing.standstill ≠ .yes

theorem Hub.not_departs {h u : Hub} (hs : u.sensing.standstill = h.sensing.standstill) : ¬h.Departs u :=
  fun hd => hd.2 (hs.trans hd.1)

/-- What a command makes of a kneel in progress: R116, over all commands but resets. -/
theorem Hub.after_effect {c : Instr} {h : Hub} (hr : resetsPart h c = false) (hu : h.level.Inv) (hk : h.Kneeling) (w : Between) :
    Hub.StopEffect (h.Departs (h.after w c)) h (h.after w c) := by
  have hgoing {g : Hub} (hm : ¬h.Departs g) (hg : h.GoesOn g) : Hub.StopEffect (h.Departs g) h g :=
    Hub.stopEffect_of_going hm (hg.kneel fun hs => Hub.not_kneeling_of_stopped hs hk) hg.out
  have hstays : Hub.StopEffect (h.Departs h) h h := hgoing (Hub.not_departs rfl) (.refl h)
  have hstill (hw : ∀ i dir, c ≠ .wheelPulse i dir) (hq : c ≠ .quietTimerExpiry) : ¬h.Departs (h.after w c) :=
    Hub.not_departs (Hub.after_standstill hr hw hq w)
  cases hc : stopsKneel c with
  | false =>
    refine hgoing ?_ (Hub.after_goesOn hr hc w)
    by_cases hq : c = .quietTimerExpiry
    · subst hq
      simp only [Hub.after]
      split
      · exact fun hd => hd.2 (by rw [Hub.quietExpiry_sensing])
      · exact Hub.not_departs rfl
    · exact hstill (fun i dir hw => Bool.noConfusion (hc.symm.trans (congrArg stopsKneel hw))) hq
  | true =>
    cases c
    case wheelPulse i dir =>
      simp only [Hub.after]
      split
      · exact Hub.wheelPulse_effect hu hk dir
      · exact hstays
    case scanRound raw =>
      have hm := hstill nofun nofun
      simp only [Hub.after] at hm ⊢
      split
      · next hdue => exact Hub.scanRound_effect hu hk raw (by rwa [if_pos hdue] at hm)
      · exact hstays
    case chainRefreshComplete answers =>
      cases answers with
      | l a =>
        have hm := hstill nofun nofun
        simp only [Hub.after] at hm ⊢
        split
        · next hbusy => exact Hub.completeL_effect hu hk a (by rw [if_pos hbusy] at hm; exact hm)
        · exact hstays
      | b a | s a | j a => exact Bool.noConfusion hc
    all_goals exact Bool.noConfusion hc

/-- Settles O49: the orders by their refusals and their one write of targets; the entry into STOPPED by what each command
does to a kneel in progress (`Hub.after_effect`). -/
theorem kneelAndRaiseOrders : Obligations.KneelAndRaiseOrders := by
  refine ⟨fun s t c hstep hr hu hk => ?_, fun s q ha => ?_, fun s q ha => ?_⟩
  · rw [exec_eq] at hstep
    injection hstep with ht
    subst ht
    intro h u excluded gone moved
    have he : Hub.StopEffect moved h u := Hub.after_effect hr hu hk s.between
    refine ⟨he.state, fun hs => ?_⟩
    obtain ⟨hbefore, hcount⟩ := he.before hs
    refine ⟨hbefore, hcount, he.motion hs, he.named hs, fun x => ?_, fun hcut => ?_⟩
    · obtain ⟨htarget, hsource⟩ := he.target hs x
      refine ⟨htarget, hsource, he.held hs x, he.reason hs x, he.away hs, (he.shown hs x).trans ?_⟩
      cases (u.circuit x).action <;> rfl
    · obtain ⟨hheld, hqueue⟩ := he.queue hs hcut
      exact ⟨hheld, (he.inv hs).served, hqueue⟩
  · intro h refused resting excluded
    have hstanding : h.standing = true ↔ h.sensing.standstill = .yes := beq_iff_eq
    refine ⟨exec_kneel_resting ha, fun hk hs => ?_, fun hk hs hh => ?_, fun c hk hs hh hc hmin => ?_, fun hk hs hh hno => ?_⟩
    · exact (exec_kneel_refused ha hk).1 (Bool.eq_false_iff.mpr fun hyes => hs (hstanding.mp hyes))
    · exact (exec_kneel_refused ha hk).2.1 (hstanding.mpr hs) hh
    · exact (exec_kneel_refused ha hk).2.2 (hstanding.mpr hs) hh c (Hub.excludedInScope_some hc hmin)
    · exact exec_kneel_starts ha hk (hstanding.mpr hs) hh (Hub.excludedInScope_none hno)
  · exact ⟨exec_raise_resting ha, exec_raise_starts ha⟩

end Sys2Proof.Machine
end
